-- ==== Sys2Proof/Word.lean ====
section
/-! DEFINITION. The words, samples and levels every block shares (00_scope.md, Conventions), and the
index types of the things the manual numbers. -/

namespace Sys2Proof

/-- A 32-bit word of show memory, of a register or of a link. -/
abbrev Word := BitVec 32

abbrev Byte := BitVec 8

/-- A 24-bit two's complement sample (00, Samples). -/
abbrev Sample := BitVec 24

/-- A level: a whole number of steps, or OFF (00, Levels, steps and OFF). -/
inductive Level where
  | off
  | steps (n : Int)
  deriving DecidableEq, Repr, Inhabited

abbrev Link := Fin 4
abbrev Channel := Fin 64
abbrev RoleId := Fin 96
abbrev TapId := Fin 4
abbrev VoiceId := Fin 16
abbrev GroupId := Fin 16
abbrev SendId := Fin 1024
abbrev MixId := Fin 40
abbrev ZoneId := Fin 24
abbrev PageId := Fin 4
abbrev CallId := Fin 16
abbrev SlotId := Fin 16
abbrev CellId := Fin 12
/-- A place of the fade table (R102). -/
abbrev RecId := Fin 128
abbrev LineId := Fin 4
/-- A source of stage B: roles 0 to 95, voices 96 to 111 (00, Source indices). -/
abbrev SourceId := Fin 112

/-- The kinds of element a cue move or a request may name (00, Element references). -/
inductive ElemKind where
  | role | voice | group | send | master | zone
  deriving DecidableEq, Repr, Inhabited

/-- An element of the level store; tap levels have no kind of their own (00, Element references). -/
inductive Elem where
  | role (r : RoleId)
  | voice (v : VoiceId)
  | group (g : GroupId)
  | send (i : SendId)
  | master (m : MixId)
  | zone (z : ZoneId)
  | tap (r : RoleId) (t : TapId)
  deriving DecidableEq, Repr, Inhabited

inductive Curve where
  | steps | cut
  deriving DecidableEq, Repr, Inhabited

/-- The gates, each named by its owner's index (03, section 3.9). -/
inductive GateId where
  | supervision (c : Channel)
  | mixHold (m : MixId)
  | relayHold (z : ZoneId)
  | pageHold (z : ZoneId)
  | duck (z : ZoneId)
  deriving DecidableEq, Repr

/-- The sizes of show memory that start-up can find (R175). -/
inductive DramSize where
  | mib1 | mib2 | mib4
  deriving DecidableEq, Repr

/-- The address of a host read: of a word of show memory, or of a register, by the select line that opens the
window (11, section 11.1). -/
inductive WindowAddr where
  | memory (a : BitVec 22)
  | register (a : BitVec 22)
  deriving DecidableEq, Repr

/-- An element reference as a request's arguments carry it: `none` is a kind code outside the six. -/
structure ElemRef where
  kind : Option ElemKind
  index : Nat
  deriving DecidableEq, Repr, Inhabited

inductive SourceKind where
  | channel | voice
  deriving DecidableEq, Repr, Inhabited

/-- A page source as PAGE_OPEN's argument carries it (R152): `none` is a kind that is neither. -/
structure SourceRef where
  kind : Option SourceKind
  index : Nat
  deriving DecidableEq, Repr, Inhabited

end Sys2Proof
end

