-- ==== Sys2Proof/Syntax.lean ====
section
/-! DEFINITION. The commands: one constructor for each row of spec/opcode_table.json, in the table's
order. The table gives no operands; those here are what the row's rule reads from outside (log 1). -/

namespace Sys2Proof

inductive Instr where
  /-- LINK_FRAME: a stage link has completed this frame of eighteen words (R6, R7). -/
  | linkFrame (link : Link) (words : Vector Word 18)
  | receiverLocked (link : Link)
  | receiverUnlocked (link : Link)
  | wclkFallback
  | wclkReturn
  | channelPresentFalse (ch : Channel)
  | channelPresentTrue (ch : Channel)
  | confirmExpiry (ch : Channel)
  | holdTimerExpiry (ch : Channel)
  | batteryLowEdge (ch : Channel)
  | gateRampEnd (gate : GateId)
  | holdAccepted (line : LineId)
  | lineGo
  | triggerEdge (line : LineId)
  | guardExpiry
  | followExpiry
  | cueFiring
  | delayExpiry (rec : RecId)
  | fadeComplete (rec : RecId)
  | burstArrival (voice : VoiceId)
  | endOfSound (voice : VoiceId)
  | stabilityWindowExpiry (zone : ZoneId)
  | ampOkTrue (zone : ZoneId)
  | sampleWindowExpiry (zone : ZoneId)
  | ampDrop (zone : ZoneId)
  | idleTimerExpiry (zone : ZoneId)
  | pageLimitExpiry (page : PageId)
  | secondRollover
  | patienceExpiry (call : CallId)
  /-- CELL_RETURN: a host write of `data` to word `word` (0 to 7) of a capture cell (R169). -/
  | cellReturn (cell : CellId) (word : Fin 8) (data : Word)
  | mirrorTick
  | metersTick
  | memoryGrant
  | writeBurstWritten
  /-- HOST_READ: a host read of either window (R175, R191; log 26). -/
  | hostRead (addr : WindowAddr)
  | hostWrite (addr : BitVec 22) (data : Word)
  | slotPost (slot : SlotId)
  | slotWithdraw (slot : SlotId)
  | slotReturn (slot : SlotId)
  | slotTake
  | requestDispatch
  | loadShow
  | loadRefused
  | install
  | stopShow
  | go
  | goTo (n : Nat)
  | pause
  | resume
  | completeAll
  | setLevel (elem : ElemRef) (value : BitVec 16) (time : Nat) (curve : Option Curve)
  | swapTap (role tap time : Nat)
  | voiceStart (voice sound : Nat) (level : BitVec 16) (loop : Bool)
  | voiceStop (voice time : Nat)
  | relay (group : Nat) (switch : Option Bool)
  | clearZoneFault (group : Nat)
  | pageOpen (group : Nat) (source : SourceRef) (priority : Nat) (level : BitVec 16)
  | pageClose (page : Nat)
  | callNow (call : Nat)
  | setTime (day hours minutes seconds : Nat)
  | lock (level : Nat)
  | unlock
  | captureNow (word0 word1 : Word)
  | noticeWrite (value : Word)
  | noticeMaskWrite (value : Word)
  | portReset
  | fullReset
  /-- REGISTER_WRITE_IGNORED: a host write of `value` at `offset` of the register window (R191). -/
  | registerWriteIgnored (offset : BitVec 22) (value : Word)
  | rstlHeld1ms
  | rstlHeld20ms
  | rstlRelease
  /-- START_UP: the DRAM's size identification reads `size` (R175, R190). -/
  | startUp (size : DramSize)
  /-- SAMPLE_FRAME: the frame in progress is formed and sent, and the next begins, at which the GO
  line reads `go` and TRIG0 to TRIG3 read `trig` (R50, R89, R92). -/
  | sampleFrame (go : Bool) (trig : BitVec 4)
  /-- MILLISECOND_TICK: at this tick HOLD0 to HOLD3 read `hold` and AMP_OK0 to AMP_OK23 read
  `ampOk` (R69, R139). -/
  | millisecondTick (hold : BitVec 4) (ampOk : BitVec 24)
  /-- WCLK_PRESENCE_JUDGEMENT: the lengths, in nanoseconds, of the WCLK periods that ended in this
  millisecond of the internal reference (R2; log 42). -/
  | wclkPresenceJudgement (periods : List Nat)
  | frameClockRealignment
  deriving DecidableEq, Repr

end Sys2Proof
end

