-- ==== Sys2Proof/Config.lean ====
section
/-! DEFINITION. What the manual fixes by number, what it names without a number, and what it leaves
to the implementation: the named values of the chapters, the record fields whose bit places R191 does
not give (free decoders, log 8), the codes it does not number (free constants, log 9), and the other
free values. A free value has no body: nothing can be proved about which value it is. -/

namespace Sys2Proof

/-! ## Named values -/

inductive EngineState where
  | stopped | loading | loaded
  deriving DecidableEq, Repr, Inhabited

inductive LockLevel where
  | off | soft | hard
  deriving DecidableEq, Repr, Inhabited

inductive ClockSource where
  | internal | wclk
  deriving DecidableEq, Repr, Inhabited

/-- R12 to R15. -/
inductive ChannelState where
  | unused | live | suspect | lost | returning
  deriving DecidableEq, Repr, Inhabited

/-- R17: why a channel entered LOST. -/
inductive LossCause where
  | confirm | returnDrop | link
  deriving DecidableEq, Repr, Inhabited

/-- R25. -/
inductive TapState where
  | idle | active | fadingIn | fadingOut
  deriving DecidableEq, Repr, Inhabited

inductive MixKind where
  | house | foldback | relay
  deriving DecidableEq, Repr, Inhabited

/-- R78; a LINE trigger carries its line. -/
inductive Trigger where
  | go | followStart | followComplete | line (t : LineId)
  deriving DecidableEq, Repr, Inhabited

/-- R120. -/
inductive VoiceState where
  | idle | priming | primed | playing | stopping
  deriving DecidableEq, Repr, Inhabited

/-- R134. -/
inductive ZoneState where
  | off | powering | checking | live | fault
  deriving DecidableEq, Repr, Inhabited

inductive ZoneFaultCause where
  | sampleTimeout | ampDrop
  deriving DecidableEq, Repr, Inhabited

inductive PageState where
  | opened | live
  deriving DecidableEq, Repr, Inhabited

/-- R154. -/
inductive CloseReason where
  | closed | voiceEnd | preempted | noZones | limit | call | stopped
  deriving DecidableEq, Repr, Inhabited

inductive CallPhase where
  | waitVoice | waitZones | playing
  deriving DecidableEq, Repr, Inhabited

/-- R163. -/
inductive MissReason where
  | voiceBusy | sound | noZone | busy | pageClosed | voiceLost
  deriving DecidableEq, Repr, Inhabited

inductive MaskLevel where
  | everyMinute | every10Min | everyHour | everyDay | everyWeek
  deriving DecidableEq, Repr, Inhabited

/-- The outcomes captured in the GO and TRIGGER cells (R97). -/
inductive LineOutcome where
  | fired | ended | paused | notStandby | notReady
  deriving DecidableEq, Repr, Inhabited

/-- The kinds of a voice's owner, of a taken-over record's owner and of a page's opener. -/
inductive OwnerKind where
  | none | cue | request | call
  deriving DecidableEq, Repr, Inhabited

/-- R114, R129: how a level was set or a stop made. -/
inductive SetHow where
  | fading | set | full | none
  deriving DecidableEq, Repr, Inhabited

/-- The arguments and conditions a refusal's word 0 may name (R122, R150, R152, R182). -/
inductive RefusedFor where
  | voice | soundUnknown | soundEmpty
  | day | hours | minutes | seconds
  | group | source | priority
  | cues | voices | pages | calls
  deriving DecidableEq, Repr, Inhabited

/-- The table kinds in R183's order; result word 0 of BAD_TABLE counts them from 0. -/
inductive TableKind where
  | directory | region | channel | role | mix | send | group | outputMap | zone | call | cue | move
  deriving DecidableEq, Repr, Inhabited

/-- R181. -/
inductive ResultCode where
  | ok | badKind | badArgument | notLoaded | busy | noCue | paused | guarded | locked | conflict
  | noZone | badTable
  deriving DecidableEq, Repr, Inhabited

/-- R191, FAULT_INFO. -/
inductive FaultCause where
  | none | regionReadonly | locked | loadHeld | slateState | slateBusySlot | cellState | outOfRange
  deriving DecidableEq, Repr, Inhabited

/-- The slots' states, in the order of their codes (R191). -/
inductive SlotState where
  | empty | posted | taken | done | refused
  deriving DecidableEq, Repr, Inhabited

/-! ## Free values -/

/-- The named values that a result word or a capture detail carries and whose number R191 does not
give. A name with a number of its own in the manual (engine states, result codes, 4 for no page) is
not among them. -/
inductive NamedWord where
  | channelState (s : ChannelState)
  | noTap
  | noCue
  | setHow (h : SetHow)
  | owner (k : OwnerKind)
  | voiceState (s : VoiceState)
  | looping (inEffect : Bool)
  | refusedFor (r : RefusedFor)
  | pageState (s : PageState)
  | phase (p : Option CallPhase)
  | missReason (r : Option MissReason)
  | callOutcome (cut : Bool)
  | lineOutcome (o : LineOutcome)
  | inputEvent (battery : Bool)
  | lossCause (c : Option LossCause)
  | zoneCause (c : ZoneFaultCause)
  | zoneState (s : ZoneState)
  | cueForced (crushed : Bool)
  | sourceKind (k : SourceKind)
  | startedBy (callNow : Bool)
  deriving DecidableEq, Repr

/-- The code of a named value the manual does not number (log 9). -/
opaque Config.code : NamedWord → Word

/-- A level as a result word carries it (log 10). -/
opaque Config.levelWord : Level → Word

/-- What a byte of DRAM that nothing has written holds (log 12). -/
opaque Config.dramByte : Nat → Byte

/-- How a level fills its word of the levels area of the mirror (log 13). -/
opaque Config.mirrorLevel : Level → Word

/-- A burst's place in the mirror region: where it begins, in bytes from the mirror base, and its length
in words. -/
structure MirrorPlace where
  first : Nat
  length : Nat
  deriving DecidableEq, Repr, Inhabited

/-- Where the areas lie in the mirror region, area by area in the order of the area table: the bursts of
an area's data, and the word of its update count (R172). -/
structure MirrorLayout where
  data : Vector (List MirrorPlace) 11
  count : Vector Nat 11
  deriving DecidableEq, Repr, Inhabited

/-- The layout of the mirror at a base, which the manual does not give (log 14). What it may be is
checked where it is used. -/
opaque Config.mirrorLayout : Nat → MirrorLayout

/-- Result word 1 of a load refused because the cue list has no sound record (R80; log 23). -/
opaque Config.noCueIndex : Word

/-- What a result word holds that the request's rule does not give: a free value for each answer and
word (log 39). -/
opaque Config.restWord : Nat → Nat → Word

/-- The element an argument word of SET_LEVEL names (log 11). -/
opaque Config.elemArg : Word → ElemRef

/-- The source an argument word of PAGE_OPEN names (log 11). -/
opaque Config.sourceArg : Word → SourceRef

/-! ## Records whose layout R191 does not give: their fields as read, before any check or clamp -/

structure RawChannel where
  used : Bool
  autoMute : Bool
  ramp : Nat
  confirm : Nat
  hold : Nat
  lossMask : Bool
  batteryMask : Bool
  deriving DecidableEq, Repr, Inhabited

structure RawRole where
  taps : Vector (Option Nat) 4
  initial : Option Nat
  level : BitVec 16
  group : Option Nat
  autoSpare : Bool
  spareTime : Nat
  deriving DecidableEq, Repr, Inhabited

structure RawMix where
  kind : Option MixKind
  master : BitVec 16
  ceiling : BitVec 16
  holdMask : BitVec 4
  holdRamp : Nat
  first : Nat
  count : Nat
  deriving DecidableEq, Repr, Inhabited

structure RawSend where
  mix : Option Nat
  source : Nat
  level : BitVec 16
  on : Bool
  deriving DecidableEq, Repr, Inhabited

/-- An output map word: NONE, a mix, a zone, or none of these (R67). -/
inductive RawOutput where
  | none | mix (n : Nat) | zone (n : Nat) | other
  deriving DecidableEq, Repr, Inhabited

structure RawZone where
  relayMix : Option Nat
  relayLevel : BitVec 16
  relayFlag : Bool
  duckDepth : Nat
  duckRamp : Nat
  holdMask : BitVec 4
  holdRamp : Nat
  stability : BitVec 8
  sample : BitVec 8
  idle : BitVec 8
  faultMask : Bool
  deriving DecidableEq, Repr, Inhabited

structure RawCall where
  enabled : Bool
  day : Nat
  hours : Nat
  minutes : Nat
  seconds : Nat
  maskLevel : Option MaskLevel
  group : Nat
  sound : Nat
  voice : Nat
  level : BitVec 16
  priority : Fin 4
  repeatCount : BitVec 8
  chime : Bool
  patience : Nat
  deriving DecidableEq, Repr, Inhabited

structure RawSound where
  start : Nat
  count : Nat
  loopStart : Option Nat
  loopEnd : Option Nat
  deriving DecidableEq, Repr, Inhabited

opaque Config.channelRecord : Vector Word 2 → RawChannel
opaque Config.roleRecord : Vector Word 4 → RawRole
opaque Config.mixRecord : Vector Word 4 → RawMix
opaque Config.sendRecord : Vector Word 2 → RawSend
opaque Config.voiceGroupWord : Word → Option Nat
opaque Config.outputWord : Word → RawOutput
opaque Config.zoneRecord : Vector Word 4 → RawZone
opaque Config.callRecord : Vector Word 4 → RawCall
opaque Config.soundRecord : Vector Word 4 → RawSound

end Sys2Proof
end

