-- ==== Sys2Proof/Machine/State.lean ====
section
/-! DEFINITION. The state of the WZ6420 as plain data, and its value in a full reset. Each structure
is one block of the block table of 00_scope.md; its docstring cites the rule that lists its items. -/

namespace Sys2Proof.Machine

/-! ## Shared records -/

/-- R149. -/
structure TimeOfDay where
  day : Nat
  hours : Nat
  minutes : Nat
  seconds : Nat
  ms : Nat
  deriving DecidableEq, Repr, Inhabited

/-- A ramp in progress: start, target, e and T of the fade law, in frames (R54). -/
structure Ramp where
  start : Int
  target : Int
  elapsed : Nat
  frames : Nat
  deriving DecidableEq, Repr, Inhabited

/-- A gate: its value, and its ramp or rest (R54). -/
structure Gate where
  value : Level
  ramp : Option Ramp
  deriving DecidableEq, Repr, Inhabited

/-- A firing of a cue: number and serial (R85). -/
structure FiringId where
  number : Nat
  serial : Nat
  deriving DecidableEq, Repr, Inhabited

/-- Show memory: written bytes by address, addresses strictly rising. -/
abbrev Memory := List Host.Cell

/-! ## Frame clock, resets -/

/-- R188: `high` also covers a low period that has not lasted 1 ms. -/
inductive RstlState where
  | high | low1ms | low20ms
  deriving DecidableEq, Repr, Inhabited

/-- A full reset lasts until start-up has ended it (R188, R190). -/
inductive Phase where
  | running | fullReset
  deriving DecidableEq, Repr, Inhabited

/-- R1 to R5 (log 59). `presentRun` is how long WCLK has been present, up to 1000 ms (R3), `returnRun` the run
toward a return, which an install that selects INTERNAL ends (R5). `coasting`: a frame is being timed
from the internal reference while WCLK is in use, or the realignment of a return is awaited.
`sinceTick`, `ticks`: frames begun since the last tick, of which the 48th awaits its tick, and ticks
since start-up modulo 100. `tickOpen`: the frame in progress holds a millisecond tick. -/
structure Clock where
  inUse : ClockSource
  present : Bool
  absentRun : Nat
  presentRun : Nat
  returnRun : Nat
  coasting : Bool
  sinceTick : Nat
  ticks : Nat
  tickOpen : Bool
  deriving DecidableEq, Repr, Inhabited

/-! ## Stage links and channels -/

/-- The audio slots and the status word of a link frame (R6). -/
structure LinkFrame where
  slots : Vector Sample 16
  status : Word
  deriving DecidableEq, Repr, Inhabited

/-- R7 to R9. `incoming` is the last good frame, presented when the receiver locks; `completed` says a
frame has completed in the present frame of the sample clock. -/
structure Receiver where
  locked : Bool
  good : Nat
  bad : Nat
  ref : Option (BitVec 8)
  presented : LinkFrame
  incoming : LinkFrame
  completed : Bool
  deriving DecidableEq, Repr, Inhabited

/-- A record of the channel table (01, section 1.4); `hold` counts 10 ms. -/
structure ChannelCfg where
  used : Bool
  autoMute : Bool
  ramp : Fin 4
  confirm : Nat
  hold : Nat
  lossMask : Bool
  batteryMask : Bool
  deriving DecidableEq, Repr, Inhabited

/-- R12 to R18. `timer` is what the confirm or hold timer has left, in frames (R1). `present`, `battery`
and `sample` are what is read of the presented frame at this frame of the sample clock (R8); `edge` is a
low-battery edge seen at it and not yet reported. -/
structure ChannelRec where
  cfg : ChannelCfg
  state : ChannelState
  timer : Option Nat
  gate : Gate
  present : Bool
  battery : Bool
  sample : Sample
  edge : Bool
  deriving DecidableEq, Repr, Inhabited

/-! ## Cast block -/

/-- R21. -/
structure RoleCfg where
  taps : Vector (Option Channel) 4
  initial : Option TapId
  level : Level
  group : Option GroupId
  autoSpare : Bool
  spareTime : Nat
  deriving DecidableEq, Repr, Inhabited

/-- R21, R24, R43. -/
structure Role where
  cfg : RoleCfg
  taps : Vector TapState 4
  unavailable : Nat
  clips : Nat
  deriving DecidableEq, Repr, Inhabited

/-! ## Level store -/

structure Levels where
  role : Vector Level 96
  voice : Vector Level 16
  group : Vector Level 16
  send : Vector Level 1024
  master : Vector Level 40
  zone : Vector Level 24
  tap : Vector (Vector Level 4) 96
  deriving DecidableEq, Repr, Inhabited

/-! ## Mix engine -/

/-- R58. -/
structure MixCfg where
  kind : MixKind
  master : Level
  ceiling : Int
  holdMask : BitVec 4
  holdRamp : Fin 4
  first : Nat
  count : Nat
  deriving DecidableEq, Repr, Inhabited

/-- `rested` is the value at which the gate stood at rest when this frame began, if it did, and `renewed` says
that an install has commanded the gate in this frame; both are the model's own (R76; log 45). -/
structure Mix where
  cfg : MixCfg
  gate : Gate
  rested : Option Level
  renewed : Bool
  held : Bool
  clips : Nat
  deriving DecidableEq, Repr, Inhabited

/-- R59. -/
structure Send where
  mix : Option MixId
  source : SourceId
  level : Level
  on : Bool
  deriving DecidableEq, Repr, Inhabited

/-- R67. -/
inductive OutSource where
  | none | mix (m : MixId) | zone (z : ZoneId)
  deriving DecidableEq, Repr, Inhabited

/-- R69. -/
structure HoldLine where
  raw : Bool
  accepted : Bool
  run : Nat
  deriving DecidableEq, Repr, Inhabited

/-! ## Show header and tables as installed -/

/-- R191, header words. -/
structure Header where
  source : ClockSource
  guard : Nat
  ramps : Vector Nat 4
  pageLimit : Nat
  inputMask : Bool
  zoneMask : Bool
  captureMasks : BitVec 12
  callCapable : BitVec 16
  deriving DecidableEq, Repr, Inhabited

/-- The byte bases of the tables that are read while a show runs (log 17). -/
structure Tables where
  cueList : Nat
  movePool : Nat
  sounds : Nat
  deriving DecidableEq, Repr, Inhabited

/-- The region kind codes 0 to 3 (R191). -/
inductive RegionKind where
  | unused | openRegion | mirror | lockable
  deriving DecidableEq, Repr, Inhabited

structure Region where
  base : Nat
  length : Nat
  kind : RegionKind
  deriving DecidableEq, Repr, Inhabited

/-! ## Cue sequencer -/

/-- A sound cue record as read, its times clamped (R78, R191). -/
structure CueRec where
  number : Nat
  trigger : Trigger
  wait : Nat
  upTime : Nat
  downTime : Nat
  first : Nat
  count : Nat
  deriving DecidableEq, Repr, Inhabited

/-- R82: the standby cue, with its trigger, line and wait copies. -/
structure Standby where
  number : Nat
  index : Nat
  trigger : Trigger
  wait : Nat
  deriving DecidableEq, Repr, Inhabited

/-- R85. `placing` is set while the firing itself is at work (R83): its completion is judged at
step 6 alone. -/
structure RunEntry where
  id : FiringId
  fireTime : TimeOfDay
  pending : Nat
  crushed : Nat
  failed : Nat
  forced : Bool
  placing : Bool
  deriving DecidableEq, Repr, Inhabited

/-- R87, the last completed cue. -/
structure Completed where
  id : FiringId
  crushed : Nat
  failed : Nat
  forced : Bool
  deriving DecidableEq, Repr, Inhabited

/-- What fires a cue (R83). -/
inductive FireCause where
  | lineGo | goRequest | follow | trigger (t : LineId)
  deriving DecidableEq, Repr, Inhabited

/-- A firing that waits for its reads; `view` is show memory as the reads found it (R83, log 16). -/
structure Firing where
  cause : FireCause
  view : Option Memory
  deriving DecidableEq, Repr, Inhabited

/-- R82 to R89, R92, R94. `goEdges`, `trigEdges` count edges seen and not yet taken (log 33). -/
structure Seq where
  standby : Option Standby
  parent : Option FiringId
  follow : Option Nat
  running : List RunEntry
  nextSerial : Nat
  pause : Bool
  guard : Option Nat
  guarded : Nat
  last : Option Completed
  firing : Option Firing
  goLevel : Option Bool
  trigLevel : Option (BitVec 4)
  goEdges : Nat
  trigEdges : Vector Nat 4
  deriving DecidableEq, Repr, Inhabited

/-! ## Fade engine -/

inductive Owner where
  | firing (id : FiringId) | request | cast
  deriving DecidableEq, Repr, Inhabited

/-- R102: what a record does. -/
inductive Content where
  | level (elem : Elem) (target : Level) (curve : Curve)
  | play (voice : VoiceId) (sound : Nat) (start : Level) (loop : Bool)
  | stop (voice : VoiceId) (time : Nat)
  | relay (group : Fin 8) (on : Bool)
  deriving DecidableEq, Repr, Inhabited

/-- R102. -/
structure FadeRec where
  fading : Bool
  owner : Owner
  content : Content
  upTime : Nat
  downTime : Nat
  ownUp : Option Nat
  ownDown : Option Nat
  runIndex : Option Nat
  delayLeft : Nat
  start : Int
  time : Nat
  elapsed : Nat
  stopMark : Option VoiceId
  deriving DecidableEq, Repr, Inhabited

/-! ## Voices -/

inductive VoiceOwner where
  | none | cue (id : FiringId) | request | call (c : CallId)
  deriving DecidableEq, Repr, Inhabited

/-- The copy of a sound record taken at a PLAY (R118, R119). -/
structure SoundCopy where
  number : Nat
  start : Nat
  count : Nat
  loopStart : Nat
  loopEnd : Nat
  looping : Bool
  deriving DecidableEq, Repr, Inhabited

/-- An outstanding burst: its first frame and its size (R119). -/
structure Fetch where
  first : Nat
  size : Nat
  deriving DecidableEq, Repr, Inhabited

/-- R119. `signal` is the voice signal of the present frame (R45); `underran` says that the frame before
was an underrun (R133). -/
structure Voice where
  state : VoiceState
  owner : VoiceOwner
  sound : SoundCopy
  playPos : Nat
  fetchPos : Nat
  buffer : List Sample
  outstanding : Option Fetch
  stopRec : Option RecId
  resume : VoiceState
  startPending : Bool
  underruns : Nat
  signal : Sample
  underran : Bool
  deriving DecidableEq, Repr, Inhabited

/-! ## Zones -/

/-- R134. -/
structure ZoneCfg where
  relayMix : Option MixId
  relayLevel : Level
  relayFlag : Bool
  duckDepth : Nat
  duckRamp : Fin 4
  holdMask : BitVec 4
  holdRamp : Fin 4
  stability : Nat
  sample : Nat
  idle : Nat
  faultMask : Bool
  deriving DecidableEq, Repr, Inhabited

/-- R134, live state; `ampOk` is AMP_OK at the last tick (R148). `timer` is what is left of a window timer
in ticks (R139), or, of a LIVE zone, of the idle timer in frames (R1, R140). -/
structure Zone where
  cfg : ZoneCfg
  state : ZoneState
  ampen : Bool
  relay : Bool
  page : Option PageId
  timer : Option Nat
  falseRun : Nat
  ampOk : Bool
  held : Bool
  duck : Gate
  relayHold : Gate
  pageHold : Gate
  clips : Nat
  faults : Nat
  deriving DecidableEq, Repr, Inhabited

/-! ## Pages and calls -/

inductive Opener where
  | request | call (c : CallId)
  deriving DecidableEq, Repr, Inhabited

inductive PageSource where
  | channel (c : Channel) | voice (v : VoiceId)
  deriving DecidableEq, Repr, Inhabited

/-- R151; `zones` has one bit for each zone held. -/
structure Page where
  state : PageState
  opener : Opener
  source : PageSource
  priority : Fin 4
  level : Level
  zones : BitVec 24
  opened : TimeOfDay
  limit : Option Nat
  deriving DecidableEq, Repr, Inhabited

/-- R151, the last-closed record. -/
structure LastClosed where
  id : PageId
  opener : Opener
  reason : CloseReason
  time : TimeOfDay
  deriving DecidableEq, Repr, Inhabited

/-- R157. -/
structure CallCfg where
  enabled : Bool
  day : Nat
  hours : Nat
  minutes : Nat
  seconds : Nat
  maskLevel : MaskLevel
  group : Fin 8
  sound : Nat
  voice : VoiceId
  level : Level
  priority : Fin 4
  repeatCount : Nat
  chime : Bool
  patience : Nat
  deriving DecidableEq, Repr, Inhabited

/-- A call instance (R157); `byCallNow` says what started it (R163). -/
structure CallInst where
  phase : CallPhase
  patience : Nat
  page : Option PageId
  started : TimeOfDay
  byCallNow : Bool
  deriving DecidableEq, Repr, Inhabited

/-- R157: the last outcome with its reason. `done cut` is DONE, with reason PAGE_CLOSED when the page
closed first (R162). -/
inductive CallOutcome where
  | none | done (pageClosed : Bool) | missed (r : MissReason) | cut
  deriving DecidableEq, Repr, Inhabited

structure Call where
  cfg : CallCfg
  enabled : Bool
  remaining : Nat
  inst : Option CallInst
  outcome : CallOutcome
  deriving DecidableEq, Repr, Inhabited

/-! ## Capture cells -/

inductive CellState where
  | empty | filling | full
  deriving DecidableEq, Repr, Inhabited

/-- R167. -/
structure Cell where
  state : CellState
  missed : Nat
  deriving DecidableEq, Repr, Inhabited

/-! ## The mirror: areas and the values handed over -/

/-- The mirror areas in the order of the area table (10, section 10.2). -/
inductive Area where
  | engine | cue | channels | roles | mixes | zones | pages | voices | levels | meters | counters
  deriving DecidableEq, Repr, Inhabited

structure ChannelView where
  state : ChannelState
  gate : Level
  battery : Bool
  deriving DecidableEq, Repr, Inhabited

structure RoleView where
  cfg : RoleCfg
  taps : Vector TapState 4
  active : Option TapId
  unavailable : Nat
  clips : Nat
  deriving DecidableEq, Repr, Inhabited

structure GateView where
  value : Level
  target : Int
  deriving DecidableEq, Repr, Inhabited

structure MixView where
  kind : MixKind
  holdMask : BitVec 4
  holdRamp : Fin 4
  held : Bool
  gate : GateView
  clips : Nat
  deriving DecidableEq, Repr, Inhabited

structure ZoneView where
  state : ZoneState
  ampen : Bool
  ampOk : Bool
  relay : Bool
  demand : Bool
  page : Option PageId
  timer : Option Nat
  held : Bool
  duck : GateView
  relayHold : GateView
  pageHold : GateView
  clips : Nat
  faults : Nat
  deriving DecidableEq, Repr, Inhabited

structure CallView where
  enabled : Bool
  remaining : Nat
  phase : Option CallPhase
  patience : Option Nat
  page : Option PageId
  outcome : CallOutcome
  deriving DecidableEq, Repr, Inhabited

structure VoiceView where
  state : VoiceState
  resume : Option VoiceState
  owner : VoiceOwner
  sound : Nat
  count : Nat
  looping : Bool
  playPos : Nat
  buffered : Nat
  underruns : Nat
  deriving DecidableEq, Repr, Inhabited

/-- The counters area (10, section 10.2). -/
structure CountersView where
  guarded : Nat
  takenOver : Nat
  inUse : Nat
  overlapped : Nat
  missedCalls : Nat
  cutCalls : Nat
  lag : Nat
  deriving DecidableEq, Repr, Inhabited

/-- What one hand-over of an area carries; a levels hand-over carries blocks of 64 values. -/
inductive AreaData where
  | engine (e : EngineState) (l : LockLevel) (src : ClockSource)
  | cue (standby : Option Standby) (parent : Option FiringId) (follow : Option Nat) (pause : Bool)
      (running : List RunEntry) (last : Option Completed)
  | channels (locks : List Bool) (chans : List ChannelView)
  | roles (rs : List RoleView) (carriers : List (Option RoleId))
  | mixes (ms : List MixView) (lines : List Bool)
  | zones (zs : List ZoneView)
  | pages (tod : TimeOfDay) (ps : List (Option Page)) (last : Option LastClosed) (cs : List CallView)
  | voices (vs : List VoiceView)
  | levels (block : Nat) (values : List Level)
  | meters (peaks : List Nat)
  | counters (c : CountersView)
  deriving DecidableEq, Repr, Inhabited

end Sys2Proof.Machine

/-- The words of a burst of an area's data, other than levels: which value lies in which word is not
given (log 13). The arguments are the data, the burst and the word. -/
opaque Sys2Proof.Config.mirrorWord : Sys2Proof.Machine.AreaData → Nat → Nat → Sys2Proof.Word

namespace Sys2Proof.Machine

/-- R172, R173: what the mirror writer keeps of an area. `last` is the data of its last accepted
hand-over, by which changes since are told. -/
structure MirrorArea where
  count : Nat
  pending : Bool
  last : Option AreaData
  deriving DecidableEq, Repr, Inhabited

/-- The last update count and the data of each burst that have been written of an area at the present
base: the model's own record of what the bytes of the mirror stand for (log 13). -/
structure AreaImage where
  count : Option Nat
  bursts : List (Nat × AreaData)
  deriving DecidableEq, Repr, Inhabited

/-- R172 to R174. `dirty`: the 64-value blocks of levels changed since the last accepted hand-over.
`levelsDue`, `metersDue`: a 20 ms or 50 ms tick has fallen and is not yet taken. `inUseChanged`: the
records in use have changed since the counters were last accepted (R117). `peaksSkip`: the meters were
accepted in this frame, and measuring begins at the next. -/
structure Mirror where
  base : Option Nat
  areas : Vector MirrorArea 11
  dirty : Vector Bool 25
  lag : Nat
  shown : Vector AreaImage 11
  levelsDue : Bool
  metersDue : Bool
  inUseChanged : Bool
  peaks : Vector Nat 128
  peaksSkip : Bool
  deriving DecidableEq, Repr, Inhabited

/-! ## Write queue, arbiter, host port, slate -/

/-- A burst of the write queue (R168, R172, R181). `cellData` also carries a missed count of 0. -/
inductive Burst where
  | slotState (slot : SlotId) (st : SlotState)
  | slotResult (slot : SlotId) (code : ResultCode) (words : Vector Word 4)
  | cellData (cell : CellId) (time : TimeOfDay) (details : List Word)
  | cellFull (cell : CellId)
  | cellMissed (cell : CellId) (n : Nat)
  | mirrorData (base : Nat) (area : Area) (index : Nat) (data : AreaData)
  | mirrorCount (base : Nat) (area : Area) (n : Nat)
  deriving DecidableEq, Repr, Inhabited

/-- The writers that hold bursts when the queue is full (R179). -/
inductive Writer where
  | slate | capture
  deriving DecidableEq, Repr, Inhabited

/-- R179. `next` is the writer whose held burst enters next; `began` says that a writer began holding in
the present event. -/
structure WriteQueue where
  queue : List Burst
  heldSlate : List Burst
  heldCapture : List Burst
  next : Writer
  began : Bool
  deriving DecidableEq, Repr, Inhabited

/-- A granted turn that has not ended: a voice fetch (with its byte address), or the head burst of the
write queue. A flushed voice's burst is `stale` (R125). -/
inductive Turn where
  | fetch (v : VoiceId) (addr : Nat) (size : Nat) (stale : Bool)
  | write
  deriving DecidableEq, Repr, Inhabited

/-- An engine read waiting for its turn (R178): a slot's words, a firing's reads, a table of a load, or a
sound record or cue search whose data were taken when it was asked for (log 15). -/
inductive EngineRead where
  | slot (s : SlotId) | firing | table (k : TableKind) | record
  deriving DecidableEq, Repr, Inhabited

/-- `hostWait` counts the turns granted to others while the host waits (R178). -/
structure Arbiter where
  busy : Option Turn
  hostWait : Nat
  reads : List EngineRead
  deriving DecidableEq, Repr, Inhabited

/-- An admitted host access that waits for its turn (R175). -/
inductive HostAccess where
  | read (addr : Nat) | write (addr : Nat) (data : Word)
  deriving DecidableEq, Repr, Inhabited

/-- How a host access ended: with ERR or ready, and the data of a read (R175). -/
structure AccessEnd where
  err : Bool
  data : Word
  deriving DecidableEq, Repr, Inhabited

/-- R175, R177, R180. The FAULT flag itself is the notice cause. `clears`: the slots whose state words a
port reset has still to write EMPTY, in the port's own turns; `held`: a host access that arrived
meanwhile and waits without ready (R189). -/
structure Port where
  waiting : Option HostAccess
  clears : List SlotId
  held : Option HostAccess
  result : AccessEnd
  view : Vector SlotState 16
  faultAddr : BitVec 22
  faultCause : FaultCause
  faultWrite : Bool
  further : Nat
  deriving DecidableEq, Repr, Inhabited

/-- The stages of the current request (R181): its words being read, read, handed to an owner that has
not yet answered, answered and being written. -/
inductive CurPhase where
  | reading | ready (kind : Word) (args : Vector Word 8) | handed | answered
  deriving DecidableEq, Repr, Inhabited

structure Current where
  slot : SlotId
  phase : CurPhase
  deriving DecidableEq, Repr, Inhabited

structure Answer where
  code : ResultCode
  words : Vector Word 4
  deriving DecidableEq, Repr, Inhabited

/-- R181; `lastAnswer` is the model's own (log 25). -/
structure Slate where
  arrival : List SlotId
  current : Option Current
  lastAnswer : Option Answer
  deriving DecidableEq, Repr, Inhabited

/-- R187: the latched causes and the mask register. -/
structure Notice where
  input : Bool
  zone : Bool
  fault : Bool
  clock : Bool
  restarted : Bool
  mask : BitVec 7
  deriving DecidableEq, Repr, Inhabited

/-! ## A load in progress -/

/-- The directory words that a load reads (R183, R191): thirteen table bases in word order, and the
mirror base. -/
structure Directory where
  bases : Vector Word 13
  mirror : Word
  deriving DecidableEq, Repr, Inhabited

/-- The staging copies of R183: what validation has checked and clamped. `cues` are the sound records of
the cue list as its check read them, by which the moves are checked (R80). -/
structure Show where
  dir : Directory
  header : Header
  regions : Vector Region 8
  channels : Vector ChannelCfg 64
  roles : Vector RoleCfg 96
  mixes : Vector MixCfg 40
  sends : Vector Send 1024
  groupLevels : Vector Level 16
  voiceGroups : Vector (Option GroupId) 16
  outMap : Vector OutSource 64
  zones : Vector ZoneCfg 24
  zoneGroups : Vector (BitVec 24) 8
  calls : Vector CallCfg 16
  cues : List CueRec
  deriving DecidableEq, Repr, Inhabited

/-- R182, R183: a LOAD_SHOW from its hand-over to its end. `todo` is what is still to read and check;
`fail` the first failing record. -/
structure LoadJob where
  origin : EngineState
  todo : List TableKind
  fail : Option (TableKind × Word)
  staging : Show
  deriving DecidableEq, Repr, Inhabited

/-! ## Notices between blocks, worked off inside one step (log 22) -/

inductive Note where
  /-- a voice entered IDLE; `owner` is whose it was (R126) -/
  | voiceIdle (v : VoiceId) (owner : VoiceOwner)
  /-- a PLAY of `by'` took the voice of this call (R121) -/
  | callCut (c : CallId) (by' : VoiceOwner)
  /-- the page of this call's instance closed (R154) -/
  | pageClosed (c : CallId) (reason : CloseReason)
  /-- the page of this call's instance became LIVE (R153) -/
  | pageLive (c : CallId)
  /-- a zone entered LIVE (R139) -/
  | zoneLive (z : ZoneId)
  /-- a page lost this zone to a fault (R141) -/
  | zoneLost (p : PageId) (z : ZoneId)
  deriving DecidableEq, Repr, Inhabited

/-! ## The state -/

structure State where
  /-- commands that wait, first in first out -/
  pending : List Instr
  phase : Phase
  rstl : RstlState
  memSize : Nat
  mem : Memory
  clock : Clock
  rx : Vector Receiver 4
  channels : Vector ChannelRec 64
  roles : Vector Role 96
  levels : Levels
  mixes : Vector Mix 40
  sends : Vector Send 1024
  voiceGroups : Vector (Option GroupId) 16
  outMap : Vector OutSource 64
  tx : Vector (Vector Word 18) 4
  txCount : BitVec 8
  hold : Vector HoldLine 4
  header : Header
  tables : Tables
  regions : Vector Region 8
  seq : Seq
  fades : Vector (Option FadeRec) 128
  takenOver : Nat
  voices : Vector Voice 16
  zones : Vector Zone 24
  zoneGroups : Vector (BitVec 24) 8
  tod : TimeOfDay
  rollover : Bool
  pages : Vector (Option Page) 4
  lastClosed : Option LastClosed
  calls : Vector Call 16
  overlapped : Nat
  missedCalls : Nat
  cutCalls : Nat
  cells : Vector Cell 12
  mirror : Mirror
  wq : WriteQueue
  arb : Arbiter
  port : Port
  slate : Slate
  engine : EngineState
  lock : LockLevel
  load : Option LoadJob
  notice : Notice
  /-- how many free values have been drawn; the model's own (log 36) -/
  freeCount : Nat
  /-- notices not yet taken, and mirror areas to hand over: empty between steps (log 22, 30) -/
  notes : List Note
  marks : List Area
  deriving DecidableEq, Repr, Inhabited

/-- Why a step stops for good. Safe: the model stops where a run from reset never gets. -/
inductive Fault where
  /-- raised by MEMORY_GRANT when a voice fetch reaches past the installed show memory, an address the
  manual says does not exist; R118 keeps such a sound from being played. Safe. -/
  | outsideMemory
  deriving DecidableEq, Repr

/-- Why a command has no meaning. Safe: nothing is claimed of a command that is refused. -/
inductive Refusal where
  /-- raised by Dispatch.exec for a row that is not modelled yet. Safe. -/
  | notModelled (mnemonic : String)
  deriving DecidableEq, Repr

/-! ## The state in a full reset (R190 and each chapter's own rule) -/

def TimeOfDay.zero : TimeOfDay := { day := 0, hours := 0, minutes := 0, seconds := 0, ms := 0 }

/-- R57: open, at 0 and at rest. -/
def Gate.opened : Gate := { value := .steps 0, ramp := none }

def LinkFrame.silent : LinkFrame := { slots := Vector.replicate 16 0#24, status := 0#32 }

/-- R9. -/
def Receiver.reset : Receiver :=
  { locked := false, good := 0, bad := 0, ref := none, presented := .silent, incoming := .silent,
    completed := false }

/-- R12, R20; the fields of an unused channel's record are not given (log 27). -/
def ChannelRec.reset : ChannelRec :=
  { cfg := { used := false, autoMute := false, ramp := 0, confirm := 0, hold := 0, lossMask := false,
             batteryMask := false },
    state := .unused, timer := none, gate := .opened, present := false, battery := false,
    sample := 0#24, edge := false }

/-- R24. -/
def Role.reset : Role :=
  { cfg := { taps := Vector.replicate 4 none, initial := none, level := .off, group := none,
             autoSpare := false, spareTime := 0 },
    taps := Vector.replicate 4 .idle, unavailable := 0, clips := 0 }

/-- R102. -/
def Levels.reset : Levels :=
  { role := Vector.replicate 96 .off, voice := Vector.replicate 16 .off,
    group := Vector.replicate 16 .off, send := Vector.replicate 1024 .off,
    master := Vector.replicate 40 .off, zone := Vector.replicate 24 .off,
    tap := Vector.replicate 96 (Vector.replicate 4 .off) }

/-- R58. -/
def Mix.reset : Mix :=
  { cfg := { kind := .house, master := .off, ceiling := 48, holdMask := 0#4, holdRamp := 0, first := 0,
             count := 0 },
    gate := .opened, rested := some (.steps 0), renewed := false, held := false, clips := 0 }

/-- R59. -/
def Send.reset : Send := { mix := none, source := 0, level := .off, on := false }

/-- R3, R55, R89, R151, R134, R167; `inputMask` and `callCapable` are not given (log 27). -/
def Header.reset : Header :=
  { source := .internal, guard := 0, ramps := Vector.replicate 4 0, pageLimit := 0, inputMask := false,
    zoneMask := false, captureMasks := 0#12, callCapable := 0#16 }

def Region.unused : Region := { base := 0, length := 0, kind := .unused }

/-- R100. -/
def Seq.reset : Seq :=
  { standby := none, parent := none, follow := none, running := [], nextSerial := 1, pause := false,
    guard := none, guarded := 0, last := none, firing := none, goLevel := none, trigLevel := none,
    goEdges := 0, trigEdges := Vector.replicate 4 0 }

/-- R119; the sound copy and the resume state of an idle voice are not given (log 27). -/
def Voice.reset : Voice :=
  { state := .idle, owner := .none,
    sound := { number := 0, start := 0, count := 0, loopStart := 0, loopEnd := 0, looping := false },
    playPos := 0, fetchPos := 0, buffer := [], outstanding := none, stopRec := none,
    resume := .priming, startPending := false, underruns := 0, signal := 0#24, underran := false }

/-- R134. -/
def Zone.reset : Zone :=
  { cfg := { relayMix := none, relayLevel := .off, relayFlag := false, duckDepth := 0, duckRamp := 0,
             holdMask := 0#4, holdRamp := 0, stability := 0, sample := 0, idle := 0,
             faultMask := false },
    state := .off, ampen := false, relay := false, page := none, timer := none, falseRun := 0,
    ampOk := false, held := false, duck := .opened, relayHold := .opened, pageHold := .opened,
    clips := 0, faults := 0 }

/-- R157; the match fields, mask level, sound, voice, level, priority and patience are not given (log 27). -/
def Call.reset : Call :=
  { cfg := { enabled := false, day := 0, hours := 0, minutes := 0, seconds := 0,
             maskLevel := .everyMinute, group := 0, sound := 0, voice := 0, level := .off, priority := 0,
             repeatCount := 0, chime := false, patience := 0 },
    enabled := false, remaining := 0, inst := none, outcome := .none }

/-- R172 to R174. -/
def Mirror.reset : Mirror :=
  { base := none, areas := Vector.replicate 11 { count := 0, pending := false, last := none },
    dirty := Vector.replicate 25 false, lag := 0,
    shown := Vector.replicate 11 { count := none, bursts := [] }, levelsDue := false,
    metersDue := false, inUseChanged := false, peaks := Vector.replicate 128 0, peaksSkip := false }

/-- The state in a full reset, from which START_UP leads to a running part (R188, R190; log 3). -/
def State.reset : State :=
  { pending := [], phase := .fullReset, rstl := .high, memSize := 0, mem := [],
    clock := { inUse := .internal, present := false, absentRun := 0, presentRun := 0, returnRun := 0,
               coasting := false, sinceTick := 0, ticks := 0, tickOpen := false },
    rx := Vector.replicate 4 .reset, channels := Vector.replicate 64 .reset,
    roles := Vector.replicate 96 .reset, levels := .reset, mixes := Vector.replicate 40 .reset,
    sends := Vector.replicate 1024 .reset, voiceGroups := Vector.replicate 16 none,
    outMap := Vector.replicate 64 .none, tx := Vector.replicate 4 (Vector.replicate 18 0#32),
    txCount := 0#8, hold := Vector.replicate 4 { raw := false, accepted := false, run := 0 },
    header := .reset, tables := { cueList := 0, movePool := 0, sounds := 0 },
    regions := Vector.replicate 8 .unused, seq := .reset, fades := Vector.replicate 128 none,
    takenOver := 0, voices := Vector.replicate 16 .reset, zones := Vector.replicate 24 .reset,
    zoneGroups := Vector.replicate 8 0#24, tod := .zero, rollover := false,
    pages := Vector.replicate 4 none, lastClosed := none, calls := Vector.replicate 16 .reset,
    overlapped := 0, missedCalls := 0, cutCalls := 0,
    cells := Vector.replicate 12 { state := .empty, missed := 0 }, mirror := .reset,
    wq := { queue := [], heldSlate := [], heldCapture := [], next := .slate, began := false },
    arb := { busy := none, hostWait := 0, reads := [] },
    port := { waiting := none, clears := [], held := none, result := { err := true, data := 0#32 },
              view := Vector.replicate 16 .empty, faultAddr := 0#22, faultCause := .none,
              faultWrite := false, further := 0 },
    slate := { arrival := [], current := none, lastAnswer := none }, engine := .stopped, lock := .off,
    load := none,
    notice := { input := false, zone := false, fault := false, clock := false, restarted := false,
                mask := 0x7F#7 },
    freeCount := 0, notes := [], marks := [] }

end Sys2Proof.Machine
end

