-- ==== Sys2Proof/Machine/Ops.lean ====
section
/-! DEFINITION. The operations every block shares: vectors, bit fields, show memory, the level store,
the notices between blocks and the marks for the mirror. -/

namespace Sys2Proof

/-- The index `n`, where the range has it. -/
def fin? (k n : Nat) : Option (Fin k) := if h : n < k then some ⟨n, h⟩ else none

/-- The floor of an element: −96 for a tap level, −480 for every other (R52). -/
def Elem.floor : Elem → Int
  | .tap _ _ => -96
  | _ => -480

/-- A level with OFF taken as `floor` (R52, R107). -/
def Level.orFloor (floor : Int) : Level → Int
  | .off => floor
  | .steps n => n

/-- The place of an element among the 1600 values of the levels area: the kinds in the order of the
element table, then the tap levels (log 14). -/
def Elem.index : Elem → Nat
  | .role r => r
  | .voice v => 96 + v
  | .group g => 112 + g
  | .send i => 128 + i
  | .master m => 1152 + m
  | .zone z => 1192 + z
  | .tap r t => 1216 + 4 * r.val + t.val

/-- The 64-value block of the levels area that holds an element (R172). -/
def Elem.block (e : Elem) : Fin 25 :=
  ⟨e.index / 64 % 25, Nat.mod_lt _ (by decide)⟩

/-- The element a reference names, where the kind is one of the six and the index in range. -/
def ElemRef.elem? (e : ElemRef) : Option Elem :=
  match e.kind with
  | none => none
  | some .role => (fin? 96 e.index).map .role
  | some .voice => (fin? 16 e.index).map .voice
  | some .group => (fin? 16 e.index).map .group
  | some .send => (fin? 1024 e.index).map .send
  | some .master => (fin? 40 e.index).map .master
  | some .zone => (fin? 24 e.index).map .zone

def TapState.carries : TapState → Bool
  | .idle => false
  | _ => true

/-- ACTIVE or FADING_IN (R25). -/
def TapState.isActive : TapState → Bool
  | .active | .fadingIn => true
  | _ => false

end Sys2Proof

namespace Sys2Proof.Machine

/-! ## Vectors -/

/-- The vector with `f i` at place `i`. -/
def tabulate {α : Type} {n : Nat} (f : Fin n → α) : Vector α n :=
  ⟨⟨(List.finRange n).map f⟩, by simp⟩

/-- `f` applied to every entry. -/
def mapVec {α β : Type} {n : Nat} (f : α → β) (v : Vector α n) : Vector β n :=
  ⟨⟨v.toList.map f⟩, by simp⟩

/-- `f` applied to the entry at place `i`. -/
def upd {α : Type} {n : Nat} (v : Vector α n) (i : Fin n) (f : α → α) : Vector α n :=
  v.set i (f v[i])

/-- Every index in ascending order, each step made on the state the one before left. -/
def forEach {σ : Type} (n : Nat) (f : Fin n → σ → σ) (s : σ) : σ :=
  (List.finRange n).foldl (fun s i => f i s) s

/-! ## Counts and bit fields -/

/-- A count that saturates at 65 535 (R21, R43, R89, R109, R127, R158, R163, R173). -/
def sat16 (n : Nat) : Nat := min (n + 1) 65535

/-- Bits `lo` to `lo + len − 1` of a word. -/
def field (w : Word) (lo len : Nat) : Nat := (w.toNat >>> lo) % 2 ^ len

/-- A number put at bit `lo` of a word. -/
def place (n lo : Nat) : Word := BitVec.ofNat 32 (n <<< lo)

/-- The low `len` bits of a word, put at bit `lo`. -/
def placeCode (w : Word) (lo len : Nat) : Word := place (field w 0 len) lo

def bitOf (b : Bool) : Nat := if b then 1 else 0

def wordOf (n : Nat) : Word := BitVec.ofNat 32 n

/-- A time field is taken as at most 600 000 ms (R79, R191). -/
def clampTime (n : Nat) : Nat := min n 600000

/-! ## Levels -/

/-- A level above +96 is taken as +96 and one below −480 as −480 (R61, R79, R114, R191). -/
def clampSteps (n : Int) : Int := max (-480) (min 96 n)

/-- A 16-bit two's complement level field, −32768 standing for OFF (R191). -/
def levelOfField (b : BitVec 16) : Level :=
  if b = 0x8000#16 then .off else .steps (clampSteps b.toInt)

/-- A ceiling field: clamped to −480 to +48 for a FOLDBACK mix and installed as read otherwise (R61). -/
def ceilingOfField (k : MixKind) (b : BitVec 16) : Int :=
  if k = .foldback then max (-480) (min 48 b.toInt) else b.toInt

def Levels.get (l : Levels) : Elem → Level
  | .role r => l.role[r]
  | .voice v => l.voice[v]
  | .group g => l.group[g]
  | .send i => l.send[i]
  | .master m => l.master[m]
  | .zone z => l.zone[z]
  | .tap r t => l.tap[r][t]

def Levels.put (l : Levels) (e : Elem) (x : Level) : Levels :=
  match e with
  | .role r => { l with role := l.role.set r x }
  | .voice v => { l with voice := l.voice.set v x }
  | .group g => { l with group := l.group.set g x }
  | .send i => { l with send := l.send.set i x }
  | .master m => { l with master := l.master.set m x }
  | .zone z => { l with zone := l.zone.set z x }
  | .tap r t => { l with tap := upd l.tap r (fun v => v.set t x) }

def State.level (s : State) (e : Elem) : Level := s.levels.get e

/-- Writes the level store; a value that changes marks its block for the levels area (R172). -/
def setElem (e : Elem) (x : Level) (s : State) : State :=
  { s with
    levels := s.levels.put e x
    mirror := if s.level e = x then s.mirror
      else { s.mirror with dirty := s.mirror.dirty.set e.block true } }

/-! ## Show memory -/

/-- What unlisted addresses hold: no written byte. -/
def Memory.get? (m : Memory) (a : Nat) : Option Byte :=
  match m with
  | [] => none
  | (k, b) :: rest => if k = a then some b else Memory.get? rest a

/-- A byte of show memory; one that nothing has written is a free value (log 12). -/
def Memory.readByte (m : Memory) (a : Nat) : Byte := (Memory.get? m a).getD (Config.dramByte a)

/-- Writes one byte, keeping addresses strictly rising. -/
def Memory.writeByte (m : Memory) (a : Nat) (b : Byte) : Memory :=
  match m with
  | [] => [(a, b)]
  | (k, x) :: rest =>
    if a < k then (a, b) :: (k, x) :: rest
    else if a = k then (a, b) :: rest
    else (k, x) :: Memory.writeByte rest a b

/-- Words are little-endian (00, Numbers and addresses; R191). -/
def Memory.readWord (m : Memory) (a : Nat) : Word :=
  (Memory.readByte m (a + 3) ++ Memory.readByte m (a + 2) ++ Memory.readByte m (a + 1)
    ++ Memory.readByte m a : BitVec 32)

def Memory.writeWord (m : Memory) (a : Nat) (w : Word) : Memory :=
  let m := Memory.writeByte m a (w.extractLsb' 0 8)
  let m := Memory.writeByte m (a + 1) (w.extractLsb' 8 8)
  let m := Memory.writeByte m (a + 2) (w.extractLsb' 16 8)
  Memory.writeByte m (a + 3) (w.extractLsb' 24 8)

/-- `n` words from `a` up. -/
def Memory.readWords (m : Memory) (a n : Nat) : Vector Word n :=
  tabulate fun i => Memory.readWord m (a + 4 * i.val)

/-- The words of a burst, each at its address, written in order. -/
def Memory.writeAll (m : Memory) (ws : List (Nat × Word)) : Memory :=
  ws.foldl (fun m w => Memory.writeWord m w.1 w.2) m

/-- The canonical form: addresses strictly rising. An unlisted address holds no written byte, so no
entry can repeat what an unlisted address reads as. -/
abbrev Memory.wf (m : Memory) : Prop := m.Pairwise (fun a b => a.1 < b.1)

/-! ## Time of day -/

/-- One millisecond on, each field carrying into the next (R149). -/
def TimeOfDay.next (t : TimeOfDay) : TimeOfDay :=
  if t.ms < 999 then { t with ms := t.ms + 1 }
  else if t.seconds < 59 then { t with ms := 0, seconds := t.seconds + 1 }
  else if t.minutes < 59 then { t with ms := 0, seconds := 0, minutes := t.minutes + 1 }
  else if t.hours < 23 then { t with ms := 0, seconds := 0, minutes := 0, hours := t.hours + 1 }
  else { day := if t.day < 6 then t.day + 1 else 0, hours := 0, minutes := 0, seconds := 0, ms := 0 }

/-- The time word of a capture cell (R191). -/
def TimeOfDay.word (t : TimeOfDay) : Word :=
  place t.ms 0 ||| place t.seconds 10 ||| place t.minutes 16 ||| place t.hours 22 ||| place t.day 27

/-! ## Owners -/

def VoiceOwner.kind : VoiceOwner → OwnerKind
  | .none => .none
  | .cue _ => .cue
  | .request => .request
  | .call _ => .call

/-- The firing serial of a cue, the index of a call, and 0 otherwise (R122, R129). -/
def VoiceOwner.number : VoiceOwner → Nat
  | .cue id => id.serial
  | .call c => c
  | _ => 0

def VoiceOwner.call? : VoiceOwner → Option CallId
  | .call c => some c
  | _ => Option.none

/-! ## Changes of one block's record -/

def updChannel (c : Channel) (f : ChannelRec → ChannelRec) (s : State) : State :=
  { s with channels := upd s.channels c f }

def updRole (r : RoleId) (f : Role → Role) (s : State) : State :=
  { s with roles := upd s.roles r f }

def updMix (m : MixId) (f : Mix → Mix) (s : State) : State :=
  { s with mixes := upd s.mixes m f }

def updVoice (v : VoiceId) (f : Voice → Voice) (s : State) : State :=
  { s with voices := upd s.voices v f }

def updZone (z : ZoneId) (f : Zone → Zone) (s : State) : State :=
  { s with zones := upd s.zones z f }

def updCall (c : CallId) (f : Call → Call) (s : State) : State :=
  { s with calls := upd s.calls c f }

def updRx (l : Link) (f : Receiver → Receiver) (s : State) : State :=
  { s with rx := upd s.rx l f }

def setPage (p : PageId) (x : Option Page) (s : State) : State :=
  { s with pages := s.pages.set p x }

/-- The mirror writer learns that the records in use have changed (R117). -/
def noteInUse (changed : Bool) (s : State) : State :=
  { s with mirror := { s.mirror with inUseChanged := s.mirror.inUseChanged || changed } }

def setFade (i : RecId) (r : Option FadeRec) (s : State) : State :=
  noteInUse (s.fades[i].isSome != r.isSome) { s with fades := s.fades.set i r }

/-- Every record is removed without telling its owner (R116). -/
def emptyFades (s : State) : State :=
  noteInUse (s.fades.toList.any Option.isSome) { s with fades := Vector.replicate 128 none }

def updSeq (f : Seq → Seq) (s : State) : State := { s with seq := f s.seq }

def updNotice (f : Notice → Notice) (s : State) : State := { s with notice := f s.notice }

def setView (i : SlotId) (v : SlotState) (s : State) : State :=
  { s with port := { s.port with view := s.port.view.set i v } }

/-- An area is handed over: it is offered when the event ends (R173, log 30). -/
def mark (a : Area) (s : State) : State :=
  { s with marks := if a ∈ s.marks then s.marks else s.marks ++ [a] }

/-- An engine read joins the queue for its turn (R178). -/
def askRead (r : EngineRead) (s : State) : State :=
  { s with arb := { s.arb with reads := s.arb.reads ++ [r] } }

/-- A block tells another (log 22). -/
def tell (n : Note) (s : State) : State := { s with notes := s.notes ++ [n] }

/-! ## Lookups -/

/-- The active tap of a role, or none (R25). -/
def Role.active (r : Role) : Option TapId := (List.finRange 4).find? fun t => r.taps[t].isActive

/-- The role carries the channel: it is the channel of a tap that is not IDLE (R27). -/
def Role.carries (r : Role) (c : Channel) : Bool :=
  (List.finRange 4).any fun t => r.taps[t].carries && r.cfg.taps[t] == some c

/-- The role other than `r` that carries the channel (R27, R28). -/
def carriedElsewhere (s : State) (r : RoleId) (c : Channel) : Option RoleId :=
  (List.finRange 96).find? fun q => q != r && s.roles[q].carries c

/-- The role that carries the channel, or NONE (R27, R37). -/
def carrierOf (s : State) (c : Channel) : Option RoleId :=
  (List.finRange 96).find? fun q => s.roles[q].carries c

/-- The link and the slot of an input channel (01, section 1.2). -/
def linkOf (c : Channel) : Link := ⟨c.val / 16, by omega⟩
def slotOf (c : Channel) : Fin 16 := ⟨c.val % 16, by omega⟩

/-- PRESENT is bit 2s and BATTERY_LOW bit 2s + 1 of the status word (R6). -/
def LinkFrame.present (f : LinkFrame) (s : Fin 16) : Bool := f.status.getLsbD (2 * s.val)
def LinkFrame.batteryLow (f : LinkFrame) (s : Fin 16) : Bool := f.status.getLsbD (2 * s.val + 1)

/-- The group of a source, or none when it is independent (R60). -/
def groupOf (s : State) (src : SourceId) : Option GroupId :=
  if h : src.val < 96 then s.roles[src.val].cfg.group
  else s.voiceGroups[src.val - 96]'(by omega)

/-- The element that is a source's level (R46). -/
def sourceElem (src : SourceId) : Elem :=
  if h : src.val < 96 then .role ⟨src.val, h⟩ else .voice ⟨src.val - 96, by omega⟩

/-- Some line of the mask is ASSERTED (R70, R145). -/
def heldBy (s : State) (mask : BitVec 4) : Bool :=
  (List.finRange 4).any fun l => mask.getLsbD l && s.hold[l].accepted

/-- A time of `ms` milliseconds in frames of the sample clock (R1). -/
def framesOf (ms : Nat) : Nat := 48 * ms

/-- The time in ms of a ramp option, in frames (R55). -/
def rampFrames (s : State) (opt : Fin 4) : Nat := framesOf s.header.ramps[opt]

/-- Any slot DONE or REFUSED in the port's view (R187). -/
def anyAnswered (s : State) : Bool :=
  (List.finRange 16).any fun i => s.port.view[i] == .done || s.port.view[i] == .refused

/-- Any cell FULL whose per-cell mask is clear (R171). -/
def anyUnmaskedFull (s : State) : Bool :=
  (List.finRange 12).any fun c => s.cells[c].state == .full && !s.header.captureMasks.getLsbD c

end Sys2Proof.Machine
end

