-- ==== Sys2Proof/Machine/GainLaw.lean ====
section
/-! DEFINITION. The Gain Law (chapter 3): step sums, conversion, accumulation and saturation, the three
stages, the fade law and the gates. -/

namespace Sys2Proof.Machine

/-! ## From steps to gain -/

/-- The exact sum of the terms, or none when any is OFF (R38). -/
def stepSum (terms : List Level) : Option Int :=
  terms.foldl (fun acc t => match acc, t with
    | some a, .steps n => some (a + n)
    | _, _ => none) (some 0)

/-- M(m), 32768 × 2^(m/24) rounded (R40). -/
def mantissa (m : Nat) : Int :=
  [32768, 33728, 34716, 35734, 36781, 37859, 38968, 40110, 41285, 42495, 43740, 45022, 46341, 47699,
    49097, 50535, 52016, 53540, 55109, 56724, 58386, 60097, 61858, 63670].getD m 0

/-- The contribution of a sample at a capped step sum: floor((x × M(m) + 2^(n−1)) / 2^n) with
S = 24k + m and n = 15 − k (R40, R41). -/
def gain (x : Int) (S : Int) : Int :=
  let m := (S % 24).toNat
  let n := (15 - S / 24).toNat
  (x * mantissa m + 2 ^ (n - 1)) / 2 ^ n

/-- What a sample contributes: nothing for OFF or a sum below −480, else its gain at the sum capped at
the stage's ceiling (R39). -/
def contribution (x : Sample) (terms : List Level) (ceiling : Int) : Int :=
  match stepSum terms with
  | none => 0
  | some S => if S < -480 then 0 else gain x.toInt (min S ceiling)

/-- The total held to the 24-bit range, and whether that changed it (R42, R43). -/
def saturate (total : Int) : Sample × Bool :=
  if total > 8388607 then (BitVec.ofInt 24 8388607, true)
  else if total < -8388608 then (BitVec.ofInt 24 (-8388608), true)
  else (BitVec.ofInt 24 total, false)

/-- The clip count after a sum (R43). -/
def countClip (n : Nat) (clipped : Bool) : Nat := if clipped then sat16 n else n

/-! ## The stages -/

/-- Stage A: the exact total of a role (R44). -/
def roleTotal (s : State) (r : RoleId) : Int :=
  ((List.finRange 4).map fun t =>
    if s.roles[r].taps[t].carries then
      match s.roles[r].cfg.taps[t] with
      | none => 0
      | some c => contribution s.channels[c].sample [s.level (.tap r t), s.channels[c].gate.value] 0
    else 0).sum

def roleSignals (s : State) : Vector (Sample × Bool) 96 := tabulate fun r => saturate (roleTotal s r)

/-- The ceiling of a mix at stage B (R39, R63). -/
def Mix.ceiling (m : Mix) : Int := if m.cfg.kind = .foldback then m.cfg.ceiling else 48

/-- The source signal of stage B (R44, R45). -/
def sourceSignal (s : State) (roles : Vector (Sample × Bool) 96) (src : SourceId) : Sample :=
  if h : src.val < 96 then roles[src.val].1 else (s.voices[src.val - 96]'(by omega)).signal

/-- The terms of a send's step sum (R46). -/
def sendTerms (s : State) (m : MixId) (i : SendId) : List Level :=
  let e := s.sends[i]
  [s.level (sourceElem e.source)]
    ++ (match groupOf s e.source with
        | some g => [s.level (.group g)]
        | none => [])
    ++ [s.level (.send i), s.level (.master m), s.mixes[m].gate.value]

/-- Stage B: the exact total of a mix over its run of sends (R46, R47). -/
def mixTotal (s : State) (roles : Vector (Sample × Bool) 96) (m : MixId) : Int :=
  ((List.range s.mixes[m].cfg.count).map fun k =>
    match fin? 1024 (s.mixes[m].cfg.first + k) with
    | none => 0
    | some i =>
      if s.sends[i].on then
        contribution (sourceSignal s roles s.sends[i].source) (sendTerms s m i) s.mixes[m].ceiling
      else 0).sum

def mixOutputs (s : State) (roles : Vector (Sample × Bool) 96) : Vector (Sample × Bool) 40 :=
  tabulate fun m => saturate (mixTotal s roles m)

/-- The relay contribution of a zone, while its relay mix is not NONE and its relay flag ON (R48, R143). -/
def relayContribution (s : State) (mixes : Vector (Sample × Bool) 40) (z : ZoneId) : Int :=
  let zn := s.zones[z]
  match zn.cfg.relayMix with
  | none => 0
  | some m =>
    if zn.relay then
      contribution mixes[m].1 [s.level (.zone z), zn.duck.value, zn.relayHold.value] 48
    else 0

/-- The page contribution of a zone, while it carries a page (R49, R143). -/
def pageContribution (s : State) (z : ZoneId) : Int :=
  let zn := s.zones[z]
  match zn.page with
  | none => 0
  | some p =>
    match s.pages[p] with
    | none => 0
    | some pg =>
      match pg.source with
      | .channel c =>
        contribution s.channels[c].sample
          [pg.level, zn.pageHold.value, s.channels[c].gate.value] 48
      | .voice v => contribution s.voices[v].signal [pg.level, zn.pageHold.value] 48

/-- The zone stage, formed only while the zone is LIVE (R49, R143). -/
def zoneOutput (s : State) (mixes : Vector (Sample × Bool) 40) (z : ZoneId) : Sample × Bool :=
  if s.zones[z].state = .live then saturate (relayContribution s mixes z + pageContribution s z)
  else (0#24, false)

def zoneOutputs (s : State) (mixes : Vector (Sample × Bool) 40) : Vector (Sample × Bool) 24 :=
  tabulate fun z => zoneOutput s mixes z

/-- The transmit slots carry 0 while STOPPED, and while LOADING from STOPPED (R68). -/
def slotsSilent (s : State) : Bool :=
  s.engine == .stopped || (s.engine == .loading && s.load.map (·.origin) == some .stopped)

/-- The sample carried in a transmit slot: 0 while the slots are silent, else by the output map (R67,
R68). -/
def slotSample (s : State) (mixes : Vector (Sample × Bool) 40) (zones : Vector (Sample × Bool) 24)
    (t : Fin 64) : Sample :=
  if slotsSilent s then 0#24
  else match s.outMap[t] with
    | .none => 0#24
    | .mix m => mixes[m].1
    | .zone z => zones[z].1

/-- The frame a transmit link sends: sync and count, sixteen slots, a status of 0 (R10). -/
def transmitFrame (count : BitVec 8) (slots : Vector Sample 64) (l : Link) : Vector Word 18 :=
  tabulate fun w =>
    if w.val = 0 then (0x5A3C96#24 ++ count : BitVec 32)
    else if h : w.val ≤ 16 then (slots[16 * l.val + (w.val - 1)]'(by omega) ++ 0#8 : BitVec 32)
    else 0#32

/-- The magnitude of a sample, 0 to 8 388 608 (R174). -/
def magnitude (x : Sample) : Nat := x.toInt.natAbs

/-! ## The fade law -/

/-- The value at elapsed time `e`: a + trunc((b − a) × e / T) below T, and b at T (R51). -/
def fadeValue (a b : Int) (T e : Nat) : Int :=
  if e < T then a + Int.tdiv ((b - a) * e) T else b

/-! ## Gates -/

/-- Where a gate rests at the end of a ramp: a target of −480 reads OFF (R54). -/
def restValue (target : Int) : Level := if target = -480 then .off else .steps target

/-- A command to ramp toward a target over `T` frames (R54 to R56). A ramp toward that target keeps the T
it started with, also one that an event of the same frame started (R55, R56). A zone's gate whose ramp has
reached its target is handed over at its GATE_RAMP_END no more once a command toward another target, or a
setting at once, has met it first: the model's choice (log 45). A mix's hold gate takes its path from
`Mix.origin` (R76). -/
def Gate.command (g : Gate) (target : Int) (T : Nat) : Gate :=
  let fresh : Gate :=
    if T = 0 then { value := restValue target, ramp := none }
    else { value := .steps (g.value.orFloor (-480)),
           ramp := some { start := g.value.orFloor (-480), target := target, elapsed := 0,
                          frames := T } }
  match g.ramp with
  | none => if g.value = restValue target then g else fresh
  | some r => if r.target = target then g else fresh

/-- Set at once: 0 for open and OFF for closed, at rest (R56). -/
def Gate.setTo (isOpen : Bool) : Gate := { value := if isOpen then .steps 0 else .off, ramp := none }

/-- One frame of the sample clock on (R54). -/
def Gate.advance (g : Gate) : Gate :=
  match g.ramp with
  | none => g
  | some r =>
    if r.elapsed < r.frames then
      { value := if r.elapsed + 1 < r.frames
          then .steps (fadeValue r.start r.target r.frames (r.elapsed + 1))
          else restValue r.target
        ramp := some { r with elapsed := r.elapsed + 1 } }
    else g

/-- The ramp has reached its target and has not yet come to rest (R54). -/
def Gate.endDue (g : Gate) : Bool :=
  match g.ramp with
  | none => false
  | some r => r.frames ≤ r.elapsed

def Gate.rest (g : Gate) : Gate := { g with ramp := none }

/-- The target a gate stands at or moves toward, as the mirror gives it (R75, R148). -/
def Gate.target (g : Gate) : Int :=
  match g.ramp with
  | some r => r.target
  | none => g.value.orFloor (-480)

/-- The value at which a gate stands at rest when a frame begins, a ramp that reaches its target at that
frame being over (R54, R56). -/
def Gate.rested (g : Gate) : Option Level :=
  if g.ramp.isNone || g.endDue then some g.value else none

/-- The gate from which a mix's hold gate takes its path: as it stands (R56), but once an install has
commanded it in this frame and it was at rest when the frame began, that rest, so that an accepted change and
an install leave it on the same path in either order (R76; log 45). -/
def Mix.origin (m : Mix) : Gate :=
  match m.rested with
  | some v => if m.renewed then { value := v, ramp := none } else m.gate
  | none => m.gate

/-- The hold gate is commanded. A gate whose ramp has reached this target and waits for its GATE_RAMP_END is
left as it is, so that the ramp's end is handed over also when the command comes first (R56, R75). -/
def Mix.command (m : Mix) (target : Int) (T : Nat) : Mix :=
  if m.gate.endDue = true ∧ m.gate.target = target then m
  else { m with gate := m.origin.command target T }

def Gate.view (g : Gate) : GateView := { value := g.value, target := g.target }

def gateOf (s : State) : GateId → Gate
  | .supervision c => s.channels[c].gate
  | .mixHold m => s.mixes[m].gate
  | .relayHold z => s.zones[z].relayHold
  | .pageHold z => s.zones[z].pageHold
  | .duck z => s.zones[z].duck

def updGate (id : GateId) (f : Gate → Gate) (s : State) : State :=
  match id with
  | .supervision c => updChannel c (fun x => { x with gate := f x.gate }) s
  | .mixHold m => updMix m (fun x => { x with gate := f x.gate }) s
  | .relayHold z => updZone z (fun x => { x with relayHold := f x.relayHold }) s
  | .pageHold z => updZone z (fun x => { x with pageHold := f x.pageHold }) s
  | .duck z => updZone z (fun x => { x with duck := f x.duck }) s

/-- The mirror area a gate's value lies in (R57). -/
def GateId.area : GateId → Area
  | .supervision _ => .channels
  | .mixHold _ => .mixes
  | _ => .zones

/-- A gate is commanded by its owner at a ramp option (R55, R56). -/
def commandGate (id : GateId) (target : Int) (opt : Fin 4) (s : State) : State :=
  updGate id (fun g => g.command target (rampFrames s opt)) s

end Sys2Proof.Machine
end

