-- ==== Sys2Proof/Machine/Queue.lean ====
section
/-! DEFINITION. The write queue (R179), the layout of the mirror (R172), the words each burst writes (R191),
and the capture unit (R168). -/

namespace Sys2Proof.Machine

/-! ## Codes that R191 numbers -/

def slotCode : SlotState → Nat
  | .empty => 0 | .posted => 1 | .taken => 2 | .done => 3 | .refused => 4

def resultCode : ResultCode → Nat
  | .ok => 0 | .badKind => 1 | .badArgument => 2 | .notLoaded => 3 | .busy => 4 | .noCue => 5
  | .paused => 6 | .guarded => 7 | .locked => 8 | .conflict => 9 | .noZone => 10 | .badTable => 11

def engineCode : EngineState → Nat
  | .stopped => 0 | .loading => 1 | .loaded => 2

def lockCode : LockLevel → Nat
  | .off => 0 | .soft => 1 | .hard => 2

def tableCode : TableKind → Nat
  | .directory => 0 | .region => 1 | .channel => 2 | .role => 3 | .mix => 4 | .send => 5 | .group => 6
  | .outputMap => 7 | .zone => 8 | .call => 9 | .cue => 10 | .move => 11

/-! ## Addresses of the fixed block (R181, R167, R191) -/

def slotBase (i : SlotId) : Nat := 0x200 + 64 * i.val
def cellBase (c : CellId) : Nat := 0x600 + 32 * c.val

/-- The words a list of values fills from an address up. -/
def wordsFrom (a : Nat) (ws : List Word) : List (Nat × Word) :=
  (List.range ws.length).zip ws |>.map fun p => (a + 4 * p.1, p.2)

/-! ## The layout of the mirror (R172, log 14) -/

/-- The order of the area table (10, section 10.2). -/
def Area.index : Area → Fin 11
  | .engine => 0 | .cue => 1 | .channels => 2 | .roles => 3 | .mixes => 4 | .zones => 5 | .pages => 6
  | .voices => 7 | .levels => 8 | .meters => 9 | .counters => 10

end Sys2Proof.Machine

namespace Sys2Proof

/-- What R172 and R183 ask of a burst's place: whole words, at most 64, within the mirror's 4000h bytes
and across no 256-byte boundary. -/
def MirrorPlace.fits (base : Nat) (p : MirrorPlace) : Bool :=
  decide (0 < p.length) && decide (p.length ≤ 64) && (base + p.first) % 4 == 0
    && decide (p.first + 4 * p.length ≤ 0x4000)
    && (base + p.first) / 256 == (base + p.first + 4 * p.length - 1) / 256

/-- Two places have a byte in common. -/
def MirrorPlace.meets (p q : MirrorPlace) : Bool :=
  decide (p.first < q.first + 4 * q.length) && decide (q.first < p.first + 4 * p.length)

/-- Every place that a layout names. -/
def MirrorLayout.places (l : MirrorLayout) : List MirrorPlace :=
  l.data.toList.flatten ++ l.count.toList.map fun a => { first := a, length := 1 }

/-- What R172 and R179 ask of a layout: every place fits and none meets another, the levels area has 25
bursts of 64 words, and a hand-over finds room behind 15 queued bursts. -/
def MirrorLayout.sound (base : Nat) (l : MirrorLayout) : Bool :=
  l.places.all (·.fits base) && decide (l.places.Pairwise fun p q => p.meets q = false)
    && l.data[Machine.Area.levels.index].map (·.length) == List.replicate 25 64
    && l.data.toList.all fun ps => decide (1 ≤ ps.length) && decide (ps.length ≤ 32)

end Sys2Proof

namespace Sys2Proof.Machine

/-- One layout that fits every base: the levels area, three blocks for each other area, and a block of
update counts, from the first 256-byte boundary up. -/
def plainLayout (base : Nat) : MirrorLayout :=
  let start := (256 - base % 256) % 256
  let block (k : Nat) : MirrorPlace := { first := start + 256 * k, length := 64 }
  { data := tabulate fun a =>
      if a = Area.index .levels then (List.range 25).map block
      else (List.range 3).map fun k => block (25 + 3 * a.val + k)
    count := tabulate fun a => start + 256 * 58 + 4 * a.val }

/-- The layout of the mirror at a base: any that R172 allows, which of them is free (log 14). -/
def layoutAt (base : Nat) : MirrorLayout :=
  if (Config.mirrorLayout base).sound base then Config.mirrorLayout base else plainLayout base

/-- Word `j` of burst `k` of an area's data (log 13). -/
def AreaData.word (d : AreaData) (k j : Nat) : Word :=
  match d with
  | .levels _ values => Config.mirrorLevel (values.getD j .off)
  | d => Config.mirrorWord d k j

/-- The words that a burst of an area's data writes. -/
def mirrorWords (base : Nat) (a : Area) (k : Nat) (d : AreaData) : List (Nat × Word) :=
  match (layoutAt base).data[a.index][k]? with
  | none => []
  | some p => (List.range p.length).map fun j => (base + p.first + 4 * j, d.word k j)

/-- The words a burst writes. -/
def Burst.words : Burst → List (Nat × Word)
  | .slotState i st => [(slotBase i, wordOf (slotCode st))]
  | .slotResult i code ws =>
    (slotBase i + 0x28, wordOf (resultCode code)) :: wordsFrom (slotBase i + 0x2C) ws.toList
  | .cellData c t ds =>
    (cellBase c + 4, t.word) :: wordsFrom (cellBase c + 8) ds ++ [(cellBase c + 0x1C, 0#32)]
  | .cellFull c => [(cellBase c, 1#32)]
  | .cellMissed c n => [(cellBase c + 0x1C, wordOf n)]
  | .mirrorData base a k d => mirrorWords base a k d
  | .mirrorCount base a n => [(base + (layoutAt base).count[a.index], wordOf n)]

/-! ## The queue -/

def WriteQueue.held (q : WriteQueue) : Writer → List Burst
  | .slate => q.heldSlate
  | .capture => q.heldCapture

def WriteQueue.setHeld (q : WriteQueue) (w : Writer) (l : List Burst) : WriteQueue :=
  match w with
  | .slate => { q with heldSlate := l }
  | .capture => { q with heldCapture := l }

def Writer.other : Writer → Writer
  | .slate => .capture
  | .capture => .slate

/-- A slate or capture burst joins the queue, or is held by its writer while 48 are queued or bursts of
the same writer are held (R179). -/
def WriteQueue.join (q : WriteQueue) (w : Writer) (b : Burst) : WriteQueue :=
  if q.held w ≠ [] then q.setHeld w (q.held w ++ [b])
  else if q.queue.length < 48 then { q with queue := q.queue ++ [b] }
  else
    { (q.setHeld w [b]) with
      next := if q.held w.other = [] then w else if q.began then .slate else w.other
      began := true }

/-- The writer whose held burst enters next, if any is held (R179). -/
def WriteQueue.entering (q : WriteQueue) : Option Writer :=
  if q.held q.next ≠ [] then some q.next
  else if q.held q.next.other ≠ [] then some q.next.other
  else none

/-- The head burst has left: a held burst enters the place, the writers alternating (R179). -/
def WriteQueue.leaveHead (q : WriteQueue) : WriteQueue :=
  match q.entering with
  | none => { q with queue := q.queue.tail }
  | some w =>
    { (q.setHeld w (q.held w).tail) with
      queue := q.queue.tail ++ (q.held w).head?.toList
      next := w.other }

def joinQueue (w : Writer) (b : Burst) (s : State) : State := { s with wq := s.wq.join w b }

/-! ## Capture -/

def setCell (c : CellId) (x : Cell) (s : State) : State := { s with cells := s.cells.set c x }

/-- An event is handed over for a cell: an EMPTY cell takes it with the present time of day, any other
counts it as missed (R168). -/
def captureEvent (c : CellId) (details : List Word) (s : State) : State :=
  match s.cells[c].state with
  | .empty =>
    joinQueue .capture (.cellFull c)
      (joinQueue .capture (.cellData c s.tod details)
        (setCell c { state := .filling, missed := 0 } s))
  | _ =>
    if s.cells[c].missed < 255 then
      joinQueue .capture (.cellMissed c (s.cells[c].missed + 1))
        (setCell c { s.cells[c] with missed := s.cells[c].missed + 1 } s)
    else s

def goCell : CellId := 0
def triggerCell (t : LineId) : CellId := ⟨1 + t.val, by omega⟩
def holdCell : CellId := 5
def inputCell : CellId := 6
def zoneCell : CellId := 7
def callCell : CellId := 8
def pageCell : CellId := 9
def cueForcedCell : CellId := 10
def manualCell : CellId := 11

end Sys2Proof.Machine
end

