-- ==== Sys2Proof/Machine/Mirror.lean ====
section
/-! DEFINITION. The mirror writer: what each area holds, offers to the write queue and their dropping
(R172 to R174), the peaks, and the periodic hand-overs (R75, R101, R117, R133, R148, R166). -/

namespace Sys2Proof.Machine

/-- The order of the area table, in which areas handed over together are offered (R173). -/
def Area.all : List Area :=
  [.engine, .cue, .channels, .roles, .mixes, .zones, .pages, .voices, .levels, .meters, .counters]

/-! ## What the areas hold -/

def recordsInUse (s : State) : Nat := (s.fades.toList.filter Option.isSome).length

/-- A zone is in demand while its relay flag is ON or it carries a page (R137). -/
def Zone.demand (z : Zone) : Bool := z.relay || z.page.isSome

def countersView (s : State) : CountersView :=
  { guarded := s.seq.guarded, takenOver := s.takenOver, inUse := recordsInUse s,
    overlapped := s.overlapped, missedCalls := s.missedCalls, cutCalls := s.cutCalls,
    lag := s.mirror.lag }

def channelView (c : ChannelRec) : ChannelView :=
  { state := c.state, gate := c.gate.value, battery := c.battery }

def roleView (r : Role) : RoleView :=
  { cfg := r.cfg, taps := r.taps, active := r.active, unavailable := r.unavailable, clips := r.clips }

def mixView (m : Mix) : MixView :=
  { kind := m.cfg.kind, holdMask := m.cfg.holdMask, holdRamp := m.cfg.holdRamp, held := m.held,
    gate := m.gate.view, clips := m.clips }

def zoneView (z : Zone) : ZoneView :=
  { state := z.state, ampen := z.ampen, ampOk := z.ampOk, relay := z.relay, demand := z.demand,
    page := z.page, timer := z.timer, held := z.held, duck := z.duck.view,
    relayHold := z.relayHold.view, pageHold := z.pageHold.view, clips := z.clips, faults := z.faults }

def callView (c : Call) : CallView :=
  { enabled := c.enabled, remaining := c.remaining, phase := c.inst.map (·.phase),
    patience := c.inst.map (·.patience), page := c.inst.bind (·.page), outcome := c.outcome }

def voiceView (v : Voice) : VoiceView :=
  { state := v.state, resume := if v.state = .stopping then some v.resume else none, owner := v.owner,
    sound := v.sound.number, count := v.sound.count, looping := v.sound.looping,
    playPos := v.playPos, buffered := v.buffer.length, underruns := v.underruns }

/-- Every element in the order of `Elem.index`. -/
def allLevels (l : Levels) : List Level :=
  l.role.toList ++ l.voice.toList ++ l.group.toList ++ l.send.toList ++ l.master.toList
    ++ l.zone.toList ++ l.tap.toList.flatMap (·.toList)

def levelsBlock (s : State) (b : Nat) : AreaData := .levels b ((allLevels s.levels).drop (64 * b) |>.take 64)

/-- The values an area holds, other than levels, which goes by blocks. -/
def areaData (s : State) : Area → AreaData
  | .engine => .engine s.engine s.lock s.clock.inUse
  | .cue => .cue s.seq.standby s.seq.parent s.seq.follow s.seq.pause s.seq.running s.seq.last
  | .channels => .channels (s.rx.toList.map (·.locked)) (s.channels.toList.map channelView)
  | .roles => .roles (s.roles.toList.map roleView) ((List.finRange 64).map (carrierOf s))
  | .mixes => .mixes (s.mixes.toList.map mixView) (s.hold.toList.map (·.accepted))
  | .zones => .zones (s.zones.toList.map zoneView)
  | .pages => .pages s.tod s.pages.toList s.lastClosed (s.calls.toList.map callView)
  | .voices => .voices (s.voices.toList.map voiceView)
  | .levels => .levels 0 []
  | .meters => .meters s.mirror.peaks.toList
  | .counters => .counters (countersView s)

/-! ## Offers -/

/-- The data bursts of a hand-over of an area at a base (R172, log 13, 14). -/
def dataBursts (s : State) (base : Nat) (a : Area) : List Burst :=
  match a with
  | .levels =>
    ((List.finRange 25).filter fun b => s.mirror.dirty[b]).map fun b =>
      .mirrorData base .levels b.val (levelsBlock s b.val)
  | _ =>
    (List.range ((layoutAt base).data[a.index]).length).map fun k =>
      .mirrorData base a k (areaData s a)

/-- A hand-over is accepted while fewer than 16 bursts are queued (R173, R179). -/
def offerAccepted (s : State) : Bool := s.wq.queue.length < 16

/-- An offer of any area is accepted at this state: the mirror has a base and the queue room (R172,
R173). -/
def offerTaken (s : State) : Bool := s.mirror.base.isSome && offerAccepted s

def MirrorArea.accepted (m : MirrorArea) (data : AreaData) : MirrorArea :=
  { count := (m.count + 1) % 65536, pending := false, last := some data }

/-- One offer of one area: discarded before the first install, accepted whole, or dropped whole with
the area pending and the mirror lag raised (R172, R173). -/
def offer (a : Area) (s : State) : State :=
  match s.mirror.base with
  | none => s
  | some base =>
    if offerAccepted s then
      { s with
        wq := { s.wq with queue := s.wq.queue ++ dataBursts s base a
                  ++ [.mirrorCount base a ((s.mirror.areas[a.index].count + 1) % 65536)] }
        mirror := { s.mirror with
          areas := upd s.mirror.areas a.index (·.accepted (areaData s a))
          dirty := if a = .levels then Vector.replicate 25 false else s.mirror.dirty
          inUseChanged := if a = .counters then false else s.mirror.inUseChanged } }
    else
      { s with mirror := { s.mirror with
          areas := upd s.mirror.areas a.index (fun m => { m with pending := true })
          lag := sat16 s.mirror.lag } }

/-! ## Peaks (R174) -/

/-- The peaks after a frame: channels 0 to 63, then transmit slots 0 to 63; none is measured in the rest of
the frame in which the meters were accepted. -/
def measure (slots : Vector Sample 64) (s : State) : State :=
  if s.mirror.peaksSkip then s
  else
    { s with mirror := { s.mirror with
        peaks := tabulate fun i =>
          max s.mirror.peaks[i]
            (if h : i.val < 64 then magnitude s.channels[i.val].sample
              else magnitude (slots[i.val - 64]'(by omega))) } }

/-- The samples of the transmit slots that the state as it stands forms (R67, R68). -/
def formedSlots (s : State) : Vector Sample 64 :=
  let mixes := mixOutputs s (roleSignals s)
  tabulate fun t => slotSample s mixes (zoneOutputs s mixes) t

/-- Every peak is set to 0, and measuring begins afresh from the next frame (R174). -/
def clearPeaks (s : State) : State :=
  { s with mirror := { s.mirror with peaks := Vector.replicate 128 0, peaksSkip := true } }

/-- The meters are offered at a 50 ms tick or again at a 20 ms tick. An offer that is accepted first
measures the frame in progress, from the state as it stands, so that each accepted write gives the
largest magnitude since the last (R174; log 46). -/
def offerMeters (s : State) : State :=
  if offerTaken s then clearPeaks (offer .meters (measure (formedSlots s) s)) else offer .meters s

/-- The areas marked in this event are offered in the order of the area table (R173). -/
def flushMarks (s : State) : State :=
  let todo := Area.all.filter fun a => a ∈ s.marks
  todo.foldl (fun s a => offer a s) { s with marks := [] }

/-! ## Periodic hand-overs at the 20 ms ticks -/

def Gate.ramping (g : Gate) : Bool := g.ramp.isSome

/-- The clip counts of an area differ from those of its last accepted hand-over. -/
def clipsChanged (s : State) : Area → Bool
  | .roles => match s.mirror.areas[Area.index .roles].last with
    | some (.roles rs _) => rs.map (·.clips) != s.roles.toList.map (·.clips)
    | _ => false
  | .mixes => match s.mirror.areas[Area.index .mixes].last with
    | some (.mixes ms _) => ms.map (·.clips) != s.mixes.toList.map (·.clips)
    | _ => false
  | .zones => match s.mirror.areas[Area.index .zones].last with
    | some (.zones zs) => zs.map (·.clips) != s.zones.toList.map (·.clips)
    | _ => false
  | _ => false

/-- Whether an area is handed over at a 20 ms tick for what runs or has changed. -/
def periodicDue (s : State) : Area → Bool
  | .engine => false
  | .cue => s.seq.follow.isSome && !s.seq.pause
  | .channels => s.channels.toList.any (·.gate.ramping)
  | .roles => clipsChanged s .roles
  | .mixes => s.mixes.toList.any (·.gate.ramping) || clipsChanged s .mixes
  | .zones =>
    s.zones.toList.any (fun z => z.duck.ramping || z.relayHold.ramping || z.pageHold.ramping
      || z.timer.isSome) || clipsChanged s .zones
  | .pages =>
    s.pages.toList.any (fun p => (p.bind (·.limit)).isSome)
      || s.calls.toList.any (fun c => match c.inst with
        | some i => i.phase != .playing
        | none => false)
  | .voices => s.voices.toList.any (fun v => v.state != .idle)
  | .levels => s.mirror.dirty.toList.any id
  | .meters => false
  | .counters =>
    s.mirror.inUseChanged || match s.mirror.areas[Area.index .counters].last with
    | some d => d != .counters (countersView s)
    | none => true

/-- Whether a 20 ms tick offers an area: it is due, or pending. A tick that is a 50 ms tick too leaves
the meters to that tick's one offer (R174). -/
def offeredAtTick (s : State) (a : Area) : Bool :=
  periodicDue s a
    || (s.mirror.areas[a.index].pending && !(a == .meters && s.clock.ticks % 50 == 0))

/-- One offer of an area at a tick. -/
def offerAtTick (a : Area) (s : State) : State := if a = .meters then offerMeters s else offer a s

/-- A 20 ms tick: the areas due and every pending area, one offer each in table order (R173). Whether an area is
due is judged at its own turn: that the counters, the last, are so offered at this tick for a lag that a hand-over
dropped at it has raised, and not at the next, is the model's choice (log 70). -/
def mirrorTick (s : State) : State :=
  Area.all.foldl (fun s a => if offeredAtTick s a then offerAtTick a s else s)
    { s with mirror := { s.mirror with levelsDue := false } }

/-- A 50 ms tick (R174). -/
def metersTick (s : State) : State :=
  offerMeters { s with mirror := { s.mirror with metersDue := false } }

/-- At an install every area is handed over whole, at the new base (R172). -/
def handOverAll (s : State) : State :=
  { s with
    marks := Area.all
    mirror := { s.mirror with dirty := Vector.replicate 25 true } }

/-! ## Bursts reaching memory -/

/-- The record of what has been written, after a mirror burst that is written at the present base
(log 13). -/
def showBurst (m : Mirror) : Burst → Mirror
  | .mirrorData base a k d =>
    if m.base = some base then
      { m with shown := upd m.shown a.index fun i =>
          { i with bursts := (i.bursts.filter fun x => x.1 != k) ++ [(k, d)] } }
    else m
  | .mirrorCount base a n =>
    if m.base = some base then
      { m with shown := upd m.shown a.index fun i => { i with count := some n } }
    else m
  | _ => m

end Sys2Proof.Machine
end

