-- ==== Sys2Proof/Machine/Sequencer.lean ====
section
/-! DEFINITION. The cue sequencer's own state: cue and move records (R78, R79, R191), the searches (R81),
completion and arming (R87, R88), and what the fade engine tells it (R103). -/

namespace Sys2Proof.Machine

/-! ## Cue records -/

/-- Trigger codes: 0 GO, 1 FOLLOW_START, 2 FOLLOW_COMPLETE, 3 to 6 LINE on lines 0 to 3, 7 unsound (R191). -/
def triggerOf (code : Nat) : Option Trigger :=
  match code with
  | 0 => some .go
  | 1 => some .followStart
  | 2 => some .followComplete
  | 3 => some (.line 0)
  | 4 => some (.line 1)
  | 5 => some (.line 2)
  | 6 => some (.line 3)
  | _ => none

/-- The code of a trigger (R191). -/
def triggerCode : Trigger → Nat
  | .go => 0
  | .followStart => 1
  | .followComplete => 2
  | .line t => 3 + t.val

inductive CueRead where
  | unused | unsound | sound (c : CueRec)
  deriving DecidableEq, Repr, Inhabited

/-- The four words of a cue record (R78, R191). -/
def cueOfWords (w0 w1 w2 w3 : Word) : CueRead :=
  if field w0 0 16 = 0 then .unused
  else
    match triggerOf (field w0 29 3) with
    | none => .unsound
    | some t =>
      if field w1 20 7 ≤ 64 ∧ field w0 16 13 + field w1 20 7 ≤ 8192 then
        .sound
          { number := field w0 0 16, trigger := t, wait := clampTime (field w1 0 20),
            upTime := clampTime (field w2 0 20), downTime := clampTime (field w3 0 20),
            first := field w0 16 13, count := field w1 20 7 }
      else .unsound

/-- The record at an index of the cue list that lies at `base`. -/
def readCue (m : Memory) (base i : Nat) : CueRead :=
  cueOfWords (Memory.readWord m (base + 16 * i)) (Memory.readWord m (base + 16 * i + 4))
    (Memory.readWord m (base + 16 * i + 8)) (Memory.readWord m (base + 16 * i + 12))

def CueRead.sound? : CueRead → Option CueRec
  | .sound c => some c
  | _ => none

/-- The first sound record of the list that `p` accepts, with its index, in storage order (R81). -/
def findCue (m : Memory) (base : Nat) (p : CueRec → Bool) : Option (Nat × CueRec) :=
  (List.range 512).findSome? fun i =>
    match (readCue m base i).sound? with
    | some c => if p c then some (i, c) else none
    | none => none

def firstCue (m : Memory) (base : Nat) : Option (Nat × CueRec) := findCue m base fun _ => true
def cueNumbered (m : Memory) (base n : Nat) : Option (Nat × CueRec) := findCue m base (·.number == n)
def nextAfter (m : Memory) (base n : Nat) : Option (Nat × CueRec) :=
  findCue m base fun c => decide (n < c.number)

/-- The number, index and copies of a cue that becomes standby (R82). -/
def standbyOf (f : Nat × CueRec) : Standby :=
  { number := f.2.number, index := f.1, trigger := f.2.trigger, wait := f.2.wait }

/-! ## Move records -/

/-- A well-formed move with its values clamped (R79). -/
structure Move where
  delay : Nat
  content : Content
  ownUp : Option Nat
  ownDown : Option Nat
  deriving DecidableEq, Repr, Inhabited

/-- Element kind codes 0 ROLE to 5 ZONE (R191). -/
def elemKindOf (code : Nat) : Option ElemKind :=
  match code with
  | 0 => some .role
  | 1 => some .voice
  | 2 => some .group
  | 3 => some .send
  | 4 => some .master
  | 5 => some .zone
  | _ => none

/-- An own time: bits 0 to 19, present in bit 31 (R191). -/
def ownTime (w : Word) : Option Nat := if w.getLsbD 31 then some (clampTime (field w 0 20)) else none

def voiceField (w : Word) : VoiceId := ⟨field w 0 4, Nat.mod_lt _ (by decide)⟩

/-- The four words of a move record; none when it is malformed (R79, R191). -/
def moveOfWords (w0 w1 w2 w3 : Word) : Option Move :=
  let delay := clampTime (field w0 0 20)
  match field w0 20 3 with
  | 0 =>
    match (ElemRef.elem? { kind := elemKindOf (field w0 24 3), index := field w1 0 10 }) with
    | none => none
    | some e =>
      some { delay := delay,
             content := .level e (levelOfField (w1.extractLsb' 16 16))
               (if w0.getLsbD 23 then .cut else .steps),
             ownUp := ownTime w2, ownDown := ownTime w3 }
  | 1 =>
    some { delay := delay,
           content := .play (voiceField w1) (field w1 8 10) (levelOfField (w2.extractLsb' 0 16))
             (w1.getLsbD 31),
           ownUp := none, ownDown := none }
  | 2 =>
    some { delay := delay, content := .stop (voiceField w1) (clampTime (field w2 0 20)),
           ownUp := none, ownDown := none }
  | 3 =>
    some { delay := delay, content := .relay ⟨field w1 0 3, Nat.mod_lt _ (by decide)⟩ (w1.getLsbD 31),
           ownUp := none, ownDown := none }
  | _ => none

def readMove (m : Memory) (base i : Nat) : Option Move :=
  moveOfWords (Memory.readWord m (base + 16 * i)) (Memory.readWord m (base + 16 * i + 4))
    (Memory.readWord m (base + 16 * i + 8)) (Memory.readWord m (base + 16 * i + 12))

/-! ## The running-cue list -/

def updEntry (id : FiringId) (f : RunEntry → RunEntry) (s : State) : State :=
  updSeq (fun q => { q with running := q.running.map fun e => if e.id = id then f e else e }) s

def entryOf (s : State) (id : FiringId) : Option RunEntry := s.seq.running.find? fun e => e.id = id

/-- The follow that a completion of `id` arms: the wait of a FOLLOW_COMPLETE standby whose parent it
is (R87, R88). -/
def armedBy (q : Seq) (id : FiringId) : Option Nat :=
  match q.standby with
  | none => q.follow
  | some st => if st.trigger = .followComplete ∧ q.parent = some id then some st.wait else q.follow

/-- A running cue completes (R87). -/
def completeCue (e : RunEntry) (s : State) : State :=
  mark .cue (updSeq (fun q => { q with
    running := q.running.filter fun x => x.id ≠ e.id
    last := some { id := e.id, crushed := e.crushed, failed := e.failed, forced := e.forced }
    follow := armedBy q e.id }) s)

/-- It completes when its pending count is 0 and its own firing is not still at work (R83, R87). -/
def completeIfDone (id : FiringId) (s : State) : State :=
  match entryOf s id with
  | none => s
  | some e => if e.pending = 0 ∧ e.placing = false then completeCue e s else s

/-- The owner of a record that leaves the table is told: its pending count falls (R87, R103). -/
def cueTold (id : FiringId) (s : State) : State :=
  completeIfDone id (mark .cue (updEntry id (fun e => { e with pending := e.pending - 1 }) s))

/-- A move of a cue was malformed or its PLAY failed; counted while the cue is running (R84). -/
def cueFailed (id : FiringId) (s : State) : State :=
  mark .cue (updEntry id (fun e => { e with failed := e.failed + 1 }) s)

def cuePlaced (id : FiringId) (s : State) : State :=
  mark .cue (updEntry id (fun e => { e with pending := e.pending + 1 }) s)

def cueCrushed (id : FiringId) (s : State) : State :=
  mark .cue (updEntry id (fun e => { e with crushed := e.crushed + 1 }) s)

/-! ## Asking for a firing -/

/-- A firing begins: its reads are asked for (R83, R178). -/
def askFiring (c : FireCause) (s : State) : State :=
  askRead .firing { s with seq := { s.seq with firing := some { cause := c, view := none } } }

/-- The outcome of an edge or a GO of the line, by engine, pause and standby (R90, R92). -/
def lineOutcome (s : State) (t : Option LineId) : LineOutcome :=
  if s.engine ≠ .loaded then .notReady
  else if s.seq.pause then .paused
  else match s.seq.standby with
    | none => .ended
    | some st =>
      match t with
      | none => .fired
      | some t => if st.trigger = .line t then .fired else .notStandby

def standbyNumber (s : State) : Nat := (s.seq.standby.map (·.number)).getD 0

/-- The detail words of a GO or TRIGGER cell (R97, R191). -/
def lineDetails (s : State) (t : Option LineId) (o : LineOutcome) (id : Option FiringId) : List Word :=
  [placeCode (Config.code (.lineOutcome o)) 0 8 ||| place (t.elim 0 (·.val)) 8,
    wordOf (id.elim 0 (·.number)), wordOf (id.elim 0 (·.serial)), wordOf (standbyNumber s),
    wordOf (engineCode s.engine)]

/-- A GO of the line or an edge of a trigger line is captured in its cell (R97). -/
def captureLine (t : Option LineId) (o : LineOutcome) (id : Option FiringId) (s : State) : State :=
  captureEvent (t.elim goCell triggerCell) (lineDetails s t o id) s

end Sys2Proof.Machine
end

