-- ==== Sys2Proof/Machine/Voices.lean ====
section
/-! DEFINITION. The voice player and fetch unit: sound records, fetching, priming, playing out, entries
to IDLE and the notices of stop fades (chapter 7). Taking a PLAY needs a cut and stands in Fades.lean. -/

namespace Sys2Proof.Machine

/-! ## Sound records -/

def readSound (m : Memory) (base n : Nat) : RawSound :=
  Config.soundRecord (Memory.readWords m (base + 16 * n) 4)

inductive SoundJudged where
  | unknown | empty | usable (c : SoundCopy)
  deriving DecidableEq, Repr, Inhabited

/-- Whether the loop of a sound is in effect (R118). -/
def loopInEffect (flag : Bool) (r : RawSound) : Bool :=
  match r.loopStart, r.loopEnd with
  | some a, some b => flag && decide (a < b) && decide (b ≤ r.count)
  | _, _ => false

/-- A record of sound `n` judged for a PLAY with this loop flag (R118). A record of frame count 0 fits both
Unknown and Empty when its start lies past the installed memory, where it is taken as Empty, and when its
start is no multiple of 4, where it is taken as Unknown: the model's choices (log 48). -/
def judgeRecord (memSize n : Nat) (flag : Bool) (r : RawSound) : SoundJudged :=
  if n > 1023 ∨ r.start % 4 ≠ 0 ∨ (r.count > 0 ∧ memSize ≤ r.start + 4 * (r.count - 1)) then .unknown
  else if r.count = 0 then .empty
  else .usable
    { number := n, start := r.start, count := r.count, loopStart := r.loopStart.getD 0,
      loopEnd := r.loopEnd.getD 0, looping := loopInEffect flag r }

def judgeSound (s : State) (view : Memory) (n : Nat) (flag : Bool) : SoundJudged :=
  judgeRecord s.memSize n flag (readSound view s.tables.sounds n)

/-- The turn of a sound record that is read at the PLAY that names it (R118, R178; log 15). With `view` the
record is among the reads of a firing, and a number past the directory reads none. -/
def askSound (view : Option Memory) (n : Nat) (s : State) : State :=
  if view.isNone ∧ n ≤ 1023 then askRead .record s else s

/-! ## States -/

/-- A voice plays out while PLAYING, or STOPPING with resume state PLAYING (R126). -/
def Voice.playsOut (v : Voice) : Bool :=
  v.state == .playing || (v.state == .stopping && v.resume == .playing)

/-- PRIMING, or STOPPING with resume state PRIMING (R123, R128). -/
def Voice.isPriming (v : Voice) : Bool :=
  v.state == .priming || (v.state == .stopping && v.resume == .priming)

/-! ## Fetching -/

/-- A sound played once has a frame to fetch below its frame count, a looping one always (R124). -/
def Voice.hasFrame (v : Voice) : Bool := v.sound.looping || decide (v.fetchPos < v.sound.count)

/-- The frames before the end of what is fetched in one run: the loop end or the frame count (R124). -/
def Voice.runEnd (v : Voice) : Nat := if v.sound.looping then v.sound.loopEnd else v.sound.count

/-- The size of the burst at the fetch position: at most 64 frames, to the next 256-byte boundary, to
the end of the run (R124). -/
def Voice.burstSize (v : Voice) : Nat :=
  let addr := v.sound.start + 4 * v.fetchPos
  min 64 (min ((256 - addr % 256) / 4) (v.runEnd - v.fetchPos))

/-- The fetch position past the burst; at the loop end it becomes the loop start (R124). -/
def Voice.pastBurst (v : Voice) : Nat :=
  if v.sound.looping ∧ v.fetchPos + v.burstSize = v.sound.loopEnd then v.sound.loopStart
  else v.fetchPos + v.burstSize

/-- A fetching voice requests its next burst when it has none outstanding, 64 frames are free and there
is a frame to fetch (R124). -/
def Voice.request (v : Voice) : Voice :=
  if v.state ≠ .idle ∧ v.outstanding = none ∧ v.buffer.length + 64 ≤ 512 ∧ v.hasFrame then
    { v with outstanding := some { first := v.fetchPos, size := v.burstSize }, fetchPos := v.pastBurst }
  else v

/-- A burst is urgent while fewer than 128 frames are buffered (R124). -/
def Voice.urgent (v : Voice) : Bool := decide (v.buffer.length < 128)

/-- The voice's granted burst, if any, becomes stale; one not yet granted is withdrawn with the
voice's record of it (R121, R125). -/
def staleBurst (v : VoiceId) (s : State) : State :=
  { s with arb := { s.arb with busy := match s.arb.busy with
      | some (.fetch w a n st) => some (.fetch w a n (st || w == v))
      | x => x } }

/-- Buffer emptied, burst withdrawn or to be discarded, stop record and start pending cleared (R121). Every
entry to IDLE comes through here: that start pending is cleared at each of them, and the stop record also at
a release and at STOP_SHOW, is the model's choice (log 49). -/
def flushVoice (v : VoiceId) (s : State) : State :=
  staleBurst v (updVoice v (fun x => { x with
    buffer := [], outstanding := none, stopRec := none, startPending := false }) s)

/-! ## Entries to IDLE -/

/-- The voice enters IDLE and the page and call unit is told (R123, R126, R130; log 49). -/
def enterIdle (v : VoiceId) (s : State) : State :=
  mark .voices (tell (.voiceIdle v s.voices[v].owner)
    (updVoice v (fun x => { x with state := .idle, owner := .none, signal := 0#24 })
      (flushVoice v s)))

/-- The last frame of a sound played once has been played (R126): its signal stands for this frame. -/
def Voice.endDue (v : Voice) : Bool :=
  v.playsOut && !v.sound.looping && decide (v.sound.count ≤ v.playPos)

def endSound (v : VoiceId) (s : State) : State :=
  updVoice v (fun x => { x with signal := s.voices[v].signal }) (enterIdle v s)

/-! ## Priming -/

/-- Priming ends at 256 frames, or at all the frames of a sound played once (R123). -/
def Voice.primed (v : Voice) : Bool :=
  v.isPriming && (decide (256 ≤ v.buffer.length)
    || (!v.sound.looping && decide (v.sound.count ≤ v.playPos + v.buffer.length)))

/-- What priming ends in: PRIMED for a call's voice that is not yet to start, else PLAYING (R123). -/
def Voice.afterPriming (v : Voice) : VoiceState :=
  match v.owner with
  | .call _ => if v.startPending then .playing else .primed
  | _ => .playing

/-- Priming ends. Start pending is then used up: that it is cleared here, and not only by the flush of
R121, is the model's choice (R123; log 49). -/
def Voice.endPriming (v : Voice) : Voice :=
  if v.state = .stopping then { v with resume := v.afterPriming, startPending := false }
  else { v with state := v.afterPriming, startPending := false }

/-- Priming ends once it may. A change of the resume state alone, of a STOPPING voice, hands the area over
like a change of state, the model's choice (R133; log 50). -/
def primingStep (v : VoiceId) (s : State) : State :=
  if s.voices[v].primed then mark .voices (updVoice v Voice.endPriming s) else s

/-- The owning call starts its voice (R123). Of a STOPPING voice the resume state changes, which hands the
area over (R133; log 50). -/
def startVoice (c : CallId) (v : VoiceId) (s : State) : State :=
  if s.voices[v].owner = .call c then
    match s.voices[v].state with
    | .primed => mark .voices (updVoice v (fun x => { x with state := .playing }) s)
    | .priming => updVoice v (fun x => { x with startPending := true }) s
    | .stopping =>
      mark .voices (updVoice v (fun x => { x with resume := .playing }) s)
    | _ => s
  else s

/-- The owning call releases its voice, which enters IDLE (R123). -/
def releaseVoice (c : CallId) (v : VoiceId) (s : State) : State :=
  if s.voices[v].owner = .call c ∧ s.voices[v].state ≠ .idle then enterIdle v s else s

/-! ## Stop fades -/

/-- A record has become the voice's stop fade (R128). A second STOP of a STOPPING voice hands the area over
though neither state nor owner changes, the model's choice (R133; log 50). -/
def voiceStopping (v : VoiceId) (rec : RecId) (s : State) : State :=
  if s.voices[v].state = .idle then s
  else mark .voices (updVoice v (fun x => { x with
    state := .stopping
    resume := if x.state = .stopping then x.resume else x.state
    stopRec := some rec }) s)

/-- The stop has completed: by a cut or at once whatever the stop record, else only for the voice's stop
record (R130). -/
def stopCompleted (v : VoiceId) (rec : Option RecId) (atOnce : Bool) (s : State) : State :=
  if s.voices[v].state = .idle then s
  else if atOnce ∨ (rec ≠ none ∧ s.voices[v].stopRec = rec) then enterIdle v s
  else s

/-- The stop was taken over: the voice returns to its resume state (R130). -/
def stopTakenOver (v : VoiceId) (rec : RecId) (s : State) : State :=
  if s.voices[v].stopRec = some rec then
    mark .voices (updVoice v (fun x => { x with
      state := if x.state = .stopping then x.resume else x.state
      stopRec := none }) s)
  else s

/-! ## Playing out, at the beginning of a frame -/

/-- The play position after one frame (R126). -/
def Voice.nextPos (v : Voice) : Nat :=
  if v.sound.looping ∧ v.playPos + 1 = v.sound.loopEnd then v.sound.loopStart else v.playPos + 1

/-- One frame of a voice: the head of the buffer, or an underrun, or 0 (R120, R126, R127). -/
def Voice.frame (v : Voice) : Voice :=
  if v.playsOut then
    match v.buffer with
    | x :: rest => { v with signal := x, buffer := rest, playPos := v.nextPos, underran := false }
    | [] => { v with signal := 0#24, underruns := sat16 v.underruns, underran := true }
  else { v with signal := 0#24, underran := false }

/-- An underrun follows a frame without one (R133). -/
def Voice.underrunBegins (v : Voice) : Bool := v.playsOut && v.buffer.isEmpty && !v.underran

def voicesFrame (s : State) : State :=
  let s' := { s with voices := mapVec (fun v => v.frame.request) s.voices }
  if s.voices.toList.any (·.underrunBegins) then mark .voices s' else s'

end Sys2Proof.Machine
end

