-- ==== Sys2Proof/Machine/Zones.lean ====
section
/-! DEFINITION. The zone controller: demand, the power sequence, faults, the relay switch, pages carried
and the zone gates (chapter 8). -/

namespace Sys2Proof.Machine

/-- A stability window of 255 means always powered (R134, R137). -/
def Zone.alwaysPowered (z : Zone) : Bool := z.cfg.stability == 255

/-- A sample window of 255 leaves a LIVE zone unsupervised (R139). -/
def Zone.supervised (z : Zone) : Bool := z.cfg.sample != 255

/-! ## Power -/

/-- The idle timer of a zone with no demand, in frames: none for an idle time of 0 or an always-powered
zone (R1, R140). -/
def Zone.idleTimer (z : Zone) : Option Nat :=
  if z.cfg.idle = 0 ∨ z.alwaysPowered then none else some (framesOf (1000 * z.cfg.idle))

/-- The entry to LIVE: false-run count 0, the idle timer started when there is no demand (R139). AMP_OK of the
tick of entry does not count in the false run, which begins at the next tick: the model's choice (log 60). -/
def zoneEnterLive (z : ZoneId) (s : State) : State :=
  mark .zones (tell (.zoneLive z) (updZone z (fun x => { x with
    state := .live, falseRun := 0, timer := if x.demand then none else x.idleTimer }) s))

/-- The end of POWERING: CHECKING for a sample window of 1 to 254, LIVE for 0 or 255 (R139). -/
def stabilityEnd (z : ZoneId) (s : State) : State :=
  let w := s.zones[z].cfg.sample
  if w = 0 ∨ w = 255 then zoneEnterLive z s
  else mark .zones (updZone z (fun x => { x with state := .checking, timer := some (10 * w) }) s)

/-- An OFF zone is powered: into POWERING, or, with a window of 0 or always powered, past it at once.
While the engine is STOPPED no zone is powered (R137, R147). -/
def powerZone (z : ZoneId) (s : State) : State :=
  if s.engine = .stopped then s
  else
    let w := s.zones[z].cfg.stability
    let s := mark .zones (updZone z (fun x => { x with
      ampen := true, state := .powering, timer := some (10 * w) }) s)
    if w = 0 ∨ w = 255 then stabilityEnd z s else s

/-- Demand is re-judged after a change of the relay flag or of the page carried; `before` is the demand
there was (R137). -/
def rejudge (z : ZoneId) (before : Bool) (s : State) : State :=
  let x := s.zones[z]
  match x.state with
  | .off => if (x.demand && !before) || x.alwaysPowered then powerZone z s else s
  | .live =>
    if x.demand && !before then updZone z (fun y => { y with timer := none }) s
    else if !x.demand && before then updZone z (fun y => { y with timer := y.idleTimer }) s
    else s
  | _ => s

/-- Into OFF with AMPEN off, no timer and false-run count 0 (R136, R140, R142, R147). R140 does not name the
count: that an expiry of the idle timer clears it, too, is the model's choice (log 63). -/
def zoneOff (z : ZoneId) (s : State) : State :=
  mark .zones (updZone z (fun x => { x with
    state := .off, ampen := false, timer := none, falseRun := 0 }) s)

/-- An OFF zone that has demand or is always powered is powered (R136, R142). -/
def powerIfWanted (z : ZoneId) (s : State) : State :=
  if s.zones[z].demand ∨ s.zones[z].alwaysPowered then powerZone z s else s

/-! ## Gates -/

def commandDuck (z : ZoneId) (on : Bool) (s : State) : State :=
  commandGate (.duck z) (if on then -(s.zones[z].cfg.duckDepth : Int) else 0) s.zones[z].cfg.duckRamp s

/-- The priority of the page a zone carries. -/
def carriedPriority (s : State) (z : ZoneId) : Option (Fin 4) :=
  s.zones[z].page.bind fun p => s.pages[p].map (·.priority)

/-- The page hold gate is closed when HELD, unless the zone carries a priority-3 page (R145). -/
def pageHoldClosed (held : Bool) (prio : Option (Fin 4)) : Bool := held && prio != some 3

/-- A zone's hold state is derived anew and its hold gates commanded (R145). -/
def zoneHold (z : ZoneId) (s : State) : State :=
  let held := heldBy s s.zones[z].cfg.holdMask
  let opt := s.zones[z].cfg.holdRamp
  let s := updZone z (fun x => { x with held := held }) s
  let s := commandGate (.relayHold z) (if held then -480 else 0) opt s
  commandGate (.pageHold z)
    (if pageHoldClosed held (carriedPriority s z) then -480 else 0) opt s

/-! ## Pages carried -/

/-- A zone begins to carry a page of this priority: demand, duck gate, page hold gate (R137, R144,
R145). A ramp of either gate that had just ended makes no hand-over of its own (R148; log 45). -/
def beginCarry (z : ZoneId) (p : PageId) (prio : Fin 4) (s : State) : State :=
  let before := s.zones[z].demand
  let s := updZone z (fun x => { x with
    page := some p, pageHold := Gate.setTo (!pageHoldClosed x.held (some prio)) }) s
  mark .zones (rejudge z before (commandDuck z true s))

/-- A zone stops carrying a page and carries none (R144, R145, R154). A ramp of either gate that had just
ended makes no hand-over of its own (R148; log 45). -/
def endCarry (z : ZoneId) (s : State) : State :=
  let before := s.zones[z].demand
  let s := updZone z (fun x => { x with
    page := none, pageHold := Gate.setTo (!pageHoldClosed x.held none) }) s
  mark .zones (rejudge z before (commandDuck z false s))

/-! ## Faults -/

/-- The detail words of the ZONE cell (R141, R191); 4 stands for no page. R191 numbers no relay flag: 1 stands
for ON and 0 for OFF, the model's choice (log 43). -/
def zoneDetails (z : ZoneId) (cause : ZoneFaultCause) (prior : ZoneState) (page : Option PageId)
    (relay : Bool) : List Word :=
  [wordOf z, Config.code (.zoneCause cause), Config.code (.zoneState prior),
    wordOf (page.elim 4 (·.val)), wordOf (bitOf relay)]

/-- ZONE is latched unless the zone's or the show header's mask is set (R141). -/
def latchZone (z : ZoneId) (s : State) : State :=
  updNotice (fun n => { n with
    zone := n.zone || !(s.zones[z].cfg.faultMask || s.header.zoneMask) }) s

/-- An entry to FAULT (R141). -/
def zoneFault (z : ZoneId) (cause : ZoneFaultCause) (prior : ZoneState) (s : State) : State :=
  let page := s.zones[z].page
  let relay := s.zones[z].relay
  let s := updZone z (fun x => { x with
    state := .fault, ampen := false, timer := none, faults := sat16 x.faults }) s
  let s := latchZone z s
  let s := captureEvent zoneCell (zoneDetails z cause prior page relay) s
  let s := match page with
    | none => s
    | some p => tell (.zoneLost p z) (endCarry z s)
  mark .zones (commandDuck z false s)

/-! ## The relay switch -/

/-- A member's relay flag takes the switch; a change is re-judged (R138). -/
def setRelay (on : Bool) (z : ZoneId) (s : State) : State :=
  if s.zones[z].relay = on then s
  else
    let before := s.zones[z].demand
    mark .zones (rejudge z before (updZone z (fun x => { x with relay := on }) s))

def inGroup (s : State) (g : Fin 8) (z : ZoneId) : Bool := s.zoneGroups[g].getLsbD z

/-- A RELAY action on a zone group (R138). -/
def relayAction (g : Fin 8) (on : Bool) (s : State) : State :=
  forEach 24 (fun z s => if inGroup s g z then setRelay on z s else s) s

end Sys2Proof.Machine
end

