-- ==== Sys2Proof/Machine/Fades.lean ====
section
/-! DEFINITION. The fade engine: how records are placed, act, advance and leave, cuts and takeovers
(chapter 6), and the taking of a PLAY (R121), which cuts the voice's level. -/

namespace Sys2Proof.Machine

/-! ## Records -/

/-- The element of a LEVEL record. -/
def FadeRec.elem? (r : FadeRec) : Option Elem :=
  match r.content with
  | .level e _ _ => some e
  | _ => none

/-- The place of the FADING record of an element, other than place `except` (R109). -/
def fadingOf (s : State) (e : Elem) (except : Option RecId) : Option RecId :=
  (List.finRange 128).find? fun i =>
    some i != except && match s.fades[i] with
      | some r => r.fading && r.elem? == some e
      | none => false

/-- A free place; which one is not observable, the lowest is taken (log 18). -/
def freePlace (s : State) : Option RecId :=
  (List.finRange 128).find? fun i => s.fades[i].isNone

/-! ## Leaving the table -/

/-- The ways of leaving (R103); `atOnce` marks a completion by a cut or by execution at once. -/
inductive Leave where
  | completed (atOnce : Bool)
  | takenOver
  deriving DecidableEq, Repr

def setTap (r : RoleId) (t : TapId) (x : TapState) (s : State) : State :=
  mark .roles (updRole r (fun o => { o with taps := o.taps.set t x }) s)

/-- A CAST fade has ended: with target OFF the tap is IDLE, else ACTIVE at 0 (R31). -/
def castEnd (r : RoleId) (t : TapId) (target : Level) (s : State) : State :=
  if target = .off then setTap r t .idle (setElem (.tap r t) .off s)
  else setTap r t .active (setElem (.tap r t) (.steps 0) s)

/-- The owner is told (R103). -/
def ownerTold (r : FadeRec) (how : Leave) (s : State) : State :=
  match r.owner with
  | .request => s
  | .firing id => cueTold id s
  | .cast =>
    match how, r.content with
    | .completed _, .level (.tap ro t) target _ => castEnd ro t target s
    | _, _ => s

/-- The voice player is told of a stop fade's end (R103, R130). -/
def stopTold (i : RecId) (r : FadeRec) (how : Leave) (s : State) : State :=
  match r.stopMark with
  | none => s
  | some v =>
    match how with
    | .completed atOnce => stopCompleted v (some i) atOnce s
    | .takenOver => stopTakenOver v i s

/-- A record leaves the table: its place is free, and its owner and the voice player are told (R103). -/
def leaveTable (i : RecId) (how : Leave) (s : State) : State :=
  match s.fades[i] with
  | none => s
  | some r =>
    let s := setFade i none s
    let s := if how = .takenOver then { s with takenOver := sat16 s.takenOver } else s
    stopTold i r how (ownerTold r how s)

/-- Any FADING record of the element but the one at `except` is taken over (R109). -/
def takeOver (e : Elem) (except : Option RecId) (s : State) : State :=
  match fadingOf s e except with
  | none => s
  | some i => leaveTable i .takenOver s

/-! ## Cuts -/

/-- A cut with no record behind it (R108). -/
def cut (e : Elem) (target : Level) (s : State) : State := setElem e target (takeOver e none s)

/-- A cut by a record, which leaves as completed (R108). -/
def cutBy (i : RecId) (e : Elem) (target : Level) (s : State) : State :=
  leaveTable i (.completed true) (setElem e target (takeOver e (some i) s))

/-! ## Starting a fade -/

/-- The time of a LEVEL record from its start to its target (R107): up for a target above the start,
down otherwise, own times first. -/
def FadeRec.chosenTime (r : FadeRec) (a b : Int) : Nat :=
  clampTime (if a < b then r.ownUp.getD r.upTime else r.ownDown.getD r.downTime)

/-- A LEVEL record at its delay expiry (R107). -/
def startFade (i : RecId) (r : FadeRec) (e : Elem) (target : Level) (curve : Curve) (s : State) :
    State :=
  let a := (s.level e).orFloor e.floor
  let T := r.chosenTime a (target.orFloor e.floor)
  if curve = .cut ∨ T = 0 then cutBy i e target s
  else
    let s := takeOver e (some i) (setElem e (.steps a) s)
    setFade i (some { r with fading := true, delayLeft := 0, start := a, time := T, elapsed := 0 }) s

/-! ## Taking a PLAY -/

inductive PlayEnd where
  | taken | busy | unknown | empty
  deriving DecidableEq, Repr

/-- A call learns that a cue or a VOICE_START takes its voice (R121 step 3). -/
def tellCut (v : VoiceId) (owner : VoiceOwner) (s : State) : State :=
  match s.voices[v].owner, owner with
  | .call c, .cue id => tell (.callCut c (.cue id)) s
  | .call c, .request => tell (.callCut c .request) s
  | _, _ => s

/-- R121 from step 3 on: the PLAY of a usable sound takes the voice. The area is handed over also where
state and owner come out as they were, at a restart of a PRIMING voice by the same owner: the model's
choice (R133; log 50). -/
def takePlay (v : VoiceId) (snd : SoundCopy) (start : Level) (owner : VoiceOwner) (s : State) : State :=
  let s := flushVoice v (tellCut v owner s)
  let s := updVoice v (fun x => { x with sound := snd, playPos := 0, fetchPos := 0, owner := owner }) s
  let s := cut (.voice v) start s
  mark .voices (updVoice v (fun x => { x with state := .priming, signal := 0#24 }.request) s)

/-- The voice player takes a PLAY (R121). Its sound record is read from `view`, the reads of a firing, or else
then and there (log 15). -/
def play (view : Option Memory) (v : VoiceId) (n : Nat) (start : Level) (loop : Bool) (owner : VoiceOwner)
    (s : State) : State × PlayEnd :=
  let s := askSound view n s
  match judgeSound s (view.getD s.mem) n loop with
  | .unknown => (s, .unknown)
  | .empty => (s, .empty)
  | .usable snd =>
    if owner.call?.isSome ∧ s.voices[v].state ≠ .idle then (s, .busy)
    else (takePlay v snd start owner s, .taken)

/-- The owner a fade record's PLAY gives its voice (R121). -/
def Owner.voiceOwner : Owner → VoiceOwner
  | .firing id => .cue id
  | _ => .request

/-- A PLAY of a move: a failure adds to its cue's failed count while the cue is running (R84, R121). -/
def playMove (view : Option Memory) (v : VoiceId) (n : Nat) (start : Level) (loop : Bool) (owner : Owner)
    (s : State) : State :=
  match play view v n start loop owner.voiceOwner s with
  | (s, .taken) => s
  | (s, _) =>
    match owner with
    | .firing id => cueFailed id s
    | _ => s

/-- A stop without a record: the voice's level is cut to OFF and the voice told (R106, R112, R128). -/
def stopCut (v : VoiceId) (s : State) : State :=
  if s.voices[v].state = .idle then s
  else stopCompleted v none true (cut (.voice v) .off s)

/-! ## Acting -/

/-- A record becomes the stop fade of its voice (R106). -/
def FadeRec.asStop (r : FadeRec) (v : VoiceId) (time : Nat) : FadeRec :=
  { r with content := .level (.voice v) .off .steps, upTime := time, downTime := time,
           ownUp := none, ownDown := none, stopMark := some v }

/-- A STOP at its delay expiry, the voice not IDLE (R106). -/
def startStop (i : RecId) (r : FadeRec) (v : VoiceId) (time : Nat) (s : State) : State :=
  let r := r.asStop v (clampTime time)
  let s := setFade i (some r) s
  if clampTime time = 0 then cutBy i (.voice v) .off s
  else voiceStopping v i (startFade i r (.voice v) .off .steps s)

/-- A record acts at its delay expiry (R105 to R107). -/
def actRecord (view : Option Memory) (i : RecId) (s : State) : State :=
  match s.fades[i] with
  | none => s
  | some r =>
    match r.content with
    | .level e target curve => startFade i r e target curve s
    | .play v n start loop => playMove view v n start loop r.owner (leaveTable i (.completed false) s)
    | .relay g on => relayAction g on (leaveTable i (.completed false) s)
    | .stop v time =>
      if s.voices[v].state = .idle then leaveTable i (.completed false) s
      else startStop i r v time s

/-- A force-completion or COMPLETE_ALL executes a record (R112). A DELAYED STOP leaves the table before its
cut is made, the model's choice: where the cut takes over the fade of another cue and both cues complete,
that one is the last completed (log 54). -/
def executeRecord (view : Option Memory) (i : RecId) (s : State) : State :=
  match s.fades[i] with
  | none => s
  | some r =>
    match r.content with
    | .level e target _ =>
      if r.fading then leaveTable i (.completed true) (setElem e target s) else cutBy i e target s
    | .stop v _ => stopCut v (leaveTable i (.completed true) s)
    | .play .. => actRecord view i s
    | .relay .. => actRecord view i s

/-- A crushed move acts at once (R84, R106). -/
def actCrushed (view : Option Memory) (owner : Owner) (c : Content) (s : State) : State :=
  match c with
  | .level e target _ => cut e target s
  | .play v n start loop => playMove view v n start loop owner s
  | .relay g on => relayAction g on s
  | .stop v _ => stopCut v s

/-! ## Placing without a firing -/

/-- A LEVEL record placed with delay 0 by a request or a swap (R104). -/
def levelRec (owner : Owner) (e : Elem) (target : Level) (time : Nat) (stopMark : Option VoiceId) :
    FadeRec :=
  { fading := false, owner := owner, content := .level e target .steps, upTime := time,
    downTime := time, ownUp := none, ownDown := none, runIndex := none, delayLeft := 0, start := 0,
    time := 0, elapsed := 0, stopMark := stopMark }

/-- The place a placement by SET_LEVEL, a swap or VOICE_STOP takes: that of the element's FADING record,
else a free one (R104). -/
def placeFor (s : State) (e : Elem) : Option RecId :=
  match fadingOf s e none with
  | some i => some i
  | none => freePlace s

/-- A record is put in its place, the FADING record of its element taken over, and acts at once (R104,
R107). A record that takes a FADING record's place leaves as many in use as before: that the leaving of the one
and the placing of the other are each a change of the records in use, which hands the counters over also where the
taken-over counter stands at 65 535, is the model's choice (R117; log 65). -/
def placeFade (i : RecId) (r : FadeRec) (e : Elem) (target : Level) (s : State) : State :=
  let s := takeOver e none s
  startFade i r e target .steps (setFade i (some r) s)

/-! ## Advancing at a tick -/

/-- A record owned by a firing is frozen while the pause flag is set (R111). -/
def frozen (s : State) (r : FadeRec) : Bool :=
  s.seq.pause && match r.owner with
    | .firing _ => true
    | _ => false

/-- One tick of one record: its delay left falls, or its fade advances (R105, R110). At the end of a
delay or a fade the record waits for DELAY_EXPIRY or FADE_COMPLETE. -/
def tickRecord (i : RecId) (s : State) : State :=
  match s.fades[i] with
  | none => s
  | some r =>
    if frozen s r then s
    else if r.fading then
      if r.elapsed < r.time then
        let s := setFade i (some { r with elapsed := r.elapsed + 1 }) s
        match r.content with
        | .level e _target _ =>
          if r.elapsed + 1 < r.time then
            setElem e (.steps (fadeValue r.start (_target.orFloor e.floor) r.time (r.elapsed + 1))) s
          else s
        | _ => s
      else s
    else setFade i (some { r with delayLeft := r.delayLeft - 1 }) s

/-- A DELAYED record whose delay left is 0 (R105). -/
def delayDue (s : State) (i : RecId) : Bool :=
  match s.fades[i] with
  | some r => !r.fading && r.delayLeft == 0 && !frozen s r
  | none => false

/-- A FADING record whose elapsed time has reached its time (R110). -/
def fadeDue (s : State) (i : RecId) : Bool :=
  match s.fades[i] with
  | some r => r.fading && decide (r.time ≤ r.elapsed) && !frozen s r
  | none => false

/-- The end of a fade: the target is written and the record leaves as completed (R110). -/
def completeFade (i : RecId) (s : State) : State :=
  match s.fades[i] with
  | none => s
  | some r =>
    match r.content with
    | .level e target _ => leaveTable i (.completed false) (setElem e target s)
    | _ => leaveTable i (.completed false) s

end Sys2Proof.Machine
end

