-- ==== Sys2Proof/Machine/Cast.lean ====
section
/-! DEFINITION. The cast block: swaps, SWAP_TAP and automatic spare failover (chapter 2). -/

namespace Sys2Proof.Machine

/-- The partner of a tap in its pair (R21, R33). -/
def pairOf (t : TapId) : TapId :=
  match t with
  | 0 => 1
  | 1 => 0
  | 2 => 3
  | 3 => 2

/-- One fade of a swap: a CAST record, or, with a time of 0 or no place for it, made at once with the
tap's end state (R29, R30). A fade of time 0 places no record for the moment and so changes no count of
records in use, the model's choice (R104, R117; log 53). -/
def castFade (r : RoleId) (t : TapId) (target : Level) (time : Nat) (s : State) : State :=
  if time = 0 then castEnd r t target (cut (.tap r t) target s)
  else
    match placeFor s (.tap r t) with
    | some i => placeFade i (levelRec .cast (.tap r t) target time none) (.tap r t) target s
    | none => castEnd r t target (cut (.tap r t) target s)

/-- A swap of a role to a tap (R29). -/
def swapTo (r : RoleId) (t : TapId) (time : Nat) (s : State) : State :=
  let s :=
    match s.roles[r].active with
    | some old => castFade r old .off time (setTap r old .fadingOut s)
    | none => s
  castFade r t (.steps 0) time (setTap r t .fadingIn s)

/-! ## SWAP_TAP -/

def wordsOf (a b c d : Word) : Vector Word 4 := ⟨⟨[a, b, c, d]⟩, rfl⟩

def noWords : Vector Word 4 := wordsOf 0#32 0#32 0#32 0#32

/-- Result word `k` where the rule gives none (log 39). -/
def rest (s : State) (k : Nat) : Word := Config.restWord s.freeCount k

def restWords (s : State) : Vector Word 4 := wordsOf (rest s 0) (rest s 1) (rest s 2) (rest s 3)

def answer (code : ResultCode) (words : Vector Word 4) : Answer := { code := code, words := words }

def refuse (code : ResultCode) : Answer := answer code noWords

def channelStateWord (s : State) (c : Channel) : Word :=
  Config.code (.channelState s.channels[c].state)

/-- The cast block answers a SWAP_TAP (R28). -/
def swapTapOwner (role tap time : Nat) (s : State) : State × Answer :=
  match fin? 96 role, fin? 4 tap with
  | some r, some t =>
    match s.roles[r].cfg.taps[t] with
    | none => (s, refuse .badArgument)
    | some c =>
      let old := s.roles[r].active
      if old = some t then
        (s, answer .ok (wordsOf (wordOf t) (channelStateWord s c) (Config.code .noTap) (rest s 3)))
      else
        match carriedElsewhere s r c with
        | some q => (s, answer .conflict (wordsOf (wordOf q) (channelStateWord s c) (rest s 2) (rest s 3)))
        | none =>
          (swapTo r t (clampTime time) s,
            answer .ok (wordsOf (wordOf t) (channelStateWord s c)
              (old.elim (Config.code .noTap) fun o => wordOf o.val) (rest s 3)))
  | _, _ => (s, refuse .badArgument)

/-! ## Automatic spare failover -/

/-- The role whose active tap is on the channel (R33). -/
def roleActiveOn (s : State) (c : Channel) : Option RoleId :=
  (List.finRange 96).find? fun r =>
    match s.roles[r].active with
    | some t => s.roles[r].cfg.taps[t] == some c
    | none => false

/-- The paired tap's channel is LIVE and no other role carries it (R33). -/
def spareAvailable (s : State) (r : RoleId) (t : TapId) : Bool :=
  match s.roles[r].cfg.taps[pairOf t] with
  | none => false
  | some c => s.channels[c].state == .live && (carriedElsewhere s r c).isNone

/-- The cast block is handed an entry of a channel to LOST; nothing happens while STOPPED (R33, R36). The
roles area is handed over also where the count of an unavailable spare already stands at its end, the
model's choice (R37; log 52). -/
def spareFailover (c : Channel) (s : State) : State :=
  if s.engine = .stopped then s
  else
    match roleActiveOn s c with
    | none => s
    | some r =>
      if s.roles[r].cfg.autoSpare then
        match s.roles[r].active with
        | none => s
        | some t =>
          if spareAvailable s r t then swapTo r (pairOf t) s.roles[r].cfg.spareTime s
          else mark .roles (updRole r (fun x => { x with unavailable := sat16 x.unavailable }) s)
      else s

/-- STOP_SHOW finishes every crossfade of a role (R36). -/
def finishTap (r : RoleId) (t : TapId) (s : State) : State :=
  match s.roles[r].taps[t] with
  | .fadingOut => setTap r t .idle (setElem (.tap r t) .off s)
  | .fadingIn => setTap r t .active (setElem (.tap r t) (.steps 0) s)
  | _ => s

def finishCrossfades (s : State) : State :=
  forEach 96 (fun r s => forEach 4 (fun t s => finishTap r t s) s) s

end Sys2Proof.Machine
end

