-- ==== Sys2Proof/Machine/Channels.lean ====
section
/-! DEFINITION. The stage link receivers and the channel supervisor (chapter 1). -/

namespace Sys2Proof.Machine

/-! ## Deframing -/

/-- The audio slots and status of eighteen link words (R6). -/
def frameOfWords (w : Vector Word 18) : LinkFrame :=
  { slots := tabulate fun i => (w[i.val + 1]'(by omega)).extractLsb' 8 24, status := w[17] }

def syncWord (w : Vector Word 18) : Bool := w[0].extractLsb' 8 24 == 0x5A3C96#24
def frameCount (w : Vector Word 18) : BitVec 8 := w[0].extractLsb' 0 8

/-- A frame is good when it carries the sync pattern and a count one above the reference count (R7). -/
def goodFrame (ref : Option (BitVec 8)) (w : Vector Word 18) : Bool :=
  syncWord w && match ref with
    | some c => frameCount w == c + 1#8
    | none => false

/-- The counts after a good frame (R9); the eighth of a run waits for RECEIVER_LOCKED. -/
def Receiver.countGood (r : Receiver) : Receiver :=
  if r.locked then { r with bad := 0 } else { r with good := min (r.good + 1) 8 }

/-- The counts after a bad frame (R9); the fourth of a run waits for RECEIVER_UNLOCKED. -/
def Receiver.countBad (r : Receiver) : Receiver :=
  if r.locked then { r with bad := min (r.bad + 1) 4 } else { r with good := 0 }

/-- A frame completes (R7 to R9): judged, counted, the reference count set, and presented if it is good
and the receiver locked. -/
def Receiver.take (r : Receiver) (w : Vector Word 18) : Receiver :=
  let r' := if goodFrame r.ref w then
      let f := frameOfWords w
      { r.countGood with incoming := f, presented := if r.locked then f else r.presented }
    else r.countBad
  { r' with ref := if syncWord w then some (frameCount w) else r.ref, completed := true }

def Receiver.lockDue (r : Receiver) : Bool := !r.locked && r.good == 8
def Receiver.unlockDue (r : Receiver) : Bool := r.locked && r.bad == 4

/-- LOCKED with both counts 0, the frame that completed the run presented (R9). -/
def Receiver.lock (r : Receiver) : Receiver :=
  { r with locked := true, good := 0, bad := 0, presented := r.incoming }

/-- UNLOCKED with both counts 0, the silent frame presented (R8, R9). -/
def Receiver.unlock (r : Receiver) : Receiver :=
  { r with locked := false, good := 0, bad := 0, presented := .silent }

/-! ## Gates and reports -/

/-- The supervision gate at an entry to LOST or to LIVE (R16). -/
def superviseGate (c : Channel) (isOpen : Bool) (s : State) : State :=
  if s.channels[c].cfg.autoMute then
    commandGate (.supervision c) (if isOpen then 0 else -480) s.channels[c].cfg.ramp s
  else s

/-- INPUT is latched unless the channel's mask for the report or the header's is set (R17, R18). -/
def latchInput (masked : Bool) (s : State) : State :=
  updNotice (fun n => { n with input := n.input || !(masked || s.header.inputMask) }) s

/-- The detail words of the INPUT cell (R17, R18, R191). -/
def inputDetails (battery : Bool) (c : Channel) (st : ChannelState) (cause : Option LossCause) :
    List Word :=
  [placeCode (Config.code (.inputEvent battery)) 0 8 ||| place c.val 8,
    Config.code (.channelState st), Config.code (.lossCause cause)]

def setChannelState (c : Channel) (st : ChannelState) (timer : Option Nat) (s : State) : State :=
  mark .channels (updChannel c (fun x => { x with state := st, timer := timer }) s)

/-- The channel stands in LOST, its gate commanded (R16). -/
def standLost (c : Channel) (s : State) : State :=
  superviseGate c false (setChannelState c .lost none s)

/-- An entry to LOST is handed on: INPUT, the INPUT cell, the cast block (R17, R19). -/
def reportLost (c : Channel) (prior : ChannelState) (cause : LossCause) (s : State) : State :=
  let s := latchInput s.channels[c].cfg.lossMask s
  let s := captureEvent inputCell (inputDetails false c prior (some cause)) s
  spareFailover c s

/-- An entry of a used channel to LOST, with all its effects (R16, R17, R19). -/
def enterLost (c : Channel) (cause : LossCause) (s : State) : State :=
  reportLost c s.channels[c].state cause (standLost c s)

/-- An entry to LIVE from RETURNING, or from LOST with a hold time of 0 (R14, R16). -/
def enterLive (c : Channel) (s : State) : State :=
  superviseGate c true (setChannelState c .live none s)

/-! ## Events of a channel -/

def presentFalseDue (s : State) (c : Channel) : Bool :=
  !s.channels[c].present && (s.channels[c].state == .live || s.channels[c].state == .returning)

/-- PRESENT false in LIVE or RETURNING (R13, R14). R12 says that a channel set LOST at an install stays
silent in the reports until it has first been LIVE, and R14 with R17 that a drop while RETURNING is an
entry to LOST with its report: the model reports the drop of a channel that was never LIVE, too. DESIGN
CHOICE (log 44). -/
def presentFalse (c : Channel) (s : State) : State :=
  if s.channels[c].state = .returning then enterLost c .returnDrop s
  else if s.channels[c].cfg.confirm = 0 then enterLost c .confirm s
  else setChannelState c .suspect (some (framesOf s.channels[c].cfg.confirm)) s

def presentTrueDue (s : State) (c : Channel) : Bool :=
  s.channels[c].present && (s.channels[c].state == .suspect
    || (s.channels[c].state == .lost && s.rx[linkOf c].locked))

/-- PRESENT true in SUSPECT, or in LOST on a LOCKED link (R13, R14). -/
def presentTrue (c : Channel) (s : State) : State :=
  if s.channels[c].state = .suspect then setChannelState c .live none s
  else if s.channels[c].cfg.hold = 0 then enterLive c s
  else setChannelState c .returning (some (framesOf (10 * s.channels[c].cfg.hold))) s

def confirmDue (s : State) (c : Channel) : Bool :=
  s.channels[c].state == .suspect && s.channels[c].timer == some 0

def holdDue (s : State) (c : Channel) : Bool :=
  s.channels[c].state == .returning && s.channels[c].timer == some 0

/-- A low-battery edge is reported in every state but UNUSED (R18). -/
def batteryDue (s : State) (c : Channel) : Bool :=
  s.channels[c].edge && s.channels[c].state != .unused

/-- A low-battery edge latches INPUT unless masked, and is handed to the INPUT cell (R18). R12's silence of a
channel that was never LIVE meets R18's report in every state but UNUSED: the model reports its edge, too.
DESIGN CHOICE (log 44). -/
def batteryEdge (c : Channel) (s : State) : State :=
  let st := s.channels[c].state
  let s := updChannel c (fun x => { x with edge := false }) s
  let s := latchInput s.channels[c].cfg.batteryMask s
  captureEvent inputCell (inputDetails true c st none) s

/-- A channel of the link that an unlock sends to LOST (R15). -/
def lostWithLink (s : State) (l : Link) (c : Channel) : Bool :=
  linkOf c == l && (s.channels[c].state == .live || s.channels[c].state == .suspect
    || s.channels[c].state == .returning)

/-- The channels of an unlocked link that are LIVE, SUSPECT or RETURNING enter LOST at once, and then each
entry is handed on in ascending order, so that no channel of the link is a spare (R15, R35).
R12 says that a channel set LOST at an install stays silent in the reports until it has first been LIVE, and
R15 with R17 that an unlock which finds a channel RETURNING makes an entry to LOST with its report: the model
reports a channel that was never LIVE, too, with cause LINK. DESIGN CHOICE (log 44). -/
def linkLoss (l : Link) (s : State) : State :=
  let hit := fun c => lostWithLink s l c
  let after := forEach 64 (fun c s => if hit c then standLost c s else s) s
  forEach 64 (fun c t => if hit c then reportLost c s.channels[c].state .link t else t) after

def lockReceiver (l : Link) (s : State) : State := mark .channels (updRx l Receiver.lock s)

def unlockReceiver (l : Link) (s : State) : State :=
  linkLoss l (mark .channels (updRx l Receiver.unlock s))

/-! ## Reading the presented frames, once per frame of the sample clock -/

/-- What is read of a channel at a frame; a rising BATTERY_LOW bit is an edge (R8, R18). -/
def ChannelRec.read (x : ChannelRec) (f : LinkFrame) (slot : Fin 16) : ChannelRec :=
  { x with
    present := f.present slot
    battery := f.batteryLow slot
    sample := f.slots[slot]
    edge := f.batteryLow slot && !x.battery && x.state != .unused }

/-- Every channel is read from its link's presented frame as that stands when the frame begins: a link frame that
completes within the frame, or the silent frame of an unlock within it, is read with the next. R8 and R50 name no
moment of the frame. DESIGN CHOICE (log 68). -/
def readChannels (s : State) : State :=
  let s' := { s with channels := tabulate fun c =>
      s.channels[c].read s.rx[linkOf c].presented (slotOf c) }
  if (List.finRange 64).any fun c => s'.channels[c].battery != s.channels[c].battery
  then mark .channels s' else s'

/-! ## Install (R12) -/

/-- The gate of R16 for a state: closed in LOST and RETURNING with auto-mute on, else open. -/
def gateFor (autoMute : Bool) (st : ChannelState) : Gate :=
  Gate.setTo (!(autoMute && (st == .lost || st == .returning)))

/-- A channel takes its new record (R12). -/
def ChannelRec.install (x : ChannelRec) (cfg : ChannelCfg) (rx : Receiver) (slot : Fin 16) : ChannelRec :=
  if cfg.used = false then
    { x with cfg := cfg, state := .unused, timer := none, gate := .opened }
  else if x.state = .unused then
    let f := rx.presented
    let st : ChannelState := if rx.locked && f.present slot then .live else .lost
    { x with
      cfg := cfg, state := st, timer := none, gate := gateFor cfg.autoMute st
      present := f.present slot, battery := f.batteryLow slot, edge := false }
  else
    { x with
      cfg := cfg
      gate := if x.cfg.autoMute = cfg.autoMute then x.gate else gateFor cfg.autoMute x.state }

end Sys2Proof.Machine
end

