-- ==== Sys2Proof/Machine/Pages.lean ====
section
/-! DEFINITION. The page and call unit (chapter 9): pages, calls and their instances, and the working
off of the notices between blocks at the end of an event. -/

namespace Sys2Proof.Machine

/-! ## Pages -/

/-- The zones of a set, in ascending order. -/
def zonesOf (b : BitVec 24) : List ZoneId := (List.finRange 24).filter fun z => b.getLsbD z

def zoneCount (b : BitVec 24) : Nat := (zonesOf b).length

def zoneBit (z : ZoneId) : BitVec 24 := BitVec.ofNat 24 (2 ^ z.val)

def allLive (s : State) (b : BitVec 24) : Bool := (zonesOf b).all fun z => s.zones[z].state == .live

def pageStateOf (s : State) (b : BitVec 24) : PageState := if allLive s b then .live else .opened

/-- The opener's instance no longer has the page, and is told of the close; reason CALL is its own doing
(R154). -/
def tellOpener (o : Opener) (reason : CloseReason) (s : State) : State :=
  match o with
  | .request => s
  | .call c =>
    let s := updCall c (fun x => { x with inst := x.inst.map fun i => { i with page := none } }) s
    if reason = .call then s else tell (.pageClosed c reason) s

/-- A page closes (R154). -/
def closePage (p : PageId) (reason : CloseReason) (s : State) : State :=
  match s.pages[p] with
  | none => s
  | some pg =>
    let s := setPage p none s
    let s := (zonesOf pg.zones).foldl (fun s z => endCarry z s) s
    let s := { s with lastClosed := some { id := p, opener := pg.opener, reason := reason, time := s.tod } }
    mark .pages (tellOpener pg.opener reason s)

/-- An OPEN page all of whose zones are LIVE becomes LIVE, and a call that opened it is told (R153). -/
def judgePage (p : PageId) (s : State) : State :=
  match s.pages[p] with
  | none => s
  | some pg =>
    if pg.state = .opened ∧ allLive s pg.zones then
      let s := mark .pages (setPage p (some { pg with state := .live }) s)
      match pg.opener with
      | .request => s
      | .call c => tell (.pageLive c) s
    else s

/-- A page loses a zone: it closes when it was the last, else it is judged anew (R153, R154). -/
def loseZone (p : PageId) (z : ZoneId) (reason : CloseReason) (s : State) : State :=
  match s.pages[p] with
  | none => s
  | some pg =>
    let left := pg.zones &&& ~~~(zoneBit z)
    let s := mark .pages (setPage p (some { pg with zones := left }) s)
    if left = 0#24 then closePage p reason s else judgePage p s

/-! ## Opening a page -/

/-- What the offering of a page to the members of a group has come to (R152, R156). -/
structure Claim where
  won : BitVec 24
  preempted : Nat
  skipped : Nat
  declined : Nat
  closed : Nat
  deriving DecidableEq, Repr, Inhabited

def Claim.start : Claim := { won := 0#24, preempted := 0, skipped := 0, declined := 0, closed := 0 }

/-- One member is offered the page (R152 step 3). -/
def offerZone (p : PageId) (prio : Fin 4) (z : ZoneId) (x : State × Claim) : State × Claim :=
  let s := x.1
  let k := x.2
  if s.zones[z].state = .fault then (s, { k with declined := k.declined + 1 })
  else
    match s.zones[z].page with
    | none => (beginCarry z p prio s, { k with won := k.won ||| zoneBit z })
    | some q =>
      match carriedPriority s z with
      | some other =>
        if other < prio then
          let s' := beginCarry z p prio (loseZone q z .preempted s)
          (s', { k with
            won := k.won ||| zoneBit z
            preempted := k.preempted + 1
            closed := if (s'.pages[q]).isNone then k.closed + 1 else k.closed })
        else (s, { k with skipped := k.skipped + 1 })
      | none => (s, { k with skipped := k.skipped + 1 })

inductive OpenEnd where
  | busy
  | noZone (members skipped declined : Nat)
  | opened (p : PageId) (won : BitVec 24) (preempted : Nat) (st : PageState)
  deriving DecidableEq, Repr

def freePage (s : State) : Option PageId := (List.finRange 4).find? fun p => (s.pages[p]).isNone

def Opener.ownerKind : Opener → OwnerKind
  | .request => .request
  | .call _ => .call

def Opener.index : Opener → Nat
  | .request => 0
  | .call c => c

def PageSource.kind : PageSource → SourceKind
  | .channel _ => .channel
  | .voice _ => .voice

def PageSource.index : PageSource → Nat
  | .channel c => c
  | .voice v => v

def pageStateWord (st : PageState) : Word := Config.code (.pageState st)

/-- The detail words of the PAGE cell (R156, R191). -/
def pageDetails (p : PageId) (pg : Page) (k : Claim) : List Word :=
  [place p.val 0 ||| place pg.priority.val 8,
    placeCode (Config.code (.owner pg.opener.ownerKind)) 0 8 ||| place pg.opener.index 8,
    placeCode (Config.code (.sourceKind pg.source.kind)) 0 8 ||| place pg.source.index 8,
    pg.zones.setWidth 32,
    place k.preempted 0 ||| place k.closed 8 ||| placeCode (pageStateWord pg.state) 16 1]

/-- The members of a group, in ascending order. -/
def membersOf (s : State) (g : Fin 8) : List ZoneId := zonesOf s.zoneGroups[g]

/-- A page opens with the zones it has won, and is captured (R152 step 5, R156). -/
def enterPage (p : PageId) (opener : Opener) (source : PageSource) (prio : Fin 4) (level : Level)
    (k : Claim) (s : State) : State :=
  let pg : Page :=
    { state := pageStateOf s k.won, opener := opener, source := source, priority := prio,
      level := level, zones := k.won, opened := s.tod,
      limit := if s.header.pageLimit = 0 then none else some (s.header.pageLimit * 1000) }
  captureEvent pageCell (pageDetails p pg k) (mark .pages (setPage p (some pg) s))

/-- Steps 2 to 5 of R152. Where the source is the voice of a call whose last zone is won here, that call's release
of the voice is told of and comes after the new page is in use, which the entry to IDLE then closes VOICE_END: that
it does not come before the page's entry, which would leave the page open, is the model's choice (R154; log 66). -/
def openPage (g : Fin 8) (opener : Opener) (source : PageSource) (prio : Fin 4) (level : Level)
    (s : State) : State × OpenEnd :=
  match freePage s with
  | none => (s, .busy)
  | some p =>
    let (s', k) := (membersOf s g).foldl (fun x z => offerZone p prio z x) (s, Claim.start)
    if k.won = 0#24 then (s', .noZone (membersOf s g).length k.skipped k.declined)
    else
      (enterPage p opener source prio level k s',
        .opened p k.won k.preempted (pageStateOf s' k.won))

/-! ## Call instances -/

def setInst (c : CallId) (i : Option CallInst) (s : State) : State :=
  mark .pages (updCall c (fun x => { x with inst := i }) s)

/-- The instance ends with an outcome (R163). -/
def endInst (c : CallId) (o : CallOutcome) (s : State) : State :=
  mark .pages (updCall c (fun x => { x with inst := none, outcome := o }) s)

/-- The detail words of the CALL cell (R163, R191). -/
def callDetails (c : CallId) (cut : Bool) (reason : Option MissReason) (i : CallInst)
    (holder : VoiceOwner) : List Word :=
  [place c.val 0 ||| placeCode (Config.code (.callOutcome cut)) 8 1,
    Config.code (.missReason reason),
    placeCode (Config.code (.phase (some i.phase))) 0 8
      ||| place (match holder with
          | .cue id => id.serial
          | _ => 0) 16,
    placeCode (Config.code (.owner holder.kind)) 0 8
      ||| place (match holder with
          | .cue id => id.number
          | .call d => d.val
          | _ => 0) 8,
    i.started.word ||| placeCode (Config.code (.startedBy i.byCallNow)) 31 1]

/-- A page the instance still has open closes with reason CALL (R163). -/
def closeOwnPage (i : CallInst) (s : State) : State :=
  match i.page with
  | none => s
  | some p => closePage p .call s

/-- The instance ends MISSED (R163). The voice holder is given for VOICE_BUSY alone. -/
def missCall (c : CallId) (reason : MissReason) (s : State) : State :=
  match s.calls[c].inst with
  | none => s
  | some i =>
    let v := s.calls[c].cfg.voice
    let holder := if reason = .voiceBusy then s.voices[v].owner else .none
    let s := endInst c (.missed reason) { s with missedCalls := sat16 s.missedCalls }
    let s := closeOwnPage i s
    let s := captureEvent callCell (callDetails c false (some reason) i holder) s
    releaseVoice c v s

/-- The instance is cut by a PLAY of `by'` (R163). -/
def cutCall (c : CallId) (by' : VoiceOwner) (s : State) : State :=
  match s.calls[c].inst with
  | none => s
  | some i =>
    let s := endInst c .cut { s with cutCalls := sat16 s.cutCalls }
    let s := closeOwnPage i s
    captureEvent callCell (callDetails c true none i by') s

/-- The instance enters PLAYING and starts its voice (R161, R162). -/
def beginPlaying (c : CallId) (s : State) : State :=
  startVoice c s.calls[c].cfg.voice
    (mark .pages (updCall c (fun x => { x with
      inst := x.inst.map fun i => { i with phase := .playing } }) s))

/-- The entry to WAIT_ZONES: the page is opened by the steps of R152 (R161). -/
def enterWaitZones (c : CallId) (s : State) : State :=
  let cfg := s.calls[c].cfg
  let s := mark .pages (updCall c (fun x => { x with
    inst := x.inst.map fun i => { i with phase := .waitZones } }) s)
  match openPage cfg.group (.call c) (.voice cfg.voice) cfg.priority cfg.level s with
  | (s, .busy) => missCall c .busy s
  | (s, .noZone ..) => missCall c .noZone s
  | (s, .opened p _ _ st) =>
    let s := updCall c (fun x => { x with inst := x.inst.map fun i => { i with page := some p } }) s
    if st = .live then beginPlaying c s else s

/-- The instance offers its voice a PLAY (R159 step 2). -/
def offerPlay (c : CallId) (s : State) : State :=
  let cfg := s.calls[c].cfg
  match play none cfg.voice cfg.sound .off false (.call c) s with
  | (s, .taken) => enterWaitZones c s
  | (s, .busy) => s
  | (s, _) => missCall c .sound s

/-- Patience expires, by phase (R162). -/
def patienceEnds (c : CallId) (s : State) : State :=
  match s.calls[c].inst with
  | none => s
  | some i =>
    match i.phase with
    | .waitVoice => missCall c .voiceBusy s
    | .waitZones => beginPlaying c s
    | .playing => s

/-- The instance's patience has run out in a phase in which it runs (R162). -/
def Call.patienceOut (x : Call) : Bool :=
  match x.inst with
  | some i => i.patience == 0 && i.phase != .playing
  | none => false

/-- An instance starts (R159). -/
def startInstance (c : CallId) (byCallNow : Bool) (s : State) : State :=
  let s := offerPlay c (setInst c (some
    { phase := .waitVoice, patience := s.calls[c].cfg.patience * 1000, page := none,
      started := s.tod, byCallNow := byCallNow }) s)
  if s.calls[c].patienceOut then patienceEnds c s else s

/-! ## Notices between blocks -/

/-- The call's page has closed (R161, R162). VOICE_END goes with the voice's own notice. -/
def ownPageClosed (c : CallId) (reason : CloseReason) (s : State) : State :=
  if reason = .voiceEnd ∨ reason = .call ∨ reason = .stopped then s
  else
    match s.calls[c].inst with
    | none => s
    | some i =>
      match i.phase with
      | .waitZones => missCall c .pageClosed s
      | .playing => releaseVoice c s.calls[c].cfg.voice (endInst c (.done true) s)
      | .waitVoice => s

/-- The call's voice has entered IDLE (R161, R162). -/
def ownVoiceIdle (c : CallId) (s : State) : State :=
  match s.calls[c].inst with
  | none => s
  | some i =>
    match i.phase with
    | .waitZones => missCall c .voiceLost s
    | .playing => endInst c (.done false) s
    | .waitVoice => s

def Call.waitsFor (x : Call) (v : VoiceId) : Bool :=
  x.cfg.voice == v && match x.inst with
    | some i => i.phase == .waitVoice
    | none => false

/-- A page whose source is the voice closes (R154). -/
def closeIfFrom (v : VoiceId) (p : PageId) (s : State) : State :=
  if s.pages[p].map (·.source) = some (.voice v) then closePage p .voiceEnd s else s

/-- An entry of the voice to IDLE is still to be told: what it closes and whom it ends comes before the
voice is offered again (R154). -/
def idleUntold (s : State) (v : VoiceId) : Bool :=
  s.notes.any fun n => match n with
    | .voiceIdle w _ => w == v
    | _ => false

/-- An instance that waits for the voice offers its PLAY, unless the voice has since entered IDLE anew,
of which the next notice tells (R160). -/
def reoffer (v : VoiceId) (c : CallId) (s : State) : State :=
  if s.calls[c].waitsFor v ∧ idleUntold s v = false then offerPlay c s else s

/-- A voice entered IDLE: the pages it is the source of close, its call's instance ends, and the
instances that wait for it offer their PLAY again (R154, R160 to R162). That they offer it after the closing and
the ending, and that pages and calls are taken in ascending index, is the model's choice; of two pages the
last-closed record is left with the higher (log 58). -/
def voiceIdleNote (v : VoiceId) (owner : VoiceOwner) (s : State) : State :=
  let s := forEach 4 (closeIfFrom v) s
  let s := owner.call?.elim s fun c => ownVoiceIdle c s
  forEach 16 (reoffer v) s

def handleNote (n : Note) (s : State) : State :=
  match n with
  | .voiceIdle v owner => voiceIdleNote v owner s
  | .callCut c by' => cutCall c by' s
  | .pageClosed c reason => ownPageClosed c reason s
  | .pageLive c =>
    match s.calls[c].inst with
    | some i => if i.phase = .waitZones then beginPlaying c s else s
    | none => s
  | .zoneLive z =>
    match s.zones[z].page with
    | some p => judgePage p s
    | none => s
  | .zoneLost p z => loseZone p z .noZones s

/-- The notices are worked off in the order they were given (log 22). -/
def drainN : Nat → State → State
  | 0, s => s
  | n + 1, s =>
    match s.notes with
    | [] => s
    | x :: rest => drainN n (handleNote x { s with notes := rest })

def drain (s : State) : State := drainN 256 s

/-- The end of an event: notices worked off, changed areas offered to the mirror writer (R173). -/
def finish (s : State) : State :=
  let s := flushMarks (drain s)
  { s with notes := [], wq := { s.wq with began := false } }

/-! ## Limits, rollovers -/

def limitDue (s : State) (p : PageId) : Bool :=
  match s.pages[p] with
  | some pg => pg.limit == some 0
  | none => false

/-- Whether the fields a mask level compares are equal (R158). -/
def CallCfg.matchesAt (k : CallCfg) (t : TimeOfDay) : Bool :=
  let sec := t.seconds == k.seconds
  match k.maskLevel with
  | .everyMinute => sec
  | .every10Min => sec && t.minutes % 10 == k.minutes % 10
  | .everyHour => sec && t.minutes == k.minutes
  | .everyDay => sec && t.minutes == k.minutes && t.hours == k.hours
  | .everyWeek => sec && t.minutes == k.minutes && t.hours == k.hours && t.day == k.day

/-- The count and flag after a firing (R158). -/
def Call.countFiring (x : Call) : Call :=
  let n := x.remaining - 1
  if n = 0 then
    if x.cfg.chime then { x with remaining := 255 } else { x with remaining := 0, enabled := false }
  else { x with remaining := n }

/-- One call is compared at a rollover (R158). -/
def compareCall (c : CallId) (s : State) : State :=
  if s.calls[c].enabled ∧ s.calls[c].cfg.matchesAt s.tod then
    if s.calls[c].inst.isSome then { s with overlapped := sat16 s.overlapped }
    else drain (startInstance c false (mark .pages (updCall c Call.countFiring s)))
  else s

/-- A second rollover: each call is compared, and a matching one started, in ascending index, the model's
choice (R158; log 58). -/
def secondRollover (s : State) : State :=
  let s := mark .pages { s with rollover := false }
  if s.engine = .loaded then forEach 16 compareCall s else s

/-! ## Requests of this unit -/

/-- SET_TIME (R150). A rollover that waits to be compared at this tick does not fall (R164). Of several
arguments out of range word 0 names the first, the model's choice (log 57). R149 and R166 hand the pages and calls
area over at each SET_TIME, and R150 leaves the clock as it was at a refused one: the model makes no hand-over
then, its own choice (log 47). -/
def setTimeOwner (day hours minutes seconds : Nat) (s : State) : State × Answer :=
  let bad (r : RefusedFor) : State × Answer :=
    (s, answer .badArgument (wordsOf (Config.code (.refusedFor r)) 0#32 0#32 0#32))
  if 6 < day then bad .day
  else if 23 < hours then bad .hours
  else if 59 < minutes then bad .minutes
  else if 59 < seconds then bad .seconds
  else
    (mark .pages { s with
      tod := { day := day, hours := hours, minutes := minutes, seconds := seconds, ms := 0 }
      rollover := false },
      answer .ok (wordsOf (wordOf s.tod.day) (wordOf s.tod.hours) (wordOf s.tod.minutes)
        (wordOf s.tod.seconds)))

/-- The source a page-open argument names, where its kind and index are in range (R152). -/
def SourceRef.source? (r : SourceRef) : Option PageSource :=
  match r.kind with
  | none => none
  | some .channel => (fin? 64 r.index).map .channel
  | some .voice => (fin? 16 r.index).map .voice

/-- PAGE_OPEN (R152). Of several arguments that fail word 0 names the first of group, source and priority,
the model's choice (log 57). Word 1 of OK holds the set of zones won, zone z at bit z: how the set fills the word
is the model's choice (log 61). -/
def pageOpenOwner (group : Nat) (source : SourceRef) (priority : Nat) (level : BitVec 16) (s : State) :
    State × Answer :=
  let bad (r : RefusedFor) : State × Answer :=
    (s, answer .badArgument (wordsOf (Config.code (.refusedFor r)) (rest s 1) (rest s 2) (rest s 3)))
  match fin? 8 group, SourceRef.source? source, fin? 4 priority with
  | none, _, _ => bad .group
  | some _, none, _ => bad .source
  | some _, some _, none => bad .priority
  | some g, some src, some prio =>
    match openPage g .request src prio (levelOfField level) s with
    | (s, .busy) => (s, refuse .busy)
    | (s, .noZone m k d) =>
      (s, answer .noZone (wordsOf (wordOf m) (wordOf k) (wordOf d) (if m = 0 then 0#32 else rest s 3)))
    | (s, .opened p won n st) =>
      (s, answer .ok (wordsOf (wordOf p.val) (won.setWidth 32) (wordOf n) (pageStateWord st)))

/-- PAGE_CLOSE (R155). -/
def pageCloseOwner (page : Nat) (s : State) : State × Answer :=
  match fin? 4 page with
  | none => (s, refuse .badArgument)
  | some p =>
    match s.pages[p] with
    | none => (s, refuse .badArgument)
    | some pg =>
      (closePage p .closed s,
        answer .ok (wordsOf (Config.code (.owner pg.opener.ownerKind)) (wordOf pg.opener.index)
          (wordOf (zoneCount pg.zones)) (rest s 3)))

def phaseWord (p : Option CallPhase) : Word := Config.code (.phase p)

/-- The result words of a CALL_NOW that has been taken (R159). -/
def callNowWords (s : State) (x : Call) : Vector Word 4 :=
  match x.inst with
  | some i => wordsOf (phaseWord (some i.phase)) 0#32 (rest s 2) (rest s 3)
  | none =>
    wordsOf (phaseWord none)
      (match x.outcome with
        | .missed r => Config.code (.missReason (some r))
        | _ => rest s 1) (rest s 2) (rest s 3)

/-- CALL_NOW (R159). -/
def callNowOwner (call : Nat) (s : State) : State × Answer :=
  match fin? 16 call with
  | none => (s, answer .badArgument (restWords s))
  | some c =>
    match s.calls[c].inst with
    | some i => (s, answer .busy (wordsOf (phaseWord (some i.phase)) (rest s 1) (rest s 2) (rest s 3)))
    | none =>
      let s := startInstance c true s
      (s, answer .ok (callNowWords s s.calls[c]))

/-! ## STOP_SHOW (R165) -/

/-- Every instance ends with no outcome, then every page closes with reason STOPPED (R165), in ascending id, the
model's choice, so that the last-closed record names the highest id that was open (log 58). -/
def stopPagesAndCalls (s : State) : State :=
  let s := forEach 16 (fun c s => if s.calls[c].inst.isSome then setInst c none s else s) s
  forEach 4 (fun p s => closePage p .stopped s) s

def pagesOpen (s : State) : Nat := (s.pages.toList.filter Option.isSome).length

end Sys2Proof.Machine
end

