-- ==== Sys2Proof/Machine/Cues.lean ====
section
/-! DEFINITION. Answering a request (R181), and the cue sequencer's events: firing, force-completion, GO,
the trigger lines, follows and the cue requests (chapter 5). -/

namespace Sys2Proof.Machine

/-! ## Answering -/

/-- The slot state an answer ends in (R181). -/
def answerState : ResultCode → SlotState
  | .ok => .done
  | _ => .refused

/-- The owner has answered: the result burst and then the state burst are queued (R181). Free result
words are drawn anew for each answer (log 39). -/
def finishRequest (a : Answer) (s : State) : State :=
  let s := { s with slate := { s.slate with lastAnswer := some a }, freeCount := s.freeCount + 1 }
  match s.slate.current with
  | none => s
  | some cur =>
    joinQueue .slate (.slotState cur.slot (answerState a.code))
      (joinQueue .slate (.slotResult cur.slot a.code a.words)
        { s with slate := { s.slate with current := some { cur with phase := .answered } } })

/-! ## Executing a cue's records -/

/-- The place of the record that the firing owns at a place of its run. -/
def ownedAt (s : State) (id : FiringId) (k : Nat) : Option RecId :=
  (List.finRange 128).find? fun i =>
    match s.fades[i] with
    | some r => r.owner == .firing id && r.runIndex == some k
    | none => false

/-- One place of the run executed; the entry as it stood before is kept (R86, R98). -/
def executeAt (view : Option Memory) (id : FiringId) (k : Nat) (x : State × RunEntry) : State × RunEntry :=
  match ownedAt x.1 id k with
  | none => x
  | some i => (drain (executeRecord view i x.1), (entryOf x.1 id).getD x.2)

/-- Every record the firing owns, in run order, `view` being the reads of the firing that forces it, if one
does (R86, R96, R112). -/
def executeOwned (view : Option Memory) (e : RunEntry) (s : State) : State × RunEntry :=
  (List.range 64).foldl (fun x k => executeAt view e.id k x) (s, e)

/-- An entry that none of its records has completed is completed. -/
def completeLeft (id : FiringId) (s : State) : State :=
  match entryOf s id with
  | none => s
  | some e => completeCue e s

/-- The detail words of the CUE_FORCED cell (R98, R191). -/
def cueForcedDetails (crushed : Bool) (id : FiringId) (nCrushed nFailed forcing : Nat) : List Word :=
  [Config.code (.cueForced crushed), wordOf id.number, wordOf id.serial,
    place nCrushed 0 ||| place nFailed 8, wordOf forcing]

/-- The force-completion of an entry for a firing of cue `forcing` (R86). -/
def forceComplete (view : Memory) (forcing : Nat) (e : RunEntry) (s : State) : State :=
  let (s, last) := executeOwned (some view) { e with forced := true }
    (updEntry e.id (fun x => { x with forced := true }) s)
  captureEvent cueForcedCell
    (cueForcedDetails false e.id last.crushed last.failed forcing) (completeLeft e.id s)

/-- Step 1 of R83: room for a ninth cue. -/
def makeRoom (view : Memory) (forcing : Nat) (s : State) : State :=
  if 8 ≤ s.seq.running.length then
    match s.seq.running with
    | [] => s
    | e :: _ => forceComplete view forcing e s
  else s

/-! ## A firing -/

def nextSerial (n : Nat) : Nat := if 65535 ≤ n then 1 else n + 1

/-- Step 3 of R83: the cue joins the tail of the running-cue list. -/
def enterCue (id : FiringId) (failed : Nat) (s : State) : State :=
  updSeq (fun q => { q with
    nextSerial := nextSerial q.nextSerial
    running := q.running ++ [{ id := id, fireTime := s.tod, pending := 0, crushed := 0,
                               failed := failed, forced := false, placing := true }] }) s

/-- The record a firing places for a move of its run (R104). -/
def moveRec (id : FiringId) (c : CueRec) (k : Nat) (m : Move) : FadeRec :=
  { fading := false, owner := .firing id, content := m.content, upTime := c.upTime,
    downTime := c.downTime, ownUp := m.ownUp, ownDown := m.ownDown, runIndex := some k,
    delayLeft := m.delay, start := 0, time := 0, elapsed := 0, stopMark := none }

/-- A well-formed move placed in a free record; at delay 0 it acts at once (R84, R104). -/
def placeMove (view : Memory) (id : FiringId) (c : CueRec) (k : Nat) (m : Move) (i : RecId) (s : State) :
    State :=
  let s := cuePlaced id (setFade i (some (moveRec id c k m)) s)
  if m.delay = 0 then actRecord (some view) i s else s

def crushedOf (s : State) (id : FiringId) : Nat := ((entryOf s id).map (·.crushed)).getD 0
def failedOf (s : State) (id : FiringId) : Nat := ((entryOf s id).map (·.failed)).getD 0

/-- A crushed move is counted and acts at once; with it goes the failed count as it then stands (R84,
R98). -/
def crushMove (view : Memory) (id : FiringId) (c : Content) (s : State) : State × Option Nat :=
  let s := drain (actCrushed (some view) (.firing id) c (cueCrushed id s))
  (s, some (failedOf s id))

/-- One move of the run. What goes with the state is none until the run is being crushed, and then the
failed count just after the last crushed move (R84). -/
def takeMove (view : Memory) (id : FiringId) (c : CueRec) (k : Nat) (x : State × Option Nat) :
    State × Option Nat :=
  match readMove view x.1.tables.movePool (c.first + k) with
  | none => (cueFailed id x.1, x.2)
  | some m =>
    match if x.2.isSome then none else freePlace x.1 with
    | some i => (drain (placeMove view id c k m i x.1), none)
    | none => crushMove view id m.content x.1

/-- Step 4 of R83. -/
def takeMoves (view : Memory) (id : FiringId) (c : CueRec) (s : State) : State × Option Nat :=
  (List.range c.count).foldl (fun x k => takeMove view id c k x) (s, none)

/-- The CRUSHED event of a firing that crushed moves, with the failed count after its last crushed move
(R84, R98). -/
def reportCrushed (id : FiringId) (failed : Option Nat) (s : State) : State :=
  match failed with
  | none => s
  | some n => captureEvent cueForcedCell (cueForcedDetails true id (crushedOf s id) n 0) s

/-- Step 5 of R83: the new standby, its parent and its follow. -/
def deriveStandby (view : Memory) (id : FiringId) (s : State) : State :=
  let st := (nextAfter view s.tables.cueList id.number).map standbyOf
  updSeq (fun q => { q with
    standby := st
    parent := some id
    follow := match st with
      | some st => if st.trigger = .followStart then some st.wait else none
      | none => none }) s

/-- Step 6 of R83. -/
def closeFiring (id : FiringId) (s : State) : State :=
  mark .cue (completeIfDone id (updEntry id (fun e => { e with placing := false }) s))

/-- The id the next firing of a cue takes (R85). -/
def nextId (s : State) (number : Nat) : FiringId := { number := number, serial := s.seq.nextSerial }

/-- Steps 1 to 4 of R83 for the standby `st`, firing as `id`. -/
def enterAndPlace (view : Memory) (st : Standby) (id : FiringId) (s : State) : State :=
  let s := makeRoom view st.number s
  match (readCue view s.tables.cueList st.index).sound? with
  | none => enterCue id 1 s
  | some c =>
    let (s, failed) := takeMoves view id c (enterCue id 0 s)
    reportCrushed id failed s

/-- The guard timer starts at a firing caused by a GO (R89). -/
def startGuard (s : State) : State :=
  updSeq (fun q => { q with guard := if s.header.guard = 0 then q.guard else some s.header.guard }) s

def standbyWord (s : State) : Word :=
  match s.seq.standby with
  | none => Config.code .noCue
  | some st => wordOf st.number

/-- What follows a firing, by its cause (R89, R91, R97). -/
def reportFiring (cause : FireCause) (id : FiringId) (crushed : Nat) (s : State) : State :=
  match cause with
  | .follow => s
  | .trigger t => captureLine (some t) .fired (some id) s
  | .lineGo => captureLine none .fired (some id) (startGuard s)
  | .goRequest =>
    finishRequest (answer .ok (wordsOf (wordOf id.number) (wordOf id.serial) (standbyWord s)
      (wordOf crushed))) (startGuard s)

/-- A firing of the standby, its reads made from `view` (R83). -/
def fire (cause : FireCause) (view : Memory) (st : Standby) (s : State) : State :=
  let id := nextId s st.number
  let s := enterAndPlace view st id s
  let crushed := crushedOf s id
  reportFiring cause id crushed (closeFiring id (deriveStandby view id s))

/-- A firing whose reads have arrived acts in a millisecond tick (R83). -/
def firingDue (s : State) : Bool :=
  s.clock.tickOpen && match s.seq.firing with
    | some f => f.view.isSome
    | none => false

def cueFiring (s : State) : State :=
  match s.seq.firing, s.seq.standby with
  | some f, some st =>
    fire f.cause (f.view.getD s.mem) st (updSeq (fun q => { q with firing := none }) s)
  | _, _ => updSeq (fun q => { q with firing := none }) s

/-! ## What fires a cue -/

def followDue (s : State) : Bool :=
  s.seq.follow == some 0 && !s.seq.pause && s.engine == .loaded && s.seq.standby.isSome
    && s.seq.firing.isNone

def followExpires (s : State) : State :=
  askFiring .follow (updSeq (fun q => { q with follow := none }) s)

def lineGoDue (s : State) : Bool := decide (0 < s.seq.goEdges) && s.seq.firing.isNone

/-- A line GO is guarded and counted, or taken (R89, R90). An edge that fell while a firing waited for its
reads passes the guard here, when it is taken, by the guard as that firing has left it, and not at its own
frame: the model's choice (log 33). -/
def lineGo (s : State) : State :=
  let s := updSeq (fun q => { q with goEdges := q.goEdges - 1 }) s
  if s.seq.guard.isSome then updSeq (fun q => { q with guarded := sat16 q.guarded }) s
  else
    match lineOutcome s none with
    | .fired => askFiring .lineGo s
    | o => captureLine none o none s

def triggerDue (s : State) (t : LineId) : Bool := decide (0 < s.seq.trigEdges[t]) && s.seq.firing.isNone

/-- A rising edge on a trigger line (R92). -/
def triggerEdge (t : LineId) (s : State) : State :=
  let s := updSeq (fun q => { q with trigEdges := upd q.trigEdges t (· - 1) }) s
  match lineOutcome s (some t) with
  | .fired => askFiring (.trigger t) s
  | o => captureLine (some t) o none s

def guardDue (s : State) : Bool := s.seq.guard == some 0
def guardEnds (s : State) : State := updSeq (fun q => { q with guard := none }) s

/-! ## The cue requests: `none` for an answer that waits for the firing (R91) -/

def goOwner (s : State) : State × Option Answer :=
  match s.seq.guard with
  | some g => (s, some (answer .guarded (wordsOf (wordOf g) (standbyWord s) 0#32 0#32)))
  | none =>
    if s.seq.pause then (s, some (answer .paused (wordsOf (standbyWord s) 0#32 0#32 0#32)))
    else
      match s.seq.standby with
      | none => (s, some (refuse .noCue))
      | some _ => (askFiring .goRequest s, none)

/-- GO_TO (R93): the list is searched then and there, and the search's turn asked for (R178; log 15). R101 hands
the cue area over at each GO_TO, and R93 leaves everything as it was at a refused one: the model makes no
hand-over then, its own choice (log 47). -/
def goToOwner (n : Nat) (s : State) : State × Answer :=
  if n = 0 ∨ 65535 < n then (s, refuse .badArgument)
  else
    let s := askRead .record s
    match cueNumbered s.mem s.tables.cueList n with
    | none => (s, refuse .noCue)
    | some f =>
      (mark .cue (updSeq (fun q => { q with
          standby := some (standbyOf f), parent := none, follow := none }) s),
        answer .ok (wordsOf (wordOf f.2.number) (wordOf f.1) (wordOf (triggerCode f.2.trigger)) (rest s 3)))

/-- Word 0 gives the pause flag: 1 for set and 0 for clear, the model's choice (log 43). -/
def pauseWords (s : State) : Vector Word 4 := wordsOf (wordOf (bitOf s.seq.pause)) (rest s 1) (rest s 2) (rest s 3)

/-- A record of a cue that is due when the pause comes first is frozen one tick short (R113). -/
def FadeRec.oneShort (r : FadeRec) : FadeRec :=
  match r.owner with
  | .firing _ =>
    if r.fading then { r with elapsed := min r.elapsed (r.time - 1) }
    else { r with delayLeft := max r.delayLeft 1 }
  | _ => r

/-- PAUSE (R94, R111). R101 hands the cue area over at each PAUSE, and R94 says that one with the flag set
changes nothing: the model makes no hand-over then, its own choice (log 47). -/
def pauseOwner (s : State) : State × Answer :=
  let a := answer .ok (pauseWords s)
  if s.seq.pause then (s, a)
  else
    (mark .cue (updSeq (fun q => { q with pause := true })
      { s with fades := mapVec (·.map FadeRec.oneShort) s.fades }), a)

/-- RESUME (R95). As with PAUSE, one with the flag clear hands nothing over (R101; log 47). -/
def resumeOwner (s : State) : State × Answer :=
  let a := answer .ok (pauseWords s)
  if s.seq.pause then (mark .cue (updSeq (fun q => { q with pause := false }) s), a) else (s, a)

/-- COMPLETE_ALL (R96). -/
def completeAllOwner (s : State) : State × Answer :=
  let before := s.seq.running
  let s := updSeq (fun q => { q with pause := false }) s
  let s := before.foldl (fun s e =>
    if (entryOf s e.id).isSome then completeLeft e.id (executeOwned none e s).1 else s) s
  (mark .cue s,
    answer .ok (wordsOf (wordOf (before.length - s.seq.running.length)) (rest s 1) (rest s 2) (rest s 3)))

/-- STOP_SHOW: follow, running cues, pause and guard (R100). -/
def stopSequencer (s : State) : State :=
  mark .cue (updSeq (fun q => { q with
    follow := none, running := [], pause := false, guard := none }) s)

end Sys2Proof.Machine
end

