-- ==== Sys2Proof/Machine/Holds.lean ====
section
/-! DEFINITION. The hold lines (R69 to R75) and the end of a gate's ramp (R54). -/

namespace Sys2Proof.Machine

/-- The raw level is read at a tick and counted; the twentieth disagreeing tick waits for
HOLD_ACCEPTED (R69). -/
def HoldLine.read (h : HoldLine) (raw : Bool) : HoldLine :=
  { h with raw := raw, run := if raw = h.accepted then 0 else min (h.run + 1) 20 }

def acceptDue (s : State) (l : LineId) : Bool := s.hold[l].run == 20

/-- A mix's hold state is derived and its gate commanded (R70, R71, R76). -/
def mixHold (m : MixId) (s : State) : State :=
  let held := heldBy s s.mixes[m].cfg.holdMask
  updMix m (fun x =>
    { x with held := held }.command (if held then -480 else 0) (rampFrames s x.cfg.holdRamp)) s

def mixesHeld (s : State) : Nat := (s.mixes.toList.filter (·.held)).length

def acceptedBits (s : State) : Word :=
  place (bitOf s.hold[0].accepted) 0 ||| place (bitOf s.hold[1].accepted) 1
    ||| place (bitOf s.hold[2].accepted) 2 ||| place (bitOf s.hold[3].accepted) 3

/-- The detail words of the HOLD cell (R73, R191). R191 numbers no hold state: 1 stands for ASSERTED and 0
for RELEASED, the model's choice (log 43). -/
def holdDetails (s : State) (l : LineId) : List Word :=
  [place l.val 0 ||| place (bitOf s.hold[l].accepted) 8, acceptedBits s, wordOf (mixesHeld s)]

/-- An accepted change goes to the mixes, the zones and the capture unit (R69, R70, R72, R73, R145). -/
def acceptHold (l : LineId) (s : State) : State :=
  let s := { s with hold := upd s.hold l fun h => { h with accepted := h.raw, run := 0 } }
  let s := forEach 40 (fun m s => if s.mixes[m].cfg.holdMask.getLsbD l then mixHold m s else s) s
  let s := forEach 24 (fun z s => if s.zones[z].cfg.holdMask.getLsbD l then zoneHold z s else s) s
  mark .zones (mark .mixes (captureEvent holdCell (holdDetails s l) s))

def rampEndDue (s : State) (g : GateId) : Bool := (gateOf s g).endDue

/-- The gate comes to rest and its area is handed over (R54, R75, R148). -/
def gateRampEnd (g : GateId) (s : State) : State := mark (GateId.area g) (updGate g Gate.rest s)

end Sys2Proof.Machine
end

