-- ==== Sys2Proof/Machine/Load.lean ====
section
/-! DEFINITION. LOAD_SHOW: its checks (R182), the validation pass (R183 and each table's own rule), the
install (R184 and each block's own rule) and the refusal. -/

namespace Sys2Proof.Machine

/-! ## Reading records -/

def elemOr {α : Type} {n : Nat} [Inhabited α] (v : Vector α n) (i : Nat) : α := v.toArray.getD i default

/-- The first index that a check fails (R61, R80). -/
def firstBad {n : Nat} (bad : Fin n → Bool) : Option Word :=
  ((List.finRange n).find? bad).map fun i => wordOf i.val

/-- The records of a table. -/
def readTable {α : Type} (m : Memory) (base n words : Nat) (decode : Vector Word words → α) : Vector α n :=
  tabulate fun i => decode (Memory.readWords m (base + 4 * words * i.val) words)

/-! ## DIRECTORY and REGION (R183, R191) -/

/-- The bytes each directory word's table occupies, by word number (R191). -/
def tableExtents : List Nat :=
  [512, 1536, 640, 8192, 128, 256, 384, 32, 256, 16384, 8192, 131072, 96]

def Directory.base (d : Directory) (i : Fin 13) : Nat := d.bases[i].toNat

/-- A base that is no multiple of 4, or a table that runs into the fixed block or past memory (R183). -/
def badBase (memSize base extent : Nat) : Bool :=
  base % 4 != 0 || decide (base < 0x780) || decide (memSize < base + extent)

def readDirectory (m : Memory) : Directory :=
  { bases := Memory.readWords m 0 13, mirror := Memory.readWord m 0x34 }

/-- The header fields, clamped (R55, R89, R151, R191). -/
def readHeader (m : Memory) : Header :=
  { source := if (Memory.readWord m 0x100).getLsbD 0 then .wclk else .internal
    guard := min (Memory.readWord m 0x104).toNat 2000
    ramps := mapVec (fun w => min w.toNat 250) (Memory.readWords m 0x108 4)
    pageLimit := min (Memory.readWord m 0x118).toNat 600
    inputMask := (Memory.readWord m 0x11C).getLsbD 0
    zoneMask := (Memory.readWord m 0x11C).getLsbD 1
    captureMasks := (Memory.readWord m 0x120).extractLsb' 0 12
    callCapable := (Memory.readWord m 0x124).extractLsb' 0 16 }

def checkDirectory (memSize : Nat) (d : Directory) : Option Word :=
  firstBad fun i : Fin 13 => badBase memSize (d.base i) (tableExtents.getD i.val 0)

/-- An entry of the region table as read: base, length and kind code. -/
structure RawRegion where
  base : Nat
  length : Nat
  kind : Nat
  deriving DecidableEq, Repr, Inhabited

def regionOfWords (w : Vector Word 3) : RawRegion :=
  { base := w[0].toNat, length := w[1].toNat, kind := w[2].toNat }

def regionKindOf (code : Nat) : RegionKind :=
  match code with
  | 1 => .openRegion
  | 2 => .mirror
  | 3 => .lockable
  | _ => .unused

/-- Two byte ranges have a byte in common. -/
def rangesMeet (a la b lb : Nat) : Bool :=
  decide (0 < la) && decide (0 < lb) && decide (a < b + lb) && decide (b < a + la)

def RawRegion.used (r : RawRegion) : Bool := decide (1 ≤ r.kind) && decide (r.kind ≤ 3)

/-- The checks of one region entry; kind 0 is unused and is not checked (R183, log 24). -/
def badRegion (memSize : Nat) (v : Vector RawRegion 8) (i : Fin 8) : Bool :=
  let r := v[i]
  r.kind != 0 &&
    (decide (3 < r.kind) || r.base % 4 != 0 || r.length % 4 != 0
      || decide (memSize < r.base + r.length) || rangesMeet r.base r.length 0 0x780
      || (List.finRange 8).any fun j =>
          j != i && v[j].used && rangesMeet r.base r.length v[j].base v[j].length)

/-- The mirror's 4000h bytes lie within one MIRROR entry (R183). -/
def mirrorInside (v : Vector RawRegion 8) (mirror : Nat) : Bool :=
  v.toList.any fun r =>
    r.kind == 2 && decide (r.base ≤ mirror) && decide (mirror + 0x4000 ≤ r.base + r.length)

/-- The region table (R183). An entry that fails its own check is named before entry 0 of a mirror that lies in
no MIRROR entry: the model's choice (log 62). -/
def checkRegions (memSize : Nat) (v : Vector RawRegion 8) (mirror : Nat) : Option Word :=
  match firstBad (badRegion memSize v) with
  | some w => some w
  | none => if mirrorInside v mirror then none else some 0#32

def installRegion (r : RawRegion) : Region :=
  if r.used then { base := r.base, length := r.length, kind := regionKindOf r.kind } else .unused

/-! ## The tables of the other chapters -/

def ramp (n : Nat) : Fin 4 := ⟨n % 4, Nat.mod_lt _ (by decide)⟩

/-- R11. -/
def channelCfg (r : RawChannel) : ChannelCfg :=
  { used := r.used, autoMute := r.autoMute, ramp := ramp r.ramp, confirm := min r.confirm 255,
    hold := min r.hold 255, lossMask := r.lossMask, batteryMask := r.batteryMask }

def badTap (t : Option Nat) : Bool :=
  match t with
  | some n => decide (63 < n)
  | none => false

/-- The channel number of a role's initial active tap, as read. -/
def rawInitial (r : RawRole) : Option Nat :=
  match r.initial.bind (fin? 4) with
  | none => none
  | some t => r.taps[t]

/-- R22. -/
def badRole (v : Vector RawRole 96) (r : Fin 96) : Bool :=
  let x := v[r]
  x.taps.toList.any badTap
    || (match x.initial with
        | none => false
        | some t => decide (3 < t) || (rawInitial x).isNone)
    || (match x.group with
        | none => false
        | some g => decide (15 < g))
    || ((rawInitial x).isSome
        && (List.finRange 96).any fun q => decide (q < r) && rawInitial v[q] == rawInitial x)

def roleCfg (r : RawRole) : RoleCfg :=
  { taps := mapVec (fun t => t.bind (fin? 64)) r.taps, initial := r.initial.bind (fin? 4),
    level := levelOfField r.level, group := r.group.bind (fin? 16), autoSpare := r.autoSpare,
    spareTime := clampTime r.spareTime }

/-- R61, MIX. -/
def badMix (v : Vector RawMix 40) (m : Fin 40) : Bool :=
  let x := v[m]
  x.kind.isNone || decide (3 < x.holdRamp) || decide (1023 < x.first) || decide (1024 < x.first + x.count)
    || (List.finRange 40).any fun j =>
        decide (j < m) && rangesMeet x.first x.count v[j].first v[j].count

def mixCfg (r : RawMix) : MixCfg :=
  let kind := r.kind.getD .house
  { kind := kind, master := levelOfField r.master, ceiling := ceilingOfField kind r.ceiling,
    holdMask := r.holdMask, holdRamp := ramp r.holdRamp, first := r.first, count := r.count }

/-- The mix whose run holds a send entry. -/
def runOf (mixes : Vector MixCfg 40) (i : Nat) : Option (Fin 40) :=
  (List.finRange 40).find? fun m =>
    decide (mixes[m].first ≤ i) && decide (i < mixes[m].first + mixes[m].count)

/-- R61, SEND. -/
def badSend (mixes : Vector MixCfg 40) (v : Vector RawSend 1024) (i : Fin 1024) : Bool :=
  let x := v[i]
  (match x.mix with
    | none => false
    | some m => decide (39 < m))
    || decide (111 < x.source)
    || (match runOf mixes i.val with
        | none => x.mix.isSome
        | some m =>
          x.mix != some m.val
            || (List.range (i.val - mixes[m].first)).any fun k =>
                (elemOr v (mixes[m].first + k)).source == x.source)

def sendOf (r : RawSend) : Send :=
  { mix := r.mix.bind (fin? 40), source := ⟨r.source % 112, Nat.mod_lt _ (by decide)⟩,
    level := levelOfField r.level, on := r.on }

/-- R61, GROUP. -/
def badVoiceGroup (v : Vector (Option Nat) 16) (i : Fin 16) : Bool :=
  match v[i] with
  | none => false
  | some g => decide (15 < g)

/-- R67. -/
def badOutput : RawOutput → Bool
  | .none => false
  | .mix n => decide (39 < n)
  | .zone n => decide (23 < n)
  | .other => true

def outputOf : RawOutput → OutSource
  | .mix n => ((fin? 40 n).map OutSource.mix).getD .none
  | .zone n => ((fin? 24 n).map OutSource.zone).getD .none
  | _ => .none

/-- R135. -/
def badZone (mixes : Vector MixCfg 40) (r : RawZone) : Bool :=
  (match r.relayMix with
    | none => false
    | some m =>
      match fin? 40 m with
      | none => true
      | some m => mixes[m].kind != .relay)
    || decide (3 < r.duckRamp) || decide (3 < r.holdRamp)

def zoneCfg (r : RawZone) : ZoneCfg :=
  { relayMix := r.relayMix.bind (fin? 40), relayLevel := levelOfField r.relayLevel,
    relayFlag := r.relayFlag, duckDepth := min r.duckDepth 480, duckRamp := ramp r.duckRamp,
    holdMask := r.holdMask, holdRamp := ramp r.holdRamp, stability := r.stability.toNat,
    sample := r.sample.toNat, idle := r.idle.toNat, faultMask := r.faultMask }

/-- R157. -/
def badCall (callCapable : BitVec 16) (r : RawCall) : Bool :=
  decide (6 < r.day) || decide (23 < r.hours) || decide (59 < r.minutes) || decide (59 < r.seconds)
    || r.maskLevel.isNone || decide (7 < r.group) || decide (1023 < r.sound) || decide (15 < r.voice)
    || !callCapable.getLsbD r.voice

def callCfg (r : RawCall) : CallCfg :=
  { enabled := r.enabled, day := r.day, hours := r.hours, minutes := r.minutes, seconds := r.seconds,
    maskLevel := r.maskLevel.getD .everyMinute, group := ⟨r.group % 8, Nat.mod_lt _ (by decide)⟩,
    sound := r.sound, voice := ⟨r.voice % 16, Nat.mod_lt _ (by decide)⟩,
    level := levelOfField r.level, priority := r.priority, repeatCount := r.repeatCount.toNat,
    chime := r.chime, patience := min r.patience 60 }

/-- R80, CUE: the first unsound record. -/
def firstUnsound (cues : Vector CueRead 512) : Option Word :=
  firstBad (n := 512) fun i => cues[i] == .unsound

/-- R80, CUE: no sound record at all (log 23). -/
def noSoundCue (cues : Vector CueRead 512) : Option Word :=
  if cues.toList.any (·.sound?.isSome) then none else some Config.noCueIndex

def checkCues (cues : Vector CueRead 512) : Option Word := (firstUnsound cues).or (noSoundCue cues)

def soundCues (cues : Vector CueRead 512) : List CueRec := cues.toList.filterMap CueRead.sound?

/-- Whether a move lies in the run of a sound record. -/
def inSomeRun (cs : List CueRec) (i : Nat) : Bool :=
  cs.any fun c => decide (c.first ≤ i) && decide (i < c.first + c.count)

/-- R80, MOVE: the lowest malformed move of a run (log 38). -/
def checkMoves (m : Memory) (base : Nat) (cs : List CueRec) : Option Word :=
  ((List.range 8192).find? fun i => inSomeRun cs i && (readMove m base i).isNone).map wordOf

def readCues (m : Memory) (base : Nat) : Vector CueRead 512 := tabulate fun i => readCue m base i.val

/-! ## The validation pass -/

/-- The base of the table of a directory word. -/
def Show.base (x : Show) (i : Fin 13) : Nat := x.dir.base i

/-- One table read and checked: the staging copies with it, and the index of a failing record (R183). The
moves are checked by the cue records as their own turn read them, so that a write of the host between
the two is not seen. A group level lies in bits 0 to 15 of its word, the model's choice (R60; log 8). -/
def stage (m : Memory) (memSize : Nat) (k : TableKind) (x : Show) : Show × Option Word :=
  match k with
  | .directory =>
    let d := readDirectory m
    ({ x with dir := d, header := readHeader m }, checkDirectory memSize d)
  | .region =>
    let v : Vector RawRegion 8 := readTable m (x.base 12) 8 3 regionOfWords
    ({ x with regions := mapVec installRegion v }, checkRegions memSize v x.dir.mirror.toNat)
  | .channel =>
    let v : Vector RawChannel 64 := readTable m (x.base 0) 64 2 Config.channelRecord
    ({ x with channels := mapVec channelCfg v }, firstBad fun i : Fin 64 => decide (3 < v[i].ramp))
  | .role =>
    let v : Vector RawRole 96 := readTable m (x.base 1) 96 4 Config.roleRecord
    ({ x with roles := mapVec roleCfg v }, firstBad (badRole v))
  | .mix =>
    let v : Vector RawMix 40 := readTable m (x.base 2) 40 4 Config.mixRecord
    ({ x with mixes := mapVec mixCfg v }, firstBad (badMix v))
  | .send =>
    let v : Vector RawSend 1024 := readTable m (x.base 3) 1024 2 Config.sendRecord
    ({ x with sends := mapVec sendOf v }, firstBad (badSend x.mixes v))
  | .group =>
    let g := Memory.readWords m (x.base 4) 16
    let v : Vector (Option Nat) 16 :=
      mapVec Config.voiceGroupWord (Memory.readWords m (x.base 4 + 64) 16)
    ({ x with
      groupLevels := mapVec (fun w => levelOfField (w.extractLsb' 0 16)) g
      voiceGroups := mapVec (fun o => o.bind (fin? 16)) v }, firstBad (badVoiceGroup v))
  | .outputMap =>
    let v : Vector RawOutput 64 := mapVec Config.outputWord (Memory.readWords m (x.base 5) 64)
    ({ x with outMap := mapVec outputOf v }, firstBad fun i : Fin 64 => badOutput v[i])
  | .zone =>
    let v : Vector RawZone 24 := readTable m (x.base 6) 24 4 Config.zoneRecord
    ({ x with
      zones := mapVec zoneCfg v
      zoneGroups := mapVec (fun w => w.extractLsb' 0 24) (Memory.readWords m (x.base 7) 8) },
      firstBad fun i : Fin 24 => badZone x.mixes v[i])
  | .call =>
    let v : Vector RawCall 16 := readTable m (x.base 8) 16 4 Config.callRecord
    ({ x with calls := mapVec callCfg v },
      firstBad fun i : Fin 16 => badCall x.header.callCapable v[i])
  | .cue =>
    let v := readCues m (x.base 10)
    ({ x with cues := soundCues v }, checkCues v)
  | .move => (x, checkMoves m (x.base 11) x.cues)

/-- The tables in the order of R183. -/
def tableOrder : List TableKind :=
  [.directory, .region, .channel, .role, .mix, .send, .group, .outputMap, .zone, .call, .cue, .move]

/-- The table at the head of what is still to read is read and checked, and the next is asked for
(log 15). -/
def loadTable (k : TableKind) (s : State) : State :=
  match s.load with
  | none => s
  | some job =>
    let (staging, bad) := stage s.mem s.memSize k job.staging
    let todo := job.todo.tail
    let job := { job with staging := staging, todo := todo, fail := bad.map fun w => (k, w) }
    let s := { s with load := some job }
    match bad, todo with
    | none, k' :: _ => askRead (.table k') s
    | _, _ => s

/-! ## LOAD_SHOW and its refusal -/

/-- The first of the conditions of R182 that fails while LOADED. -/
def loadBusy (s : State) : Option RefusedFor :=
  if s.engine ≠ .loaded then none
  else if s.seq.running ≠ [] then some .cues
  else if s.voices.toList.any (·.state != .idle) then some .voices
  else if s.pages.toList.any Option.isSome then some .pages
  else if s.calls.toList.any (·.inst.isSome) then some .calls
  else none

/-- The staging copies before anything is read; each is replaced when its table is read. -/
def emptyShow : Show :=
  { dir := { bases := Vector.replicate 13 0#32, mirror := 0#32 }, header := .reset,
    regions := Vector.replicate 8 .unused, channels := Vector.replicate 64 ChannelRec.reset.cfg,
    roles := Vector.replicate 96 Role.reset.cfg, mixes := Vector.replicate 40 Mix.reset.cfg,
    sends := Vector.replicate 1024 .reset, groupLevels := Vector.replicate 16 .off,
    voiceGroups := Vector.replicate 16 none, outMap := Vector.replicate 64 .none,
    zones := Vector.replicate 24 Zone.reset.cfg, zoneGroups := Vector.replicate 8 0#24,
    calls := Vector.replicate 16 Call.reset.cfg, cues := [] }

def setEngine (e : EngineState) (s : State) : State := mark .engine { s with engine := e }

/-- LOAD_SHOW: `none` for an answer that its install or its refusal gives (R182). -/
def loadShowOwner (s : State) : State × Option Answer :=
  if s.lock ≠ .off then (s, some (answer .locked (restWords s)))
  else
    match loadBusy s with
    | some r =>
      (s, some (answer .busy (wordsOf (Config.code (.refusedFor r)) (rest s 1) (rest s 2) (rest s 3))))
    | none =>
      let job : LoadJob := { origin := s.engine, todo := tableOrder, fail := none, staging := emptyShow }
      (askRead (.table .directory) (setEngine .loading { s with load := some job }), none)

def refusedDue (s : State) : Bool :=
  match s.load with
  | some job => job.fail.isSome
  | none => false

/-- The load is refused BAD_TABLE and the engine returns to its former state (R183). -/
def refuseLoad (s : State) : State :=
  match s.load with
  | none => s
  | some job =>
    match job.fail with
    | none => s
    | some (k, w) =>
      finishRequest (answer .badTable (wordsOf (wordOf (tableCode k)) w (rest s 2) (rest s 3)))
        (setEngine job.origin { s with load := none })

/-! ## The install -/

/-- Channels and their report mask (R12). -/
def installChannels (x : Show) (s : State) : State :=
  { s with channels := tabulate fun c =>
      s.channels[c].install x.channels[c] s.rx[linkOf c] (slotOf c) }

/-- The source in use (R3); a selection of INTERNAL ends the run toward a return (R5). An install that selects
WCLK counts for the return the present run since an earlier selection of INTERNAL alone, while the 1000 ms of
R3 count the whole of it: the model's choice (log 59). One that takes WCLK awaits no realignment, which R5 asks for
at the return alone: the model's choice (log 32). -/
def installClock (x : Show) (s : State) : State :=
  let toWclk : Bool := x.header.source == .wclk && decide (1000 ≤ s.clock.presentRun)
  { s with clock := { s.clock with
      inUse := if toWclk then .wclk else .internal
      coasting := toWclk && s.clock.coasting
      returnRun := if x.header.source = .internal then 0 else s.clock.returnRun } }

/-- Roles, their taps and counts (R23, R43). -/
def installRole (cfg : RoleCfg) : Role :=
  { cfg := cfg
    taps := tabulate fun t => if cfg.initial = some t then .active else .idle
    unavailable := 0, clips := 0 }

/-- Every element takes the value the install gives it (R23, R60, R62, R132, R136). -/
def installLevels (x : Show) : Levels :=
  { role := mapVec (·.level) x.roles, voice := Vector.replicate 16 .off, group := x.groupLevels,
    send := mapVec (·.level) x.sends, master := mapVec (·.master) x.mixes,
    zone := mapVec (·.relayLevel) x.zones,
    tap := mapVec (fun (c : RoleCfg) =>
      tabulate fun t => if c.initial = some t then .steps 0 else .off) x.roles }

/-- A mix takes its record; its gate stays for R71 to command (R62, R43). -/
def installMixes (x : Show) (s : State) : State :=
  forEach 40 mixHold
    { s with mixes := tabulate fun m => { s.mixes[m] with cfg := x.mixes[m], clips := 0, renewed := true } }

/-- A zone takes its record and flags and, unless in FAULT, is set OFF (R136 steps 1 and 2). -/
def Zone.install (z : Zone) (cfg : ZoneCfg) : Zone :=
  if z.state = .fault then { z with cfg := cfg, relay := cfg.relayFlag, clips := 0 }
  else
    { z with cfg := cfg, relay := cfg.relayFlag, clips := 0, state := .off, ampen := false,
             timer := none, falseRun := 0 }

/-- R136; the engine is LOADED already, so that a zone may be powered. -/
def installZone (cfg : ZoneCfg) (z : ZoneId) (s : State) : State :=
  let s := updZone z (·.install cfg) s
  let s := if s.zones[z].state = .fault then s else powerIfWanted z s
  commandDuck z false (zoneHold z s)

def installZones (x : Show) (s : State) : State :=
  forEach 24 (fun z s => installZone x.zones[z] z s) { s with zoneGroups := x.zoneGroups }

/-- R157. -/
def installCall (cfg : CallCfg) : Call :=
  { cfg := cfg, enabled := cfg.enabled, remaining := cfg.repeatCount, inst := none, outcome := .none }

/-- The cue sequencer (R82, R89, R100); the first cue is searched in the list as it now stands
(R184), and the search's turn asked for (R178; log 15). -/
def installSequencer (x : Show) (s : State) : State :=
  askRead .record <| updSeq (fun q => { q with
    standby := (firstCue s.mem (x.base 10)).map standbyOf
    parent := none, follow := none, running := [], pause := false, guard := none, last := none }) s

/-- The mirror writer takes the new base, under which nothing has yet been written (R172). -/
def installMirror (x : Show) (s : State) : State :=
  let base := x.dir.mirror.toNat
  handOverAll { s with mirror := { s.mirror with
    base := some base
    shown := if s.mirror.base = some base then s.mirror.shown
      else Vector.replicate 11 { count := none, bursts := [] } } }

def usedChannels (x : Show) : Nat := (x.channels.toList.filter (·.used)).length

/-- Tables, masks and records that only replace what was held (R59, R60, R67, R89, R134, R151, R157,
R167, R172, R184). -/
def installTables (x : Show) (s : State) : State :=
  { s with
    header := x.header
    tables := { cueList := x.base 10, movePool := x.base 11, sounds := x.base 9 }
    regions := x.regions
    roles := mapVec installRole x.roles
    levels := installLevels x
    sends := x.sends
    voiceGroups := x.voiceGroups
    outMap := x.outMap
    voices := mapVec (fun v => { v with underruns := 0 }) s.voices
    calls := mapVec installCall x.calls }

/-- The install: every block in one event (R184). -/
def install (x : Show) (s : State) : State :=
  let s := installClock x (emptyFades s)
  let s := installChannels x (installTables x s)
  let s := setEngine .loaded { s with load := none }
  let s := installZones x (installMixes x s)
  installMirror x (installSequencer x s)

def installDue (s : State) : Bool :=
  match s.load with
  | some job => job.fail.isNone && job.todo.isEmpty
  | none => false

def standbyNumberOrZero (s : State) : Nat := (s.seq.standby.map (·.number)).getD 0

/-- INSTALL and the answer to its LOAD_SHOW (R184). Result word 0 counts the sound cue records as the validation read
them, where the search for the first cue reads the list as it stands now: R184 does not say which of the two it
counts. DESIGN CHOICE (log 71). -/
def installLoad (s : State) : State :=
  match s.load with
  | none => s
  | some job =>
    let s := install job.staging s
    finishRequest (answer .ok (wordsOf (wordOf job.staging.cues.length)
      (wordOf (standbyNumberOrZero s)) (wordOf (usedChannels job.staging)) 0#32)) s

/-! ## STOP_SHOW (R185) -/

/-- The voices not IDLE enter IDLE; their fades are gone with the table (R132). -/
def stopVoices (s : State) : State :=
  forEach 16 (fun v s => if s.voices[v].state = .idle then s else enterIdle v s) s

/-- Every zone enters OFF, its duck gate commanded toward 0 (R147). The zones area is handed over also when
no zone changes by it, the model's choice (R148; log 56). -/
def stopZones (s : State) : State := forEach 24 (fun z s => zoneOff z (commandDuck z false s)) s

/-- STOP_SHOW (R185, with R36, R100, R116, R132, R147, R165). -/
def stopShowOwner (s : State) : State × Answer :=
  let a := answer .ok (wordsOf (wordOf s.seq.running.length) (wordOf (pagesOpen s)) 0#32 0#32)
  let s := finishCrossfades (emptyFades s)
  let s := setEngine .stopped (stopSequencer s)
  let s := stopZones (stopVoices (stopPagesAndCalls s))
  (mark .roles s, a)

end Sys2Proof.Machine
end

