-- ==== Sys2Proof/Machine/Operands.lean ====
section
/-! DEFINITION. The requests of the catalogue and how a slot's kind and argument words spell them (R181,
R191; log 11). -/

namespace Sys2Proof.Machine

/-- The twenty requests of the catalogue (R181). -/
inductive Request where
  | loadShow
  | stopShow
  | go
  | goTo (n : Nat)
  | pause
  | resume
  | completeAll
  | setLevel (elem : ElemRef) (value : BitVec 16) (time : Nat) (curve : Option Curve)
  | swapTap (role tap time : Nat)
  | voiceStart (voice sound : Nat) (level : BitVec 16) (loop : Bool)
  | voiceStop (voice time : Nat)
  | relay (group : Nat) (switch : Option Bool)
  | clearZoneFault (group : Nat)
  | pageOpen (group : Nat) (source : SourceRef) (priority : Nat) (level : BitVec 16)
  | pageClose (page : Nat)
  | callNow (call : Nat)
  | setTime (day hours minutes seconds : Nat)
  | lock (level : Nat)
  | unlock
  | captureNow (word0 word1 : Word)
  deriving DecidableEq, Repr, Inhabited

/-- 0 STEPS, 1 CUT, as in a move record (R191, log 11). -/
def curveOf (w : Word) : Option Curve :=
  if w = 0#32 then some .steps else if w = 1#32 then some .cut else none

/-- 0 OFF, 1 ON, as in a move record (R191, log 11). -/
def switchOf (w : Word) : Option Bool :=
  if w = 0#32 then some false else if w = 1#32 then some true else none

/-- A level argument: the low 16 bits of its word (R191, log 11). -/
def levelArg (w : Word) : BitVec 16 := w.extractLsb' 0 16

/-- The request that a kind code and the eight argument words spell, if the kind is one of the
twenty. -/
def Request.ofWords (kind : Word) (a : Vector Word 8) : Option Request :=
  match kind.toNat with
  | 1 => some .loadShow
  | 2 => some .stopShow
  | 3 => some .go
  | 4 => some (.goTo a[0].toNat)
  | 5 => some .pause
  | 6 => some .resume
  | 7 => some .completeAll
  | 8 => some (.setLevel (Config.elemArg a[0]) (levelArg a[1]) a[2].toNat (curveOf a[3]))
  | 9 => some (.swapTap a[0].toNat a[1].toNat a[2].toNat)
  | 10 => some (.voiceStart a[0].toNat a[1].toNat (levelArg a[2]) (a[3].getLsbD 0))
  | 11 => some (.voiceStop a[0].toNat a[1].toNat)
  | 12 => some (.relay a[0].toNat (switchOf a[1]))
  | 13 => some (.clearZoneFault a[0].toNat)
  | 14 => some (.pageOpen a[0].toNat (Config.sourceArg a[1]) a[2].toNat (levelArg a[3]))
  | 15 => some (.pageClose a[0].toNat)
  | 16 => some (.callNow a[0].toNat)
  | 17 => some (.setTime a[0].toNat a[1].toNat a[2].toNat a[3].toNat)
  | 18 => some (.lock a[0].toNat)
  | 19 => some .unlock
  | 20 => some (.captureNow a[0] a[1])
  | _ => none

/-- The kinds taken while the engine is STOPPED (R181). -/
def Request.takenStopped : Request → Bool
  | .loadShow | .setTime .. | .lock _ | .unlock | .captureNow .. => true
  | _ => false

/-- The requests that reach the cue sequencer, which completes one firing before it takes any other
event (05, section 5.3; log 34). -/
def Request.usesSequencer : Request → Bool
  | .loadShow | .stopShow | .go | .goTo _ | .pause | .resume | .completeAll => true
  | _ => false

end Sys2Proof.Machine
end

