-- ==== Sys2Proof/Machine/Flags.lean ====
section
/-! DEFINITION. The notice causes, the NOTICE line and the registers of the register window (R187, R191). -/

namespace Sys2Proof.Machine

/-! ## NOTICE -/

/-- The seven causes in the order of their bits (R187, R191). -/
def noticeCauses (s : State) : List Bool :=
  [anyAnswered s, anyUnmaskedFull s, s.notice.input, s.notice.zone, s.notice.fault, s.notice.clock,
    s.notice.restarted]

/-- The low bits of a word, bit 0 first. -/
def bitsWord (bs : List Bool) : Word :=
  wordOf (bs.foldr (fun b n => 2 * n + bitOf b) 0)

def noticeRegister (s : State) : Word := bitsWord (noticeCauses s)

/-- The NOTICE line is low while at least one cause is set and enabled (R187). -/
def noticeLineLow (s : State) : Bool :=
  (noticeRegister s).extractLsb' 0 7 &&& s.notice.mask != 0#7

/-- A write of 1 clears a latched cause; SLATE and CAPTURE are ignored (R187). -/
def Notice.clear (n : Notice) (w : Word) : Notice :=
  { n with
    input := n.input && !w.getLsbD 2
    zone := n.zone && !w.getLsbD 3
    fault := n.fault && !w.getLsbD 4
    clock := n.clock && !w.getLsbD 5
    restarted := n.restarted && !w.getLsbD 6 }

/-- The fault record without a fault (R177, R189). -/
def Port.clearFault (p : Port) : Port :=
  { p with faultAddr := 0#22, faultCause := .none, faultWrite := false, further := 0 }

/-- A host write of NOTICE; clearing FAULT clears the whole fault record (R177, R187). -/
def writeNotice (w : Word) (s : State) : State :=
  { s with
    notice := s.notice.clear w
    port := if w.getLsbD 4 then s.port.clearFault else s.port }

def writeNoticeMask (w : Word) (s : State) : State :=
  updNotice (fun n => { n with mask := w.extractLsb' 0 7 }) s

/-! ## Registers -/

def faultCode : FaultCause → Nat
  | .none => 0 | .regionReadonly => 1 | .locked => 2 | .loadHeld => 3 | .slateState => 4
  | .slateBusySlot => 5 | .cellState => 6 | .outOfRange => 7

def identRegister : Word := 0x64200001#32

def engineRegister (s : State) : Word :=
  place (engineCode s.engine) 0 ||| place (lockCode s.lock) 4
    ||| place (bitOf (s.clock.inUse == .wclk)) 8

def faultInfoRegister (s : State) : Word :=
  place (faultCode s.port.faultCause) 0 ||| place (bitOf s.port.faultWrite) 8 ||| place s.port.further 16

/-- GO 0, TRIG0–3 1–4, HOLD0–3 5–8, WCLK present 9; a line not yet read shows 0 (log 27). A line shows its
level as the part last read it, a hold line's at the last millisecond tick (R69; log 51). -/
def linesRegister (s : State) : Word :=
  place (bitOf (s.seq.goLevel.getD false)) 0 ||| place ((s.seq.trigLevel.getD 0#4).toNat) 1
    ||| place (bitOf s.hold[0].raw) 5 ||| place (bitOf s.hold[1].raw) 6
    ||| place (bitOf s.hold[2].raw) 7 ||| place (bitOf s.hold[3].raw) 8
    ||| place (bitOf s.clock.present) 9

/-- What a register reads as; other addresses of the register window return 0 (R191). A read changes no register
(R177). -/
def readRegister (s : State) (offset : Nat) : Word :=
  match offset with
  | 0x00 => identRegister
  | 0x04 => engineRegister s
  | 0x08 => noticeRegister s
  | 0x0C => s.notice.mask.setWidth 32
  | 0x10 => s.port.faultAddr.setWidth 32
  | 0x14 => faultInfoRegister s
  | 0x18 => linesRegister s
  | _ => 0#32

end Sys2Proof.Machine
end

