-- ==== Sys2Proof/Machine/Slate.lean ====
section
/-! DEFINITION. The request slate unit (R181), and the requests that the fade engine, the voice player,
the zone controller, the capture unit and the lock answer. -/

namespace Sys2Proof.Machine

/-! ## SET_LEVEL (R114, R115) -/

def Owner.kind : Owner → OwnerKind
  | .firing _ => .cue
  | .request => .request
  | .cast => .none

def Owner.serial : Owner → Nat
  | .firing id => id.serial
  | _ => 0

/-- The owner of the FADING record of an element. -/
def fadeOwner (s : State) (e : Elem) : Option Owner :=
  (fadingOf s e none).bind fun i => s.fades[i].map (·.owner)

/-- The result words of a SET_LEVEL, `old` being the owner of the record taken over (R114). -/
def setLevelWords (how : SetHow) (after : Level) (old : Option Owner) : Vector Word 4 :=
  wordsOf (Config.code (.setHow how)) (Config.levelWord after)
    (Config.code (.owner ((old.map Owner.kind).getD .none))) (wordOf ((old.map Owner.serial).getD 0))

/-- A SET_LEVEL that has passed its checks. -/
def setLevel (e : Elem) (x : Level) (time : Nat) (curve : Curve) (s : State) : State × Answer :=
  let old := fadeOwner s e
  if curve = .cut ∨ time = 0 then
    let s := cut e x s
    (s, answer .ok (setLevelWords .set (s.level e) old))
  else
    match placeFor s e with
    | some i =>
      let s := placeFade i (levelRec .request e x time none) e x s
      (s, answer .ok (setLevelWords .fading (s.level e) old))
    | none =>
      let s := cut e x s
      (s, answer .ok (setLevelWords .full (s.level e) old))

def setLevelOwner (ref : ElemRef) (value : BitVec 16) (time : Nat) (curve : Option Curve) (s : State) :
    State × Answer :=
  match ElemRef.elem? ref, curve with
  | some e, some k => setLevel e (levelOfField value) (clampTime time) k s
  | _, _ => (s, refuse .badArgument)

/-! ## VOICE_START (R122), VOICE_STOP (R129) -/

def badVoiceArg (r : RefusedFor) : Answer :=
  answer .badArgument (wordsOf (Config.code (.refusedFor r)) 0#32 0#32 0#32)

/-- VOICE_START (R122); its sound record is read then and there (log 15). -/
def voiceStartOwner (voice sound : Nat) (level : BitVec 16) (loop : Bool) (s : State) :
    State × Answer :=
  match fin? 16 voice with
  | none => (s, badVoiceArg .voice)
  | some v =>
    let s := askSound none sound s
    match judgeSound s s.mem sound loop with
    | .unknown => (s, badVoiceArg .soundUnknown)
    | .empty => (s, badVoiceArg .soundEmpty)
    | .usable snd =>
      let old := s.voices[v].owner
      (takePlay v snd (levelOfField level) .request s,
        answer .ok (wordsOf (Config.code (.owner old.kind)) (wordOf old.number) (wordOf snd.count)
          (Config.code (.looping snd.looping))))

def voiceStopWords (x : Voice) (how : SetHow) : Vector Word 4 :=
  wordsOf (Config.code (.voiceState x.state)) (Config.code (.setHow how))
    (Config.code (.owner x.owner.kind)) (wordOf x.owner.number)

/-- VOICE_STOP of a voice that is not IDLE: a stop fade where it has a time and a place, else a cut. -/
def stopVoice (v : VoiceId) (time : Nat) (s : State) : State × SetHow :=
  match if time = 0 then none else placeFor s (.voice v) with
  | some i =>
    (voiceStopping v i
      (placeFade i (levelRec .request (.voice v) .off time (some v)) (.voice v) .off s), .fading)
  | none => (stopCut v s, .set)

/-- VOICE_STOP (R129). Words 2 and 3 give the owner before the request also where a cut leaves the voice
IDLE, the model's choice (log 55). -/
def voiceStopOwner (voice time : Nat) (s : State) : State × Answer :=
  match fin? 16 voice with
  | none => (s, refuse .badArgument)
  | some v =>
    if s.voices[v].state = .idle then (s, answer .ok (voiceStopWords s.voices[v] .none))
    else
      let r := stopVoice v (clampTime time) s
      (r.1, answer .ok (voiceStopWords s.voices[v] r.2))

/-! ## RELAY (R138), CLEAR_ZONE_FAULT (R142) -/

def inFault (s : State) (z : ZoneId) : Bool := s.zones[z].state == .fault

def relayOwner (group : Nat) (switch : Option Bool) (s : State) : State × Answer :=
  match fin? 8 group, switch with
  | some g, some on =>
    let members := membersOf s g
    let changed := members.filter fun z => s.zones[z].relay != on
    let s := relayAction g on s
    (s, answer .ok (wordsOf (wordOf members.length) (wordOf changed.length)
      (wordOf (members.filter (inFault s)).length) 0#32))
  | _, _ => (s, refuse .badArgument)

/-- A member in FAULT enters OFF and is re-judged (R142). -/
def clearFault (z : ZoneId) (s : State) : State := powerIfWanted z (zoneOff z s)

def clearZoneFaultOwner (group : Nat) (s : State) : State × Answer :=
  match fin? 8 group with
  | none => (s, refuse .badArgument)
  | some g =>
    let cleared := (membersOf s g).filter (inFault s)
    let s := cleared.foldl (fun s z => clearFault z s) s
    (s, answer .ok (wordsOf (wordOf cleared.length)
      (wordOf (cleared.filter fun z => s.zones[z].ampen).length) 0#32 0#32))

/-! ## LOCK, UNLOCK (R186), CAPTURE_NOW (R170) -/

def setLock (l : LockLevel) (s : State) : State :=
  if s.lock = l then s else mark .engine { s with lock := l }

def lockWords (s : State) : Vector Word 4 :=
  wordsOf (wordOf (lockCode s.lock)) (rest s 1) (rest s 2) (rest s 3)

/-- LOCK (R186). Its argument names SOFT by 1 and HARD by 2, the numbers that R191 gives the levels in the ENGINE
register: that the argument word takes them too is the model's choice (log 67). -/
def lockOwner (level : Nat) (s : State) : State × Answer :=
  match level with
  | 1 =>
    if s.lock = .hard then (s, answer .locked (lockWords s))
    else (setLock .soft s, answer .ok (lockWords s))
  | 2 => (setLock .hard s, answer .ok (lockWords s))
  | _ => (s, answer .badArgument (lockWords s))

def unlockOwner (s : State) : State × Answer :=
  match s.lock with
  | .off => (s, answer .ok (lockWords s))
  | .soft => (setLock .off s, answer .ok (lockWords s))
  | .hard => (s, answer .locked (lockWords s))

def captureNowOwner (word0 word1 : Word) (s : State) : State × Answer :=
  match s.cells[manualCell].state with
  | .empty =>
    (captureEvent manualCell [word0, word1] s,
      answer .ok (wordsOf (wordOf s.tod.day) (wordOf s.tod.hours) (wordOf s.tod.minutes)
        (wordOf (s.tod.seconds * 1000 + s.tod.ms))))
  | _ => (s, answer .busy (wordsOf (wordOf s.cells[manualCell].missed) 0#32 0#32 0#32))

/-! ## Handing over -/

def later (x : State × Answer) : State × Option Answer := (x.1, some x.2)

/-- The request's owner answers, or, with `none`, will answer later (R181). -/
def ownerOf (r : Request) (s : State) : State × Option Answer :=
  match r with
  | .loadShow => loadShowOwner s
  | .stopShow => later (stopShowOwner s)
  | .go => goOwner s
  | .goTo n => later (goToOwner n s)
  | .pause => later (pauseOwner s)
  | .resume => later (resumeOwner s)
  | .completeAll => later (completeAllOwner s)
  | .setLevel e x t k => later (setLevelOwner e x t k s)
  | .swapTap r t x => later (swapTapOwner r t x s)
  | .voiceStart v n x l => later (voiceStartOwner v n x l s)
  | .voiceStop v t => later (voiceStopOwner v t s)
  | .relay g on => later (relayOwner g on s)
  | .clearZoneFault g => later (clearZoneFaultOwner g s)
  | .pageOpen g src p x => later (pageOpenOwner g src p x s)
  | .pageClose p => later (pageCloseOwner p s)
  | .callNow c => later (callNowOwner c s)
  | .setTime d h m n => later (setTimeOwner d h m n s)
  | .lock l => later (lockOwner l s)
  | .unlock => later (unlockOwner s)
  | .captureNow a b => later (captureNowOwner a b s)

/-- The current request, if any, has been handed to an owner that has not yet answered. -/
def markHanded (s : State) : State :=
  { s with slate := { s.slate with
      current := s.slate.current.map fun c => { c with phase := .handed } } }

/-- A request is refused NOT_LOADED, or its owner has it and may answer (R181). What the owner itself captures has
joined the write queue before the answer's bursts, and what the notices between blocks bring joins after them, such
as the CALL cell of a call that a VOICE_START cuts or whose voice a VOICE_STOP ends: the rules give no order. DESIGN
CHOICE (R121, R163, R181; log 69). -/
def handOver (r : Request) (s : State) : State :=
  if s.engine = .stopped ∧ r.takenStopped = false then finishRequest (refuse .notLoaded) s
  else
    match ownerOf r (markHanded s) with
    | (s, some a) => finishRequest a s
    | (s, none) => s

/-- A request that is being answered although no slot holds it (log 25): a GO whose firing waits, or a
load. -/
def slotlessBusy (s : State) : Bool :=
  s.load.isSome || match s.seq.firing with
    | some f => f.cause == .goRequest
    | none => false

/-- No request is handed over while LOADING, and none that reaches the sequencer while a firing waits
(R181, log 34). -/
def requestReady (s : State) (r : Request) : Bool :=
  s.engine != .loading && !(r.usesSequencer && s.seq.firing.isSome)

/-- The words of the current request once they have been read. -/
def readyWords (s : State) : Option (Word × Vector Word 8) :=
  match s.slate.current with
  | some { slot := _, phase := .ready k a } => some (k, a)
  | _ => none

/-- REQUEST_DISPATCH: a kind outside the catalogue is refused BAD_KIND, any other handed over (R181). -/
def dispatch (s : State) : State :=
  match readyWords s with
  | none => s
  | some (k, a) =>
    match Request.ofWords k a with
    | none => finishRequest (answer .badKind (wordsOf k (rest s 1) (rest s 2) (rest s 3))) s
    | some r => handOver r s

def dispatchDue (s : State) : Bool :=
  match readyWords s with
  | none => false
  | some (k, a) =>
    match Request.ofWords k a with
    | none => true
    | some r => requestReady s r

/-- A request row acts as the dispatch of a current request that spells it, or, with no current request,
as the same request without a slot (log 25). -/
def requestDue (r : Request) (s : State) : Bool :=
  requestReady s r &&
    match s.slate.current with
    | none => !slotlessBusy s
    | some _ =>
      match readyWords s with
      | none => false
      | some (k, a) => Request.ofWords k a == some r

/-! ## Taking a slot -/

def slotTakeDue (s : State) : Bool :=
  s.slate.current.isNone && !s.slate.arrival.isEmpty && !slotlessBusy s

/-- The head slot is taken and its words are asked for (R181 steps 1 and 2). -/
def takeSlot (s : State) : State :=
  match s.slate.arrival with
  | [] => s
  | i :: later =>
    askRead (.slot i) (joinQueue .slate (.slotState i .taken) (setView i .taken
      { s with slate := { s.slate with
          arrival := later, current := some { slot := i, phase := .reading } } }))

/-- The kind and argument words of the current request arrive. -/
def slotRead (i : SlotId) (s : State) : State :=
  match s.slate.current with
  | some { slot := j, phase := .reading } =>
    if j = i then
      let phase : CurPhase := .ready (Memory.readWord s.mem (slotBase i + 4))
        (Memory.readWords s.mem (slotBase i + 8) 8)
      { s with slate := { s.slate with current := some { slot := i, phase := phase } } }
    else s
  | _ => s

/-- The final state burst of a slot has been written (R181 step 4). -/
def slotAnswered (i : SlotId) (st : SlotState) (s : State) : State :=
  let current := match s.slate.current with
    | some c => if c.slot = i then none else some c
    | none => none
  setView i st { s with slate := { s.slate with current := current } }

end Sys2Proof.Machine
end

