-- ==== Sys2Proof/Machine/Port.lean ====
section
/-! DEFINITION. The host port: what a host access is judged by, its refusals and the fault record
(R169, R175 to R177, R180), and the port reset (R189). -/

namespace Sys2Proof.Machine

/-! ## How an access ends -/

def endAccess (err : Bool) (data : Word) (s : State) : State :=
  { s with port := { s.port with result := { err := err, data := data } } }

/-- Host accesses end at once with ERR during a full reset and start-up, and while RSTL has been low for
1 ms or more (R175). -/
def portBlocked (s : State) : Bool := s.phase == .fullReset || s.rstl != .high

/-- The port serves one access at a time: it is busy while one waits, for its turn or for the writes of a
port reset (R175, R189). -/
def portBusy (s : State) : Bool := s.port.waiting.isSome || s.port.held.isSome

/-- An access is taken when the port is not busy (R175, log 20). -/
def portAccess (f : State → State) (s : State) : State :=
  if portBusy s then s
  else if portBlocked s then endAccess true 0#32 s
  else f s

/-- The byte address of the word an access names (11, section 11.1). -/
def wordAddr (a : BitVec 22) : Nat := 4 * (a.toNat / 4)

/-- A refused access acts on the fault record (R177). -/
def Port.recordFault (p : Port) (latched : Bool) (addr : Nat) (cause : FaultCause) (write : Bool) : Port :=
  if latched then { p with further := min (p.further + 1) 255 }
  else
    { p with faultAddr := BitVec.ofNat 22 addr, faultCause := cause, faultWrite := write, further := 0 }

def refuseAccess (addr : Nat) (cause : FaultCause) (write : Bool) (s : State) : State :=
  endAccess true 0#32
    (updNotice (fun n => { n with fault := true })
      { s with port := s.port.recordFault s.notice.fault addr cause write })

/-! ## Judging a write (R176) -/

def slotAt (addr : Nat) : SlotId := ⟨(addr - 0x200) / 64 % 16, Nat.mod_lt _ (by decide)⟩
def cellAt (addr : Nat) : CellId := ⟨(addr - 0x600) / 32 % 12, Nat.mod_lt _ (by decide)⟩

/-- What an admitted write does beside being written. -/
inductive WriteEffect where
  | none | post (i : SlotId) | withdraw (i : SlotId) | giveBack (i : SlotId) | emptyCell (c : CellId)
  deriving DecidableEq, Repr

/-- POSTED written to a state word: a post of an EMPTY slot (R180). -/
def judgePost (i : SlotId) : SlotState → Except FaultCause WriteEffect
  | .empty => .ok (.post i)
  | .posted => .error .slateState
  | .taken => .error .slateState
  | .done => .error .slateState
  | .refused => .error .slateState

/-- EMPTY written to a state word: a withdrawal or a return (R180). -/
def judgeEmpty (i : SlotId) : SlotState → Except FaultCause WriteEffect
  | .empty => .error .slateState
  | .posted => .ok (.withdraw i)
  | .taken => .error .slateState
  | .done => .ok (.giveBack i)
  | .refused => .ok (.giveBack i)

/-- A word other than the state word, held while the slot is POSTED or TAKEN (R180). -/
def judgeOther : SlotState → Except FaultCause WriteEffect
  | .empty => .ok .none
  | .posted => .error .slateBusySlot
  | .taken => .error .slateBusySlot
  | .done => .ok .none
  | .refused => .ok .none

/-- A write to a slot, by the port's view of it (R180). -/
def judgeSlot (view : SlotState) (i : SlotId) (stateWord : Bool) (data : Word) :
    Except FaultCause WriteEffect :=
  if stateWord = false then judgeOther view
  else if data = 1#32 then judgePost i view
  else if data = 0#32 then judgeEmpty i view
  else .error .slateState

/-- A write to a capture cell, by the cell's state (R169). -/
def judgeCell (st : CellState) (c : CellId) (stateWord : Bool) (data : Word) :
    Except FaultCause WriteEffect :=
  if stateWord ∧ data = 0#32 ∧ st = .full then .ok (.emptyCell c) else .error .cellState

def inRegion (s : State) (kind : RegionKind) (addr : Nat) : Bool :=
  s.regions.toList.any fun r =>
    r.kind == kind && decide (r.base ≤ addr) && decide (addr < r.base + r.length)

/-- The first entry of R176's table that fits the address. -/
def judgeWrite (s : State) (addr : Nat) (data : Word) : Except FaultCause WriteEffect :=
  if s.memSize ≤ addr then .error .outOfRange
  else if 0x200 ≤ addr ∧ addr < 0x600 then
    judgeSlot s.port.view[slotAt addr] (slotAt addr) (addr % 64 == 0) data
  else if 0x600 ≤ addr ∧ addr < 0x780 then
    judgeCell s.cells[cellAt addr].state (cellAt addr) (addr % 32 == 0) data
  else if 0x780 ≤ addr ∧ inRegion s .mirror addr then .error .regionReadonly
  else if addr < 0x200 ∨ inRegion s .lockable addr then
    if s.engine = .loading then .error .loadHeld
    else if s.lock ≠ .off then .error .locked
    else .ok .none
  else .ok .none

def setArrival (l : List SlotId) (s : State) : State := { s with slate := { s.slate with arrival := l } }

/-- What an admitted write does. A post, withdrawal or return of a slot acts on the port's view and the arrival
queue (R180). An accepted return of a cell makes it EMPTY at its acceptance too, before its turn of memory has
come: the model's choice (R169; log 37). -/
def applyEffect (e : WriteEffect) (s : State) : State :=
  match e with
  | .none => s
  | .post i => setView i .posted (setArrival (s.slate.arrival ++ [i]) s)
  | .withdraw i => setView i .empty (setArrival (s.slate.arrival.filter (· != i)) s)
  | .giveBack i => setView i .empty s
  | .emptyCell c => setCell c { state := .empty, missed := 0 } s

/-- An admitted access begins to wait for a host turn (R175, R178). -/
def beginWait (a : HostAccess) (s : State) : State :=
  { s with port := { s.port with waiting := some a }, arb := { s.arb with hostWait := 0 } }

/-- A host write of show memory (R175, R176). -/
def hostWrite (addr : Nat) (data : Word) (s : State) : State :=
  match judgeWrite s addr data with
  | .error cause => refuseAccess addr cause true s
  | .ok e => beginWait (.write addr data) (applyEffect e s)

/-- A host read of show memory (R175). -/
def hostRead (addr : Nat) (s : State) : State :=
  if s.memSize ≤ addr then refuseAccess addr .outOfRange false s else beginWait (.read addr) s

/-- An access is judged and begins to wait, or is refused (R175, R176). -/
def admitAccess (a : HostAccess) (s : State) : State :=
  match a with
  | .read addr => hostRead addr s
  | .write addr data => hostWrite addr data s

/-- An access of the memory window arrives: it is admitted, or, while a port reset has writes to do, waits
unjudged until they are done (R189; log 37). -/
def arrive (a : HostAccess) (s : State) : State :=
  if s.port.clears = [] then admitAccess a s else { s with port := { s.port with held := some a } }

/-- A read of the register window ends with ready and the register's value. It never waits for the arbiter, and
writes that a port reset has still to do do not hold it (R175, R191; log 26, 37). -/
def registerRead (offset : Nat) (s : State) : State := endAccess false (readRegister s offset) s

/-- A host read, by the window its select line opens (11, section 11.1). -/
def readWindow (addr : WindowAddr) (s : State) : State :=
  match addr with
  | .memory a => arrive (.read (wordAddr a)) s
  | .register a => registerRead (wordAddr a) s

/-! ## Port reset (R189) -/

/-- The slots POSTED in the port's view, in ascending order. -/
def postedSlots (s : State) : List SlotId :=
  (List.finRange 16).filter fun i => s.port.view[i] == .posted

/-- The POSTED slots are EMPTY in the port's view at once; their state words are written in the port's own
turns, each of which begins to wait as an access does (R178, R189). -/
def Port.dropPosted (p : Port) (posted : List SlotId) : Port :=
  { p with
    view := mapVec (fun v => if v = .posted then .empty else v) p.view
    clears := p.clears ++ posted }

def resetPort (s : State) : State :=
  let s := { setArrival [] s with
    port := (s.port.dropPosted (postedSlots s)).clearFault
    arb := { s.arb with hostWait := if s.port.clears = [] then 0 else s.arb.hostWait } }
  updNotice (fun n => { n with
    input := false, zone := false, fault := false, clock := false, mask := 0x7F#7 }) s

/-! ## Resets and start-up (R188, R190) -/

/-- A full reset sets every block as its chapter gives; the commands that wait, what show memory holds,
the level of RSTL and the count of free values drawn are no block's state. -/
def fullResetState (s : State) : State :=
  { State.reset with pending := s.pending, mem := s.mem, rstl := s.rstl, freeCount := s.freeCount }

def DramSize.bytes : DramSize → Nat
  | .mib1 => 0x100000
  | .mib2 => 0x200000
  | .mib4 => 0x400000

/-- The state words that start-up writes EMPTY (R190). -/
def startUpWords : List (Nat × Word) :=
  (List.finRange 16).map (fun i => (slotBase i, 0#32))
    ++ (List.finRange 12).map (fun c => (cellBase c, 0#32))

def startUpDue (s : State) : Bool := s.phase == .fullReset && s.rstl != .low20ms

def startUp (size : DramSize) (s : State) : State :=
  updNotice (fun n => { n with restarted := true })
    { s with phase := .running, memSize := DramSize.bytes size, mem := Memory.writeAll s.mem startUpWords }

/-- RSTL has been low for 1 ms: an access that waits ends with ERR (R175, R188, log 37). A write so dropped keeps
the effect its admission had on the port's view, the arrival queue or the cell, while memory keeps the old
word, the model's choice (log 37). Writes that a port reset has still to do go on. -/
def rstl1ms (s : State) : State :=
  let s := { s with rstl := .low1ms }
  if portBusy s then
    endAccess true 0#32 { s with port := { s.port with waiting := none, held := none } }
  else s

/-- RSTL is released: a port reset after less than 20 ms, else the full reset may end (R188). -/
def rstlReleased (s : State) : State :=
  match s.rstl with
  | .high => s
  | .low1ms => { resetPort s with rstl := .high }
  | .low20ms => { s with rstl := .high }

end Sys2Proof.Machine
end

