-- ==== Sys2Proof/Machine/Arbiter.lean ====
section
/-! DEFINITION. The memory arbiter's turns (R178), the arrival of a burst (R125) and the writing of the
head of the write queue (R179). -/

namespace Sys2Proof.Machine

inductive User where
  | fetch (v : VoiceId) | host | read (r : EngineRead) | write
  deriving DecidableEq, Repr

/-- The lowest voice that waits with a fetch of this urgency. -/
def fetchWaiting (s : State) (urgent : Bool) : Option User :=
  ((List.finRange 16).find? fun v =>
    s.voices[v].outstanding.isSome && s.voices[v].urgent == urgent).map User.fetch

/-- The port waits for a turn, for a host access or for a write of a port reset (R178, R189). -/
def hostWaits (s : State) : Bool := s.port.waiting.isSome || !s.port.clears.isEmpty

def hostWaiting (s : State) : Option User := if hostWaits s then some .host else none

/-- The host after two turns granted to others (R178). -/
def hostPast (s : State) : Option User := if 2 ≤ s.arb.hostWait then hostWaiting s else none

def readWaiting (s : State) : Option User := (s.arb.reads.head?).map User.read

def writeWaiting (s : State) : Option User := if s.wq.queue = [] then none else some .write

/-- The first user that is waiting, in the order of R178. -/
def nextUser (s : State) : Option User :=
  (fetchWaiting s true).or <| (hostPast s).or <| (fetchWaiting s false).or <| (readWaiting s).or <|
    (hostWaiting s).or (writeWaiting s)

def grantDue (s : State) : Bool := s.arb.busy.isNone && (nextUser s).isSome

/-- A turn granted to another user counts while the host waits (R178). -/
def countTurn (s : State) : State :=
  if hostWaits s then
    { s with arb := { s.arb with hostWait := min (s.arb.hostWait + 1) 2 } }
  else s

def setBusy (t : Option Turn) (s : State) : State := { s with arb := { s.arb with busy := t } }

/-- The byte address of a voice's outstanding burst (R118, R124). -/
def fetchAddr (v : Voice) (f : Fetch) : Nat := v.sound.start + 4 * f.first

/-- The port's turn for a port reset: the state word of a slot is written EMPTY, and after the last of them
an access that has arrived meanwhile is admitted (R189). -/
def clearTurn (i : SlotId) (rest : List SlotId) (s : State) : State :=
  let s := { s with
    mem := Memory.writeWord s.mem (slotBase i) 0#32
    port := { s.port with clears := rest }
    arb := { s.arb with hostWait := 0 } }
  match rest, s.port.held with
  | [], some a => admitAccess a { s with port := { s.port with held := none } }
  | _, _ => s

/-- The turn of an admitted access: the word is read or written and the access ends with ready (R175). -/
def accessTurn (a : HostAccess) (s : State) : State :=
  let s := { s with port := { s.port with waiting := none }, arb := { s.arb with hostWait := 0 } }
  match a with
  | .write a w => endAccess false 0#32 { s with mem := Memory.writeWord s.mem a w }
  | .read a => endAccess false (Memory.readWord s.mem a) s

/-- The host port's turn: what a port reset has to write comes before any access (R189). -/
def hostTurn (s : State) : State :=
  match s.port.clears, s.port.waiting with
  | i :: rest, _ => clearTurn i rest s
  | [], some a => accessTurn a s
  | [], none => s

/-- The reads of the firing that waits have arrived (R83, log 16). -/
def firingRead (s : State) : State :=
  updSeq (fun q => { q with firing := q.firing.map fun f => { f with view := some s.mem } }) s

/-- The turn of an engine read (R178). A sound record or a cue search has been answered already, and only its
turn is still to come (log 15). -/
def engineRead (r : EngineRead) (s : State) : State :=
  let s := countTurn { s with arb := { s.arb with reads := s.arb.reads.tail } }
  match r with
  | .slot i => slotRead i s
  | .firing => firingRead s
  | .table k => loadTable k s
  | .record => s

/-- A voice's outstanding burst lies within the installed memory. -/
def fetchInside (s : State) (v : VoiceId) : Bool :=
  match s.voices[v].outstanding with
  | none => true
  | some f => decide (fetchAddr s.voices[v] f + 4 * f.size ≤ s.memSize)

def grantFetch (v : VoiceId) (s : State) : State :=
  match s.voices[v].outstanding with
  | none => s
  | some f => countTurn (setBusy (some (.fetch v (fetchAddr s.voices[v] f) f.size false)) s)

def grant (u : User) (s : State) : State :=
  match u with
  | .fetch v => grantFetch v s
  | .host => hostTurn s
  | .read r => engineRead r s
  | .write => countTurn (setBusy (some .write) s)

/-! ## A burst arrives (R125) -/

def arrivalDue (s : State) (v : VoiceId) : Bool :=
  match s.arb.busy with
  | some (.fetch w _ _ _) => w == v
  | _ => false

/-- The samples of a burst: the upper 24 bits of each word (00, Samples). -/
def burstSamples (m : Memory) (addr size : Nat) : List Sample :=
  (List.range size).map fun k => (Memory.readWord m (addr + 4 * k)).extractLsb' 8 24

def takeBurst (v : VoiceId) (samples : List Sample) (s : State) : State :=
  let s := updVoice v (fun x => { x with buffer := x.buffer ++ samples, outstanding := none }) s
  updVoice v Voice.request (primingStep v s)

def burstArrives (v : VoiceId) (s : State) : State :=
  match s.arb.busy with
  | some (.fetch _ a n stale) =>
    let s := setBusy none s
    if stale then s else takeBurst v (burstSamples s.mem a n) s
  | _ => s

/-! ## A burst of the write queue is written (R179) -/

def writtenDue (s : State) : Bool := s.arb.busy == some .write

/-- Who is told that a burst has reached memory (R168, R181). -/
def burstTold (b : Burst) (s : State) : State :=
  match b with
  | .slotState i .done => slotAnswered i .done s
  | .slotState i .refused => slotAnswered i .refused s
  | .cellFull c =>
    if s.cells[c].state = .filling then setCell c { s.cells[c] with state := .full } s else s
  | _ => s

def burstWritten (s : State) : State :=
  match s.wq.queue with
  | [] => setBusy none s
  | b :: _ =>
    burstTold b (setBusy none { s with
      mem := Memory.writeAll s.mem b.words
      mirror := showBurst s.mirror b
      wq := s.wq.leaveHead })

end Sys2Proof.Machine
end

