-- ==== Sys2Proof/Machine/Events.lean ====
section
/-! DEFINITION. The events the part raises itself: each acts when its condition stands and is without
effect when it does not (log 1), and ends by telling the other blocks and the mirror writer. -/

namespace Sys2Proof.Machine

/-- An event that is due acts, and is finished. -/
def event (due : Bool) (op : State → State) (s : State) : State := if due then finish (op s) else s

/-- A command outside a full reset; in one it is without effect (R188, log 3). -/
def running (f : State → State) (s : State) : Host.Outcome State Fault Refusal :=
  if s.phase = .running then .next (f s) else .next s

/-! ## Links, clock, channels -/

def lockEvent (l : Link) (s : State) : State := event s.rx[l].lockDue (lockReceiver l) s
def unlockEvent (l : Link) (s : State) : State := event s.rx[l].unlockDue (unlockReceiver l) s

def setSource (src : ClockSource) (coasting : Bool) (s : State) : State :=
  mark .engine { s with clock := { s.clock with inUse := src, coasting := coasting } }

/-- R4. -/
def fallbackDue (s : State) : Bool :=
  s.clock.inUse == .wclk && s.header.source == .wclk && decide (2 ≤ s.clock.absentRun)

def fallBack (s : State) : State :=
  updNotice (fun n => { n with clock := true }) (setSource .internal false s)

/-- R5. -/
def returnDue (s : State) : Bool :=
  s.clock.inUse == .internal && s.header.source == .wclk && decide (1000 ≤ s.clock.returnRun)

def returnToWclk (s : State) : State := setSource .wclk true s

def fallbackEvent (s : State) : State := event (fallbackDue s) fallBack s
def returnEvent (s : State) : State := event (returnDue s) returnToWclk s

def presentFalseEvent (c : Channel) (s : State) : State := event (presentFalseDue s c) (presentFalse c) s
def presentTrueEvent (c : Channel) (s : State) : State := event (presentTrueDue s c) (presentTrue c) s
def confirmEvent (c : Channel) (s : State) : State := event (confirmDue s c) (enterLost c .confirm) s
def holdTimerEvent (c : Channel) (s : State) : State := event (holdDue s c) (enterLive c) s
def batteryEvent (c : Channel) (s : State) : State := event (batteryDue s c) (batteryEdge c) s

/-! ## Gates, lines, cues -/

def rampEndEvent (g : GateId) (s : State) : State := event (rampEndDue s g) (gateRampEnd g) s
def acceptEvent (l : LineId) (s : State) : State := event (acceptDue s l) (acceptHold l) s
def lineGoEvent (s : State) : State := event (lineGoDue s) lineGo s
def triggerEvent (t : LineId) (s : State) : State := event (triggerDue s t) (triggerEdge t) s
def guardEvent (s : State) : State := event (guardDue s) guardEnds s
def followEvent (s : State) : State := event (followDue s) followExpires s
def firingEvent (s : State) : State := event (firingDue s) cueFiring s

/-! ## Records, voices -/

def delayEvent (i : RecId) (s : State) : State := event (delayDue s i) (actRecord none i) s
def fadeEvent (i : RecId) (s : State) : State := event (fadeDue s i) (completeFade i) s
def arrivalEvent (v : VoiceId) (s : State) : State := event (arrivalDue s v) (burstArrives v) s
def soundEndEvent (v : VoiceId) (s : State) : State := event (Voice.endDue s.voices[v]) (endSound v) s

/-! ## Zones -/

def stabilityDue (s : State) (z : ZoneId) : Bool :=
  s.zones[z].state == .powering && s.zones[z].timer == some 0

/-- AMP_OK was read true at this tick (R139). -/
def ampOkDue (s : State) (z : ZoneId) : Bool :=
  s.zones[z].state == .checking && s.clock.tickOpen && s.zones[z].ampOk

def sampleDue (s : State) (z : ZoneId) : Bool :=
  s.zones[z].state == .checking && s.zones[z].timer == some 0 && !s.zones[z].ampOk

def ampDropDue (s : State) (z : ZoneId) : Bool :=
  s.zones[z].state == .live && Zone.supervised s.zones[z] && decide (100 ≤ s.zones[z].falseRun)

def idleDue (s : State) (z : ZoneId) : Bool := s.zones[z].state == .live && s.zones[z].timer == some 0

def stabilityEvent (z : ZoneId) (s : State) : State := event (stabilityDue s z) (stabilityEnd z) s
def ampOkEvent (z : ZoneId) (s : State) : State := event (ampOkDue s z) (zoneEnterLive z) s
def sampleEvent (z : ZoneId) (s : State) : State :=
  event (sampleDue s z) (zoneFault z .sampleTimeout .checking) s
def ampDropEvent (z : ZoneId) (s : State) : State := event (ampDropDue s z) (zoneFault z .ampDrop .live) s
def idleEvent (z : ZoneId) (s : State) : State := event (idleDue s z) (zoneOff z) s

/-! ## Pages, calls, mirror -/

def limitEvent (p : PageId) (s : State) : State := event (limitDue s p) (closePage p .limit) s
def rolloverEvent (s : State) : State := event s.rollover secondRollover s
def patienceEvent (c : CallId) (s : State) : State :=
  event (Call.patienceOut s.calls[c]) (patienceEnds c) s
def mirrorEvent (s : State) : State := event s.mirror.levelsDue mirrorTick s
def metersEvent (s : State) : State := event s.mirror.metersDue metersTick s

/-! ## What is still due when the next frame or tick comes (log 5) -/

/-- Every gate: 64 of the channels, 40 of the mixes, 72 of the zones. -/
def allGates : List GateId :=
  (List.finRange 64).map .supervision ++ (List.finRange 40).map .mixHold
    ++ (List.finRange 24).flatMap fun z => [.relayHold z, .pageHold z, .duck z]

def settleLinks (s : State) : State := forEach 4 (fun l s => lockEvent l (unlockEvent l s)) s

def settleChannel (c : Channel) (s : State) : State :=
  batteryEvent c (holdTimerEvent c (confirmEvent c (presentTrueEvent c (presentFalseEvent c s))))

def settleZone (z : ZoneId) (s : State) : State :=
  idleEvent z (ampDropEvent z (sampleEvent z (ampOkEvent z (stabilityEvent z s))))

def settleClock (s : State) : State := returnEvent (fallbackEvent s)

def settleRecords (s : State) : State := forEach 128 (fun i s => fadeEvent i (delayEvent i s)) s

def settleCalls (s : State) : State :=
  forEach 16 patienceEvent (rolloverEvent (forEach 4 limitEvent s))

def settleCues (s : State) : State :=
  forEach 4 triggerEvent (lineGoEvent (guardEvent (followEvent s)))

/-- Every event still due is taken, in a fixed order. -/
def settle (s : State) : State :=
  let s := forEach 64 settleChannel (settleClock (settleLinks s))
  let s := allGates.foldl (fun s g => rampEndEvent g s) (forEach 4 acceptEvent s)
  let s := settleCalls (forEach 16 soundEndEvent s)
  let s := settleCues (forEach 24 settleZone (firingEvent (settleRecords s)))
  metersEvent (mirrorEvent s)

end Sys2Proof.Machine
end

