-- ==== Sys2Proof/Machine/Time.lean ====
section
/-! DEFINITION. The steps of time: a link frame, a frame of the sample clock, a millisecond tick, and the
millisecond of the internal reference at which WCLK is judged. -/

namespace Sys2Proof.Machine

/-! ## LINK_FRAME (R7 to R9) -/

/-- A frame completes on a link; a lock or unlock still due on it comes first (log 5). -/
def linkFrame (l : Link) (w : Vector Word 18) (s : State) : State :=
  updRx l (fun r => r.take w) (lockEvent l (unlockEvent l s))

/-! ## SAMPLE_FRAME -/

/-- The clip counts after the sums of a frame (R43). -/
def countClips (roles : Vector (Sample × Bool) 96) (mixes : Vector (Sample × Bool) 40)
    (zones : Vector (Sample × Bool) 24) (s : State) : State :=
  { s with
    roles := tabulate fun r => { s.roles[r] with clips := countClip s.roles[r].clips roles[r].2 }
    mixes := tabulate fun m => { s.mixes[m] with clips := countClip s.mixes[m].clips mixes[m].2 }
    zones := tabulate fun z => { s.zones[z] with clips := countClip s.zones[z].clips zones[z].2 } }

/-- The frame in progress is formed and sent (R10, R44 to R50, R67, R68, R174). -/
def formFrame (s : State) : State :=
  let roles := roleSignals s
  let mixes := mixOutputs s roles
  let slots := formedSlots s
  let s := measure slots (countClips roles mixes (zoneOutputs s mixes) s)
  { s with tx := tabulate fun l => transmitFrame s.txCount slots l, txCount := s.txCount + 1#8 }

/-- A link on which no frame completed counts a bad frame (R7). -/
def Receiver.endFrame (r : Receiver) : Receiver :=
  { (if r.completed then r else r.countBad) with completed := false }

/-- The GO line is read: a falling edge is a line GO (R89). -/
def readGo (go : Bool) (q : Seq) : Seq :=
  { q with
    goLevel := some go
    goEdges := if q.goLevel = some true ∧ go = false then q.goEdges + 1 else q.goEdges }

/-- The trigger lines are read: rising edges are counted (R92). -/
def readTriggers (trig : BitVec 4) (q : Seq) : Seq :=
  { q with
    trigLevel := some trig
    trigEdges := match q.trigLevel with
      | none => q.trigEdges
      | some before => tabulate fun t =>
          if trig.getLsbD t && !before.getLsbD t then q.trigEdges[t] + 1 else q.trigEdges[t] }

/-- A mix's hold gate moves on by a frame, and where it then stands at rest is kept; no install has commanded
it in the new frame (R54, R76). -/
def Mix.advance (m : Mix) : Mix :=
  { m with gate := m.gate.advance, rested := m.gate.advance.rested, renewed := false }

/-- Every gate moves on by a frame (R54). -/
def advanceGates (s : State) : State :=
  { s with
    channels := mapVec (fun x => { x with gate := x.gate.advance }) s.channels
    mixes := mapVec Mix.advance s.mixes
    zones := mapVec (fun x => { x with
      duck := x.duck.advance, relayHold := x.relayHold.advance, pageHold := x.pageHold.advance })
      s.zones }

/-- The idle timer of a LIVE zone counts frames (R1, R140). -/
def Zone.idleFrame (z : Zone) : Zone :=
  { z with timer := if z.state = .live then z.timer.map (· - 1) else z.timer }

/-- The timers that start at any frame and whose rules do not count ticks: the confirm and hold timers and
the idle timers (R1, R13, R14, R140; log 7). -/
def frameTimers (s : State) : State :=
  { s with
    channels := mapVec (fun x => { x with timer := x.timer.map (· - 1) }) s.channels
    zones := mapVec Zone.idleFrame s.zones }

/-- What moves at the beginning of a frame, before its events (R1, R8, R54, R89, R92, R126). That the presented
frames are read here, and not at another moment of the frame, is the model's choice (R8, R50; log 68). -/
def beginFrame (go : Bool) (trig : BitVec 4) (s : State) : State :=
  let s := updSeq (readTriggers trig) (updSeq (readGo go) (readChannels s))
  let s := voicesFrame (frameTimers (advanceGates s))
  { s with
    clock := { s.clock with tickOpen := false, sinceTick := min (s.clock.sinceTick + 1) 48 }
    mirror := { s.mirror with peaksSkip := false } }

/-- The frame ends on the links: a lock or unlock it brings is taken before the next begins (R9). An unlock
brought by a frame `f` in which none completed (R7) is so taken after `f` has been formed and before the gates
move on: a ramp it starts counts `f` as its start, while one of no time is first heard at the next frame, `f`
having been formed with the gate open. Which frame the unlock falls in is the model's choice (R54, R15; log 64). -/
def endFrame (s : State) : State := settleLinks { s with rx := mapVec Receiver.endFrame s.rx }

/-- The frame in progress is the 48th since the last tick, and its tick has not yet come (R1). -/
def tickDue (s : State) : Bool := decide (48 ≤ s.clock.sinceTick)

/-- A frame of the sample clock: what is still due is taken, the frame is formed and sent, and the next
begins (R50; log 4, 5). A frame whose tick has not yet come goes on (R1; log 6). -/
def sampleFrame (go : Bool) (trig : BitVec 4) (s : State) : State :=
  if tickDue s then s else finish (beginFrame go trig (endFrame (formFrame (settle s))))

/-! ## MILLISECOND_TICK -/

/-- A zone at a tick: AMP_OK read, its window timer and its false-run count (R139). The tick is read
before the events of its frame, so that of an entry to LIVE does not count (log 60). -/
def Zone.tick (z : Zone) (ampOk : Bool) : Zone :=
  { z with
    ampOk := ampOk
    timer := if z.state = .live then z.timer else z.timer.map (· - 1)
    falseRun :=
      if z.state == .live && z.supervised then (if ampOk then 0 else min (z.falseRun + 1) 100)
      else z.falseRun }

/-- Patience runs in WAIT_VOICE and WAIT_ZONES (R162). -/
def CallInst.tick (i : CallInst) : CallInst :=
  if i.phase = .playing then i else { i with patience := i.patience - 1 }

/-- The follow runs while no pause is set; the guard always (R88, R89). -/
def Seq.tick (q : Seq) : Seq :=
  { q with
    follow := if q.pause then q.follow else q.follow.map (· - 1)
    guard := q.guard.map (· - 1) }

/-- The timers and counts of a tick, each block's own (R1, R69, R88, R89, R139, R154, R162). -/
def tickTimers (hold : BitVec 4) (ampOk : BitVec 24) (s : State) : State :=
  { s with
    hold := tabulate fun l => s.hold[l].read (hold.getLsbD l)
    seq := s.seq.tick
    zones := tabulate fun z => s.zones[z].tick (ampOk.getLsbD z)
    pages := mapVec (·.map fun p => { p with limit := p.limit.map (· - 1) }) s.pages
    calls := mapVec (fun x => { x with inst := x.inst.map CallInst.tick }) s.calls }

/-- The clock at a tick; the 20 ms and 50 ms ticks fall at its multiples (R1, 10 section 10.2). -/
def tickClock (s : State) : State :=
  let n := (s.clock.ticks + 1) % 100
  { s with
    clock := { s.clock with ticks := n, sinceTick := 0, tickOpen := true }
    mirror := { s.mirror with
      levelsDue := s.mirror.levelsDue || n % 20 == 0
      metersDue := s.mirror.metersDue || n % 50 == 0 } }

/-- The time of day moves on; a carry of the milliseconds is a second rollover (R149). -/
def tickTime (s : State) : State :=
  { s with tod := s.tod.next, rollover := s.rollover || s.tod.next.ms == 0 }

/-- A millisecond tick, at every 48th frame and in it (R1; log 6). What the frame has brought and is still
due may be taken before it or after it (log 5). -/
def millisecondTick (hold : BitVec 4) (ampOk : BitVec 24) (s : State) : State :=
  if tickDue s then
    finish (forEach 128 tickRecord (tickClock (tickTime (tickTimers hold ampOk s))))
  else s

/-! ## WCLK (R1, R2, R4, R5) -/

def Clock.judge (k : Clock) (good : Bool) : Clock :=
  { k with
    present := good
    presentRun := if good then min (k.presentRun + 1) 1000 else 0
    returnRun := if good then min (k.returnRun + 1) 1000 else 0
    absentRun := if good then 0 else min (k.absentRun + 1) 2
    coasting := k.coasting || (!good && k.inUse == .wclk) }

/-- A WCLK period of this many nanoseconds is good: it lies between 19.5 and 22.2 microseconds, the ends
taken in (R2; log 42). -/
def goodPeriod (ns : Nat) : Bool := decide (19500 ≤ ns) && decide (ns ≤ 22200)

/-- WCLK is judged by the periods that ended in the millisecond: one good one makes it present (R2). -/
def judgeWclk (periods : List Nat) (s : State) : State :=
  let s := settleClock s
  { s with clock := s.clock.judge (periods.any goodPeriod) }

/-- A WCLK edge ends the frame in progress (R1; log 32). -/
def realign (s : State) : State :=
  if s.clock.inUse = .wclk then { s with clock := { s.clock with coasting := false } } else s

end Sys2Proof.Machine
end

