-- ==== Sys2Proof/Machine/ExecCues.lean ====
section
/-! DEFINITION. The meanings of the commands of hold lines, cues and the fade table (chapters 4 to 6). -/

namespace Sys2Proof.Machine

/-- HOLD_ACCEPTED (R69, R72). -/
def execHoldAccepted (line : LineId) (s : State) : Host.Outcome State Fault Refusal :=
  running (acceptEvent line) s

/-- LINE_GO (R89, R90). -/
def execLineGo (s : State) : Host.Outcome State Fault Refusal :=
  running lineGoEvent s

/-- TRIGGER_EDGE (R92). -/
def execTriggerEdge (line : LineId) (s : State) : Host.Outcome State Fault Refusal :=
  running (triggerEvent line) s

/-- GUARD_EXPIRY (R89). -/
def execGuardExpiry (s : State) : Host.Outcome State Fault Refusal :=
  running guardEvent s

/-- FOLLOW_EXPIRY (R88). -/
def execFollowExpiry (s : State) : Host.Outcome State Fault Refusal :=
  running followEvent s

/-- CUE_FIRING (R83 to R87). -/
def execCueFiring (s : State) : Host.Outcome State Fault Refusal :=
  running firingEvent s

/-- DELAY_EXPIRY (R105 to R107). -/
def execDelayExpiry (rec : RecId) (s : State) : Host.Outcome State Fault Refusal :=
  running (delayEvent rec) s

/-- FADE_COMPLETE (R110). -/
def execFadeComplete (rec : RecId) (s : State) : Host.Outcome State Fault Refusal :=
  running (fadeEvent rec) s

end Sys2Proof.Machine
end

