-- ==== Sys2Proof/Machine/ExecHost.lean ====
section
/-! DEFINITION. The meanings of the commands of the host port and the registers (chapters 10 and 11). -/

namespace Sys2Proof.Machine

/-- CELL_RETURN (R169). -/
def execCellReturn (cell : CellId) (word : Fin 8) (data : Word) (s : State) :
    Host.Outcome State Fault Refusal :=
  .next (portAccess (arrive (.write (cellBase cell + 4 * word.val) data)) s)

/-- HOST_READ (R175), of show memory or, by the register window, of a register (R191; log 26). -/
def execHostRead (addr : WindowAddr) (s : State) : Host.Outcome State Fault Refusal :=
  .next (portAccess (readWindow addr) s)

/-- HOST_WRITE (R175, R176). -/
def execHostWrite (addr : BitVec 22) (data : Word) (s : State) : Host.Outcome State Fault Refusal :=
  .next (portAccess (arrive (.write (wordAddr addr) data)) s)

/-- SLOT_POST. R180: a host write of POSTED to the state word. -/
def execSlotPost (slot : SlotId) (s : State) : Host.Outcome State Fault Refusal :=
  .next (portAccess (arrive (.write (slotBase slot) 1#32)) s)

/-- SLOT_WITHDRAW. R180: a host write of EMPTY to the state word. -/
def execSlotWithdraw (slot : SlotId) (s : State) : Host.Outcome State Fault Refusal :=
  .next (portAccess (arrive (.write (slotBase slot) 0#32)) s)

/-- SLOT_RETURN. R180: a host write of EMPTY to the state word. -/
def execSlotReturn (slot : SlotId) (s : State) : Host.Outcome State Fault Refusal :=
  .next (portAccess (arrive (.write (slotBase slot) 0#32)) s)

/-- NOTICE_WRITE (R187). -/
def execNoticeWrite (value : Word) (s : State) : Host.Outcome State Fault Refusal :=
  .next (portAccess (fun s => endAccess false 0#32 (writeNotice value s)) s)

/-- NOTICE_MASK_WRITE (R187). -/
def execNoticeMaskWrite (value : Word) (s : State) : Host.Outcome State Fault Refusal :=
  .next (portAccess (fun s => endAccess false 0#32 (writeNoticeMask value s)) s)

/-- REGISTER_WRITE_IGNORED. R191: ignored, and ends with ready. -/
def execRegisterWriteIgnored (_offset : BitVec 22) (_value : Word) (s : State) :
    Host.Outcome State Fault Refusal :=
  .next (portAccess (endAccess false 0#32) s)

end Sys2Proof.Machine
end

