-- ==== Sys2Proof/Machine/ExecLinks.lean ====
section
/-! DEFINITION. The meanings of the commands of stage links, the clock source, channels and gates (chapters 1 to 3). -/

namespace Sys2Proof.Machine

/-- LINK_FRAME (R6 to R9). -/
def execLinkFrame (link : Link) (words : Vector Word 18) (s : State) :
    Host.Outcome State Fault Refusal :=
  running (linkFrame link words) s

/-- RECEIVER_LOCKED (R9). -/
def execReceiverLocked (link : Link) (s : State) : Host.Outcome State Fault Refusal :=
  running (lockEvent link) s

/-- RECEIVER_UNLOCKED (R9, R15). -/
def execReceiverUnlocked (link : Link) (s : State) : Host.Outcome State Fault Refusal :=
  running (unlockEvent link) s

/-- WCLK_FALLBACK (R4). -/
def execWclkFallback (s : State) : Host.Outcome State Fault Refusal :=
  running fallbackEvent s

/-- WCLK_RETURN (R5). -/
def execWclkReturn (s : State) : Host.Outcome State Fault Refusal :=
  running returnEvent s

/-- CHANNEL_PRESENT_FALSE (R13, R14). -/
def execChannelPresentFalse (ch : Channel) (s : State) : Host.Outcome State Fault Refusal :=
  running (presentFalseEvent ch) s

/-- CHANNEL_PRESENT_TRUE (R13, R14). -/
def execChannelPresentTrue (ch : Channel) (s : State) : Host.Outcome State Fault Refusal :=
  running (presentTrueEvent ch) s

/-- CONFIRM_EXPIRY (R13). -/
def execConfirmExpiry (ch : Channel) (s : State) : Host.Outcome State Fault Refusal :=
  running (confirmEvent ch) s

/-- HOLD_TIMER_EXPIRY (R14). -/
def execHoldTimerExpiry (ch : Channel) (s : State) : Host.Outcome State Fault Refusal :=
  running (holdTimerEvent ch) s

/-- BATTERY_LOW_EDGE (R18). -/
def execBatteryLowEdge (ch : Channel) (s : State) : Host.Outcome State Fault Refusal :=
  running (batteryEvent ch) s

/-- GATE_RAMP_END (R54). -/
def execGateRampEnd (gate : GateId) (s : State) : Host.Outcome State Fault Refusal :=
  running (rampEndEvent gate) s

end Sys2Proof.Machine
end

