-- ==== Sys2Proof/Machine/ExecMemory.lean ====
section
/-! DEFINITION. The meanings of the commands of the mirror, the arbiter and the write queue (chapters 10 and 11). -/

namespace Sys2Proof.Machine

/-- MIRROR_TICK (R172, R173). -/
def execMirrorTick (s : State) : Host.Outcome State Fault Refusal :=
  running mirrorEvent s

/-- METERS_TICK (R174). -/
def execMetersTick (s : State) : Host.Outcome State Fault Refusal :=
  running metersEvent s

/-- MEMORY_GRANT. R178. A fetch past the installed memory stops the model (log 28). -/
def execMemoryGrant (s : State) : Host.Outcome State Fault Refusal :=
  if s.phase = .running ∧ grantDue s then
    match nextUser s with
    | some (.fetch v) =>
      if fetchInside s v then .next (finish (grant (.fetch v) s)) else .fault .outsideMemory
    | some u => .next (finish (grant u s))
    | none => .next s
  else .next s

/-- WRITE_BURST_WRITTEN (R179). -/
def execWriteBurstWritten (s : State) : Host.Outcome State Fault Refusal :=
  running (fun s => event (writtenDue s) burstWritten s) s

end Sys2Proof.Machine
end

