-- ==== Sys2Proof/Machine/ExecRequests.lean ====
section
/-! DEFINITION. The meanings of the commands of the request slate, the requests and the end of a load (chapter 11). -/

namespace Sys2Proof.Machine

/-- A request row that is due is handed over (R181, log 25). -/
def request (r : Request) (s : State) : State := event (requestDue r s) (handOver r) s

/-- SLOT_TAKE (R181). -/
def execSlotTake (s : State) : Host.Outcome State Fault Refusal :=
  running (fun s => event (slotTakeDue s) takeSlot s) s

/-- REQUEST_DISPATCH (R181). -/
def execRequestDispatch (s : State) : Host.Outcome State Fault Refusal :=
  running (fun s => event (dispatchDue s) dispatch s) s

/-- LOAD_SHOW (R182). -/
def execLoadShow (s : State) : Host.Outcome State Fault Refusal :=
  running (request .loadShow) s

/-- LOAD_REFUSED (R183). -/
def execLoadRefused (s : State) : Host.Outcome State Fault Refusal :=
  running (fun s => event (refusedDue s) refuseLoad s) s

/-- INSTALL (R184). -/
def execInstall (s : State) : Host.Outcome State Fault Refusal :=
  running (fun s => event (installDue s) installLoad s) s

/-- STOP_SHOW (R185). -/
def execStopShow (s : State) : Host.Outcome State Fault Refusal :=
  running (request .stopShow) s

/-- GO (R90, R91). -/
def execGo (s : State) : Host.Outcome State Fault Refusal :=
  running (request .go) s

/-- GO_TO (R93). -/
def execGoTo (n : Nat) (s : State) : Host.Outcome State Fault Refusal :=
  running (request (.goTo n)) s

/-- PAUSE (R94). -/
def execPause (s : State) : Host.Outcome State Fault Refusal :=
  running (request .pause) s

/-- RESUME (R95). -/
def execResume (s : State) : Host.Outcome State Fault Refusal :=
  running (request .resume) s

/-- COMPLETE_ALL (R96). -/
def execCompleteAll (s : State) : Host.Outcome State Fault Refusal :=
  running (request .completeAll) s

/-- SET_LEVEL (R114). -/
def execSetLevel (elem : ElemRef) (value : BitVec 16) (time : Nat) (curve : Option Curve) (s : State) :
    Host.Outcome State Fault Refusal :=
  running (request (.setLevel elem value time curve)) s

/-- SWAP_TAP (R28, R29). -/
def execSwapTap (role tap time : Nat) (s : State) : Host.Outcome State Fault Refusal :=
  running (request (.swapTap role tap time)) s

/-- VOICE_START (R122). -/
def execVoiceStart (voice sound : Nat) (level : BitVec 16) (loop : Bool) (s : State) :
    Host.Outcome State Fault Refusal :=
  running (request (.voiceStart voice sound level loop)) s

/-- VOICE_STOP (R129). -/
def execVoiceStop (voice time : Nat) (s : State) : Host.Outcome State Fault Refusal :=
  running (request (.voiceStop voice time)) s

/-- RELAY (R138). -/
def execRelay (group : Nat) (switch : Option Bool) (s : State) : Host.Outcome State Fault Refusal :=
  running (request (.relay group switch)) s

/-- CLEAR_ZONE_FAULT (R142). -/
def execClearZoneFault (group : Nat) (s : State) : Host.Outcome State Fault Refusal :=
  running (request (.clearZoneFault group)) s

/-- PAGE_OPEN (R152). -/
def execPageOpen (group : Nat) (source : SourceRef) (priority : Nat) (level : BitVec 16) (s : State) :
    Host.Outcome State Fault Refusal :=
  running (request (.pageOpen group source priority level)) s

/-- PAGE_CLOSE (R155). -/
def execPageClose (page : Nat) (s : State) : Host.Outcome State Fault Refusal :=
  running (request (.pageClose page)) s

/-- CALL_NOW (R159). -/
def execCallNow (call : Nat) (s : State) : Host.Outcome State Fault Refusal :=
  running (request (.callNow call)) s

/-- SET_TIME (R150). -/
def execSetTime (day hours minutes seconds : Nat) (s : State) : Host.Outcome State Fault Refusal :=
  running (request (.setTime day hours minutes seconds)) s

/-- LOCK (R186). -/
def execLock (level : Nat) (s : State) : Host.Outcome State Fault Refusal :=
  running (request (.lock level)) s

/-- UNLOCK (R186). -/
def execUnlock (s : State) : Host.Outcome State Fault Refusal :=
  running (request .unlock) s

/-- CAPTURE_NOW (R170). -/
def execCaptureNow (word0 word1 : Word) (s : State) : Host.Outcome State Fault Refusal :=
  running (request (.captureNow word0 word1)) s

end Sys2Proof.Machine
end

