-- ==== Sys2Proof/Machine/ExecResets.lean ====
section
/-! DEFINITION. The meanings of the commands of the resets and start-up (chapter 11). -/

namespace Sys2Proof.Machine

/-- PORT_RESET (R188, R189). -/
def execPortReset (s : State) : Host.Outcome State Fault Refusal :=
  .next (portAccess (fun s => endAccess false 0#32 (resetPort s)) s)

/-- FULL_RESET (R188, R190). -/
def execFullReset (s : State) : Host.Outcome State Fault Refusal :=
  .next (portAccess (fun s => endAccess false 0#32 (fullResetState s)) s)

/-- RSTL_HELD_1MS (R188). -/
def execRstlHeld1ms (s : State) : Host.Outcome State Fault Refusal :=
  .next (if s.rstl = .high then rstl1ms s else s)

/-- RSTL_HELD_20MS (R188, R190). -/
def execRstlHeld20ms (s : State) : Host.Outcome State Fault Refusal :=
  .next (if s.rstl = .low1ms then { fullResetState s with rstl := .low20ms } else s)

/-- RSTL_RELEASE (R188, R189). -/
def execRstlRelease (s : State) : Host.Outcome State Fault Refusal :=
  .next (rstlReleased s)

/-- START_UP (R175, R190). -/
def execStartUp (size : DramSize) (s : State) : Host.Outcome State Fault Refusal :=
  .next (if startUpDue s then startUp size s else s)

end Sys2Proof.Machine
end

