-- ==== Sys2Proof/Machine/ExecTime.lean ====
section
/-! DEFINITION. The meanings of the commands of a frame, a tick, and the millisecond of the internal reference. -/

namespace Sys2Proof.Machine

/-- SAMPLE_FRAME (R6 to R10, R44 to R50, R54, R89, R92, R126, R174). -/
def execSampleFrame (go : Bool) (trig : BitVec 4) (s : State) : Host.Outcome State Fault Refusal :=
  running (sampleFrame go trig) s

/-- MILLISECOND_TICK (R1, R69, R105, R110, R139, R149). -/
def execMillisecondTick (hold : BitVec 4) (ampOk : BitVec 24) (s : State) :
    Host.Outcome State Fault Refusal :=
  running (millisecondTick hold ampOk) s

/-- WCLK_PRESENCE_JUDGEMENT (R2). -/
def execWclkPresenceJudgement (periods : List Nat) (s : State) : Host.Outcome State Fault Refusal :=
  running (judgeWclk periods) s

/-- FRAME_CLOCK_REALIGNMENT (R1 (log 32)). -/
def execFrameClockRealignment (s : State) : Host.Outcome State Fault Refusal :=
  running realign s

end Sys2Proof.Machine
end

