-- ==== Sys2Proof/Machine/ExecZones.lean ====
section
/-! DEFINITION. The meanings of the commands of voices, zones, pages and calls (chapters 7 to 9). -/

namespace Sys2Proof.Machine

/-- BURST_ARRIVAL (R123, R125). -/
def execBurstArrival (voice : VoiceId) (s : State) : Host.Outcome State Fault Refusal :=
  running (arrivalEvent voice) s

/-- END_OF_SOUND (R126). -/
def execEndOfSound (voice : VoiceId) (s : State) : Host.Outcome State Fault Refusal :=
  running (soundEndEvent voice) s

/-- STABILITY_WINDOW_EXPIRY (R139). -/
def execStabilityWindowExpiry (zone : ZoneId) (s : State) : Host.Outcome State Fault Refusal :=
  running (stabilityEvent zone) s

/-- AMP_OK_TRUE (R139). -/
def execAmpOkTrue (zone : ZoneId) (s : State) : Host.Outcome State Fault Refusal :=
  running (ampOkEvent zone) s

/-- SAMPLE_WINDOW_EXPIRY (R139, R141). -/
def execSampleWindowExpiry (zone : ZoneId) (s : State) : Host.Outcome State Fault Refusal :=
  running (sampleEvent zone) s

/-- AMP_DROP (R139, R141). -/
def execAmpDrop (zone : ZoneId) (s : State) : Host.Outcome State Fault Refusal :=
  running (ampDropEvent zone) s

/-- IDLE_TIMER_EXPIRY (R140). -/
def execIdleTimerExpiry (zone : ZoneId) (s : State) : Host.Outcome State Fault Refusal :=
  running (idleEvent zone) s

/-- PAGE_LIMIT_EXPIRY (R154). -/
def execPageLimitExpiry (page : PageId) (s : State) : Host.Outcome State Fault Refusal :=
  running (limitEvent page) s

/-- SECOND_ROLLOVER (R149, R158). -/
def execSecondRollover (s : State) : Host.Outcome State Fault Refusal :=
  running rolloverEvent s

/-- PATIENCE_EXPIRY (R162). -/
def execPatienceExpiry (call : CallId) (s : State) : Host.Outcome State Fault Refusal :=
  running (patienceEvent call) s

end Sys2Proof.Machine
end

