-- ==== Sys2Proof/Machine/Dispatch.lean ====
section
/-! DEFINITION. One arm per command, each a call of its meaning. -/

namespace Sys2Proof.Machine

def exec (i : Instr) (s : State) : Host.Outcome State Fault Refusal :=
  match i with
  | .linkFrame link words => Sys2Proof.Machine.execLinkFrame link words s
  | .receiverLocked link => Sys2Proof.Machine.execReceiverLocked link s
  | .receiverUnlocked link => Sys2Proof.Machine.execReceiverUnlocked link s
  | .wclkFallback => Sys2Proof.Machine.execWclkFallback s
  | .wclkReturn => Sys2Proof.Machine.execWclkReturn s
  | .channelPresentFalse ch => Sys2Proof.Machine.execChannelPresentFalse ch s
  | .channelPresentTrue ch => Sys2Proof.Machine.execChannelPresentTrue ch s
  | .confirmExpiry ch => Sys2Proof.Machine.execConfirmExpiry ch s
  | .holdTimerExpiry ch => Sys2Proof.Machine.execHoldTimerExpiry ch s
  | .batteryLowEdge ch => Sys2Proof.Machine.execBatteryLowEdge ch s
  | .gateRampEnd gate => Sys2Proof.Machine.execGateRampEnd gate s
  | .holdAccepted line => Sys2Proof.Machine.execHoldAccepted line s
  | .lineGo => Sys2Proof.Machine.execLineGo s
  | .triggerEdge line => Sys2Proof.Machine.execTriggerEdge line s
  | .guardExpiry => Sys2Proof.Machine.execGuardExpiry s
  | .followExpiry => Sys2Proof.Machine.execFollowExpiry s
  | .cueFiring => Sys2Proof.Machine.execCueFiring s
  | .delayExpiry rec => Sys2Proof.Machine.execDelayExpiry rec s
  | .fadeComplete rec => Sys2Proof.Machine.execFadeComplete rec s
  | .burstArrival voice => Sys2Proof.Machine.execBurstArrival voice s
  | .endOfSound voice => Sys2Proof.Machine.execEndOfSound voice s
  | .stabilityWindowExpiry zone => Sys2Proof.Machine.execStabilityWindowExpiry zone s
  | .ampOkTrue zone => Sys2Proof.Machine.execAmpOkTrue zone s
  | .sampleWindowExpiry zone => Sys2Proof.Machine.execSampleWindowExpiry zone s
  | .ampDrop zone => Sys2Proof.Machine.execAmpDrop zone s
  | .idleTimerExpiry zone => Sys2Proof.Machine.execIdleTimerExpiry zone s
  | .pageLimitExpiry page => Sys2Proof.Machine.execPageLimitExpiry page s
  | .secondRollover => Sys2Proof.Machine.execSecondRollover s
  | .patienceExpiry call => Sys2Proof.Machine.execPatienceExpiry call s
  | .cellReturn cell word data => Sys2Proof.Machine.execCellReturn cell word data s
  | .mirrorTick => Sys2Proof.Machine.execMirrorTick s
  | .metersTick => Sys2Proof.Machine.execMetersTick s
  | .memoryGrant => Sys2Proof.Machine.execMemoryGrant s
  | .writeBurstWritten => Sys2Proof.Machine.execWriteBurstWritten s
  | .hostRead addr => Sys2Proof.Machine.execHostRead addr s
  | .hostWrite addr data => Sys2Proof.Machine.execHostWrite addr data s
  | .slotPost slot => Sys2Proof.Machine.execSlotPost slot s
  | .slotWithdraw slot => Sys2Proof.Machine.execSlotWithdraw slot s
  | .slotReturn slot => Sys2Proof.Machine.execSlotReturn slot s
  | .slotTake => Sys2Proof.Machine.execSlotTake s
  | .requestDispatch => Sys2Proof.Machine.execRequestDispatch s
  | .loadShow => Sys2Proof.Machine.execLoadShow s
  | .loadRefused => Sys2Proof.Machine.execLoadRefused s
  | .install => Sys2Proof.Machine.execInstall s
  | .stopShow => Sys2Proof.Machine.execStopShow s
  | .go => Sys2Proof.Machine.execGo s
  | .goTo n => Sys2Proof.Machine.execGoTo n s
  | .pause => Sys2Proof.Machine.execPause s
  | .resume => Sys2Proof.Machine.execResume s
  | .completeAll => Sys2Proof.Machine.execCompleteAll s
  | .setLevel elem value time curve => Sys2Proof.Machine.execSetLevel elem value time curve s
  | .swapTap role tap time => Sys2Proof.Machine.execSwapTap role tap time s
  | .voiceStart voice sound level loop => Sys2Proof.Machine.execVoiceStart voice sound level loop s
  | .voiceStop voice time => Sys2Proof.Machine.execVoiceStop voice time s
  | .relay group switch => Sys2Proof.Machine.execRelay group switch s
  | .clearZoneFault group => Sys2Proof.Machine.execClearZoneFault group s
  | .pageOpen group source priority level => Sys2Proof.Machine.execPageOpen group source priority level s
  | .pageClose page => Sys2Proof.Machine.execPageClose page s
  | .callNow call => Sys2Proof.Machine.execCallNow call s
  | .setTime day hours minutes seconds => Sys2Proof.Machine.execSetTime day hours minutes seconds s
  | .lock level => Sys2Proof.Machine.execLock level s
  | .unlock => Sys2Proof.Machine.execUnlock s
  | .captureNow word0 word1 => Sys2Proof.Machine.execCaptureNow word0 word1 s
  | .noticeWrite value => Sys2Proof.Machine.execNoticeWrite value s
  | .noticeMaskWrite value => Sys2Proof.Machine.execNoticeMaskWrite value s
  | .portReset => Sys2Proof.Machine.execPortReset s
  | .fullReset => Sys2Proof.Machine.execFullReset s
  | .registerWriteIgnored offset value => Sys2Proof.Machine.execRegisterWriteIgnored offset value s
  | .rstlHeld1ms => Sys2Proof.Machine.execRstlHeld1ms s
  | .rstlHeld20ms => Sys2Proof.Machine.execRstlHeld20ms s
  | .rstlRelease => Sys2Proof.Machine.execRstlRelease s
  | .startUp size => Sys2Proof.Machine.execStartUp size s
  | .sampleFrame go trig => Sys2Proof.Machine.execSampleFrame go trig s
  | .millisecondTick hold ampOk => Sys2Proof.Machine.execMillisecondTick hold ampOk s
  | .wclkPresenceJudgement periods => Sys2Proof.Machine.execWclkPresenceJudgement periods s
  | .frameClockRealignment => Sys2Proof.Machine.execFrameClockRealignment s

end Sys2Proof.Machine
end

