-- ==== Sys2Proof/Safety.lean ====
section
/-! DEFINITION. What holds of the part between steps, in the terms the statements use. -/

namespace Sys2Proof.Machine

/-- The write queue holds at most 48 bursts, and exactly 48 while a writer holds bursts (R179). -/
abbrev WriteQueue.Bounded (q : WriteQueue) : Prop :=
  q.queue.length ≤ 48 ∧ (q.heldSlate ≠ [] ∨ q.heldCapture ≠ [] → q.queue.length = 48)

/-- No notice and no hand-over is left over from an event (log 22, 30). -/
abbrev State.Quiet (s : State) : Prop := s.notes = [] ∧ s.marks = []

/-- What every step keeps: show memory canonical, the write queue bounded, nothing left over. -/
abbrev State.Inv (s : State) : Prop := Memory.wf s.mem ∧ s.wq.Bounded ∧ s.Quiet

/-- The part runs: start-up has ended and no full reset has begun since (R188, R190). -/
abbrev State.Runs (s : State) : Prop := s.phase = .running

/-- The frame in progress is the one a millisecond tick falls in, 48 frames after the last (R1, log 6). -/
abbrev State.TickIsDue (s : State) : Prop := s.clock.sinceTick = 48

/-- A step that stops does so for a fetch outside the installed memory, which R118 keeps from being
asked for. -/
abbrev State.FetchesInside (s : State) : Prop := ∀ v : VoiceId, fetchInside s v = true

/-! ## The terms of the statements -/

/-- A burst of a mirror hand-over (R172). -/
def Burst.isMirror : Burst → Bool
  | .mirrorData .. => true
  | .mirrorCount .. => true
  | _ => false

/-- `u` after the offers of the areas of `as`, in the order of the area table (R173). -/
def State.offered (u : State) (as : List Area) : State :=
  (Area.all.filter fun a => a ∈ as).foldl (fun s a => offer a s) { u with marks := [] }

/-- `u` with more, or no more, of the changes noted that the 20 ms ticks hand over: blocks of levels and the
records in use (R117, R172). -/
def State.noted (u : State) (dirty : Vector Bool 25) (inUse : Bool) : State :=
  { u with mirror := { u.mirror with dirty := dirty, inUseChanged := inUse } }

/-- `t` is `u` once the event is over that handed the areas of `as` to the mirror writer: each of them has
been offered, in the order of the area table (R173). All else is as in `u`, but that changes for the 20 ms
ticks may have been noted, none being forgotten. -/
def State.EndsAs (as : List Area) (u t : State) : Prop :=
  ∃ (dirty : Vector Bool 25) (inUse : Bool),
    (∀ b : Fin 25, u.mirror.dirty[b] = true → dirty[b] = true)
      ∧ (u.mirror.inUseChanged = true → inUse = true)
      ∧ t = { (u.noted dirty inUse).offered as with
              wq := { ((u.noted dirty inUse).offered as).wq with began := false } }

/-- Between `s` and `t` the area was offered once at this base: accepted whole, its count one up and its count
burst queued, or dropped whole and pending, 16 bursts or more being queued (R172, R173). -/
def State.HandedOver (s : State) (base : Nat) (a : Area) (t : State) : Prop :=
  let old := s.mirror.areas[a.index]
  let new := t.mirror.areas[a.index]
  let n := (old.count + 1) % 65536
  (new.count = n ∧ new.pending = false ∧ .mirrorCount base a n ∈ t.wq.queue)
    ∨ (new.count = old.count ∧ new.pending = true ∧ 16 ≤ t.wq.queue.length)

/-- The state in which the turn of area `a` comes at a 20 ms tick, the areas before it in the table having had
theirs (R173). -/
def State.turnAtTick (s : State) (a : Area) : State :=
  (Area.all.takeWhile (· ≠ a)).foldl (fun u b => if offeredAtTick u b then offerAtTick b u else u)
    { s with mirror := { s.mirror with levelsDue := false } }

/-- The row of a request acts at `s`: the part runs with nothing left over, the current request spells it
or no slot is being answered (log 25), and the engine's state takes it (R181). -/
abbrev State.Takes (s : State) (r : Request) : Prop :=
  s.Runs ∧ s.Quiet ∧ requestDue r s = true ∧ (s.engine ≠ .stopped ∨ r.takenStopped = true)

/-- `t` is `u` with the answer given (R181 step 4), the event being over that handed over the areas of
`as`. -/
def State.Answered (as : List Area) (u : State) (a : Answer) (t : State) : Prop :=
  (finishRequest a u).EndsAs as t

/-- The port takes an access: none is waiting and nothing holds it off (R175). -/
abbrev State.PortFree (s : State) : Prop := portBusy s = false ∧ portBlocked s = false

/-- The port takes an access of the memory window and judges it at once: it has no write of a port reset
still to do (R175, R189). -/
abbrev State.WindowFree (s : State) : Prop := s.PortFree ∧ s.port.clears = []

/-- The command row of a request. -/
def Request.command : Request → Instr
  | .loadShow => .loadShow
  | .stopShow => .stopShow
  | .go => .go
  | .goTo n => .goTo n
  | .pause => .pause
  | .resume => .resume
  | .completeAll => .completeAll
  | .setLevel e x t k => .setLevel e x t k
  | .swapTap r t x => .swapTap r t x
  | .voiceStart v n x l => .voiceStart v n x l
  | .voiceStop v t => .voiceStop v t
  | .relay g on => .relay g on
  | .clearZoneFault g => .clearZoneFault g
  | .pageOpen g src p x => .pageOpen g src p x
  | .pageClose p => .pageClose p
  | .callNow c => .callNow c
  | .setTime d h m n => .setTime d h m n
  | .lock l => .lock l
  | .unlock => .unlock
  | .captureNow a b => .captureNow a b

/-- The fields stand in their ranges (R149). -/
abbrev TimeOfDay.Valid (t : TimeOfDay) : Prop :=
  t.day ≤ 6 ∧ t.hours ≤ 23 ∧ t.minutes ≤ 59 ∧ t.seconds ≤ 59 ∧ t.ms ≤ 999

/-- The milliseconds since day 0, 00:00:00.000. -/
def TimeOfDay.total (t : TimeOfDay) : Nat :=
  (((t.day * 24 + t.hours) * 60 + t.minutes) * 60 + t.seconds) * 1000 + t.ms

/-- The voice waits with a fetch of this urgency (R124, R178). -/
abbrev State.FetchWaits (s : State) (v : VoiceId) (urgent : Bool) : Prop :=
  s.voices[v].outstanding.isSome ∧ Voice.urgent s.voices[v] = urgent

/-- Nothing outside the voice hears of its entry to IDLE: it is no call's, no page's source, and no call
waits for it (R154, R160). -/
abbrev State.VoiceAlone (s : State) (v : VoiceId) : Prop :=
  (∀ c, s.voices[v].owner ≠ .call c)
    ∧ (∀ p : PageId, s.pages[p].map (·.source) ≠ some (.voice v))
    ∧ ∀ c : CallId, Call.waitsFor s.calls[c] v = false

/-- No record of the fade table is moving the element (R109). -/
abbrev State.NotFading (s : State) (e : Elem) : Prop := fadingOf s e none = none

/-- A used channel's entry to LOST is no role's loss: the engine is STOPPED or no active tap is on it
(R33, R36). -/
abbrev State.NoRoleOn (s : State) (c : Channel) : Prop := s.engine = .stopped ∨ roleActiveOn s c = none

/-- The call's voice is its own, no page but `p` takes its sound from it, and no instance waits for it
(R154, R160). -/
abbrev State.CallAlone (s : State) (c : CallId) (v : VoiceId) (p : Option PageId) : Prop :=
  s.voices[v].owner = .call c
    ∧ (∀ q : PageId, s.pages[q].map (·.source) = some (.voice v) → p = some q)
    ∧ ∀ d : CallId, Call.waitsFor s.calls[d] v = false

/-- The sequencer once the firing of a running entry `x`, whose pending count is above 0, is told that one
of its records has left the table: the count falls, and at 0 the cue completes and may arm the follow
(R85, R87, R103). -/
def Seq.told (q : Seq) (x : RunEntry) : Seq :=
  if 2 ≤ x.pending then
    { q with running := q.running.map fun y =>
        if y.id = x.id then { y with pending := y.pending - 1 } else y }
  else
    { q with
      running := q.running.filter fun y => y.id ≠ x.id
      last := some { id := x.id, crushed := x.crushed, failed := x.failed, forced := x.forced }
      follow := if q.parent = some x.id ∧ q.standby.map (·.trigger) = some .followComplete
        then q.standby.map (·.wait) else q.follow }

/-- A zone that was OFF once it is powered: it runs its stability window, or, that being 0 or, for an always
powered zone, 255, goes on into its sample window, or, that being 0 or 255, into LIVE, where a zone without demand
starts its idle timer (R137, R139, R140). -/
def Zone.poweredUp (x : Zone) : Zone :=
  if x.cfg.stability ≠ 0 ∧ x.cfg.stability ≠ 255 then
    { x with ampen := true, state := .powering, timer := some (10 * x.cfg.stability) }
  else if x.cfg.sample ≠ 0 ∧ x.cfg.sample ≠ 255 then
    { x with ampen := true, state := .checking, timer := some (10 * x.cfg.sample) }
  else
    { x with
      ampen := true, state := .live, falseRun := 0
      timer := if x.relay = true ∨ x.page ≠ none ∨ x.cfg.idle = 0 ∨ x.cfg.stability = 255 then none
        else some (48 * (1000 * x.cfg.idle)) }

/-- A voice as an entry to IDLE leaves it (R126, R130). -/
def Voice.idled (x : Voice) : Voice :=
  { x with
    state := .idle, owner := .none, signal := 0#24, buffer := [], outstanding := none
    stopRec := none, startPending := false }

/-- A voice restarted by a PLAY of a usable sound, before it asks for its first burst (R121). -/
def Voice.restarted (x : Voice) (snd : SoundCopy) (owner : VoiceOwner) : Voice :=
  { x with
    sound := snd, playPos := 0, fetchPos := 0, owner := owner, buffer := [], outstanding := none
    stopRec := none, startPending := false, state := .priming, signal := 0#24 }

/-- The voices once the record `old` at place `i` has been taken over: of a stop fade that is its voice's stop
record the voice returns to its resume state (R130). -/
def State.resumed (s : State) (i : RecId) (old : FadeRec) : Vector Voice 16 :=
  match old.stopMark with
  | none => s.voices
  | some v =>
    if s.voices[v].stopRec = some i then
      s.voices.set v { s.voices[v] with
        state := if s.voices[v].state = .stopping then s.voices[v].resume else s.voices[v].state
        stopRec := none }
    else s.voices

/-- The areas a takeover of the record `old` at place `i` hands over: the cue area for a cue's record (R101,
R103), the voices area where a voice returns to its resume state (R130, R133). -/
def State.takeoverAreas (s : State) (i : RecId) (old : FadeRec) : List Area :=
  (match old.owner with
    | .firing _ => [.cue]
    | _ => [])
  ++ match old.stopMark with
    | some v => if s.voices[v].stopRec = some i then [.voices] else []
    | none => []

/-- The state once the sound record of a PLAY outside a firing has been read and its turn asked for; a number
past the directory reads none (R118, R178; log 15). -/
def State.soundAsked (s : State) (n : Nat) : State :=
  if n ≤ 1023 then { s with arb := { s.arb with reads := s.arb.reads ++ [.record] } } else s

/-- The arbiter after a PLAY outside a firing has taken the voice: its record's turn is asked for, and a burst
granted to the voice is stale (R121, R178; log 15). -/
def State.playedArb (s : State) (v : VoiceId) : Arbiter :=
  { (staleBurst v s).arb with reads := s.arb.reads ++ [.record] }

/-- The record of a LEVEL fade just begun at delay 0, by a request or a swap, over some time (R104, R107). -/
def FadeRec.begun (owner : Owner) (e : Elem) (target : Level) (start : Int) (time : Nat)
    (stopMark : Option VoiceId) : FadeRec :=
  { fading := true, owner := owner, content := .level e target .steps, upTime := time, downTime := time,
    ownUp := none, ownDown := none, runIndex := none, delayLeft := 0, start := start,
    time := min time 600000, elapsed := 0, stopMark := stopMark }

/-- The records that move the tap are those of a crossfade: at most one is FADING, a CAST record that is no stop
fade (R29, R31, R109). -/
abbrev State.CastMoves (s : State) (r : RoleId) (k : TapId) : Prop :=
  ∀ i : RecId, fadingOf s (.tap r k) none = some i →
    (s.fades[i].map fun f => (f.owner, f.stopMark)) = some (.cast, none)
      ∧ fadingOf s (.tap r k) (some i) = none

/-- `s` after one fade of a swap, of tap `k` to its target in some time: a CAST record moves the tap from its level,
or from −96 out of OFF, in the place of the record that moved it, which is taken over, or in the lowest free one
(log 18). A fade of time 0, or one that finds no place, is made at once, a record of the tap being taken over all
the same (R29, R30, R104, R109). -/
def State.tapFaded (s : State) (r : RoleId) (k : TapId) (target : Level) (time : Nat) : State :=
  let own := fadingOf s (.tap r k) none
  let a := (s.level (.tap r k)).orFloor (-96)
  let tap (x : TapState) := upd s.roles r fun y => { y with taps := y.taps.set k x }
  let count := if own = none then s.takenOver else min (s.takenOver + 1) 65535
  match if time = 0 then none else own.or (freePlace s) with
  | some i => { s with
      roles := tap (if target = .off then .fadingOut else .fadingIn)
      levels := s.levels.put (.tap r k) (.steps a)
      takenOver := count
      fades := s.fades.set i (some (.begun .cast (.tap r k) target a time none)) }
  | none => { s with
      roles := tap (if target = .off then .idle else .active)
      levels := s.levels.put (.tap r k) target
      takenOver := count
      fades := match own with
        | some i => s.fades.set i none
        | none => s.fades }

/-- The detail words of the CALL cell (9.4) at the bits of 11.7. -/
def callWords (c : CallId) (cut : Bool) (reason : Option MissReason) (i : CallInst) (holder : VoiceOwner) :
    List Word :=
  let (kind, index, serial) : OwnerKind × Nat × Nat := match holder with
    | .none => (.none, 0, 0)
    | .cue id => (.cue, id.number, id.serial)
    | .request => (.request, 0, 0)
    | .call d => (.call, d.val, 0)
  [place c.val 0 ||| placeCode (Config.code (.callOutcome cut)) 8 1,
    Config.code (.missReason reason),
    placeCode (Config.code (.phase (some i.phase))) 0 8 ||| place serial 16,
    placeCode (Config.code (.owner kind)) 0 8 ||| place index 8,
    i.started.word ||| placeCode (Config.code (.startedBy i.byCallNow)) 31 1]

/-- Between `s` and `t` one event with these detail words was handed to the cell: an EMPTY cell takes it, its data
and then its state being queued, where the write queue had room behind the `n` bursts that may have joined before;
any other counts it (R168). -/
def State.Captured (s : State) (cell : CellId) (details : List Word) (n : Nat) (t : State) : Prop :=
  (s.cells[cell].state = .empty → t.cells[cell] = { state := .filling, missed := 0 }
      ∧ (s.wq.queue.length + n ≤ 46 → s.wq.heldCapture = [] →
          [.cellData cell s.tod details, .cellFull cell] <:+: t.wq.queue.drop s.wq.queue.length))
    ∧ (s.cells[cell].state ≠ .empty → s.cells[cell].missed ≤ 255 →
        t.cells[cell] = { s.cells[cell] with missed := min (s.cells[cell].missed + 1) 255 })

/-- The cells but those of `but` are as they were. -/
abbrev State.CellsKept (s : State) (but : List CellId) (t : State) : Prop :=
  ∀ k : CellId, k ∉ but → t.cells[k] = s.cells[k]

/-- A call's voice that its call starts: PRIMED, it plays; PRIMING, it will; STOPPING, it would (R123). -/
def Voice.started (x : Voice) : Voice :=
  match x.state with
  | .primed => { x with state := .playing }
  | .priming => { x with startPending := true }
  | .stopping => { x with resume := .playing }
  | _ => x

/-- A stop fade that moves the voice's own level is the voice's own (R106, R128). -/
abbrev State.OwnStopOnly (s : State) (v : VoiceId) : Prop :=
  ∀ (j : RecId) (w : VoiceId), fadingOf s (.voice v) none = some j →
    s.fades[j].bind (·.stopMark) = some w → w = v

/-- The result of a table's check: the lowest index that fails it, or none (R183). -/
abbrev LowestBad {n : Nat} (bad : Fin n → Prop) (r : Option Word) : Prop :=
  (∀ i, bad i → (∀ j < i, ¬ bad j) → r = some (wordOf i.val)) ∧ ((∀ i, ¬ bad i) → r = none)

/-! ## The manual's own invariants -/

/-- No input channel is the channel of a non-IDLE tap in more than one role (R27). The records that uphold
it: a CAST record is FADING, and its tap is not IDLE unless its target is OFF (R31, R104). -/
abbrev State.CastLaw (s : State) : Prop :=
  (∀ (r q : RoleId) (c : Channel), Role.carries s.roles[r] c = true →
      Role.carries s.roles[q] c = true → r = q)
    ∧ ∀ (i : RecId) (f : FadeRec), s.fades[i] = some f → f.owner = .cast →
        f.fading = true ∧ ∀ r k target curve, f.content = .level (.tap r k) target curve →
          target ≠ .off → s.roles[r].taps[k] ≠ .idle

/-- At most one FADING record per element (R109). -/
abbrev State.FadeLaw (s : State) : Prop :=
  ∀ (i j : RecId) (f g : FadeRec) (e : Elem), s.fades[i] = some f → s.fades[j] = some g →
    f.fading = true → g.fading = true → f.elem? = some e → g.elem? = some e → i = j

/-- How many records a firing owns. -/
def recordsOwned (s : State) (id : FiringId) : Nat :=
  ((List.finRange 128).filter fun i => s.fades[i].map (·.owner) == some (.firing id)).length

/-- At most eight cues run, each with as many records pending as it owns, and no other firing owns one
(R85, 6.1). Each place of a run has at most one record. -/
abbrev State.CueLaw (s : State) : Prop :=
  s.seq.running.length ≤ 8 ∧ (s.seq.running.map (·.id)).Nodup
    ∧ (∀ e ∈ s.seq.running, e.placing = false ∧ 0 < e.pending ∧ e.pending = recordsOwned s e.id)
    ∧ ∀ (i : RecId) (f : FadeRec) (id : FiringId), s.fades[i] = some f → f.owner = .firing id →
        (∃ e ∈ s.seq.running, e.id = id)
          ∧ ∃ k < 64, f.runIndex = some k ∧ ∀ (j : RecId) (g : FadeRec), s.fades[j] = some g →
              g.owner = .firing id → g.runIndex = some k → j = i

/-- A zone carries a page exactly while the page holds it, and a page in use holds a zone (R151, R154). -/
abbrev State.PageLaw (s : State) : Prop :=
  (∀ (z : ZoneId) (p : PageId), s.zones[z].page = some p
      ↔ ∃ g, s.pages[p] = some g ∧ g.zones.getLsbD z = true)
    ∧ ∀ (p : PageId) (g : Page), s.pages[p] = some g → g.zones ≠ 0#24

/-- A slot is POSTED exactly while it stands, once, in the arrival queue (R180). -/
abbrev State.SlateLaw (s : State) : Prop :=
  s.slate.arrival.Nodup ∧ ∀ i : SlotId, s.port.view[i] = .posted ↔ i ∈ s.slate.arrival

/-- The invariants that the manual itself states. -/
abbrev State.ManualLaws (s : State) : Prop :=
  s.CastLaw ∧ s.FadeLaw ∧ s.CueLaw ∧ s.PageLaw ∧ s.SlateLaw

/-- What the next event finds that the manual's own checks provide: no final state is queued first for a
POSTED slot (R181), the next firing's id is no running cue's (R85), and the staged initial taps share no
channel (R22). -/
abbrev State.Provided (s : State) : Prop :=
  (∀ (i : SlotId) (st : SlotState), s.wq.queue.head? = some (.slotState i st) →
      s.port.view[i] ≠ .posted)
    ∧ (∀ st, s.seq.standby = some st → ∀ e ∈ s.seq.running, e.id ≠ nextId s st.number)
    ∧ ∀ job, s.load = some job → ∀ (r q : RoleId) (k j : TapId) (c : Channel),
        job.staging.roles[r].initial = some k → job.staging.roles[q].initial = some j →
        job.staging.roles[r].taps[k] = some c → job.staging.roles[q].taps[j] = some c → r = q

end Sys2Proof.Machine

namespace Sys2Proof

/-- Where a command comes from: a host access of the memory window or of the register window, a level of
RSTL or the start-up after a full reset, or the running part itself (R175, R188, R190, R191). -/
inductive Side where
  | memory | register | reset | part
  deriving DecidableEq, Repr

def Instr.side : Instr → Side
  | .hostRead (.register _) => .register
  | .cellReturn .. | .hostRead (.memory _) | .hostWrite .. | .slotPost .. | .slotWithdraw ..
  | .slotReturn .. => .memory
  | .noticeWrite .. | .noticeMaskWrite .. | .portReset .. | .fullReset ..
  | .registerWriteIgnored .. => .register
  | .rstlHeld1ms .. | .rstlHeld20ms .. | .rstlRelease .. | .startUp .. => .reset
  | .linkFrame .. | .receiverLocked .. | .receiverUnlocked .. | .wclkFallback ..
  | .wclkReturn .. | .channelPresentFalse .. | .channelPresentTrue .. | .confirmExpiry ..
  | .holdTimerExpiry .. | .batteryLowEdge .. | .gateRampEnd .. | .holdAccepted .. | .lineGo ..
  | .triggerEdge .. | .guardExpiry .. | .followExpiry .. | .cueFiring .. | .delayExpiry ..
  | .fadeComplete .. | .burstArrival .. | .endOfSound .. | .stabilityWindowExpiry ..
  | .ampOkTrue .. | .sampleWindowExpiry .. | .ampDrop .. | .idleTimerExpiry ..
  | .pageLimitExpiry .. | .secondRollover .. | .patienceExpiry .. | .mirrorTick ..
  | .metersTick .. | .memoryGrant .. | .writeBurstWritten .. | .slotTake ..
  | .requestDispatch .. | .loadShow .. | .loadRefused .. | .install .. | .stopShow .. | .go ..
  | .goTo .. | .pause .. | .resume .. | .completeAll .. | .setLevel .. | .swapTap ..
  | .voiceStart .. | .voiceStop .. | .relay .. | .clearZoneFault .. | .pageOpen ..
  | .pageClose .. | .callNow .. | .setTime .. | .lock .. | .unlock .. | .captureNow ..
  | .sampleFrame .. | .millisecondTick .. | .wclkPresenceJudgement ..
  | .frameClockRealignment .. => .part

/-- A host access of either window (R175). -/
def Instr.hostAccess (c : Instr) : Bool := c.side == .memory || c.side == .register

/-- The commands by which bytes of show memory can change: a turn of the host port, a burst of the write
queue and start-up (R175, R179, R189, R190). -/
def Instr.writesMemory : Instr → Bool
  | .memoryGrant | .writeBurstWritten | .startUp _ => true
  | _ => false

end Sys2Proof
end

