-- ==== Sys2Proof/Certificates/Slice0/Obligations.lean ====
section
/-! DEFINITION. The statements for the provers, one definition each; OBLIGATIONS.json lists them. An
event's statement says that its command answers a next state `t` and gives, in `u.EndsAs as t`, the state
`u` that the rules lead to and the areas `as` that the event hands to the mirror writer: what stands in `u`
as in `s` is the statement's frame. -/

open Sys2Proof Sys2Proof.Machine

/-! ## The queue, memory and the stops -/

/-- A step is exec of the command in front on the state with the queue's rest; on an empty queue the
block idles (the model's choice, log 2). No word of the opcode table spells a command, so no word is put
in front. -/
def Obligations.StepRunsTheCommandInFront : Prop :=
  (∀ (c : Instr) (rest : List Instr) (s : State),
      step { s with pending := c :: rest } = exec c { s with pending := rest })
    ∧ (∀ s : State, s.pending = [] → step s = .next s)
    ∧ ∀ (s : State) (nbits w : Nat),
        decodeTableWord nbits w = none ∧ s.withFetchWord nbits w = s

/-- No command touches the queue of commands, and none but a memory turn, a burst written and start-up
touches show memory. -/
def Obligations.CommandsKeepQueueAndMemory : Prop :=
  ∀ (c : Instr) (s t : State), exec c s = .next t →
    t.pending = s.pending ∧ (c.writesMemory = false → t.mem = s.mem)

/-- Show memory stays in its canonical form, the write queue holds at most 48 bursts and exactly 48 while a
writer holds any (R179), and no event leaves a notice or a hand-over behind (logs 22, 30). -/
def Obligations.EveryStepKeepsTheInvariant : Prop :=
  ∀ s t : State, s.Inv → step s = .next t → t.Inv

/-- The reset state meets the invariant of every step, and the manual's own: no channel is carried by two roles,
and no tap that a CAST record fades in is IDLE (2.2, 2.4), no element has two FADING records (6.4), each running
cue has as many records pending as it owns and at most eight run (5.3), a zone carries a page exactly while the
page holds it (9.2), and a slot is POSTED exactly while it stands once in the arrival queue (11.3). Every step
keeps these, where the manual's checks have made the next event's data sound (`State.Provided`). -/
def Obligations.ResetMeetsTheInvariant : Prop :=
  State.reset.Inv ∧ State.reset.ManualLaws
    ∧ ∀ s t : State, s.Quiet → s.ManualLaws → s.Provided → step s = .next t → t.ManualLaws

/-- No command is refused, and none stops but a memory grant to a fetch outside the installed memory
(log 28); with every fetch inside, a step answers a next state. -/
def Obligations.OnlyAStrayFetchStopsTheModel : Prop :=
  (∀ (c : Instr) (s : State),
      (∀ r, exec c s ≠ .refused r)
        ∧ ∀ f, exec c s = .fault f → c = .memoryGrant ∧ ∃ v, fetchInside s v = false)
    ∧ ∀ s : State, s.FetchesInside → ∃ t, step s = .next t

/-- In a full reset the running part does nothing (R1, R188). While the port is held off, in a full reset or with
RSTL low for 1 ms or more, every host access ends at once with ERR and does nothing else (R175). The read data 0
of an access that ends with ERR is the model's own (log 26). -/
def Obligations.ResetsHoldThePart : Prop :=
  (∀ (c : Instr) (s : State), s.phase = .fullReset → c.side = .part →
      exec c s = .next s)
    ∧ ∀ (c : Instr) (s : State), c.hostAccess = true → portBusy s = false → portBlocked s = true →
        exec c s = .next { s with port := { s.port with result := { err := true, data := 0#32 } } }

/-- A word written reads back, its bytes in little-endian order, and every other byte reads as before. -/
def Obligations.WrittenWordReadsBack : Prop :=
  ∀ (m : Memory) (a : Nat) (w : Word),
    Memory.readWord (Memory.writeWord m a w) a = w
      ∧ (∀ k < 4, Memory.readByte (Memory.writeWord m a w) (a + k) = w.extractLsb' (8 * k) 8)
      ∧ ∀ b, b < a ∨ a + 4 ≤ b → Memory.readByte (Memory.writeWord m a w) b = Memory.readByte m b

/-! ## Gain, fades, gates, time of day -/

/-- R40: a capped step sum splits by floor division into doublings and a mantissa index, the 24 mantissas are
those of the rule's table, each 32768 × 2^(m/24) to the nearest integer, and the shift runs from 13 to 35. R41: the
contribution is the product with the mantissa, half of the divisor added, divided with floor; and what the rule
says of its size. -/
def Obligations.ContributionIsRoundedAndBounded : Prop :=
  (∀ (x : Sample) (S : Int), -480 ≤ S → S ≤ 48 →
    let M := mantissa (S % 24).toNat
    let n := (15 - S / 24).toNat
    S = 24 * (S / 24) + S % 24 ∧ 0 ≤ S % 24 ∧ S % 24 < 24 ∧ 13 ≤ n ∧ n ≤ 35
      ∧ -20 ≤ S / 24 ∧ S / 24 ≤ 2 ∧ (S / 24 = 2 → S % 24 = 0)
      ∧ 2 ^ n * gain x.toInt S ≤ x.toInt * M + 2 ^ (n - 1)
      ∧ x.toInt * M + 2 ^ (n - 1) < 2 ^ n * (gain x.toInt S + 1)
      ∧ (S = 0 → gain x.toInt S = x.toInt)
      ∧ (S < 0 → (gain x.toInt S).natAbs ≤ x.toInt.natAbs)
      ∧ (gain x.toInt S).natAbs ≤ 33554432
      ∧ (S = -480 → x.toInt.natAbs < 524288 → gain x.toInt S = 0))
    ∧ (List.range 24).map mantissa
        = [32768, 33728, 34716, 35734, 36781, 37859, 38968, 40110, 41285, 42495, 43740, 45022, 46341, 47699,
            49097, 50535, 52016, 53540, 55109, 56724, 58386, 60097, 61858, 63670]
    ∧ (∀ m < 24, (2 * mantissa m - 1) ^ 24 < 65536 ^ 24 * 2 ^ m
        ∧ 65536 ^ 24 * 2 ^ m < (2 * mantissa m + 1) ^ 24)
    ∧ gain (-8388608) 48 = -33554432
    ∧ gain 1 (-24) = 1 ∧ gain 3 (-24) = 2 ∧ gain (-1) (-24) = 0 ∧ gain (-3) (-24) = -1

/-- The fade law (3.8): the truncated line below T and the target at T; never beyond the line; a rising
and a falling fade are mirror images; the manual's fade of 72 steps in 2000 ms. -/
def Obligations.FadeKeepsToItsLine : Prop :=
  (∀ (a b : Int) (T e : Nat), e ≤ T →
    (e < T → fadeValue a b T e = a + Int.tdiv ((b - a) * e) T)
      ∧ (e = T → fadeValue a b T e = b)
      ∧ (e = 0 → 0 < T → fadeValue a b T e = a)
      ∧ (e < T → a ≤ b → a ≤ fadeValue a b T e ∧ (fadeValue a b T e - a) * T ≤ (b - a) * e)
      ∧ (e < T → b ≤ a → fadeValue a b T e ≤ a ∧ (a - fadeValue a b T e) * T ≤ (a - b) * e)
      ∧ fadeValue a b T e + fadeValue b a T e = a + b)
    ∧ (∀ e ≤ 27, fadeValue 0 72 2000 e = 0) ∧ fadeValue 0 72 2000 28 = 1
    ∧ fadeValue 0 72 2000 1972 = 70 ∧ fadeValue 0 72 2000 1973 = 71
    ∧ ∀ e, 1973 ≤ e → e < 2000 → fadeValue 0 72 2000 e = 71

/-- A gate commanded elsewhere runs the fade law in frames from its present value, or from −480 out of OFF, and
reaches its target at frame T, OFF standing for −480, or in the frame of the command with T = 0; a gate at or
toward its target is left alone; GATE_RAMP_END then brings it to rest and hands its owner's area over (R54 to
R56, 4.5, 8.8, 10.2). -/
def Obligations.GateRunsItsRampAndRests : Prop :=
  (∀ (g : Gate) (b : Int) (T : Nat), 0 < T → (∀ r, g.ramp = some r → r.target ≠ b) →
    (g.ramp = none → g.value ≠ restValue b) →
      (∀ e, e < T →
        (Nat.iterate Gate.advance e (g.command b T)).value
            = .steps (fadeValue (g.value.orFloor (-480)) b T e)
          ∧ (Nat.iterate Gate.advance e (g.command b T)).endDue = false)
        ∧ (Nat.iterate Gate.advance T (g.command b T)).value = restValue b
        ∧ (Nat.iterate Gate.advance T (g.command b T)).endDue = true)
    ∧ (∀ (g : Gate) (b : Int), (∀ r, g.ramp = some r → r.target ≠ b) →
        (g.ramp = none → g.value ≠ restValue b) →
        g.command b 0 = { value := restValue b, ramp := none })
    ∧ (∀ (g : Gate) (b : Int) (T : Nat), (g.ramp = none ∧ g.value = restValue b)
        ∨ (∃ r, g.ramp = some r ∧ r.target = b) → g.command b T = g)
    ∧ ∀ (id : GateId) (s : State), s.Runs → s.Quiet → (gateOf s id).endDue = true →
        ∃ t, exec (.gateRampEnd id) s = .next t
          ∧ (updGate id (fun g => { g with ramp := none }) s).EndsAs [GateId.area id] t

/-- The time of day counts milliseconds modulo a week, each field carrying into the next (9.1). -/
def Obligations.TimeOfDayCarries : Prop :=
  ∀ d : TimeOfDay, d.Valid → d.next.Valid ∧ d.next.total = (d.total + 1) % 604800000

/-! ## The host port -/

/-- NOTICE shows its seven causes, SLATE and CAPTURE as levels, and the line is low while one of them is set
and enabled. A write of NOTICE clears the latched causes it names, with FAULT the fault record; NOTICE_MASK
takes its seven bits; an ignored register write ends with ready and does nothing else (11.5, 11.7, 10.1).
The other registers read as 11.7 lays them out. The read data that such a write leaves behind is the
model's own (log 26), and so is that LINES shows a line's level as last read (log 51). -/
def Obligations.NoticeShowsItsCausesAndWritesAct : Prop :=
  (∀ s : State,
    let n := noticeRegister s
    (n.getLsbD 0 = true ↔ ∃ i : SlotId, s.port.view[i] = .done ∨ s.port.view[i] = .refused)
      ∧ (n.getLsbD 1 = true
          ↔ ∃ c : CellId, s.cells[c].state = .full ∧ s.header.captureMasks.getLsbD c = false)
      ∧ n.getLsbD 2 = s.notice.input ∧ n.getLsbD 3 = s.notice.zone ∧ n.getLsbD 4 = s.notice.fault
      ∧ n.getLsbD 5 = s.notice.clock ∧ n.getLsbD 6 = s.notice.restarted
      ∧ (noticeLineLow s = true ↔ ∃ k < 7, n.getLsbD k = true ∧ s.notice.mask.getLsbD k = true))
    ∧ (∀ (s : State) (v : Word), s.PortFree →
      exec (.noticeWrite v) s = .next { s with
          notice := { s.notice with
            input := s.notice.input && !v.getLsbD 2
            zone := s.notice.zone && !v.getLsbD 3
            fault := s.notice.fault && !v.getLsbD 4
            clock := s.notice.clock && !v.getLsbD 5
            restarted := s.notice.restarted && !v.getLsbD 6 }
          port := { s.port with
            faultAddr := if v.getLsbD 4 then 0#22 else s.port.faultAddr
            faultCause := if v.getLsbD 4 then .none else s.port.faultCause
            faultWrite := if v.getLsbD 4 then false else s.port.faultWrite
            further := if v.getLsbD 4 then 0 else s.port.further
            result := { err := false, data := 0#32 } } }
        ∧ exec (.noticeMaskWrite v) s = .next { s with
            notice := { s.notice with mask := v.extractLsb' 0 7 }
            port := { s.port with result := { err := false, data := 0#32 } } }
        ∧ ∀ o, exec (.registerWriteIgnored o v) s
            = .next { s with port := { s.port with result := { err := false, data := 0#32 } } })
    ∧ ∀ s : State,
      let engine := readRegister s 0x04
      let info := readRegister s 0x14
      let lines := readRegister s 0x18
      readRegister s 0x00 = 0x64200001#32
      ∧ field engine 0 2 = (match s.engine with | .stopped => 0 | .loading => 1 | .loaded => 2)
      ∧ field engine 4 2 = (match s.lock with | .off => 0 | .soft => 1 | .hard => 2)
      ∧ (engine.getLsbD 8 = true ↔ s.clock.inUse = .wclk) ∧ field engine 16 2 = 0
      ∧ readRegister s 0x08 = noticeRegister s
      ∧ (readRegister s 0x0C).extractLsb' 0 7 = s.notice.mask
      ∧ (readRegister s 0x10).extractLsb' 0 22 = s.port.faultAddr
      ∧ field info 0 4 = (match s.port.faultCause with
          | .none => 0 | .regionReadonly => 1 | .locked => 2 | .loadHeld => 3 | .slateState => 4
          | .slateBusySlot => 5 | .cellState => 6 | .outOfRange => 7)
      ∧ info.getLsbD 8 = s.port.faultWrite ∧ (s.port.further ≤ 255 → field info 16 8 = s.port.further)
      ∧ (∀ b, s.seq.goLevel = some b → lines.getLsbD 0 = b)
      ∧ (∀ w, s.seq.trigLevel = some w → ∀ k : LineId, lines.getLsbD (1 + k.val) = w.getLsbD k)
      ∧ (∀ k : LineId, lines.getLsbD (5 + k.val) = s.hold[k].raw)
      ∧ lines.getLsbD 9 = s.clock.present
      ∧ ∀ o, o ∉ [0x00, 0x04, 0x08, 0x0C, 0x10, 0x14, 0x18] → readRegister s o = 0#32

/-- A read of show memory below the installed size begins to wait for a host turn, its count of turns granted to
others at 0; at or above it the read is refused OUT_OF_RANGE (11.1, 11.2). A read of the register window ends at
once with ready and the register's value, whatever a port reset has still to write, and changes nothing else (11.1,
11.7); that it comes as a HOST_READ (log 26), and that the writes of a port reset do not hold it (log 37), are the
model's choices. While the port is held off, a read of either window ends with ERR (11.1). The data 0 that it then
leaves is the model's own (log 26). -/
def Obligations.HostReadIsAdmittedOrRefused : Prop :=
  (∀ (s : State) (a : BitVec 22), s.PortFree → exec (.hostRead (.register a)) s = .next { s with
      port := { s.port with result := { err := false, data := readRegister s (wordAddr a) } } })
  ∧ (∀ (s : State) (a : WindowAddr), portBusy s = false →
      s.phase = .fullReset ∨ s.rstl = .low1ms ∨ s.rstl = .low20ms → exec (.hostRead a) s = .next { s with
        port := { s.port with result := { err := true, data := 0#32 } } })
  ∧ ∀ (s : State) (a : BitVec 22), s.WindowFree →
    (wordAddr a < s.memSize → exec (.hostRead (.memory a)) s = .next { s with
        port := { s.port with waiting := some (.read (wordAddr a)) }
        arb := { s.arb with hostWait := 0 } })
      ∧ (s.memSize ≤ wordAddr a →
          exec (.hostRead (.memory a)) s = .next (refuseAccess (wordAddr a) .outOfRange false s))

/-- A host write outside slate and cells is judged by the first entry of the table of 11.1 that fits its
address: MIRROR regions, then the directory and LOCKABLE regions by the engine and the lock, all else
admitted. -/
def Obligations.HostWriteIsJudgedByItsAddress : Prop :=
  ∀ (s : State) (a : BitVec 22) (d : Word), s.WindowFree →
    let A := wordAddr a
    let admitted : Host.Outcome State Fault Refusal := .next { s with
      port := { s.port with waiting := some (.write A d) }, arb := { s.arb with hostWait := 0 } }
    let mirror := inRegion s .mirror A = true
    let held := A < 0x200 ∨ 0x780 ≤ A ∧ ¬ mirror ∧ inRegion s .lockable A = true
    (s.memSize ≤ A → exec (.hostWrite a d) s = .next (refuseAccess A .outOfRange true s))
      ∧ (A < s.memSize → 0x780 ≤ A → mirror →
          exec (.hostWrite a d) s = .next (refuseAccess A .regionReadonly true s))
      ∧ (A < s.memSize → held → s.engine = .loading →
          exec (.hostWrite a d) s = .next (refuseAccess A .loadHeld true s))
      ∧ (A < s.memSize → held → s.engine ≠ .loading → s.lock ≠ .off →
          exec (.hostWrite a d) s = .next (refuseAccess A .locked true s))
      ∧ (A < s.memSize → held → s.engine ≠ .loading → s.lock = .off →
          exec (.hostWrite a d) s = admitted)
      ∧ (A < s.memSize → 0x780 ≤ A → ¬ mirror → ¬ inRegion s .lockable A = true →
          exec (.hostWrite a d) s = admitted)

/-- A write to a slot goes by the port's view of it (11.3): the state word posts, withdraws, returns or is
refused SLATE_STATE, whatever else is written to it too; the other words are held while the slot is POSTED
or TAKEN. -/
def Obligations.SlotWritesGoByThePortsView : Prop :=
  ∀ (s : State) (i : SlotId), s.WindowFree → slotBase i < s.memSize →
    let wait (d : Word) (v : SlotState) (l : List SlotId) : Host.Outcome State Fault Refusal :=
      .next { s with
        port := { s.port with view := s.port.view.set i v, waiting := some (.write (slotBase i) d) }
        slate := { s.slate with arrival := l }
        arb := { s.arb with hostWait := 0 } }
    let refused : Host.Outcome State Fault Refusal :=
      .next (refuseAccess (slotBase i) .slateState true s)
    (s.port.view[i] = .empty →
        exec (.slotPost i) s = wait 1#32 .posted (s.slate.arrival ++ [i]))
      ∧ (s.port.view[i] ≠ .empty → exec (.slotPost i) s = refused)
      ∧ (∀ c, c = .slotWithdraw i ∨ c = .slotReturn i →
          (s.port.view[i] = .posted →
              exec c s = wait 0#32 .empty (s.slate.arrival.filter (· != i)))
            ∧ (s.port.view[i] = .done ∨ s.port.view[i] = .refused →
                exec c s = wait 0#32 .empty s.slate.arrival)
            ∧ (s.port.view[i] = .empty ∨ s.port.view[i] = .taken → exec c s = refused))
      ∧ (∀ a : BitVec 22, wordAddr a = slotBase i →
          exec (.hostWrite a 1#32) s = exec (.slotPost i) s
            ∧ exec (.hostWrite a 0#32) s = exec (.slotWithdraw i) s
            ∧ ∀ d : Word, d ≠ 0#32 → d ≠ 1#32 → exec (.hostWrite a d) s = refused)
      ∧ ∀ (a : BitVec 22) (d : Word), slotBase i < wordAddr a → wordAddr a < slotBase i + 64 →
          wordAddr a < s.memSize →
          (s.port.view[i] = .posted ∨ s.port.view[i] = .taken →
              exec (.hostWrite a d) s = .next (refuseAccess (wordAddr a) .slateBusySlot true s))
            ∧ (s.port.view[i] ≠ .posted → s.port.view[i] ≠ .taken →
                exec (.hostWrite a d) s = .next { s with
                  port := { s.port with waiting := some (.write (wordAddr a) d) }
                  arb := { s.arb with hostWait := 0 } })

/-- EMPTY written to the state word of a FULL cell returns it; every other write of a cell is refused CELL_STATE,
by whichever row the write comes (10.1). That the cell is EMPTY from the acceptance, while its write still waits
for its turn, is the model's choice (log 37). -/
def Obligations.CellReturnEmptiesAFullCell : Prop :=
  ∀ (s : State) (c : CellId) (w : Fin 8) (d : Word), s.WindowFree →
    cellBase c + 4 * w.val < s.memSize →
    (∀ a : BitVec 22, wordAddr a = cellBase c + 4 * w.val →
        exec (.hostWrite a d) s = exec (.cellReturn c w d) s)
      ∧ (w = 0 → d = 0#32 → s.cells[c].state = .full →
        exec (.cellReturn c w d) s = .next { s with
          cells := s.cells.set c { state := .empty, missed := 0 }
          port := { s.port with waiting := some (.write (cellBase c) 0#32) }
          arb := { s.arb with hostWait := 0 } })
      ∧ (¬ (w = 0 ∧ d = 0#32 ∧ s.cells[c].state = .full) →
          exec (.cellReturn c w d) s
            = .next (refuseAccess (cellBase c + 4 * w.val) .cellState true s))

/-- What a refused access does to the fault record, FAULT clear and FAULT set; what clears the record; and
that an access ended with ERR by a reset leaves it (11.1, 11.6). That a register read clears nothing is said in
HostReadIsAdmittedOrRefused. The read data 0 of an access that ends with ERR, a write's too, is
the model's own (log 26). -/
def Obligations.RefusedAccessActsOnTheFaultRecord : Prop :=
  (∀ (s : State) (addr : Nat) (d : Word) (cause : FaultCause) (e : FaultCause),
    (judgeWrite s addr d = .error e → hostWrite addr d s = refuseAccess addr e true s)
      ∧ (s.notice.fault = false → ∀ wr, refuseAccess addr cause wr s = { s with
          notice := { s.notice with fault := true }
          port := { s.port with
            faultAddr := BitVec.ofNat 22 addr, faultCause := cause, faultWrite := wr, further := 0
            result := { err := true, data := 0#32 } } })
      ∧ (s.notice.fault = true → ∀ wr, refuseAccess addr cause wr s = { s with
          port := { s.port with
            further := min (s.port.further + 1) 255, result := { err := true, data := 0#32 } } }))
    ∧ (∀ (c : Instr) (s t : State), s.PortFree →
        c = .portReset ∨ c = .fullReset ∨ (∃ v : Word, v.getLsbD 4 = true ∧ c = .noticeWrite v) →
        exec c s = .next t →
          t.notice.fault = false ∧ t.port.faultAddr = 0#22 ∧ t.port.faultCause = .none
            ∧ t.port.faultWrite = false ∧ t.port.further = 0)
    ∧ ∀ (c : Instr) (s t : State), c.hostAccess = true → portBlocked s = true →
        exec c s = .next t →
          t.notice.fault = s.notice.fault ∧ t.port.faultAddr = s.port.faultAddr
            ∧ t.port.faultCause = s.port.faultCause ∧ t.port.faultWrite = s.port.faultWrite
            ∧ t.port.further = s.port.further

/-- An event handed over for an EMPTY cell is queued as data with a missed count of 0 and then as FULL;
for any other it raises the missed count to at most 255 (10.1). The time word holds the fields at the
bits of 11.7; that its bits of no field, 30 and 31, are 0 is read into the layout (log 41). The cells are numbered
in the order of 11.7 (10.1), and `field`, `place` and `placeCode`, by which the statements spell the fields of a
word, read and put so many bits from a bit up. -/
def Obligations.CaptureTakesAnEventByItsCell : Prop :=
  (∀ (s : State) (c : CellId) (ds : List Word),
    (s.cells[c].state = .empty → captureEvent c ds s = { s with
        cells := s.cells.set c { state := .filling, missed := 0 }
        wq := (s.wq.join .capture (.cellData c s.tod ds)).join .capture (.cellFull c) })
      ∧ (s.cells[c].state ≠ .empty → s.cells[c].missed < 255 → captureEvent c ds s = { s with
          cells := s.cells.set c { s.cells[c] with missed := s.cells[c].missed + 1 }
          wq := s.wq.join .capture (.cellMissed c (s.cells[c].missed + 1)) })
      ∧ (s.cells[c].state ≠ .empty → 255 ≤ s.cells[c].missed → captureEvent c ds s = s))
    ∧ (∀ d : TimeOfDay, d.Valid →
        field d.word 0 10 = d.ms ∧ field d.word 10 6 = d.seconds ∧ field d.word 16 6 = d.minutes
          ∧ field d.word 22 5 = d.hours ∧ field d.word 27 3 = d.day ∧ d.word.getLsbD 31 = false
          ∧ d.word.getLsbD 30 = false)
    ∧ (goCell = 0 ∧ (∀ k : LineId, (triggerCell k).val = 1 + k.val)
        ∧ [holdCell, inputCell, zoneCell, callCell, pageCell, cueForcedCell, manualCell]
            = [5, 6, 7, 8, 9, 10, 11])
    ∧ ∀ (w : Word) (n lo len : Nat), field w lo len = w.toNat / 2 ^ lo % 2 ^ len
        ∧ place n lo = BitVec.ofNat 32 (n * 2 ^ lo)
        ∧ placeCode w lo len = BitVec.ofNat 32 (w.toNat % 2 ^ len * 2 ^ lo)

/-! ## The arbiter and the write queue -/

/-- The arbiter grants the first user that waits: urgent fetches from the lowest voice, a host passed over
twice, other fetches, engine reads in the order asked for, the host, the write queue (11.2). Turns
granted to others are counted up to two while the host waits. In the host port's turns the writes of a
port reset come first, and an access held by them is admitted after the last (11.6; log 37). That one read
gives a firing all of show memory as it stands is the model's choice (log 16), and so are that the turn of
a sound record or a cue search brings no data, these having been taken when it was asked for (log 15), the
read data 0 of a write's end (log 26) and the bytes that nothing has written (log 12). A fetch is urgent while its
voice has fewer than 128 frames buffered (7.4). -/
def Obligations.MemoryGrantServesTheFirstUser : Prop :=
  (∀ x : Voice, Voice.urgent x = true ↔ x.buffer.length < 128)
  ∧ ∀ s : State, s.Runs → s.Quiet → s.arb.busy = none →
    let waits : Prop := s.port.waiting ≠ none ∨ s.port.clears ≠ []
    let count := if s.port.waiting.isSome || !s.port.clears.isEmpty then min (s.arb.hostWait + 1) 2
      else s.arb.hostWait
    let noFetch (urgent : Bool) := ∀ v, ¬ s.FetchWaits v urgent
    let hostFirst := 2 ≤ s.arb.hostWait ∨ (noFetch false ∧ s.arb.reads = [])
    (∀ (v : VoiceId) (f : Fetch) (urgent : Bool), s.voices[v].outstanding = some f →
        s.FetchWaits v urgent → (∀ w < v, ¬ s.FetchWaits w urgent) →
        (urgent = false → noFetch true ∧ (¬ waits ∨ s.arb.hostWait < 2)) →
        fetchAddr s.voices[v] f + 4 * f.size ≤ s.memSize →
          ∃ t, exec .memoryGrant s = .next t
            ∧ State.EndsAs [] { s with arb := { s.arb with
                busy := some (.fetch v (fetchAddr s.voices[v] f) f.size false), hostWait := count } } t)
      ∧ (∀ (i : SlotId) (l : List SlotId), s.port.clears = i :: l → noFetch true → hostFirst →
          let u := { s with
            mem := Memory.writeWord s.mem (slotBase i) 0#32
            port := { s.port with clears := l }
            arb := { s.arb with hostWait := 0 } }
          ∃ t, exec .memoryGrant s = .next t
            ∧ (l ≠ [] ∨ s.port.held = none → u.EndsAs [] t)
            ∧ ∀ a, l = [] → s.port.held = some a →
                State.EndsAs [] (admitAccess a { u with port := { u.port with held := none } }) t)
      ∧ (∀ (a : Nat) (d : Word), s.port.clears = [] → s.port.waiting = some (.write a d) →
          noFetch true → hostFirst →
          ∃ t, exec .memoryGrant s = .next t
            ∧ State.EndsAs [] { s with
                mem := Memory.writeWord s.mem a d
                port := { s.port with waiting := none, result := { err := false, data := 0#32 } }
                arb := { s.arb with hostWait := 0 } } t)
      ∧ (∀ a : Nat, s.port.clears = [] → s.port.waiting = some (.read a) → noFetch true → hostFirst →
          ∃ t, exec .memoryGrant s = .next t
            ∧ State.EndsAs [] { s with
                port := { s.port with
                  waiting := none, result := { err := false, data := Memory.readWord s.mem a } }
                arb := { s.arb with hostWait := 0 } } t)
      ∧ (∀ (r : EngineRead) (l : List EngineRead), s.arb.reads = r :: l → noFetch true →
          noFetch false → ¬ waits ∨ s.arb.hostWait < 2 →
          ∃ t, exec .memoryGrant s = .next t ∧ t.arb.reads.take l.length = l ∧ t.mem = s.mem
            ∧ (r = .firing → State.EndsAs [] { s with
                arb := { s.arb with reads := l, hostWait := count }
                seq := { s.seq with
                  firing := s.seq.firing.map fun f => { f with view := some s.mem } } } t)
            ∧ (r = .record → State.EndsAs [] { s with
                arb := { s.arb with reads := l, hostWait := count } } t)
            ∧ ∀ i : SlotId, r = .slot i → s.slate.current = some { slot := i, phase := .reading } →
                State.EndsAs [] { s with
                  arb := { s.arb with reads := l, hostWait := count }
                  slate := { s.slate with
                    current := some (Current.mk i (.ready (Memory.readWord s.mem (slotBase i + 4))
                      (Memory.readWords s.mem (slotBase i + 8) 8))) } } t)
      ∧ (s.wq.queue ≠ [] → noFetch true → noFetch false → s.arb.reads = [] → ¬ waits →
          ∃ t, exec .memoryGrant s = .next t
            ∧ State.EndsAs [] { s with arb := { s.arb with busy := some .write } } t)

/-- A burst that arrives is discarded if its voice was flushed since, and else joins the buffer, may end the
priming, and lets the voice ask for its next (7.3, 7.4). Priming ends with 256 frames buffered, or with all the
frames of a sound played once: a voice of a cue or of a request, or of a call with start pending set, becomes
PLAYING, a call's voice with it clear PRIMED, and a STOPPING voice takes PLAYING or PRIMED by the same choice as
its resume state (7.3, 7.6). Its samples are the upper 24 bits of the words in memory (7.1; Conventions). A voice
asks when it is not IDLE, has no burst outstanding, 64 frames free and a frame to fetch; its burst lies within one
256-byte block and the run, and is as large as they and 64 frames allow. That the end of priming clears start
pending (log 49), and that a change of the resume state alone hands the voices area over (log 50), are the model's
choices. -/
def Obligations.ArrivedBurstFillsItsVoice : Prop :=
  (∀ (s : State) (v : VoiceId) (a n : Nat) (stale : Bool), s.Runs → s.Quiet →
    s.arb.busy = some (.fetch v a n stale) →
    let x := { s.voices[v] with
      buffer := s.voices[v].buffer
        ++ (List.range n).map fun k => (Memory.readWord s.mem (a + 4 * k)).extractLsb' 8 24
      outstanding := none }
    let primes : Prop := x.state = .priming ∨ (x.state = .stopping ∧ x.resume = .priming)
    let enough : Prop := 256 ≤ x.buffer.length
      ∨ (x.sound.looping = false ∧ x.sound.count ≤ x.playPos + x.buffer.length)
    let after : VoiceState := match x.owner, x.startPending with
      | .call _, false => .primed
      | _, _ => .playing
    let became (y : Voice) : State :=
      { s with arb := { s.arb with busy := none }, voices := s.voices.set v y.request }
    ∃ t, exec (.burstArrival v) s = .next t
      ∧ (stale = true → State.EndsAs [] { s with arb := { s.arb with busy := none } } t)
      ∧ (stale = false → x.state = .priming → enough →
          State.EndsAs [.voices] (became { x with state := after, startPending := false }) t)
      ∧ (stale = false → x.state = .stopping → x.resume = .priming → enough →
          State.EndsAs [.voices] (became { x with resume := after, startPending := false }) t)
      ∧ (stale = false → ¬ (primes ∧ enough) → State.EndsAs [] (became x) t)
      ∧ (stale = false → s.voices[v].state = .priming → s.voices[v].owner = .request →
          256 ≤ s.voices[v].buffer.length + n → t.voices[v].state = .playing))
    ∧ ∀ x : Voice,
      let addr := x.sound.start + 4 * x.fetchPos
      let stop := if x.sound.looping then x.sound.loopEnd else x.sound.count
      let asks : Prop := x.state ≠ .idle ∧ x.outstanding = none ∧ x.buffer.length + 64 ≤ 512
        ∧ (x.sound.looping = true ∨ x.fetchPos < x.sound.count)
      (¬ asks → x.request = x)
        ∧ (asks → addr % 4 = 0 → x.fetchPos < stop → ∃ n, 1 ≤ n ∧ n ≤ 64 ∧ x.fetchPos + n ≤ stop
            ∧ addr / 256 = (addr + 4 * n - 1) / 256
            ∧ (n = 64 ∨ x.fetchPos + n = stop ∨ (addr + 4 * n) % 256 = 0)
            ∧ x.request = { x with
                outstanding := some { first := x.fetchPos, size := n }
                fetchPos := if x.sound.looping = true ∧ x.fetchPos + n = x.sound.loopEnd
                  then x.sound.loopStart else x.fetchPos + n })

/-- The head burst is in memory and has left the queue; a slot's final state then stands in the port's view
and ends the current request, and a FILLING cell is FULL (10.1, 11.2, 11.3). A held burst enters the place:
with both writers holding, the one whose turn it is, and then the other's. A slate or capture burst that
finds 48 queued, or bursts of its writer held, is held; the writer that began first enters first, the slate
unit when both began in one event (11.2). The words of a cell's bursts lie at the offsets of 11.7. -/
def Obligations.WrittenBurstLeavesTheQueue : Prop :=
  (∀ (s : State) (b : Burst) (l : List Burst), s.Runs → s.Quiet → s.arb.busy = some .write →
    s.wq.queue = b :: l →
    let q := s.wq
    let u := { s with
      mem := Memory.writeAll s.mem b.words
      mirror := showBurst s.mirror b
      wq := { s.wq.leaveHead with began := false }
      arb := { s.arb with busy := none } }
    (q.heldSlate = [] → q.heldCapture = [] → u.wq = { q with queue := l, began := false })
      ∧ (∀ x m, q.heldSlate = x :: m → q.heldCapture = [] ∨ q.next = .slate →
          u.wq = { queue := l ++ [x], heldSlate := m, heldCapture := q.heldCapture,
                   next := .capture, began := false })
      ∧ (∀ x m, q.heldCapture = x :: m → q.heldSlate = [] ∨ q.next = .capture →
          u.wq = { queue := l ++ [x], heldSlate := q.heldSlate, heldCapture := m,
                   next := .slate, began := false })
      ∧ (∀ (i : SlotId) (st : SlotState), b = .slotState i st → st = .done ∨ st = .refused →
          exec .writeBurstWritten s = .next { u with
            port := { u.port with view := u.port.view.set i st }
            slate := { u.slate with current := u.slate.current.filter fun c => c.slot != i } })
      ∧ (∀ c : CellId, b = .cellFull c → s.cells[c].state = .filling →
          exec .writeBurstWritten s = .next { u with
            cells := u.cells.set c { s.cells[c] with state := .full } })
      ∧ ((∀ i st, b = .slotState i st → st ≠ .done ∧ st ≠ .refused) →
          (∀ c : CellId, b = .cellFull c → s.cells[c].state ≠ .filling) →
          exec .writeBurstWritten s = .next u))
    ∧ (∀ (q : WriteQueue) (b : Burst),
        (q.heldSlate ≠ [] → q.join .slate b = { q with heldSlate := q.heldSlate ++ [b] })
          ∧ (q.heldCapture ≠ [] → q.join .capture b = { q with heldCapture := q.heldCapture ++ [b] })
          ∧ (q.heldSlate = [] → q.queue.length < 48 →
              q.join .slate b = { q with queue := q.queue ++ [b] })
          ∧ (q.heldCapture = [] → q.queue.length < 48 →
              q.join .capture b = { q with queue := q.queue ++ [b] })
          ∧ (q.heldSlate = [] → 48 ≤ q.queue.length → q.join .slate b = { q with
              heldSlate := [b], began := true
              next := if q.heldCapture = [] ∨ q.began = true then .slate else .capture })
          ∧ (q.heldCapture = [] → 48 ≤ q.queue.length → q.join .capture b = { q with
              heldCapture := [b], began := true
              next := if q.heldSlate = [] then .capture else .slate }))
    ∧ ∀ (c : CellId) (d : TimeOfDay) (ws : List Word) (n : Nat),
        let base := 0x600 + 32 * c.val
        (Burst.cellData c d ws).words
            = [(base + 4, d.word)] ++ (List.range ws.length).map (fun k => (base + 8 + 4 * k, ws.getD k 0#32))
              ++ [(base + 0x1C, 0#32)]
          ∧ (Burst.cellFull c).words = [(base, 1#32)]
          ∧ (Burst.cellMissed c n).words = [(base + 0x1C, wordOf n)]

/-! ## The slate -/

/-- The head slot is taken when no request is being answered: it leaves the arrival queue, is TAKEN in
the port's view, and its state word and its reading are asked for (11.3 steps 1 and 2). -/
def Obligations.HeadSlotIsTaken : Prop :=
  ∀ (s : State) (i : SlotId) (l : List SlotId), s.Runs → s.Quiet → s.slate.current = none →
    s.slate.arrival = i :: l → slotlessBusy s = false →
    ∃ t, exec .slotTake s = .next t
      ∧ State.EndsAs [] { s with
          port := { s.port with view := s.port.view.set i .taken }
          slate := { s.slate with
            arrival := l, current := some { slot := i, phase := .reading } }
          wq := s.wq.join .slate (.slotState i .taken)
          arb := { s.arb with reads := s.arb.reads ++ [.slot i] } } t

/-- The kinds are the twenty codes of the catalogue, each with its arguments (11.3); that each argument fills a
word, in the catalogue's order, and how, is the model's (log 11). A request read is refused BAD_KIND, refused
NOT_LOADED while STOPPED unless its kind is LOAD_SHOW, SET_TIME, LOCK, UNLOCK or CAPTURE_NOW, or handed to its
owner, which is its own command row (11.3 step 3). The result words after word 0 of BAD_KIND are free (log 39). -/
def Obligations.DispatchRefusesOrHandsOver : Prop :=
  (∀ (k : Word) (a : Vector Word 8),
      Request.ofWords k a = none ↔ k.toNat = 0 ∨ 20 < k.toNat)
    ∧ (∀ a : Vector Word 8,
        let n (i : Fin 8) : Nat := a[i].toNat
        let level (i : Fin 8) : BitVec 16 := a[i].extractLsb' 0 16
        let curve : Option Curve :=
          if a[3] = 0#32 then some .steps else if a[3] = 1#32 then some .cut else none
        let switch : Option Bool :=
          if a[1] = 0#32 then some false else if a[1] = 1#32 then some true else none
        (List.range 20).map (fun k => Request.ofWords (wordOf (k + 1)) a)
          = [some .loadShow, some .stopShow, some .go, some (.goTo (n 0)), some .pause, some .resume,
              some .completeAll, some (.setLevel (Config.elemArg a[0]) (level 1) (n 2) curve),
              some (.swapTap (n 0) (n 1) (n 2)), some (.voiceStart (n 0) (n 1) (level 2) (a[3].getLsbD 0)),
              some (.voiceStop (n 0) (n 1)), some (.relay (n 0) switch), some (.clearZoneFault (n 0)),
              some (.pageOpen (n 0) (Config.sourceArg a[1]) (n 2) (level 3)), some (.pageClose (n 0)),
              some (.callNow (n 0)), some (.setTime (n 0) (n 1) (n 2) (n 3)), some (.lock (n 0)),
              some .unlock, some (.captureNow a[0] a[1])])
    ∧ (∀ (k : Word) (a : Vector Word 8) (r : Request), Request.ofWords k a = some r →
        (r.takenStopped = true ↔ k.toNat ∈ [1, 17, 18, 19, 20]))
    ∧ ∀ (s : State) (i : SlotId) (k : Word) (a : Vector Word 8), s.Runs → s.Quiet →
      s.slate.current = some { slot := i, phase := .ready k a } →
      (Request.ofWords k a = none → ∃ t, exec .requestDispatch s = .next t
          ∧ s.Answered [] { code := .badKind, words := wordsOf k (rest s 1) (rest s 2) (rest s 3) } t)
        ∧ ∀ r, Request.ofWords k a = some r → requestReady s r = true →
            exec .requestDispatch s = exec r.command s
              ∧ (s.engine = .stopped → r.takenStopped = false → ∃ t, exec r.command s = .next t
                  ∧ s.Answered [] { code := .notLoaded, words := wordsOf 0#32 0#32 0#32 0#32 } t)

/-- An answer queues a burst of the result code and words and then one of DONE, for OK, or REFUSED; each burst
writes at the offsets of 11.7, the result codes being numbered 0 to 11 in the order of 11.3. The count of free
values is the model's own (log 39). -/
def Obligations.AnswerQueuesResultThenState : Prop :=
  [ResultCode.ok, .badKind, .badArgument, .notLoaded, .busy, .noCue, .paused, .guarded, .locked, .conflict,
      .noZone, .badTable].map resultCode = [0, 1, 2, 3, 4, 5, 6, 7, 8, 9, 10, 11]
  ∧ ∀ (s : State) (a : Answer) (cur : Current), s.slate.current = some cur →
    let st : SlotState := if a.code = .ok then .done else .refused
    let base := 0x200 + 64 * cur.slot.val
    finishRequest a s = { s with
        slate := { s.slate with
          current := some { cur with phase := .answered }, lastAnswer := some a }
        freeCount := s.freeCount + 1
        wq := (s.wq.join .slate (.slotResult cur.slot a.code a.words)).join .slate
          (.slotState cur.slot st) }
      ∧ (Burst.slotResult cur.slot a.code a.words).words
          = [(base + 0x28, wordOf (resultCode a.code)), (base + 0x2C, a.words[0]),
              (base + 0x30, a.words[1]), (base + 0x34, a.words[2]), (base + 0x38, a.words[3])]
      ∧ (Burst.slotState cur.slot st).words = [(base, if a.code = .ok then 3#32 else 4#32)]

/-! ## Loading and stopping -/

/-- LOAD_SHOW is refused LOCKED under a lock, then BUSY for cues, voices, pages or calls while LOADED, and else
enters LOADING and asks for the directory. Each table read is staged and checked, and the next asked for (11.4;
one read per table, log 15); the kinds are numbered 0 to 11 in the order of 11.4; each kind's own rule says which
record fails it, the lowest being given, and what a good record is staged as, its fields clamped (1.4, 2.1, 4.1,
4.3, 8.1, 9.3, 11.7). A group level is read from the low half of its word (log 8). That a
region entry of kind 0 is not checked and one of length 0 meets nothing (log 24), and that of several malformed
moves the lowest of the pool is given (log 38), and that a failing region entry is named before entry 0 of a
mirror in no MIRROR entry (log 62), are the model's choices. A failing record refuses the load BAD_TABLE and the
engine returns to its former state. Result words that no rule gives are free (log 39). -/
def Obligations.LoadIsCheckedBegunOrRefused : Prop :=
  (tableOrder = [.directory, .region, .channel, .role, .mix, .send, .group, .outputMap, .zone, .call, .cue, .move]
      ∧ tableOrder.map tableCode = [0, 1, 2, 3, 4, 5, 6, 7, 8, 9, 10, 11])
    ∧ (∀ s : State, s.Takes .loadShow →
    let cues := s.seq.running ≠ []
    let voices := ∃ v : VoiceId, s.voices[v].state ≠ .idle
    let pages := ∃ p : PageId, s.pages[p] ≠ none
    let calls := ∃ c : CallId, s.calls[c].inst ≠ none
    let busy (r : RefusedFor) : Answer :=
      { code := .busy
        words := wordsOf (Config.code (.refusedFor r)) (rest s 1) (rest s 2) (rest s 3) }
    ∃ t, exec .loadShow s = .next t
      ∧ (s.lock ≠ .off →
          s.Answered [] { code := .locked, words := wordsOf (rest s 0) (rest s 1) (rest s 2) (rest s 3) } t)
      ∧ (s.lock = .off → s.engine = .loaded → cues → s.Answered [] (busy .cues) t)
      ∧ (s.lock = .off → s.engine = .loaded → ¬ cues → voices → s.Answered [] (busy .voices) t)
      ∧ (s.lock = .off → s.engine = .loaded → ¬ cues → ¬ voices → pages →
          s.Answered [] (busy .pages) t)
      ∧ (s.lock = .off → s.engine = .loaded → ¬ cues → ¬ voices → ¬ pages → calls →
          s.Answered [] (busy .calls) t)
      ∧ (s.lock = .off → s.engine = .stopped ∨ (¬ cues ∧ ¬ voices ∧ ¬ pages ∧ ¬ calls) →
          t.engine = .loading ∧ t.lock = .off ∧ t.mem = s.mem ∧ t.slate.lastAnswer = s.slate.lastAnswer
            ∧ t.arb.reads = s.arb.reads ++ [.table .directory]
            ∧ (t.load.map fun j => (j.origin, j.todo, j.fail)) = some (s.engine, tableOrder, none)))
    ∧ (∀ (s : State) (job : LoadJob) (k : TableKind) (l : List EngineRead), s.Runs → s.Quiet →
        s.arb.busy = none → nextUser s = some (.read (.table k)) → s.arb.reads = .table k :: l →
        s.load = some job →
        let x := stage s.mem s.memSize k job.staging
        ∃ t, exec .memoryGrant s = .next t
          ∧ State.EndsAs [] { s with
              load := some { job with
                staging := x.1, todo := job.todo.tail, fail := x.2.map fun w => (k, w) }
              arb := { s.arb with
                reads := l ++ (match x.2, job.todo.tail with
                  | none, next :: _ => [.table next]
                  | _, _ => [])
                hostWait := if hostWaits s then min (s.arb.hostWait + 1) 2 else s.arb.hostWait } } t)
    ∧ (∀ (m : Memory) (n : Nat) (x : Show),
        let word (a : Nat) : Nat := (Memory.readWord m a).toNat
        let check (k : TableKind) : Option Word := (stage m n k x).2
        let regions (i : Fin 8) : Nat × Nat × Nat :=
          (word (x.base 12 + 12 * i.val), word (x.base 12 + 12 * i.val + 4),
            word (x.base 12 + 12 * i.val + 8))
        let meets (a la b lb : Nat) : Prop := 0 < la ∧ 0 < lb ∧ a < b + lb ∧ b < a + la
        let badRegion (i : Fin 8) : Prop :=
          let (b, len, kind) := regions i
          kind ≠ 0 ∧ (3 < kind ∨ b % 4 ≠ 0 ∨ len % 4 ≠ 0 ∨ n < b + len ∨ meets b len 0 0x780
            ∨ ∃ j, j ≠ i ∧ 1 ≤ (regions j).2.2 ∧ (regions j).2.2 ≤ 3
                ∧ meets b len (regions j).1 (regions j).2.1)
        let channels (i : Fin 64) := Config.channelRecord (Memory.readWords m (x.base 0 + 8 * i.val) 2)
        let roles (i : RoleId) := Config.roleRecord (Memory.readWords m (x.base 1 + 16 * i.val) 4)
        let first (r : RawRole) : Option Nat := (r.initial.bind (fin? 4)).bind fun t => r.taps[t]
        let mixes (i : MixId) := Config.mixRecord (Memory.readWords m (x.base 2 + 16 * i.val) 4)
        let sends (i : SendId) := Config.sendRecord (Memory.readWords m (x.base 3 + 8 * i.val) 2)
        let inRun (i : SendId) (j : MixId) : Prop :=
          x.mixes[j].first ≤ i.val ∧ i.val < x.mixes[j].first + x.mixes[j].count
        let zones (i : ZoneId) := Config.zoneRecord (Memory.readWords m (x.base 6 + 16 * i.val) 4)
        let calls (i : CallId) := Config.callRecord (Memory.readWords m (x.base 8 + 16 * i.val) 4)
        let cues (i : Fin 512) := readCue m (x.base 10) i.val
        LowestBad (fun i : Fin 13 => word (4 * i.val) % 4 ≠ 0 ∨ word (4 * i.val) < 0x780
            ∨ n < word (4 * i.val) + [512, 1536, 640, 8192, 128, 256, 384, 32, 256, 16384, 8192,
                131072, 96].getD i.val 0) (check .directory)
        ∧ (stage m n .directory x).1 = { x with
            dir := { bases := tabulate fun i => Memory.readWord m (4 * i.val), mirror := Memory.readWord m 0x34 }
            header :=
              { source := if (Memory.readWord m 0x100).getLsbD 0 then .wclk else .internal
                guard := min (word 0x104) 2000
                ramps := tabulate fun i => min (word (0x108 + 4 * i.val)) 250
                pageLimit := min (word 0x118) 600
                inputMask := (Memory.readWord m 0x11C).getLsbD 0
                zoneMask := (Memory.readWord m 0x11C).getLsbD 1
                captureMasks := (Memory.readWord m 0x120).extractLsb' 0 12
                callCapable := (Memory.readWord m 0x124).extractLsb' 0 16 } }
        ∧ (∀ i, badRegion i → (∀ j < i, ¬ badRegion j) → check .region = some (wordOf i.val))
        ∧ ((∀ i, ¬ badRegion i) → check .region
            = if ∃ i, (regions i).2.2 = 2 ∧ (regions i).1 ≤ x.dir.mirror.toNat
                ∧ x.dir.mirror.toNat + 0x4000 ≤ (regions i).1 + (regions i).2.1
              then none else some 0#32)
        ∧ (stage m n .region x).1 = { x with
            regions := tabulate fun i => match regions i with
              | (b, len, 1) => { base := b, length := len, kind := .openRegion }
              | (b, len, 2) => { base := b, length := len, kind := .mirror }
              | (b, len, 3) => { base := b, length := len, kind := .lockable }
              | _ => { base := 0, length := 0, kind := .unused } }
        ∧ LowestBad (fun i : Fin 64 => 3 < (channels i).ramp) (check .channel)
        ∧ (stage m n .channel x).1 = { x with channels := tabulate fun i => channelCfg (channels i) }
        ∧ LowestBad (fun i : RoleId =>
            (∃ (t : TapId) (c : Nat), (roles i).taps[t] = some c ∧ 63 < c)
              ∨ (∃ t, (roles i).initial = some t ∧ (3 < t ∨ first (roles i) = none))
              ∨ (∃ g, (roles i).group = some g ∧ 15 < g)
              ∨ ∃ (c : Nat) (q : RoleId), first (roles i) = some c ∧ q < i ∧ first (roles q) = some c)
            (check .role)
        ∧ (stage m n .role x).1 = { x with roles := tabulate fun i => roleCfg (roles i) }
        ∧ LowestBad (fun i : MixId => (mixes i).kind = none ∨ 3 < (mixes i).holdRamp
              ∨ 1023 < (mixes i).first ∨ 1024 < (mixes i).first + (mixes i).count
              ∨ ∃ j < i, meets (mixes i).first (mixes i).count (mixes j).first (mixes j).count)
            (check .mix)
        ∧ (stage m n .mix x).1 = { x with mixes := tabulate fun i => mixCfg (mixes i) }
        ∧ ((∀ (i : SendId) (j j' : MixId), inRun i j → inRun i j' → j = j') →
            LowestBad (fun i : SendId => (∃ k, (sends i).mix = some k ∧ 39 < k) ∨ 111 < (sends i).source
              ∨ (∃ j, inRun i j ∧ ((sends i).mix ≠ some j.val
                  ∨ ∃ h < i, inRun h j ∧ (sends h).source = (sends i).source))
              ∨ ((∀ j, ¬ inRun i j) ∧ (sends i).mix ≠ none)) (check .send))
        ∧ (stage m n .send x).1 = { x with sends := tabulate fun i => sendOf (sends i) }
        ∧ LowestBad (fun i : VoiceId => ∃ g,
            Config.voiceGroupWord (Memory.readWord m (x.base 4 + 64 + 4 * i.val)) = some g ∧ 15 < g)
            (check .group)
        ∧ (let y := (stage m n .group x).1
           y = { x with groupLevels := y.groupLevels, voiceGroups := y.voiceGroups } ∧
             (∀ g : GroupId, y.groupLevels[g]
                 = levelOfField ((Memory.readWord m (x.base 4 + 4 * g.val)).extractLsb' 0 16))
             ∧ ∀ v : VoiceId, match Config.voiceGroupWord (Memory.readWord m (x.base 4 + 64 + 4 * v.val)) with
               | none => y.voiceGroups[v] = none
               | some k => k ≤ 15 → (y.voiceGroups[v]).map (·.val) = some k)
        ∧ LowestBad (fun i : Fin 64 => match Config.outputWord (Memory.readWord m (x.base 5 + 4 * i.val)) with
            | .none => False
            | .mix j => 39 < j
            | .zone z => 23 < z
            | .other => True) (check .outputMap)
        ∧ (stage m n .outputMap x).1 = { x with
            outMap := tabulate fun i => outputOf (Config.outputWord (Memory.readWord m (x.base 5 + 4 * i.val))) }
        ∧ LowestBad (fun i : ZoneId =>
            (∃ j, (zones i).relayMix = some j ∧ ∀ k : MixId, k.val = j → x.mixes[k].kind ≠ .relay)
              ∨ 3 < (zones i).duckRamp ∨ 3 < (zones i).holdRamp) (check .zone)
        ∧ (stage m n .zone x).1 = { x with
            zones := tabulate (fun i => zoneCfg (zones i))
            zoneGroups := tabulate fun g => (Memory.readWord m (x.base 7 + 4 * g.val)).extractLsb' 0 24 }
        ∧ LowestBad (fun i : CallId => 6 < (calls i).day ∨ 23 < (calls i).hours ∨ 59 < (calls i).minutes
              ∨ 59 < (calls i).seconds ∨ (calls i).maskLevel = none ∨ 7 < (calls i).group
              ∨ 1023 < (calls i).sound ∨ 15 < (calls i).voice
              ∨ x.header.callCapable.getLsbD (calls i).voice = false) (check .call)
        ∧ (stage m n .call x).1 = { x with calls := tabulate fun i => callCfg (calls i) }
        ∧ (∀ i, cues i = .unsound → (∀ j < i, cues j ≠ .unsound) → check .cue = some (wordOf i.val))
        ∧ ((∀ i, cues i ≠ .unsound) → (check .cue = none ↔ ∃ i c, cues i = .sound c))
        ∧ (stage m n .cue x).1 = { x with
            cues := (List.finRange 512).filterMap fun i => match cues i with
              | .sound c => some c
              | _ => none }
        ∧ (stage m n .move x).1 = x
        ∧ LowestBad (fun i : Fin 8192 => (∃ c ∈ x.cues, c.first ≤ i.val ∧ i.val < c.first + c.count)
            ∧ readMove m (x.base 11) i.val = none) (check .move))
    ∧ (∀ (r : RawChannel) (ramp : Fin 4), r.ramp = ramp.val → channelCfg r =
        { used := r.used, autoMute := r.autoMute, ramp := ramp, confirm := min r.confirm 255
          hold := min r.hold 255, lossMask := r.lossMask, batteryMask := r.batteryMask })
    ∧ (∀ (r : RawRole) (taps : Vector (Option Channel) 4) (initial : Option TapId) (group : Option GroupId),
        (∀ t : TapId, r.taps[t] = (taps[t]).map (·.val)) → r.initial = initial.map (·.val) →
        r.group = group.map (·.val) → roleCfg r =
          { taps := taps, initial := initial, level := levelOfField r.level, group := group
            autoSpare := r.autoSpare, spareTime := min r.spareTime 600000 })
    ∧ (∀ (r : RawMix) (kind : MixKind) (ramp : Fin 4), r.kind = some kind → r.holdRamp = ramp.val → mixCfg r =
        { kind := kind, master := levelOfField r.master
          ceiling := match kind with
            | .foldback => max (-480) (min 48 r.ceiling.toInt)
            | .house => r.ceiling.toInt
            | .relay => r.ceiling.toInt
          holdMask := r.holdMask, holdRamp := ramp, first := r.first, count := r.count })
    ∧ (∀ (r : RawSend) (mix : Option MixId) (source : SourceId), r.mix = mix.map (·.val) →
        r.source = source.val →
        sendOf r = { mix := mix, source := source, level := levelOfField r.level, on := r.on })
    ∧ (outputOf .none = .none ∧ (∀ j : MixId, outputOf (.mix j.val) = .mix j)
        ∧ ∀ z : ZoneId, outputOf (.zone z.val) = .zone z)
    ∧ (∀ (r : RawZone) (mix : Option MixId) (duck hold : Fin 4), r.relayMix = mix.map (·.val) →
        r.duckRamp = duck.val → r.holdRamp = hold.val → zoneCfg r =
          { relayMix := mix, relayLevel := levelOfField r.relayLevel, relayFlag := r.relayFlag
            duckDepth := min r.duckDepth 480, duckRamp := duck, holdMask := r.holdMask, holdRamp := hold
            stability := r.stability.toNat, sample := r.sample.toNat, idle := r.idle.toNat
            faultMask := r.faultMask })
    ∧ (∀ (r : RawCall) (mask : MaskLevel) (group : Fin 8) (voice : VoiceId), r.maskLevel = some mask →
        r.group = group.val → r.voice = voice.val → callCfg r =
          { enabled := r.enabled, day := r.day, hours := r.hours, minutes := r.minutes, seconds := r.seconds
            maskLevel := mask, group := group, sound := r.sound, voice := voice
            level := levelOfField r.level, priority := r.priority, repeatCount := r.repeatCount.toNat
            chime := r.chime, patience := min r.patience 60 })
    ∧ ∀ (s : State) (job : LoadJob) (k : TableKind) (w : Word), s.Runs → s.Quiet →
        s.load = some job → job.fail = some (k, w) →
        ∃ t, exec .loadRefused s = .next t
          ∧ State.Answered [.engine] { s with load := none, engine := job.origin }
              { code := .badTable, words := wordsOf (wordOf (tableCode k)) w (rest s 2) (rest s 3) } t

/-- When validation has passed, INSTALL replaces every table at once, the bases of cue list, move pool and sound
table among them (log 17), and sets every element of the level store (11.4, 2.1, 4.1, 8.2). A newly used channel
is given its state by its link, a kept one keeps it (1.4); the source in use follows the header (1.1); hold gates
are commanded anew, a mix's that was at rest when the frame began from that rest, a ramp that has just reached the
target being left to its end (3.9, 4.4, 4.6; log 45), and every zone not in FAULT is set OFF and powered again
where it is wanted, through its new windows (8.2 to 8.4). The turn of the search for the first cue is asked for
(log 15). The fade table, the sequencer and the calls are cleared, the underrun and clip counts are 0 (7.5, 7.8,
3.3), the mirror takes its base and every area is handed over there (10.2), and the request is DONE with the
counts of 11.4, that of the sound cue records as the validation read them, the model's choice (log 71); show
memory, the lock, the notices, the cells and the time of day stay. -/
def Obligations.InstallReplacesTheShow : Prop :=
  ∀ (s : State) (job : LoadJob), s.Runs → s.Quiet → s.load = some job → job.fail = none →
    job.todo = [] → (∀ p : PageId, s.pages[p] = none) → (∀ z : ZoneId, s.zones[z].page = none) →
    let x := job.staging
    let frames (k : Fin 4) : Nat := 48 * x.header.ramps[k]
    let held (mask : BitVec 4) : Bool :=
      (List.finRange 4).any fun k => mask.getLsbD k && s.hold[k].accepted
    let toward (mask : BitVec 4) : Int := if held mask then -480 else 0
    ∃ t, exec .install s = .next t ∧ t.engine = .loaded ∧ t.load = none
      ∧ t.header = x.header ∧ t.regions = x.regions ∧ t.sends = x.sends ∧ t.outMap = x.outMap
      ∧ t.voiceGroups = x.voiceGroups ∧ t.zoneGroups = x.zoneGroups
      ∧ t.tables = { cueList := x.dir.bases[(10 : Fin 13)].toNat
                     movePool := x.dir.bases[(11 : Fin 13)].toNat
                     sounds := x.dir.bases[(9 : Fin 13)].toNat }
      ∧ (∀ c : Channel,
          let old := s.channels[c]
          let new := t.channels[c]
          let f := s.rx[linkOf c].presented
          let closed (st : ChannelState) : Bool :=
            x.channels[c].autoMute && (st == .lost || st == .returning)
          let set (st : ChannelState) : Gate :=
            { value := if closed st then .off else .steps 0, ramp := none }
          new.cfg = x.channels[c]
          ∧ (x.channels[c].used = false →
              new.state = .unused ∧ new.timer = none ∧ new.gate = { value := .steps 0, ramp := none })
          ∧ (x.channels[c].used = true → old.state = .unused →
              new.state = (if s.rx[linkOf c].locked = true ∧ f.status.getLsbD (2 * (c.val % 16)) = true
                then .live else .lost) ∧ new.timer = none ∧ new.gate = set new.state)
          ∧ (x.channels[c].used = true → old.state ≠ .unused →
              new.state = old.state ∧ new.timer = old.timer
                ∧ new.gate = if old.cfg.autoMute = x.channels[c].autoMute then old.gate
                    else set old.state))
      ∧ (∀ r : RoleId, t.roles[r].cfg = x.roles[r] ∧ t.roles[r].clips = 0 ∧ t.roles[r].unavailable = 0
          ∧ ∀ k : TapId, t.roles[r].taps[k] = if x.roles[r].initial = some k then .active else .idle)
      ∧ (∀ m : MixId, t.mixes[m].cfg = x.mixes[m] ∧ t.mixes[m].clips = 0
          ∧ t.mixes[m].held = held x.mixes[m].holdMask
          ∧ t.mixes[m].rested = s.mixes[m].rested ∧ t.mixes[m].renewed = true
          ∧ t.mixes[m].gate = if s.mixes[m].gate.endDue = true
                ∧ s.mixes[m].gate.target = toward x.mixes[m].holdMask then s.mixes[m].gate
              else Gate.command ((s.mixes[m].rested.map fun v => Gate.mk v none).getD s.mixes[m].gate)
                (toward x.mixes[m].holdMask) (frames x.mixes[m].holdRamp))
      ∧ (∀ z : ZoneId,
          let old := s.zones[z]
          let new := t.zones[z]
          let cfg := x.zones[z]
          new.cfg = cfg ∧ new.relay = cfg.relayFlag ∧ new.page = none ∧ new.clips = 0
          ∧ new.faults = old.faults ∧ new.held = held cfg.holdMask
          ∧ new.relayHold = old.relayHold.command (toward cfg.holdMask) (frames cfg.holdRamp)
          ∧ new.pageHold = old.pageHold.command (toward cfg.holdMask) (frames cfg.holdRamp)
          ∧ new.duck = old.duck.command 0 (frames cfg.duckRamp)
          ∧ (old.state = .fault → new.state = .fault ∧ new.ampen = old.ampen)
          ∧ (old.state ≠ .fault → cfg.relayFlag = false → cfg.stability ≠ 255 →
              new.state = .off ∧ new.ampen = false ∧ new.timer = none ∧ new.falseRun = 0)
          ∧ (old.state ≠ .fault → cfg.relayFlag = true ∨ cfg.stability = 255 →
              let on := Zone.poweredUp { old with cfg := cfg, relay := cfg.relayFlag, page := none }
              new.state = on.state ∧ new.ampen = on.ampen ∧ new.timer = on.timer ∧ new.falseRun = 0))
      ∧ (∀ v : VoiceId, t.voices[v] = { s.voices[v] with underruns := 0 })
      ∧ (∀ c : CallId, t.calls[c] =
          { cfg := x.calls[c], enabled := x.calls[c].enabled, remaining := x.calls[c].repeatCount
            inst := none, outcome := .none })
      ∧ (∀ (r : RoleId) (k : TapId), t.level (.role r) = x.roles[r].level
          ∧ t.level (.tap r k) = if x.roles[r].initial = some k then .steps 0 else .off)
      ∧ (∀ v : VoiceId, t.level (.voice v) = .off)
      ∧ (∀ g : GroupId, t.level (.group g) = x.groupLevels[g])
      ∧ (∀ i : SendId, t.level (.send i) = x.sends[i].level)
      ∧ (∀ m : MixId, t.level (.master m) = x.mixes[m].master)
      ∧ (∀ z : ZoneId, t.level (.zone z) = x.zones[z].relayLevel)
      ∧ (∀ i : RecId, t.fades[i] = none)
      ∧ t.seq.running = [] ∧ t.seq.pause = false ∧ t.seq.guard = none ∧ t.seq.follow = none
      ∧ t.seq.parent = none ∧ t.seq.last = none
      ∧ t.seq.standby = (firstCue s.mem (x.dir.bases[(10 : Fin 13)]).toNat).map standbyOf
      ∧ t.arb.reads = s.arb.reads ++ [.record]
      ∧ t.mirror.base = some x.dir.mirror.toNat
      ∧ (∀ a : Area, s.HandedOver x.dir.mirror.toNat a t)
      ∧ t.clock.inUse
          = (if x.header.source = .wclk ∧ 1000 ≤ s.clock.presentRun then .wclk else .internal)
      ∧ t.slate.lastAnswer = some
          { code := .ok
            words := wordsOf (wordOf x.cues.length) (wordOf ((t.seq.standby.map (·.number)).getD 0))
              (wordOf (x.channels.toList.filter (·.used)).length) 0#32 }
      ∧ t.mem = s.mem ∧ t.lock = s.lock ∧ t.notice = s.notice ∧ t.cells = s.cells ∧ t.tod = s.tod
      ∧ t.rx = s.rx ∧ t.clock.present = s.clock.present

/-- STOP_SHOW empties the fade table, removes the running cues, sends every voice that is not IDLE to IDLE, its
buffer empty and its owner NONE (7.8), closes every page STOPPED and ends every call instance with no outcome (9.6),
switches every zone OFF, its relay flag kept and its duck gate commanded toward 0 (8.8), finishes every crossfade, a
tap fading out IDLE at OFF and one fading in ACTIVE at 0 (2.6), and stops the engine. Tables, voice and zone groups,
the calls' records, flags and counts, regions, the lock, the cells and show memory stay (11.4). That the zones area
is handed over also where no zone changes (log 56), that a voice's start pending and stop record are cleared as it
enters IDLE (log 49), and that of several pages the last-closed record names the highest (log 58), are the model's
choices. -/
def Obligations.StopShowStopsEveryUnit : Prop :=
  ∀ s : State, s.Takes .stopShow →
    let carried (z : ZoneId) : Prop :=
      ∃ p : PageId, (s.pages[p].map fun g => g.zones.getLsbD z) = some true
    let stops (v : VoiceId) : Prop := s.voices[v].state ≠ .idle
    ∃ t, exec .stopShow s = .next t ∧ t.engine = .stopped
      ∧ (∀ i : RecId, t.fades[i] = none)
      ∧ t.seq.running = [] ∧ t.seq.follow = none ∧ t.seq.pause = false ∧ t.seq.guard = none
      ∧ t.seq.last = s.seq.last ∧ t.seq.standby = s.seq.standby ∧ t.seq.parent = s.seq.parent
      ∧ (∀ v : VoiceId, (stops v → t.voices[v] = Voice.idled s.voices[v])
          ∧ (¬ stops v → t.voices[v] = s.voices[v]))
      ∧ t.arb = { s.arb with busy := match s.arb.busy with
          | some (.fetch v a n stale) => some (.fetch v a n (stale || s.voices[v].state != .idle))
          | x => x }
      ∧ (∀ p : PageId, t.pages[p] = none)
      ∧ (∀ (p : PageId) (pg : Page), s.pages[p] = some pg → (∀ q : PageId, p < q → s.pages[q] = none) →
          t.lastClosed = some { id := p, opener := pg.opener, reason := .stopped, time := s.tod })
      ∧ ((∀ p : PageId, s.pages[p] = none) → t.lastClosed = s.lastClosed)
      ∧ (∀ c : CallId, t.calls[c] = { s.calls[c] with inst := none })
      ∧ t.missedCalls = s.missedCalls ∧ t.cutCalls = s.cutCalls ∧ t.overlapped = s.overlapped
      ∧ (∀ z : ZoneId, t.zones[z] = { s.zones[z] with
          state := .off, ampen := false, timer := none, falseRun := 0
          page := if carried z then none else s.zones[z].page
          pageHold := if carried z then Gate.setTo (!s.zones[z].held) else s.zones[z].pageHold
          duck := s.zones[z].duck.command 0 (rampFrames s s.zones[z].cfg.duckRamp) })
      ∧ (∀ r : RoleId, t.roles[r] = { s.roles[r] with taps := tabulate fun k =>
          match s.roles[r].taps[k] with
          | .fadingOut => .idle
          | .fadingIn => .active
          | x => x })
      ∧ (∀ (r : RoleId) (k : TapId), t.level (.tap r k) = match s.roles[r].taps[k] with
          | .fadingOut => .off
          | .fadingIn => .steps 0
          | _ => s.level (.tap r k))
      ∧ (∀ e : Elem, (∀ r k, e ≠ .tap r k) → t.level e = s.level e)
      ∧ t.slate.lastAnswer = some
          { code := .ok
            words := wordsOf (wordOf s.seq.running.length)
              (wordOf (s.pages.toList.filter Option.isSome).length) 0#32 0#32 }
      ∧ t.header = s.header ∧ t.regions = s.regions ∧ t.tables = s.tables ∧ t.lock = s.lock
      ∧ t.voiceGroups = s.voiceGroups ∧ t.zoneGroups = s.zoneGroups ∧ t.notice = s.notice
      ∧ t.mem = s.mem ∧ t.tod = s.tod ∧ t.outMap = s.outMap ∧ t.cells = s.cells
      ∧ t.channels = s.channels ∧ t.mixes = s.mixes ∧ t.sends = s.sends ∧ t.takenOver = s.takenOver
      ∧ ∀ base, s.mirror.base = some base →
          (∀ a ∈ [Area.engine, .cue, .roles, .zones], s.HandedOver base a t)
          ∧ ((∃ v, stops v) → s.HandedOver base .voices t)
          ∧ ((∃ p : PageId, s.pages[p] ≠ none) ∨ (∃ c : CallId, s.calls[c].inst ≠ none) →
              s.HandedOver base .pages t)

/-! ## The requests -/

/-- A GO request is refused GUARDED, PAUSED or NO_CUE, with the words of 5.6, or else asks for the reads of
the standby's firing, which will answer it (FiringPlacesItsMovesAndDerivesStandby gives that answer). That
the request waits unanswered until its firing acts, where 11.3 answers every kind but LOAD_SHOW at its
hand-over, is the model's choice (log 16). Result words that no rule gives are free (log 39). -/
def Obligations.GoRequestFiresOrIsRefused : Prop :=
  ∀ s : State, s.Takes .go →
    let standby : Word := (s.seq.standby.map fun x => wordOf x.number).getD (Config.code .noCue)
    ∃ t, exec .go s = .next t
      ∧ (∀ g, s.seq.guard = some g →
          s.Answered [] { code := .guarded, words := wordsOf (wordOf g) standby 0#32 0#32 } t)
      ∧ (s.seq.guard = none → s.seq.pause = true →
          s.Answered [] { code := .paused, words := wordsOf standby 0#32 0#32 0#32 } t)
      ∧ (s.seq.guard = none → s.seq.pause = false → s.seq.standby = none →
          s.Answered [] { code := .noCue, words := wordsOf 0#32 0#32 0#32 0#32 } t)
      ∧ (s.seq.guard = none → s.seq.pause = false → s.seq.standby ≠ none →
          State.EndsAs [] { s with
            slate := { s.slate with
              current := s.slate.current.map fun c => { c with phase := .handed } }
            seq := { s.seq with firing := some { cause := .goRequest, view := none } }
            arb := { s.arb with reads := s.arb.reads ++ [.firing] } } t)

/-- GO_TO: the two refusals, and the standby, its parent and the follow after a search that finds the cue (5.8).
The first cue, cue n and next after n are the first sound records in storage order that are such (5.1), and a
record's fields lie at the bits of 11.7. Result word 2 holds the trigger by the numbers of 11.7 and word 3 of OK
is free (log 39). That the list is searched then and there, the search's turn being asked for, is the model's
choice (log 15), and so is that a refused GO_TO hands nothing over (log 47). -/
def Obligations.GoToSetsTheStandby : Prop :=
  (∀ (s : State) (n : Nat), s.Takes (.goTo n) →
    let asked := { s with arb := { s.arb with reads := s.arb.reads ++ [.record] } }
    ∃ t, exec (.goTo n) s = .next t
      ∧ (n = 0 ∨ 65535 < n →
          s.Answered [] { code := .badArgument, words := wordsOf 0#32 0#32 0#32 0#32 } t)
      ∧ (0 < n → n ≤ 65535 → cueNumbered s.mem s.tables.cueList n = none →
          State.Answered [] asked { code := .noCue, words := wordsOf 0#32 0#32 0#32 0#32 } t)
      ∧ ∀ (i : Nat) (c : CueRec), 0 < n → n ≤ 65535 →
          cueNumbered s.mem s.tables.cueList n = some (i, c) →
          State.Answered [.cue] { asked with seq := { s.seq with
              standby := some { number := c.number, index := i, trigger := c.trigger, wait := c.wait }
              parent := none
              follow := none } }
            { code := .ok
              words := wordsOf (wordOf c.number) (wordOf i)
                (wordOf (match c.trigger with
                  | .go => 0 | .followStart => 1 | .followComplete => 2 | .line l => 3 + l.val))
                (rest s 3) } t)
    ∧ (∀ (m : Memory) (base n i : Nat) (c : CueRec),
        let lowest (p : CueRec → Prop) : Prop := i < 512 ∧ readCue m base i = .sound c ∧ p c
          ∧ ∀ j < i, ∀ d, readCue m base j = .sound d → ¬ p d
        (firstCue m base = some (i, c) ↔ lowest fun _ => True)
          ∧ (cueNumbered m base n = some (i, c) ↔ lowest fun d => d.number = n)
          ∧ (nextAfter m base n = some (i, c) ↔ lowest fun d => n < d.number))
    ∧ ∀ (m : Memory) (base i : Nat),
        let word (k : Nat) : Nat := (Memory.readWord m (base + 16 * i + 4 * k)).toNat
        let number := word 0 % 65536
        let code := word 0 / 2 ^ 29
        let first := word 0 / 2 ^ 16 % 2 ^ 13
        let count := word 1 / 2 ^ 20 % 2 ^ 7
        let sound : Prop := code ≤ 6 ∧ count ≤ 64 ∧ first + count ≤ 8192
        (number = 0 → readCue m base i = .unused)
          ∧ (number ≠ 0 → ¬ sound → readCue m base i = .unsound)
          ∧ (number ≠ 0 → sound → readCue m base i = .sound
              { number := number
                trigger := if code = 0 then .go else if code = 1 then .followStart
                  else if code = 2 then .followComplete else .line (Fin.ofNat 4 (code - 3))
                wait := min (word 1 % 2 ^ 20) 600000
                upTime := min (word 2 % 2 ^ 20) 600000
                downTime := min (word 3 % 2 ^ 20) 600000
                first := first
                count := count })

/-- PAUSE sets and RESUME clears the pause flag, word 0 giving the flag before; when the flag stands so already
nothing changes (5.8). A PAUSE that comes before a record's expiry leaves the record one tick short (6.7). That
word 0 gives 1 for a set flag and 0 for a clear one is the model's choice (log 43), and so is that a PAUSE with
the flag set and a RESUME with it clear hand nothing over (log 47), and the words after it are free (log 39). -/
def Obligations.PauseAndResumeSetTheFlag : Prop :=
  ∀ s : State,
    let a : Answer :=
      { code := .ok
        words := wordsOf (if s.seq.pause then 1#32 else 0#32) (rest s 1) (rest s 2) (rest s 3) }
    (s.Takes .pause → ∃ t, exec .pause s = .next t
        ∧ (s.seq.pause = true → s.Answered [] a t)
        ∧ (s.seq.pause = false → State.Answered [.cue] { s with
            seq := { s.seq with pause := true }
            fades := mapVec (·.map fun r => match r.owner with
              | .firing _ =>
                if r.fading then { r with elapsed := min r.elapsed (r.time - 1) }
                else { r with delayLeft := max r.delayLeft 1 }
              | _ => r) s.fades } a t))
      ∧ (s.Takes .resume → ∃ t, exec .resume s = .next t
        ∧ (s.seq.pause = false → s.Answered [] a t)
        ∧ (s.seq.pause = true →
            State.Answered [.cue] { s with seq := { s.seq with pause := false } } a t))

/-- COMPLETE_ALL clears the pause, completes every running cue and answers with their number (5.8); with none
running it does no more, and an armed follow stays. A running cue's one record is executed at once, a LEVEL set
to its target, a RELAY switched, a stop cut, a stop fade brought to its end, a PLAY taken (6.6), and its cue
completes with it. A PLAY's sound record is read then and there and its turn asked for, the model's choice (log
15), and so is that such a PLAY hands the voices area over also where the cue restarts its own PRIMING voice (log
50), and that a stopped voice's start pending is cleared (log 49). In which order a cue's several records are
executed is left out. The words after word 0 are free (log 39). -/
def Obligations.CompleteAllEmptiesTheRunningList : Prop :=
  ∀ s : State, s.Takes .completeAll →
    let a : Answer :=
      { code := .ok
        words := wordsOf (wordOf s.seq.running.length) (rest s 1) (rest s 2) (rest s 3) }
    ∃ t, exec .completeAll s = .next t ∧ t.seq.pause = false ∧ t.seq.running = []
      ∧ t.seq.standby = s.seq.standby ∧ t.seq.parent = s.seq.parent ∧ t.mem = s.mem
      ∧ t.slate.lastAnswer = some a
      ∧ (s.seq.running = [] → State.Answered [.cue] { s with seq := { s.seq with pause := false } } a t)
      ∧ ∀ (x : RunEntry) (i : RecId) (r : FadeRec) (k : Nat), s.seq.running = [x] → x.pending = 1 →
          x.placing = false → s.fades[i] = some r → r.owner = .firing x.id →
          r.runIndex = some k → k < 64 →
          (∀ (j : RecId) (q : FadeRec), s.fades[j] = some q → q.owner = .firing x.id → j = i) →
          let done : Seq := Seq.told { s.seq with pause := false } x
          let stopped (v : VoiceId) : State := { s with
            fades := s.fades.set i none, seq := done
            voices := s.voices.set v (Voice.idled s.voices[v])
            levels := s.levels.put (.voice v) .off
            arb := (staleBurst v s).arb }
          (∀ v curve, r.stopMark = some v → r.fading = true →
              r.content = .level (.voice v) .off curve → s.voices[v].state ≠ .idle → s.VoiceAlone v →
              State.Answered [.cue, .voices] (stopped v) a t)
          ∧ (r.stopMark = none →
          (∀ e target curve, r.content = .level e target curve → r.fading = true ∨ s.NotFading e →
              State.Answered [.cue] { setFade i none (setElem e target s) with seq := done } a t)
          ∧ (∀ g on, r.content = .relay g on → t.seq = done ∧ t.fades = s.fades.set i none
              ∧ ∀ z : ZoneId, (s.zoneGroups[g].getLsbD z = true → t.zones[z].relay = on)
                ∧ (s.zoneGroups[g].getLsbD z = false → t.zones[z] = s.zones[z]))
          ∧ (∀ v time, r.content = .stop v time → s.voices[v].state = .idle →
              State.Answered [.cue] { setFade i none s with seq := done } a t)
          ∧ (∀ v time, r.content = .stop v time → s.voices[v].state ≠ .idle → s.NotFading (.voice v) →
              s.VoiceAlone v → State.Answered [.cue, .voices] (stopped v) a t)
          ∧ ∀ v n start loop snd, r.content = .play v n start loop →
              judgeSound s s.mem n loop = .usable snd → s.NotFading (.voice v) →
              (∀ c, s.voices[v].owner ≠ .call c) →
              State.Answered [.cue, .voices] { s with
                fades := s.fades.set i none, seq := done
                voices := s.voices.set v (Voice.restarted s.voices[v] snd (.cue x.id)).request
                levels := s.levels.put (.voice v) start
                arb := s.playedArb v } a t)

/-- A level field is 16-bit two's complement: −32768 is OFF, any other value is taken within −480 to +96 (11.7,
6.8). SET_LEVEL (6.8): refused for an element or curve outside the catalogue, else a cut, a fade from the
present level in a free place, or, with the table full, a cut reported FULL. A FADING record of the element
is taken over and told to its owner, a cue's pending count falling; a fade then stands in its place (6.2,
6.4). A stop fade so taken over returns its voice to its resume state (7.6). Which free place a record takes
is the model's own (log 18). -/
def Obligations.SetLevelCutsOrFades : Prop :=
  (∀ x : BitVec 16, levelOfField x
      = if x.toInt = -32768 then .off else .steps (max (-480) (min 96 x.toInt)))
  ∧ ∀ (s : State) (ref : ElemRef) (x : BitVec 16) (time : Nat) (k : Option Curve),
    s.Takes (.setLevel ref x time k) →
    let level := levelOfField x
    let words (how : SetHow) (after : Level) (o : OwnerKind) (serial : Nat) : Vector Word 4 :=
      wordsOf (Config.code (.setHow how)) (Config.levelWord after) (Config.code (.owner o))
        (wordOf serial)
    ∃ t, exec (.setLevel ref x time k) s = .next t
      ∧ (ElemRef.elem? ref = none ∨ k = none →
          s.Answered [] { code := .badArgument, words := wordsOf 0#32 0#32 0#32 0#32 } t)
      ∧ ∀ e, ElemRef.elem? ref = some e →
          let cuts : Prop := k = some .cut ∨ (k = some .steps ∧ time = 0)
          let fades : Prop := k = some .steps ∧ 0 < time
          let a := (s.level e).orFloor e.floor
          let fade : FadeRec := .begun .request e level a (min time 600000) none
          (s.NotFading e → cuts →
            State.Answered [] { s with levels := s.levels.put e level }
              { code := .ok, words := words .set level .none 0 } t)
          ∧ (s.NotFading e → fades → freePlace s = none →
            State.Answered [] { s with levels := s.levels.put e level }
              { code := .ok, words := words .full level .none 0 } t)
          ∧ (∀ i : RecId, s.NotFading e → fades → freePlace s = some i →
            State.Answered [] { s with
                levels := s.levels.put e (.steps a), fades := s.fades.set i (some fade) }
              { code := .ok, words := words .fading (.steps a) .none 0 } t)
          ∧ ∀ (i : RecId) (old : FadeRec), fadingOf s e none = some i → s.fades[i] = some old →
              let areas := s.takeoverAreas i old
              let replaced (owner : OwnerKind) (serial : Nat) (q : Seq) : Prop :=
                (cuts → State.Answered areas { s with
                    seq := q, takenOver := min (s.takenOver + 1) 65535, voices := s.resumed i old
                    levels := s.levels.put e level, fades := s.fades.set i none }
                  { code := .ok, words := words .set level owner serial } t)
                ∧ (fades → fadingOf s e (some i) = none → State.Answered areas { s with
                    seq := q, takenOver := min (s.takenOver + 1) 65535, voices := s.resumed i old
                    levels := s.levels.put e (.steps a), fades := s.fades.set i (some fade) }
                  { code := .ok, words := words .fading (.steps a) owner serial } t)
              (old.owner = .request → replaced .request 0 s.seq)
              ∧ ∀ y : RunEntry, old.owner = .firing y.id → entryOf s y.id = some y →
                  0 < y.pending → y.placing = false → replaced .cue y.id.serial (s.seq.told y)

/-- SWAP_TAP (2.3, 2.4): the checks in their order; then the active tap, if there is one, is faded to OFF and the
tap named to 0, each by `State.tapFaded`. A swap of no time leaves the old tap IDLE at OFF and the new one ACTIVE at
0; a swap of some time sets them FADING_OUT and FADING_IN, each moved by a CAST record from its level, or from −96
out of OFF, and a fade that finds no place is made at once (6.9). During a crossfade either tap, or both, may have a
record: it is taken over, also by a swap of no time, and a fade of some time takes its place (2.4, 6.2, 6.4). Which
free place a record takes is the model's own (log 18), and so is that a swap of no time takes none (log 53). Result
words that no rule gives are free (log 39). -/
def Obligations.SwapTapChecksAndSwaps : Prop :=
  ∀ (s : State) (role tap time : Nat), s.Takes (.swapTap role tap time) →
    let bad : Answer := { code := .badArgument, words := wordsOf 0#32 0#32 0#32 0#32 }
    ∃ t, exec (.swapTap role tap time) s = .next t
      ∧ (96 ≤ role ∨ 4 ≤ tap → s.Answered [] bad t)
      ∧ ∀ (r : RoleId) (k : TapId), r.val = role → k.val = tap →
          let old := Role.active s.roles[r]
          let T := min time 600000
          (s.roles[r].cfg.taps[k] = none → s.Answered [] bad t)
          ∧ ∀ c : Channel, s.roles[r].cfg.taps[k] = some c →
            let st := Config.code (.channelState s.channels[c].state)
            let ok : Answer :=
              { code := .ok
                words := wordsOf (wordOf k.val) st
                  ((old.map fun o => wordOf o.val).getD (Config.code .noTap)) (rest s 3) }
            (old = some k → s.Answered []
                { code := .ok, words := wordsOf (wordOf k.val) st (Config.code .noTap) (rest s 3) } t)
            ∧ (∀ q, old ≠ some k → carriedElsewhere s r c = some q → s.Answered []
                { code := .conflict, words := wordsOf (wordOf q.val) st (rest s 2) (rest s 3) } t)
            ∧ (old = none → carriedElsewhere s r c = none → s.CastMoves r k →
                State.Answered [.roles] (s.tapFaded r k (.steps 0) T) ok t)
            ∧ ∀ o, old = some o → o ≠ k → carriedElsewhere s r c = none → s.CastMoves r o →
                s.CastMoves r k →
                State.Answered [.roles] ((s.tapFaded r o .off T).tapFaded r k (.steps 0) T) ok t

/-- VOICE_START (7.3): refused for a voice out of range or a sound that is not usable; else the voice restarts in
PRIMING with the sound from its first frame, owned by REQUEST, its level cut to the start level, and asks for its
first burst. A FADING record of the voice's level, a stop fade or another, is taken over by the cut and its owner
told; a voice that was STOPPING does not return to its resume state, its stop record being cleared by the restart
(6.4, 7.3). A call whose voice it was ends CUT, is handed to the CALL cell, and its page closes (9.4); that the
cell's bursts join the write queue after the answer's is the model's choice (log 69). A sound record is unknown, empty
or usable, and its loop in effect, by 7.1; of a record of frame count 0 that fits both the first two, one past the
memory is empty and one at a start that is no multiple of 4 is unknown, the model's choices (log 48). That the
record is read then and there, its turn being asked for, is the model's choice too (log 15), and so is that the
voices area is handed over also where REQUEST restarts its own PRIMING voice (log 50). The codes of the call's details
are free (log 9), and their bits of no field are 0 (log 41). -/
def Obligations.VoiceStartTakesTheVoice : Prop :=
  (∀ (s : State) (voice sound : Nat) (x : BitVec 16) (loop : Bool),
    s.Takes (.voiceStart voice sound x loop) →
    let bad (r : RefusedFor) : Answer :=
      { code := .badArgument
        words := wordsOf (Config.code (.refusedFor r)) 0#32 0#32 0#32 }
    ∃ t, exec (.voiceStart voice sound x loop) s = .next t
      ∧ (16 ≤ voice → s.Answered [] (bad .voice) t)
      ∧ ∀ v : VoiceId, v.val = voice →
          (judgeSound s s.mem sound loop = .unknown →
              (s.soundAsked sound).Answered [] (bad .soundUnknown) t)
          ∧ (judgeSound s s.mem sound loop = .empty →
              (s.soundAsked sound).Answered [] (bad .soundEmpty) t)
          ∧ ∀ snd, judgeSound s s.mem sound loop = .usable snd → (∀ c, s.voices[v].owner ≠ .call c) →
            let takes (areas : List Area) (w : State) : Prop :=
              State.Answered (.voices :: areas) { w with
                voices := s.voices.set v (Voice.restarted s.voices[v] snd .request).request
                levels := s.levels.put (.voice v) (levelOfField x)
                arb := s.playedArb v }
              { code := .ok
                words := wordsOf (Config.code (.owner s.voices[v].owner.kind))
                  (wordOf s.voices[v].owner.number) (wordOf snd.count)
                  (Config.code (.looping snd.looping)) } t
            (s.NotFading (.voice v) → takes [] s)
            ∧ ∀ (j : RecId) (old : FadeRec), s.OwnStopOnly v → fadingOf s (.voice v) none = some j →
                s.fades[j] = some old →
                let after (q : Seq) : State := { s with
                  seq := q, takenOver := min (s.takenOver + 1) 65535, fades := s.fades.set j none }
                (old.owner = .request → takes [] (after s.seq))
                ∧ ∀ y : RunEntry, old.owner = .firing y.id → entryOf s y.id = some y → 0 < y.pending →
                    y.placing = false → takes [.cue] (after (s.seq.told y)))
    ∧ (∀ (s : State) (v : VoiceId) (sound : Nat) (x : BitVec 16) (loop : Bool) (snd : SoundCopy)
        (c : CallId) (i : CallInst) (p : PageId) (pg : Page),
        s.Takes (.voiceStart v.val sound x loop) → judgeSound s s.mem sound loop = .usable snd →
        s.OwnStopOnly v → s.voices[v].owner = .call c → s.calls[c].inst = some i →
        i.page = some p → s.pages[p] = some pg → pg.opener = .call c →
        ∃ t, exec (.voiceStart v.val sound x loop) s = .next t
          ∧ t.voices = s.voices.set v (Voice.restarted s.voices[v] snd .request).request
          ∧ t.calls = upd s.calls c (fun y => { y with inst := none, outcome := .cut })
          ∧ t.cutCalls = sat16 s.cutCalls ∧ t.missedCalls = s.missedCalls
          ∧ t.pages = s.pages.set p none
          ∧ t.lastClosed = some { id := p, opener := .call c, reason := .call, time := s.tod }
          ∧ s.Captured callCell (callWords c true none i .request) 2 t ∧ s.CellsKept [callCell] t)
    ∧ ∀ (size n : Nat) (loop : Bool) (r : RawSound),
        let unknown : Prop := 1023 < n ∨ r.start % 4 ≠ 0
          ∨ (0 < r.count ∧ size ≤ r.start + 4 * (r.count - 1))
        (unknown → judgeRecord size n loop r = .unknown)
          ∧ (¬ unknown → r.count = 0 → judgeRecord size n loop r = .empty)
          ∧ (¬ unknown → 0 < r.count → ∃ c, judgeRecord size n loop r = .usable c
              ∧ c.number = n ∧ c.start = r.start ∧ c.count = r.count
              ∧ (c.looping = true ↔ loop = true ∧ ∃ a b, r.loopStart = some a ∧ r.loopEnd = some b
                  ∧ a < b ∧ b ≤ r.count)
              ∧ (c.looping = true → r.loopStart = some c.loopStart ∧ r.loopEnd = some c.loopEnd))

/-- VOICE_STOP (7.6): refused for a voice out of range; an IDLE voice is left alone; a stop of no time, or with
the table full and no record to take over, cuts the voice to OFF and IDLE, its buffer emptied (6.9); a stop of
some time fades it to OFF in STOPPING. A FADING record of the voice's element is taken over and told to its
owner, and a fade stands in its place (6.2, 6.4); were it the voice's own stop fade, the voice is back in its
resume state when the new stop begins, so that a second STOP keeps that state. Words 2 and 3 give the owner
before the request, the model's choice (log 55), the record's place is the model's own (log 18), and so is that a
second STOP hands the voices area over (log 50) and that a cut clears the voice's start pending (log 49). -/
def Obligations.VoiceStopFadesOrCuts : Prop :=
  ∀ (s : State) (voice time : Nat), s.Takes (.voiceStop voice time) →
    ∃ t, exec (.voiceStop voice time) s = .next t
      ∧ (16 ≤ voice → s.Answered [] { code := .badArgument, words := wordsOf 0#32 0#32 0#32 0#32 } t)
      ∧ ∀ v : VoiceId, v.val = voice →
          let x := s.voices[v]
          let ok (how : SetHow) : Answer :=
            { code := .ok
              words := wordsOf (Config.code (.voiceState x.state)) (Config.code (.setHow how))
                (Config.code (.owner x.owner.kind)) (wordOf x.owner.number) }
          let cuts (areas : List Area) (w : State) : Prop :=
            State.Answered (.voices :: areas) { w with
              voices := w.voices.set v (Voice.idled w.voices[v])
              levels := s.levels.put (.voice v) .off
              arb := (staleBurst v s).arb } (ok .set) t
          let fades (areas : List Area) (i : RecId) (w : State) : Prop :=
            let a := (s.level (.voice v)).orFloor (-480)
            let y := w.voices[v]
            State.Answered (.voices :: areas) { w with
              voices := w.voices.set v { y with
                state := .stopping
                resume := if y.state = .stopping then y.resume else y.state
                stopRec := some i }
              levels := s.levels.put (.voice v) (.steps a)
              fades := w.fades.set i
                (some (.begun .request (.voice v) .off a (min time 600000) (some v))) } (ok .fading) t
          (x.state = .idle → s.Answered [] (ok .none) t)
          ∧ (x.state ≠ .idle → s.NotFading (.voice v) →
              (time = 0 ∨ freePlace s = none → s.VoiceAlone v → cuts [] s)
              ∧ ∀ i : RecId, 0 < time → freePlace s = some i → fades [] i s)
          ∧ ∀ (i : RecId) (old : FadeRec), x.state ≠ .idle → fadingOf s (.voice v) none = some i →
              s.fades[i] = some old →
              let taken (q : Seq) : Prop :=
                let w : State := { s with
                  seq := q, takenOver := min (s.takenOver + 1) 65535, voices := s.resumed i old
                  fades := s.fades.set i none }
                w.voices[v].state ≠ .idle →
                  (time = 0 → s.VoiceAlone v → cuts (s.takeoverAreas i old) w)
                  ∧ (0 < time → fadingOf s (.voice v) (some i) = none → fades (s.takeoverAreas i old) i w)
              (old.owner = .request → taken s.seq)
              ∧ ∀ y : RunEntry, old.owner = .firing y.id → entryOf s y.id = some y → 0 < y.pending →
                  y.placing = false → taken (s.seq.told y)

/-- RELAY and CLEAR_ZONE_FAULT (8.3, 8.5): refused for an argument out of range; else every member's relay flag
takes the switch and a newly wanted OFF zone is powered, through windows of any length, 0 and 255 among them (8.3,
8.4); a LIVE zone whose demand so ends starts its idle timer afresh, and one whose demand comes back stops it
(8.4); a zone under power or in FAULT, or one that carries a page, takes the flag alone. Or every member in FAULT
enters OFF and is powered where it is wanted. No other zone changes. Word 1 of a clear counts the cleared zones
with AMPEN on (log 40). -/
def Obligations.RelayAndClearActOnTheGroup : Prop :=
  (∀ (s : State) (g : Nat) (on : Option Bool), s.Takes (.relay g on) →
    ∃ t, exec (.relay g on) s = .next t
      ∧ (8 ≤ g ∨ on = none →
          s.Answered [] { code := .badArgument, words := wordsOf 0#32 0#32 0#32 0#32 } t)
      ∧ ∀ (h : g < 8) (b : Bool), on = some b →
          let members : List ZoneId := membersOf s ⟨g, h⟩
          (∀ z : ZoneId, z ∉ members → t.zones[z] = s.zones[z])
          ∧ (∀ z ∈ members, t.zones[z].relay = b ∧ t.zones[z].page = s.zones[z].page
              ∧ (s.zones[z].relay = b → t.zones[z] = s.zones[z]))
          ∧ (∀ z ∈ members, s.zones[z].relay ≠ b →
              let x := { s.zones[z] with relay := b }
              (x.state = .off → x.cfg.stability = 255 ∨ (x.page = none ∧ b = true) → t.zones[z] = x.poweredUp)
              ∧ (x.state = .off → x.cfg.stability ≠ 255 → x.page ≠ none ∨ b = false → t.zones[z] = x)
              ∧ (x.state = .live → x.page = none → t.zones[z] = { x with
                  timer := if b = true ∨ x.cfg.idle = 0 ∨ x.cfg.stability = 255 then none
                    else some (48 * (1000 * x.cfg.idle)) })
              ∧ (x.state = .live → x.page ≠ none → t.zones[z] = x)
              ∧ (x.state = .powering ∨ x.state = .checking ∨ x.state = .fault → t.zones[z] = x))
          ∧ t.slate.lastAnswer = some
              { code := .ok
                words := wordsOf (wordOf members.length)
                  (wordOf (members.filter fun z => s.zones[z].relay != b).length)
                  (wordOf (members.filter fun z => s.zones[z].state == .fault).length) 0#32 }
          ∧ ∀ base, s.mirror.base = some base → ∀ z ∈ members, s.zones[z].relay ≠ b →
              s.HandedOver base .zones t)
    ∧ ∀ (s : State) (g : Nat), s.Takes (.clearZoneFault g) →
      ∃ t, exec (.clearZoneFault g) s = .next t
        ∧ (8 ≤ g → s.Answered [] { code := .badArgument, words := wordsOf 0#32 0#32 0#32 0#32 } t)
        ∧ ∀ h : g < 8,
            let cleared : List ZoneId :=
              (membersOf s ⟨g, h⟩).filter fun z => s.zones[z].state == .fault
            (∀ z : ZoneId, z ∉ cleared → t.zones[z] = s.zones[z])
            ∧ (∀ z ∈ cleared,
                let x := { s.zones[z] with state := .off, ampen := false, timer := none, falseRun := 0 }
                t.zones[z] = if x.relay = true ∨ x.page ≠ none ∨ x.cfg.stability = 255 then x.poweredUp else x)
            ∧ t.notice = s.notice ∧ t.cells = s.cells
            ∧ t.slate.lastAnswer = some
                { code := .ok
                  words := wordsOf (wordOf cleared.length)
                    (wordOf (cleared.filter fun z => t.zones[z].ampen).length) 0#32 0#32 }

/-- PAGE_OPEN (9.2): refused for the first of group, source and priority that fails (that order is the model's
choice, log 57), BUSY with no free entry, NO_ZONE where every member declines in FAULT or carries a page of equal or
higher priority. Else the lowest free entry takes the page with the members that carry none and those that carry a
page of lower priority: they carry it, in whatever state they are, their duck gates commanded down and their page
hold gates set, an OFF one that so gets demand is powered and the idle timer of a LIVE one stops (8.3, 8.4, 8.6), and
it is LIVE when they all are. A page they were won from loses them one by one: it closes PREEMPTED with its last, and
is LIVE when those it still holds are. A call whose page so becomes LIVE while it waits for its zones begins to play,
also where the page then loses its last zone; one whose page closes ends and releases its voice, DONE when it was
playing and else MISSED, PAGE_CLOSED, which is handed to the CALL cell (9.4). The open is handed to the PAGE cell
with the count of zones won from pages and of pages closed, the bits of a detail word that 11.7 gives to no field
being 0 (log 41; codes: log 9). That zone z won is bit z of result word 1 is the model's choice (log 61), and so are
that the PAGE cell's bursts join the write queue before the answer's and the CALL cell's after them (log 69), and
that a released voice's stop record and start pending are cleared (log 49). Left out are the CALL cell where one open
makes several calls MISSED, and a page opened over the very voice of a call that loses a zone by it (log 66). Result
words that no rule gives are free (log 39). -/
def Obligations.PageOpenOffersThePage : Prop :=
  ∀ (s : State) (group : Nat) (src : SourceRef) (prio : Nat) (x : BitVec 16),
    s.Takes (.pageOpen group src prio x) →
    let bad (r : RefusedFor) : Answer :=
      { code := .badArgument
        words := wordsOf (Config.code (.refusedFor r)) (rest s 1) (rest s 2) (rest s 3) }
    ∃ t, exec (.pageOpen group src prio x) s = .next t
      ∧ (8 ≤ group → s.Answered [] (bad .group) t)
      ∧ (group < 8 → SourceRef.source? src = none → s.Answered [] (bad .source) t)
      ∧ (group < 8 → SourceRef.source? src ≠ none → 4 ≤ prio → s.Answered [] (bad .priority) t)
      ∧ ∀ (g : Fin 8) (q : Fin 4) (source : PageSource), g.val = group → q.val = prio →
          SourceRef.source? src = some source →
          let members : List ZoneId := membersOf s g
          let entered (won : BitVec 24) (st : PageState) : Page :=
            { state := st, opener := .request, source := source, priority := q
              level := levelOfField x, zones := won, opened := s.tod
              limit := if s.header.pageLimit = 0 then none else some (s.header.pageLimit * 1000) }
          let captured (p : PageId) (won : BitVec 24) (preempted closed : Nat) (st : PageState) : Prop :=
            let sourceWord : Word := match source with
              | .channel c => placeCode (Config.code (.sourceKind .channel)) 0 8 ||| place c.val 8
              | .voice v => placeCode (Config.code (.sourceKind .voice)) 0 8 ||| place v.val 8
            let details : List Word :=
              [place p.val 0 ||| place q.val 8,
                placeCode (Config.code (.owner .request)) 0 8 ||| place 0 8, sourceWord,
                won.setWidth 32,
                place preempted 0 ||| place closed 8 ||| placeCode (Config.code (.pageState st)) 16 1]
            s.Captured pageCell details 0 t
              ∧ (s.cells[pageCell].state = .empty → s.wq.queue.length ≤ 46 → s.wq.heldCapture = [] →
                  (t.wq.queue.drop s.wq.queue.length).take 2
                    = [.cellData pageCell s.tod details, .cellFull pageCell])
          let declines (z : ZoneId) : Prop := s.zones[z].state = .fault
          let skips (z : ZoneId) : Prop := s.zones[z].state ≠ .fault
            ∧ ∃ (o : PageId) (other : Fin 4), s.zones[z].page = some o
                ∧ carriedPriority s z = some other ∧ q ≤ other
          let takes (z : ZoneId) : Prop := s.zones[z].state ≠ .fault ∧ s.zones[z].page = none
          let wins (z : ZoneId) (o : PageId) (pg : Page) : Prop := s.zones[z].state ≠ .fault
            ∧ s.zones[z].page = some o ∧ s.pages[o] = some pg ∧ pg.zones.getLsbD z = true ∧ pg.priority < q
          let carries (z : ZoneId) (p : PageId) : Prop :=
            let x := s.zones[z]
            let y := t.zones[z]
            y.page = some p ∧ y.relay = x.relay ∧ y.relayHold = x.relayHold
              ∧ y.duck = x.duck.command (-(x.cfg.duckDepth : Int)) (rampFrames s x.cfg.duckRamp)
              ∧ y.pageHold = Gate.setTo (!x.held || q == 3)
              ∧ (x.state = .off → (x.relay = false ∧ x.page = none) ∨ x.cfg.stability = 255 →
                  let on := Zone.poweredUp { x with page := some p }
                  y.state = on.state ∧ y.ampen = on.ampen ∧ y.timer = on.timer ∧ y.falseRun = on.falseRun)
              ∧ (x.state = .off → x.relay = true ∨ x.page ≠ none → x.cfg.stability ≠ 255 →
                  y.state = x.state ∧ y.ampen = x.ampen ∧ y.timer = x.timer ∧ y.falseRun = x.falseRun)
              ∧ (x.state ≠ .off → y.state = x.state ∧ y.ampen = x.ampen ∧ y.falseRun = x.falseRun
                  ∧ y.timer = if x.state = .live ∧ x.relay = false ∧ x.page = none then none else x.timer)
          let opened (p : PageId) (won : BitVec 24) (preempted closed : Nat) : Prop :=
            ∃ st : PageState, (st = .live ↔ ∀ z : ZoneId, won.getLsbD z = true → t.zones[z].state = .live)
              ∧ t.pages[p] = some (entered won st) ∧ captured p won preempted closed st
              ∧ t.slate.lastAnswer = some
                  { code := .ok
                    words := wordsOf (wordOf p.val) (won.setWidth 32) (wordOf preempted)
                      (Config.code (.pageState st)) }
              ∧ ∀ base, s.mirror.base = some base → s.HandedOver base .pages t ∧ s.HandedOver base .zones t
          (freePage s = none →
              s.Answered [] { code := .busy, words := wordsOf 0#32 0#32 0#32 0#32 } t)
          ∧ (freePage s ≠ none → (∀ z ∈ members, declines z ∨ skips z) →
              s.Answered []
                { code := .noZone
                  words := wordsOf (wordOf members.length)
                    (wordOf (members.filter fun z => s.zones[z].state != .fault).length)
                    (wordOf (members.filter fun z => s.zones[z].state == .fault).length)
                    (if members.length = 0 then 0#32 else rest s 3) } t)
          ∧ ∀ (p : PageId) (won : BitVec 24) (gone : Vector (BitVec 24) 4), freePage s = some p →
              won ≠ 0#24 →
              (∀ z ∈ members, declines z ∨ skips z ∨ takes z ∨ ∃ o pg, wins z o pg) →
              (∀ z : ZoneId, won.getLsbD z = true ↔ z ∈ members ∧ (takes z ∨ ∃ o pg, wins z o pg)) →
              (∀ (o : PageId) (z : ZoneId),
                gone[o].getLsbD z = true ↔ won.getLsbD z = true ∧ s.zones[z].page = some o) →
              let loses (o : PageId) (pg : Page) : Prop := s.pages[o] = some pg ∧ gone[o] ≠ 0#24
              (∀ o pg c, loses o pg → pg.opener = .call c → ∃ i, s.calls[c].inst = some i
                ∧ i.phase ≠ .waitVoice ∧ i.page = some o ∧ s.CallAlone c s.calls[c].cfg.voice (some o)
                ∧ s.voices[s.calls[c].cfg.voice].state ≠ .idle ∧ source ≠ .voice s.calls[c].cfg.voice) →
              let left (o : PageId) : BitVec 24 := ((s.pages[o].map (·.zones)).getD 0#24) &&& ~~~gone[o]
              let allLive (o : PageId) : Prop :=
                ∀ z : ZoneId, (left o).getLsbD z = true → s.zones[z].state = .live
              let plays (o : PageId) (pg : Page) (i : CallInst) : Prop :=
                pg.state = .opened ∧ i.phase = .waitZones ∧
                  if left o = 0#24 then
                    ∃ y z : ZoneId, y < z ∧ gone[o].getLsbD y = true ∧ gone[o].getLsbD z = true
                      ∧ (∀ n : ZoneId, gone[o].getLsbD n = true → n ≤ z) ∧ s.zones[z].state = .live
                  else allLive o
              let missed (c : CallId) (i : CallInst) : Prop := ∃ o pg, loses o pg ∧ left o = 0#24
                ∧ pg.opener = .call c ∧ s.calls[c].inst = some i ∧ i.phase = .waitZones ∧ ¬ plays o pg i
              (∀ z : ZoneId, won.getLsbD z = false → t.zones[z] = s.zones[z])
              ∧ (∀ z : ZoneId, won.getLsbD z = true → carries z p)
              ∧ (∀ o : PageId, o ≠ p → gone[o] = 0#24 → t.pages[o] = s.pages[o])
              ∧ (∀ o pg, loses o pg → left o = 0#24 → t.pages[o] = none)
              ∧ (∀ o pg, loses o pg → left o ≠ 0#24 → left o &&& won = 0#24 → t.pages[o] = some { pg with
                  zones := left o, state := if allLive o then .live else pg.state })
              ∧ ((∀ o pg, loses o pg → left o ≠ 0#24) → t.lastClosed = s.lastClosed)
              ∧ (∀ (o : PageId) (pg : Page) (z : ZoneId), loses o pg → left o = 0#24 →
                  gone[o].getLsbD z = true →
                  (∀ (n : PageId) (g : Page) (y : ZoneId), loses n g → left n = 0#24 →
                    gone[n].getLsbD y = true → y ≤ z) →
                  t.lastClosed = some { id := o, opener := pg.opener, reason := .preempted, time := s.tod })
              ∧ (∀ c : CallId, (∀ o pg, loses o pg → pg.opener ≠ .call c) → t.calls[c] = s.calls[c])
              ∧ (∀ v : VoiceId,
                  (∀ o pg c, loses o pg → pg.opener = .call c → s.calls[c].cfg.voice ≠ v) →
                  t.voices[v] = s.voices[v])
              ∧ (∀ (o : PageId) (pg : Page) (c : CallId) (i : CallInst), loses o pg → pg.opener = .call c →
                  s.calls[c].inst = some i →
                  let v := s.calls[c].cfg.voice
                  let x : Voice := if plays o pg i then Voice.started s.voices[v] else s.voices[v]
                  (left o = 0#24 → t.voices[v] = Voice.idled x ∧ t.calls[c] = { s.calls[c] with
                    inst := none
                    outcome := if i.phase = .playing ∨ plays o pg i then .done true
                      else .missed .pageClosed })
                  ∧ (left o ≠ 0#24 → left o &&& won = 0#24 → t.voices[v] = x ∧ t.calls[c] =
                      if plays o pg i then { s.calls[c] with inst := some { i with phase := .playing } }
                      else s.calls[c]))
              ∧ s.CellsKept [pageCell, callCell] t
              ∧ ((∀ c i, ¬ missed c i) → t.missedCalls = s.missedCalls ∧ s.CellsKept [pageCell] t)
              ∧ (∀ c i, missed c i → (∀ d k, missed d k → d = c) → t.missedCalls = sat16 s.missedCalls
                  ∧ s.Captured callCell (callWords c false (some .pageClosed) i .none) 4 t)
              ∧ opened p won ((zonesOf won).filter fun z => s.zones[z].page.isSome).length
                  ((List.finRange 4).filter fun o => gone[o] ≠ 0#24 && left o == 0#24).length

/-- PAGE_CLOSE of a page in use and the expiry of its limit close the page: its entry is free, the last-closed
record takes it with the reason, and every zone it held carries none, its duck gate commanded toward 0 and its
page hold gate set (9.2); one that is LIVE and left with no demand starts its idle timer (8.3, 8.4). PAGE_CLOSE of
another id is refused. A call that opened the page ends with it and releases its voice: DONE when it was playing,
MISSED, PAGE_CLOSED, when it waited for its zones, the miss being handed to the CALL cell with the details of 9.4
(codes: log 9; bits of no field: log 41). That the released voice's stop record and start pending
are cleared (log 49), and that the cell's bursts join the write queue after those of a PAGE_CLOSE's answer (log 69),
are the model's choices. Result words that no rule gives are free (log 39). -/
def Obligations.PagesCloseByRequestAndLimit : Prop :=
  let stays (x y : Zone) : Prop := x.state ≠ .off →
    y.state = x.state ∧ y.ampen = x.ampen ∧ y.falseRun = x.falseRun
      ∧ y.timer = if x.state = .live ∧ x.page ≠ none ∧ x.relay = false
          then (if x.cfg.idle = 0 ∨ x.cfg.stability = 255 then none else some (48 * (1000 * x.cfg.idle)))
          else x.timer
  (∀ (s : State) (p : PageId) (pg : Page) (c : Instr) (reason : CloseReason), s.Runs → s.Quiet →
    s.pages[p] = some pg → pg.opener = .request →
    (c = .pageClose p.val ∧ s.Takes (.pageClose p.val) ∧ reason = .closed)
      ∨ (c = .pageLimitExpiry p ∧ pg.limit = some 0 ∧ reason = .limit) →
    ∃ t, exec c s = .next t ∧ t.pages[p] = none
      ∧ t.lastClosed = some { id := p, opener := .request, reason := reason, time := s.tod }
      ∧ (∀ q : PageId, q ≠ p → t.pages[q] = s.pages[q])
      ∧ (∀ z : ZoneId, pg.zones.getLsbD z = false → t.zones[z] = s.zones[z])
      ∧ (∀ z : ZoneId, pg.zones.getLsbD z = true → t.zones[z].page = none
          ∧ t.zones[z].pageHold = Gate.setTo (!s.zones[z].held)
          ∧ t.zones[z].duck = s.zones[z].duck.command 0 (rampFrames s s.zones[z].cfg.duckRamp)
          ∧ t.zones[z].relay = s.zones[z].relay ∧ stays s.zones[z] t.zones[z])
      ∧ t.notice = s.notice ∧ t.cells = s.cells ∧ t.mem = s.mem
      ∧ (∀ base, s.mirror.base = some base → s.HandedOver base .pages t)
      ∧ (c = .pageClose p.val → t.slate.lastAnswer = some
          { code := .ok
            words := wordsOf (Config.code (.owner .request)) 0#32
              (wordOf (zoneCount pg.zones)) (rest s 3) }))
    ∧ (∀ (s : State) (p : PageId) (pg : Page) (c : Instr) (reason : CloseReason) (k : CallId)
        (i : CallInst), s.Runs → s.Quiet → s.pages[p] = some pg → pg.opener = .call k →
        s.calls[k].inst = some i → i.phase ≠ .waitVoice → i.page = some p →
        (c = .pageClose p.val ∧ s.Takes (.pageClose p.val) ∧ reason = .closed)
          ∨ (c = .pageLimitExpiry p ∧ pg.limit = some 0 ∧ reason = .limit) →
        s.voices[s.calls[k].cfg.voice].state ≠ .idle →
        s.CallAlone k s.calls[k].cfg.voice (some p) →
        ∃ t, exec c s = .next t ∧ t.pages = s.pages.set p none
          ∧ t.lastClosed = some { id := p, opener := .call k, reason := reason, time := s.tod }
          ∧ t.calls = upd s.calls k (fun x => { x with
              inst := none
              outcome := if i.phase = .playing then .done true else .missed .pageClosed })
          ∧ t.missedCalls = (if i.phase = .playing then s.missedCalls else sat16 s.missedCalls)
          ∧ (i.phase = .playing → t.cells = s.cells)
          ∧ (i.phase = .waitZones → s.CellsKept [callCell] t
              ∧ s.Captured callCell (callWords k false (some .pageClosed) i .none) 2 t)
          ∧ t.voices = s.voices.set s.calls[k].cfg.voice (Voice.idled s.voices[s.calls[k].cfg.voice])
          ∧ (c = .pageClose p.val → t.slate.lastAnswer = some
              { code := .ok
                words := wordsOf (Config.code (.owner .call)) (wordOf k.val)
                  (wordOf (zoneCount pg.zones)) (rest s 3) })
          ∧ ∀ z : ZoneId, pg.zones.getLsbD z = true →
              t.zones[z].page = none ∧ stays s.zones[z] t.zones[z])
    ∧ ∀ (s : State) (n : Nat), s.Takes (.pageClose n) →
        (4 ≤ n ∨ ∃ p : PageId, p.val = n ∧ s.pages[p] = none) →
        ∃ t, exec (.pageClose n) s = .next t
          ∧ s.Answered [] { code := .badArgument, words := wordsOf 0#32 0#32 0#32 0#32 } t

/-- CALL_NOW (9.3) is refused for an index out of range or a running instance; else an instance starts, waiting
for a busy voice, missed at once, VOICE_BUSY, with a patience of 0, or missed for a sound that is not usable.
With its voice IDLE its PLAY is taken and it opens its page, playing at once when the page is LIVE or its
patience is 0, missed BUSY with no free entry and NO_ZONE when every member is in FAULT (9.3, 9.4); an open that
preempts is left out. Patience that expires misses a call that waits for its voice, VOICE_BUSY, and starts the
voice of one that waits for its zones (9.4). Each miss is handed to the CALL cell with the details of 9.4 at the
bits of 11.7, the bits of no field being 0 (log 41). The codes are free (log 9), and so are result words that no rule
gives (log 39). That the sound record is read then and there, its turn being asked for, is the model's choice
(log 15). -/
def Obligations.CallsStartWaitAndMiss : Prop :=
  (∀ (s : State) (n : Nat), s.Takes (.callNow n) →
    ∃ t, exec (.callNow n) s = .next t
      ∧ (16 ≤ n → s.Answered []
          { code := .badArgument, words := wordsOf (rest s 0) (rest s 1) (rest s 2) (rest s 3) } t)
      ∧ ∀ c : CallId, c.val = n →
          let cfg := s.calls[c].cfg
          let inst : CallInst :=
            { phase := .waitVoice, patience := cfg.patience * 1000, page := none, started := s.tod,
              byCallNow := true }
          let sound := judgeSound s s.mem cfg.sound false
          (∀ i, s.calls[c].inst = some i → s.Answered []
              { code := .busy
                words := wordsOf (Config.code (.phase (some i.phase))) (rest s 1) (rest s 2)
                  (rest s 3) } t)
          ∧ (∀ snd, s.calls[c].inst = none → sound = .usable snd → s.voices[cfg.voice].state ≠ .idle →
              0 < cfg.patience →
              State.Answered [.pages] { s.soundAsked cfg.sound with
                  calls := upd s.calls c fun x => { x with inst := some inst } }
                { code := .ok
                  words := wordsOf (Config.code (.phase (some .waitVoice))) 0#32 (rest s 2)
                    (rest s 3) } t)
          ∧ (∀ snd, s.calls[c].inst = none → sound = .usable snd → s.voices[cfg.voice].state ≠ .idle →
              cfg.patience = 0 → s.voices[cfg.voice].owner ≠ .call c →
              State.Answered [.pages]
                (captureEvent callCell
                  (callWords c false (some .voiceBusy) inst s.voices[cfg.voice].owner)
                  { s.soundAsked cfg.sound with
                  calls := upd s.calls c fun x =>
                    { x with inst := none, outcome := .missed .voiceBusy }
                  missedCalls := sat16 s.missedCalls })
                { code := .ok
                  words := wordsOf (Config.code (.phase none))
                    (Config.code (.missReason (some .voiceBusy))) (rest s 2) (rest s 3) } t)
          ∧ (s.calls[c].inst = none → sound = .unknown ∨ sound = .empty →
              s.voices[cfg.voice].owner ≠ .call c →
              State.Answered [.pages]
                (captureEvent callCell (callWords c false (some .sound) inst .none)
                  { s.soundAsked cfg.sound with
                  calls := upd s.calls c fun x =>
                    { x with inst := none, outcome := .missed .sound }
                  missedCalls := sat16 s.missedCalls })
                { code := .ok
                  words := wordsOf (Config.code (.phase none))
                    (Config.code (.missReason (some .sound))) (rest s 2) (rest s 3) } t)
          ∧ (∀ snd, s.calls[c].inst = none → sound = .usable snd → s.voices[cfg.voice].state = .idle →
              s.NotFading (.voice cfg.voice) → (∀ d : CallId, s.voices[cfg.voice].owner ≠ .call d) →
              let members : List ZoneId := membersOf s cfg.group
              (∀ p : PageId, freePage s = some p → members ≠ [] →
                (∀ z ∈ members, s.zones[z].state ≠ .fault ∧ s.zones[z].page = none) →
                ∃ (st : PageState) (phase : CallPhase),
                  (st = .live ↔ ∀ z ∈ members, t.zones[z].state = .live)
                  ∧ phase = (if st = .live ∨ cfg.patience = 0 then .playing else .waitZones)
                  ∧ t.calls = upd s.calls c (fun x =>
                      { x with inst := some { inst with phase := phase, page := some p } })
                  ∧ t.voices = s.voices.set cfg.voice
                      { (Voice.restarted s.voices[cfg.voice] snd (.call c)).request with
                        startPending := decide (st = .live ∨ cfg.patience = 0) }
                  ∧ t.level (.voice cfg.voice) = .off
                  ∧ t.pages = s.pages.set p (some
                      { state := st, opener := .call c, source := .voice cfg.voice
                        priority := cfg.priority, level := cfg.level
                        zones := s.zoneGroups[cfg.group], opened := s.tod
                        limit := if s.header.pageLimit = 0 then none
                          else some (s.header.pageLimit * 1000) })
                  ∧ (∀ z : ZoneId, z ∈ members → t.zones[z].page = some p)
                  ∧ t.slate.lastAnswer = some
                      { code := .ok
                        words := wordsOf (Config.code (.phase (some phase))) 0#32 (rest s 2)
                          (rest s 3) })
              ∧ (∀ why : MissReason, (freePage s = none ∧ why = .busy)
                  ∨ (freePage s ≠ none ∧ (∀ z ∈ members, s.zones[z].state = .fault) ∧ why = .noZone) →
                (∀ q : PageId, s.pages[q].map (·.source) ≠ some (.voice cfg.voice)) →
                (∀ d : CallId, Call.waitsFor s.calls[d] cfg.voice = false) →
                let x := Voice.restarted s.voices[cfg.voice] snd (.call c)
                State.Answered [.pages, .voices]
                  (captureEvent callCell
                    (callWords c false (some why) { inst with phase := .waitZones } .none) { s with
                    calls := upd s.calls c fun y => { y with inst := none, outcome := .missed why }
                    missedCalls := sat16 s.missedCalls
                    voices := s.voices.set cfg.voice (Voice.idled x.request)
                    levels := s.levels.put (.voice cfg.voice) .off
                    arb := s.playedArb cfg.voice })
                  { code := .ok
                    words := wordsOf (Config.code (.phase none))
                      (Config.code (.missReason (some why))) (rest s 2) (rest s 3) } t)))
    ∧ ∀ (s : State) (c : CallId) (i : CallInst), s.Runs → s.Quiet → s.calls[c].inst = some i →
        i.patience = 0 →
        let v := s.calls[c].cfg.voice
        ∃ t, exec (.patienceExpiry c) s = .next t
          ∧ (i.phase = .waitVoice → i.page = none → s.voices[v].owner ≠ .call c →
              State.EndsAs [.pages]
                (captureEvent callCell
                  (callWords c false (some .voiceBusy) i s.voices[v].owner) { s with
                  calls := upd s.calls c fun x =>
                    { x with inst := none, outcome := .missed .voiceBusy }
                  missedCalls := sat16 s.missedCalls }) t)
          ∧ (i.phase = .waitZones → s.voices[v].owner = .call c → s.voices[v].state = .primed →
              State.EndsAs [.pages, .voices] { s with
                calls := upd s.calls c fun x => { x with inst := some { i with phase := .playing } }
                voices := upd s.voices v fun x => { x with state := .playing } } t)
          ∧ (i.phase = .waitZones → s.voices[v].owner = .call c → s.voices[v].state = .priming →
              State.EndsAs [.pages] { s with
                calls := upd s.calls c fun x => { x with inst := some { i with phase := .playing } }
                voices := upd s.voices v fun x => { x with startPending := true } } t)

/-- SET_TIME sets the four fields and the milliseconds 0 and answers with the fields before, or is refused
for an argument out of its range (9.1). That the first such argument is named (log 57), that a
refused one hands nothing over (log 47), and that a rollover of this tick not yet compared falls away (log 19), are
the model's choices. -/
def Obligations.SetTimeSetsTheClock : Prop :=
  ∀ (s : State) (day hours minutes seconds : Nat), s.Takes (.setTime day hours minutes seconds) →
    let bad (r : RefusedFor) : Answer :=
      { code := .badArgument
        words := wordsOf (Config.code (.refusedFor r)) 0#32 0#32 0#32 }
    ∃ t, exec (.setTime day hours minutes seconds) s = .next t
      ∧ (6 < day → s.Answered [] (bad .day) t)
      ∧ (day ≤ 6 → 23 < hours → s.Answered [] (bad .hours) t)
      ∧ (day ≤ 6 → hours ≤ 23 → 59 < minutes → s.Answered [] (bad .minutes) t)
      ∧ (day ≤ 6 → hours ≤ 23 → minutes ≤ 59 → 59 < seconds → s.Answered [] (bad .seconds) t)
      ∧ (day ≤ 6 → hours ≤ 23 → minutes ≤ 59 → seconds ≤ 59 →
          State.Answered [.pages] { s with
              tod := { day := day, hours := hours, minutes := minutes, seconds := seconds, ms := 0 }
              rollover := false }
            { code := .ok
              words := wordsOf (wordOf s.tod.day) (wordOf s.tod.hours) (wordOf s.tod.minutes)
                (wordOf s.tod.seconds) } t)

/-- LOCK and UNLOCK (11.4): the level named, where it is not weaker than the present one; OFF from SOFT;
HARD stays. That the argument names SOFT by 1 and HARD by 2 is the model's choice (log 67). Word 0 gives the level
before; the other words are free (log 39). A full reset sets the level to OFF and a port reset keeps it. -/
def Obligations.LockLevelIsRaisedAndReleased : Prop :=
  (∀ s : State,
    let a (code : ResultCode) : Answer :=
      { code := code
        words := wordsOf (wordOf (lockCode s.lock)) (rest s 1) (rest s 2) (rest s 3) }
    (∀ n, s.Takes (.lock n) → ∃ t, exec (.lock n) s = .next t
        ∧ (n ≠ 1 → n ≠ 2 → s.Answered [] (a .badArgument) t)
        ∧ (n = 1 → s.lock = .hard → s.Answered [] (a .locked) t)
        ∧ (n = 1 → s.lock ≠ .hard → State.Answered (if s.lock = .soft then [] else [.engine])
            { s with lock := .soft } (a .ok) t)
        ∧ (n = 2 → State.Answered (if s.lock = .hard then [] else [.engine])
            { s with lock := .hard } (a .ok) t))
      ∧ (s.Takes .unlock → ∃ t, exec .unlock s = .next t
          ∧ (s.lock ≠ .hard → State.Answered (if s.lock = .off then [] else [.engine])
              { s with lock := .off } (a .ok) t)
          ∧ (s.lock = .hard → s.Answered [] (a .locked) t)))
    ∧ ∀ s t : State, s.PortFree →
        (exec .fullReset s = .next t → t.lock = .off)
          ∧ (exec .portReset s = .next t → t.lock = s.lock)

/-- R170, CAPTURE_NOW: an EMPTY MANUAL cell captures the two host words and the answer gives the time; any
other state is refused BUSY with the missed count, which does not rise. -/
def Obligations.CaptureNowFillsTheManualCell : Prop :=
  ∀ (s : State) (w0 w1 : Word), s.Takes (.captureNow w0 w1) →
    ∃ t, exec (.captureNow w0 w1) s = .next t
      ∧ (s.cells[(11 : CellId)].state = .empty →
          State.Answered [] { s with
              cells := s.cells.set (11 : CellId) { state := .filling, missed := 0 }
              wq := (s.wq.join .capture (.cellData 11 s.tod [w0, w1])).join .capture (.cellFull 11) }
            { code := .ok
              words := wordsOf (wordOf s.tod.day) (wordOf s.tod.hours) (wordOf s.tod.minutes)
                (wordOf (s.tod.seconds * 1000 + s.tod.ms)) } t)
      ∧ (s.cells[(11 : CellId)].state ≠ .empty →
          s.Answered []
            { code := .busy
              words := wordsOf (wordOf s.cells[(11 : CellId)].missed) 0#32 0#32 0#32 } t)

/-! ## Links, clock source and channels -/

/-- A link frame (1.2): good when it carries the sync pattern and a count one above the reference count;
the counts of the receiver, its reference count and, while LOCKED, its presented frame follow. A good frame is
kept as the last that came, which a lock presents. -/
def Obligations.LinkFrameIsJudged : Prop :=
  ∀ (s : State) (l : Link) (w : Vector Word 18), s.Runs → s.rx[l].lockDue = false →
    s.rx[l].unlockDue = false →
    let r := s.rx[l]
    let sync : Prop := w[0].extractLsb' 8 24 = 0x5A3C96#24
    let count := w[0].extractLsb' 0 8
    let good : Prop := sync ∧ ∃ c, r.ref = some c ∧ count = c + 1#8
    ∃ r' : Receiver, exec (.linkFrame l w) s = .next { s with rx := s.rx.set l r' }
      ∧ r'.locked = r.locked ∧ r'.completed = true
      ∧ (sync → r'.ref = some count) ∧ (¬ sync → r'.ref = r.ref)
      ∧ (good → r'.incoming.status = w[17]
          ∧ ∀ k : Fin 16, r'.incoming.slots[k] = (w[k.val + 1]'(by omega)).extractLsb' 8 24)
      ∧ (¬ good → r'.incoming = r.incoming)
      ∧ (r.locked = true → good → r'.bad = 0 ∧ r'.good = r.good
          ∧ r'.presented.status = w[17]
          ∧ ∀ k : Fin 16, r'.presented.slots[k] = (w[k.val + 1]'(by omega)).extractLsb' 8 24)
      ∧ (r.locked = true → ¬ good →
          r'.bad = min (r.bad + 1) 4 ∧ r'.good = r.good ∧ r'.presented = r.presented)
      ∧ (r.locked = false → good →
          r'.good = min (r.good + 1) 8 ∧ r'.bad = r.bad ∧ r'.presented = r.presented)
      ∧ (r.locked = false → ¬ good →
          r'.good = 0 ∧ r'.bad = r.bad ∧ r'.presented = r.presented)

/-- Eight good frames lock a receiver, which presents the last of them; four bad frames unlock it, silence is
presented, and every channel of the link that is LIVE, SUSPECT or RETURNING enters LOST with no timer and its gate
commanded closed with auto-mute on, the other channels staying as they are (1.2, 1.5, 1.6). Each such entry latches
INPUT unless masked and is handed to the INPUT cell, with its event, channel, prior state and cause LINK at the bits
of 11.7 (codes: log 9; bits of no field: log 41), in ascending channel order (1.7); that a RETURNING channel which
was never LIVE is reported too is the model's choice (log 44). A role with auto-spare whose active tap is on such a
channel swaps to the partner tap, in its spare time, when the partner's channel is LIVE on another link and no other
role carries it, and else keeps its taps and counts a spare unavailable: no channel of the link is a spare for
another (2.5). During a crossfade the swap takes over the records of its two taps, so that a tap fading in is faded
out again from where it stands, and its partner back in; the loss of the channel of a tap that is fading out is no
role's loss (2.4, 2.5). The two fades of a swap are those of SWAP_TAP (`State.tapFaded`): the CAST records take the
lowest free places (log 18), and a swap of no time takes none (log 53). That a spare found unavailable with the count
at 65 535 hands the roles area over is the model's choice (log 52). -/
def Obligations.ReceiverLocksAndUnlocks : Prop :=
  ∀ (s : State) (l : Link), s.Runs → s.Quiet →
    (s.rx[l].locked = false → s.rx[l].good = 8 →
      ∃ t, exec (.receiverLocked l) s = .next t
        ∧ State.EndsAs [.channels] { s with rx := s.rx.set l { s.rx[l] with
            locked := true, good := 0, bad := 0, presented := s.rx[l].incoming } } t)
      ∧ (s.rx[l].locked = true → s.rx[l].bad = 4 →
        let hits : List Channel := (List.finRange 64).filter fun c => linkOf c == l
          && (s.channels[c].state == .live || s.channels[c].state == .suspect
            || s.channels[c].state == .returning)
        let lost (x : ChannelRec) : ChannelRec := { x with
          state := .lost, timer := none
          gate := if x.cfg.autoMute then x.gate.command (-480) (rampFrames s x.cfg.ramp) else x.gate }
        let u : State := hits.foldl
          (fun v c => captureEvent inputCell
            [placeCode (Config.code (.inputEvent false)) 0 8 ||| place c.val 8,
              Config.code (.channelState s.channels[c].state), Config.code (.lossCause (some .link))] v)
          { s with
            rx := s.rx.set l { s.rx[l] with
              locked := false, good := 0, bad := 0, presented := .silent }
            channels := tabulate fun c => if c ∈ hits then lost s.channels[c] else s.channels[c]
            notice := { s.notice with input := s.notice.input
              || (hits.any fun c => !(s.channels[c].cfg.lossMask || s.header.inputMask)) } }
        ∃ t, exec (.receiverUnlocked l) s = .next t
          ∧ t.rx = u.rx ∧ t.channels = u.channels ∧ t.notice = u.notice ∧ t.cells = u.cells
          ∧ t.mem = s.mem ∧ t.zones = s.zones ∧ t.pages = s.pages
          ∧ ((∀ c ∈ hits, s.NoRoleOn c) → u.EndsAs [.channels] t)
          ∧ ∀ c ∈ hits, ∀ (r : RoleId) (k : TapId), s.engine ≠ .stopped → roleActiveOn s c = some r →
              Role.active s.roles[r] = some k →
              let auto := s.roles[r].cfg.autoSpare
              let time := s.roles[r].cfg.spareTime
              let spare : Prop := ∃ d, s.roles[r].cfg.taps[pairOf k] = some d ∧ linkOf d ≠ l
                ∧ s.channels[d].state = .live ∧ carriedElsewhere s r d = none
              (auto = true → (∃ d, s.roles[r].cfg.taps[pairOf k] = some d ∧ linkOf d = l) →
                t.roles[r] = { s.roles[r] with
                  unavailable := min (s.roles[r].unavailable + 1) 65535 })
              ∧ ((∀ b ∈ hits, b ≠ c → s.NoRoleOn b) →
                (auto = false → u.EndsAs [.channels] t)
                ∧ (auto = true → ¬ spare → State.EndsAs [.channels, .roles] { u with
                    roles := upd s.roles r fun y => { y with unavailable := min (y.unavailable + 1) 65535 } } t)
                ∧ (auto = true → spare → s.CastMoves r k → s.CastMoves r (pairOf k) →
                  State.EndsAs [.channels, .roles]
                    ((u.tapFaded r k .off time).tapFaded r (pairOf k) (.steps 0) time) t)))

/-- WCLK (1.1): a millisecond in which a period of 19.5 to 22.2 µs ended counts as present, any other as
absent, each adding to its run; two absent milliseconds fall back to INTERNAL and latch CLOCK; a thousand
present ones return to WCLK and latch nothing; an edge ends the coasting (the bookkeeping of coasting is
the model's, log 32, and so is that the ends of the range are good, log 42). -/
def Obligations.ClockSourceFallsBackAndReturns : Prop :=
  ∀ s : State, s.Runs → s.Quiet →
    (s.clock.inUse = .wclk → s.header.source = .wclk → 2 ≤ s.clock.absentRun →
      ∃ t, exec .wclkFallback s = .next t
        ∧ State.EndsAs [.engine] { s with
            clock := { s.clock with inUse := .internal, coasting := false }
            notice := { s.notice with clock := true } } t)
      ∧ (s.clock.inUse = .internal → s.header.source = .wclk → 1000 ≤ s.clock.returnRun →
        ∃ t, exec .wclkReturn s = .next t
          ∧ State.EndsAs [.engine] { s with clock := { s.clock with inUse := .wclk, coasting := true } } t)
      ∧ (fallbackDue s = false → returnDue s = false → ∀ periods : List Nat,
        ((∃ ns ∈ periods, 19500 ≤ ns ∧ ns ≤ 22200) →
          exec (.wclkPresenceJudgement periods) s = .next { s with clock := { s.clock with
            present := true, absentRun := 0, presentRun := min (s.clock.presentRun + 1) 1000
            returnRun := min (s.clock.returnRun + 1) 1000 } })
          ∧ ((∀ ns ∈ periods, ns < 19500 ∨ 22200 < ns) →
            exec (.wclkPresenceJudgement periods) s = .next { s with clock := { s.clock with
              present := false, absentRun := min (s.clock.absentRun + 1) 2, presentRun := 0
              returnRun := 0, coasting := s.clock.coasting || s.clock.inUse == .wclk } }))
      ∧ (s.clock.inUse = .wclk → exec .frameClockRealignment s
          = .next { s with clock := { s.clock with coasting := false } })

/-- The channel transitions that report nothing (1.5): LIVE to SUSPECT with the full confirm time, SUSPECT
back to LIVE, LOST to RETURNING for ten times the hold time or at once to LIVE, RETURNING to LIVE; the
gate opens on an entry to LIVE that is not from SUSPECT, with auto-mute on. The times run in frames, 48 to
a millisecond (1.1). -/
def Obligations.ChannelComesAndGoesUnreported : Prop :=
  ∀ (s : State) (c : Channel), s.Runs → s.Quiet →
    let x := s.channels[c]
    let opened : Gate :=
      if x.cfg.autoMute then x.gate.command 0 (rampFrames s x.cfg.ramp) else x.gate
    let becomes (st : ChannelState) (timer : Option Nat) (g : Gate) (t : State) : Prop :=
      State.EndsAs [.channels] { s with
        channels := s.channels.set c { x with state := st, timer := timer, gate := g } } t
    (x.state = .live → x.present = false → 0 < x.cfg.confirm →
      ∃ t, exec (.channelPresentFalse c) s = .next t
        ∧ becomes .suspect (some (48 * x.cfg.confirm)) x.gate t)
    ∧ (x.state = .suspect → x.present = true →
      ∃ t, exec (.channelPresentTrue c) s = .next t ∧ becomes .live none x.gate t)
    ∧ (x.state = .lost → x.present = true → s.rx[linkOf c].locked = true → 0 < x.cfg.hold →
      ∃ t, exec (.channelPresentTrue c) s = .next t
        ∧ becomes .returning (some (48 * (10 * x.cfg.hold))) x.gate t)
    ∧ (x.state = .lost → x.present = true → s.rx[linkOf c].locked = true → x.cfg.hold = 0 →
      ∃ t, exec (.channelPresentTrue c) s = .next t ∧ becomes .live none opened t)
    ∧ (x.state = .returning → x.timer = some 0 →
      ∃ t, exec (.holdTimerExpiry c) s = .next t ∧ becomes .live none opened t)

/-- An entry to LOST, by the confirm timer, a confirm time of 0 or a drop while RETURNING, closes the gate with
auto-mute on, latches INPUT unless masked and is handed to the INPUT cell with its cause (1.5 to 1.7; that a channel
which was never LIVE is reported too is the model's choice, log 44). A low-battery edge is latched and handed over
likewise, with the channel's state and cause NONE, that of a channel which was never LIVE too by the model's choice
(log 44); the details lie at the bits of 11.7 (codes: log 9; bits of no field: log 41). Where a role's active tap is
on the channel and the engine is not STOPPED, a role with auto-spare swaps to the partner tap when its channel is
LIVE and no other role carries it, in the role's spare time, and else counts a spare unavailable; a role without
stays as it is (2.5). During a crossfade the swap takes over the records of its two taps, so that a tap fading in is
faded out again from where it stands, and its partner back in; the loss of the channel of a tap that is fading out is
no role's loss (2.4, 2.5). The two fades are those of SWAP_TAP (`State.tapFaded`): the CAST records take the lowest
free places (log 18), and a swap of no time takes none (log 53). That a spare found unavailable with the count at its
end hands the roles area over is the model's choice (log 52). -/
def Obligations.ChannelLossAndBatteryAreReported : Prop :=
  ∀ (s : State) (c : Channel), s.Runs → s.Quiet →
    let x := s.channels[c]
    let closed : Gate :=
      if x.cfg.autoMute then x.gate.command (-480) (rampFrames s x.cfg.ramp) else x.gate
    let details (battery : Bool) (cause : Option LossCause) : List Word :=
      [placeCode (Config.code (.inputEvent battery)) 0 8 ||| place c.val 8,
        Config.code (.channelState x.state), Config.code (.lossCause cause)]
    let lost (cause : LossCause) : State :=
      captureEvent inputCell (details false (some cause)) { s with
        channels := s.channels.set c { x with state := .lost, timer := none, gate := closed }
        notice := { s.notice with
          input := s.notice.input || !(x.cfg.lossMask || s.header.inputMask) } }
    (∀ (i : Instr) (cause : LossCause),
      (i = .confirmExpiry c ∧ x.state = .suspect ∧ x.timer = some 0 ∧ cause = .confirm)
        ∨ (i = .channelPresentFalse c ∧ x.state = .live ∧ x.present = false ∧ x.cfg.confirm = 0
            ∧ cause = .confirm)
        ∨ (i = .channelPresentFalse c ∧ x.state = .returning ∧ x.present = false
            ∧ cause = .returnDrop) →
      let u := lost cause
      ∃ t, exec i s = .next t
        ∧ (s.NoRoleOn c → u.EndsAs [.channels] t)
        ∧ ∀ (r : RoleId) (k : TapId), s.engine ≠ .stopped → roleActiveOn s c = some r →
            Role.active s.roles[r] = some k →
            let auto := s.roles[r].cfg.autoSpare
            let time := s.roles[r].cfg.spareTime
            let spare : Prop := ∃ d, s.roles[r].cfg.taps[pairOf k] = some d ∧ d ≠ c
              ∧ s.channels[d].state = .live ∧ carriedElsewhere s r d = none
            (auto = false → u.EndsAs [.channels] t)
            ∧ (auto = true → ¬ spare → State.EndsAs [.channels, .roles] { u with
                roles := upd s.roles r fun y =>
                  { y with unavailable := min (y.unavailable + 1) 65535 } } t)
            ∧ (auto = true → spare → s.CastMoves r k → s.CastMoves r (pairOf k) →
                State.EndsAs [.channels, .roles]
                  ((u.tapFaded r k .off time).tapFaded r (pairOf k) (.steps 0) time) t))
    ∧ (x.edge = true → x.state ≠ .unused →
      ∃ t, exec (.batteryLowEdge c) s = .next t
        ∧ State.EndsAs []
            (captureEvent inputCell (details true none) { s with
              channels := s.channels.set c { x with edge := false }
              notice := { s.notice with
                input := s.notice.input || !(x.cfg.batteryMask || s.header.inputMask) } }) t)

/-! ## Hold lines, cues and the fade table -/

/-- The twentieth disagreeing tick makes a hold line's raw level its accepted one: every mix and zone whose mask
has the line derives its hold state and commands its hold gates, a zone with a priority-3 page keeping its page
hold gate open, and the change is handed to the HOLD cell (4.4, 4.5, 8.6). A mix's gate goes on, stays or starts
a new ramp from where it stands (3.9). One that was at rest when the frame began and that an install has
commanded in it is commanded from that rest, so that a change and an install of one frame give one path in either
order (4.6; log 45). The code of the new state is the model's (log 43), and so is that the bits of its details
that 11.7 gives to no field are 0 (log 41). -/
def Obligations.AcceptedHoldLineMovesItsGates : Prop :=
  ∀ (s : State) (l : LineId), s.Runs → s.Quiet → s.hold[l].run = 20 →
    let hold := s.hold.set l { s.hold[l] with accepted := s.hold[l].raw, run := 0 }
    let held (mask : BitVec 4) : Bool :=
      (List.finRange 4).any fun k => mask.getLsbD k && hold[k].accepted
    let line (k : LineId) : Word := place (if hold[k].accepted then 1 else 0) k.val
    let target (h : Bool) : Int := if h then -480 else 0
    let mix (x : Mix) : Mix :=
      if x.cfg.holdMask.getLsbD l then
        { x with
          held := held x.cfg.holdMask
          gate := if x.gate.endDue = true ∧ x.gate.target = target (held x.cfg.holdMask) then x.gate
            else Gate.command
              (if x.renewed then (x.rested.map fun v => Gate.mk v none).getD x.gate else x.gate)
              (target (held x.cfg.holdMask)) (rampFrames s x.cfg.holdRamp) }
      else x
    let zone (x : Zone) (prio : Option (Fin 4)) : Zone :=
      if x.cfg.holdMask.getLsbD l then
        { x with
          held := held x.cfg.holdMask
          relayHold := x.relayHold.command (target (held x.cfg.holdMask))
            (rampFrames s x.cfg.holdRamp)
          pageHold := x.pageHold.command
            (target (held x.cfg.holdMask && prio != some 3)) (rampFrames s x.cfg.holdRamp) }
      else x
    let u := { s with
      hold := hold
      mixes := tabulate fun m => mix s.mixes[m]
      zones := tabulate fun z => zone s.zones[z] (carriedPriority s z) }
    ∃ t, exec (.holdAccepted l) s = .next t
      ∧ State.EndsAs [.mixes, .zones] (captureEvent holdCell
          [place l.val 0 ||| place (if s.hold[l].raw then 1 else 0) 8, line 0 ||| line 1 ||| line 2 ||| line 3,
            wordOf (u.mixes.toList.filter (·.held)).length] u) t

/-- An edge of the GO line is guarded and counted, captured with its outcome, or asks for a firing; an edge of a
trigger line is captured or fires a standby of that line; the guard ends; an armed follow at 0 fires (5.5 to 5.7).
An edge that does not fire is captured in its cell with its outcome and line, no cue, the standby and the engine's
state at the bits of 11.7 (5.9; codes: log 9; bits of no field: log 41). Edges not yet taken are counted by the
model, and judged by the guard when they are taken (log 33). That a firing asks for one engine read for all that
it reads is the model's choice (log 16). -/
def Obligations.LinesGuardAndFollowAct : Prop :=
  ∀ s : State, s.Runs → s.Quiet →
    let asks (c : FireCause) (u t : State) : Prop :=
      State.EndsAs [] { u with
        seq := { u.seq with firing := some { cause := c, view := none } }
        arb := { u.arb with reads := u.arb.reads ++ [.firing] } } t
    let captured (cell : CellId) (line : Nat) (o : LineOutcome) (u t : State) : Prop :=
      State.EndsAs [] (captureEvent cell
        [placeCode (Config.code (.lineOutcome o)) 0 8 ||| place line 8, 0#32, 0#32,
          wordOf ((s.seq.standby.map (·.number)).getD 0),
          match s.engine with
            | .stopped => 0#32
            | .loading => 1#32
            | .loaded => 2#32] u) t
    (0 < s.seq.goEdges → s.seq.firing = none →
      let u := { s with seq := { s.seq with goEdges := s.seq.goEdges - 1 } }
      ∃ t, exec .lineGo s = .next t
        ∧ (s.seq.guard ≠ none →
            State.EndsAs [] { u with seq := { u.seq with guarded := min (s.seq.guarded + 1) 65535 } } t)
        ∧ (s.seq.guard = none → s.engine ≠ .loaded →
            captured goCell 0 .notReady u t)
        ∧ (s.seq.guard = none → s.engine = .loaded → s.seq.pause = true →
            captured goCell 0 .paused u t)
        ∧ (s.seq.guard = none → s.engine = .loaded → s.seq.pause = false → s.seq.standby = none →
            captured goCell 0 .ended u t)
        ∧ (s.seq.guard = none → s.engine = .loaded → s.seq.pause = false → s.seq.standby ≠ none →
            asks .lineGo u t))
    ∧ (∀ k : LineId, 0 < s.seq.trigEdges[k] → s.seq.firing = none →
      let u := { s with seq := { s.seq with trigEdges := upd s.seq.trigEdges k (· - 1) } }
      ∃ t, exec (.triggerEdge k) s = .next t
        ∧ (s.engine ≠ .loaded → captured (triggerCell k) k.val .notReady u t)
        ∧ (s.engine = .loaded → s.seq.pause = true →
            captured (triggerCell k) k.val .paused u t)
        ∧ (s.engine = .loaded → s.seq.pause = false → s.seq.standby = none →
            captured (triggerCell k) k.val .ended u t)
        ∧ ∀ st, s.engine = .loaded → s.seq.pause = false → s.seq.standby = some st →
            (st.trigger = .line k → asks (.trigger k) u t)
            ∧ (st.trigger ≠ .line k → captured (triggerCell k) k.val .notStandby u t))
    ∧ (s.seq.guard = some 0 → ∃ t, exec .guardExpiry s = .next t
        ∧ State.EndsAs [] { s with seq := { s.seq with guard := none } } t)
    ∧ (s.seq.follow = some 0 → s.seq.pause = false → s.engine = .loaded → s.seq.standby ≠ none →
        s.seq.firing = none → ∃ t, exec .followExpiry s = .next t
        ∧ asks .follow { s with seq := { s.seq with follow := none } } t)

/-- A firing whose reads have arrived gives the standby the next serial, makes the next cue by number the standby
with the fired cue as its parent, and starts the guard for a GO alone (5.3, 5.6). Its moves are taken in run
order: a malformed one is counted as failed, a delayed one placed in the lowest free record (log 18), and with
the table full each is crushed, acting at once and counted, the event being captured after the last; the cue runs
while a record of it is pending, and completes at once with none, arming its follow (5.3 to 5.5, 6.2). A move
without delay acts as it is placed, and a LEVEL one takes over a request's fade of its element; were that a stop
fade, its voice returns to its resume state (6.4, 7.6, 7.9). A record unsound at step 2 is a cue failed once
(5.3). With eight cues running the oldest is force-completed, its record executed at once, and captured with the
number that forced it (5.3, 6.6). A line GO or a trigger edge is captured FIRED with the new standby, and a GO
request answered (5.6, 5.9); the bits of their details that 11.7 gives to no field are 0 (log 41), and that the
request is answered only now is the model's choice (log 16). Actions without delay, crushed actions and a forced
cue of several records are left out. A move's fields lie at the bits of 11.7. -/
def Obligations.FiringPlacesItsMovesAndDerivesStandby : Prop :=
  (∀ (s : State) (cause : FireCause) (view : Memory) (st : Standby), s.Runs → s.Quiet →
    s.clock.tickOpen = true → s.seq.firing = some { cause := cause, view := some view } →
    s.seq.standby = some st →
    let id : FiringId := { number := st.number, serial := s.seq.nextSerial }
    let serial := if 65535 ≤ s.seq.nextSerial then 1 else s.seq.nextSerial + 1
    let next := (nextAfter view s.tables.cueList st.number).map standbyOf
    let startArms : Option Nat := next.bind fun n =>
      if n.trigger = .followStart then some n.wait else none
    let arms : Option Nat := next.bind fun n =>
      if n.trigger = .followStart ∨ n.trigger = .followComplete then some n.wait else none
    let guard := if s.header.guard = 0 then s.seq.guard else some s.header.guard
    let fired (running : List RunEntry) (last : Option Completed) (follow : Option Nat) : Seq :=
      { s.seq with
        firing := none, nextSerial := serial, standby := next, parent := some id
        running := running, last := last, follow := follow }
    let done (crushed failed : Nat) : Option Completed :=
      some { id := id, crushed := crushed, failed := failed, forced := false }
    let record (c : CueRec) (k : Nat) (m : Move) : FadeRec :=
      { fading := false, owner := .firing id, content := m.content, upTime := c.upTime,
        downTime := c.downTime, ownUp := m.ownUp, ownDown := m.ownDown, runIndex := some k,
        delayLeft := m.delay, start := 0, time := 0, elapsed := 0, stopMark := none }
    let entry (pending crushed failed : Nat) : RunEntry :=
      { id := id, fireTime := s.tod, pending := pending, crushed := crushed, failed := failed,
        forced := false, placing := false }
    ∃ t, exec .cueFiring s = .next t ∧ t.seq.firing = none
      ∧ t.seq.nextSerial = serial
      ∧ t.seq.standby = next ∧ t.seq.parent = some id ∧ t.seq.pause = s.seq.pause ∧ t.mem = s.mem
      ∧ (cause = .lineGo ∨ cause = .goRequest → t.seq.guard = guard)
      ∧ ((∃ k, cause = .trigger k) ∨ cause = .follow → t.seq.guard = s.seq.guard)
      ∧ (let details (line : Nat) : List Word :=
          [placeCode (Config.code (.lineOutcome .fired)) 0 8 ||| place line 8, wordOf id.number,
            wordOf id.serial, wordOf ((next.map (·.number)).getD 0),
            match s.engine with | .stopped => 0#32 | .loading => 1#32 | .loaded => 2#32]
        let endsWith (areas : List Area) (u : State) (crushed : Nat) : Prop :=
          let g : State := { u with seq := { u.seq with guard := guard } }
          (cause = .follow → u.EndsAs areas t)
            ∧ (cause = .lineGo → State.EndsAs areas (captureEvent goCell (details 0) g) t)
            ∧ (∀ k, cause = .trigger k →
                State.EndsAs areas (captureEvent (triggerCell k) (details k.val) u) t)
            ∧ (cause = .goRequest → State.Answered areas g
                { code := .ok
                  words := wordsOf (wordOf id.number) (wordOf id.serial)
                    ((next.map fun n => wordOf n.number).getD (Config.code .noCue)) (wordOf crushed) } t)
        let ends := endsWith [.cue]
        (∀ e ∈ s.seq.running, e.id ≠ id) →
          ((readCue view s.tables.cueList st.index).sound? = none → s.seq.running.length < 8 →
            ends { s with seq := fired s.seq.running (done 0 1) arms } 0)
          ∧ ∀ c, (readCue view s.tables.cueList st.index).sound? = some c →
            let read (k : Nat) : Option Move := readMove view s.tables.movePool (c.first + k)
            (s.seq.running.length < 8 →
              let moves : List (Nat × Move) :=
                (List.range c.count).filterMap fun k => (read k).map fun m => (k, m)
              let free : List RecId := (List.finRange 128).filter fun i => s.fades[i].isNone
              let placed := moves.take free.length
              let crushed := moves.drop free.length
              let failed := c.count - moves.length
              let before : Nat := (crushed.getLast?).elim 0 fun p =>
                ((List.range p.1).filter fun k => (read k).isNone).length
              (∀ p ∈ moves, 0 < p.2.delay) →
              (∀ p ∈ crushed, ∃ e target curve, p.2.content = .level e target curve ∧ s.NotFading e) →
              let u : State := { s with
                fades := (free.zip placed).foldl
                  (fun f p => f.set p.1 (some (record c p.2.1 p.2.2))) s.fades
                levels := crushed.foldl (fun v p => match p.2.content with
                  | .level e target _ => v.put e target
                  | _ => v) s.levels
                seq := if placed = [] then fired s.seq.running (done crushed.length failed) arms
                  else fired (s.seq.running ++ [entry placed.length crushed.length failed]) s.seq.last
                    startArms }
              ends (if crushed = [] then u else captureEvent cueForcedCell
                [Config.code (.cueForced true), wordOf id.number, wordOf id.serial,
                  place crushed.length 0 ||| place before 8, 0#32] u) crushed.length)
            ∧ ∀ m, c.count = 1 → read 0 = some m →
              (∀ (i : RecId) (e : Elem) (target : Level) (curve : Curve), s.seq.running.length < 8 →
                m.delay = 0 → freePlace s = some i → m.content = .level e target curve →
                let a := (s.level e).orFloor e.floor
                let T := min (if a < target.orFloor e.floor then m.ownUp.getD c.upTime
                  else m.ownDown.getD c.downTime) 600000
                let fade : FadeRec := { record c 0 m with fading := true, start := a, time := T }
                (s.NotFading e →
                  (curve = .cut ∨ T = 0 → ends { s with
                    levels := s.levels.put e target
                    seq := fired s.seq.running (done 0 0) arms } 0)
                  ∧ (curve = .steps → T ≠ 0 → ends { s with
                    levels := s.levels.put e (.steps a)
                    fades := s.fades.set i (some fade)
                    seq := fired (s.seq.running ++ [entry 1 0 0]) s.seq.last startArms } 0))
                ∧ ∀ (j : RecId) (old : FadeRec), fadingOf s e none = some j → s.fades[j] = some old →
                  old.owner = .request →
                  let ends := endsWith (.cue :: s.takeoverAreas j old)
                  let taken : State := { s with
                    takenOver := min (s.takenOver + 1) 65535, voices := s.resumed j old }
                  (curve = .cut ∨ T = 0 → ends { taken with
                    levels := s.levels.put e target
                    fades := s.fades.set j none
                    seq := fired s.seq.running (done 0 0) arms } 0)
                  ∧ (curve = .steps → T ≠ 0 → ends { taken with
                    levels := s.levels.put e (.steps a)
                    fades := (s.fades.set j none).set i (some fade)
                    seq := fired (s.seq.running ++ [entry 1 0 0]) s.seq.last startArms } 0))
              ∧ ∀ (o : RunEntry) (l : List RunEntry) (i j : RecId) (r : FadeRec) (k : Nat) (e : Elem)
                  (target : Level) (curve : Curve), s.seq.running = o :: l → l.length = 7 →
                  (∀ y ∈ l, y.id ≠ o.id) → o.pending = 1 → o.placing = false → s.fades[i] = some r →
                  r.owner = .firing o.id → r.runIndex = some k → k < 64 → r.stopMark = none →
                  (∀ (n : RecId) (q : FadeRec), s.fades[n] = some q → q.owner = .firing o.id → n = i) →
                  r.content = .level e target curve → r.fading = true ∨ s.NotFading e →
                  0 < m.delay → freePlace (setFade i none s) = some j →
                  ends (captureEvent cueForcedCell
                    [Config.code (.cueForced false), wordOf o.id.number, wordOf o.id.serial,
                      place o.crushed 0 ||| place o.failed 8, wordOf st.number]
                    { s with
                      levels := s.levels.put e target
                      fades := (s.fades.set i none).set j (some (record c 0 m))
                      seq := fired (l ++ [entry 1 0 0])
                        (some { id := o.id, crushed := o.crushed, failed := o.failed, forced := true })
                        startArms }) 0))
    ∧ ∀ (m : Memory) (base i : Nat),
        let word (k : Nat) : Word := Memory.readWord m (base + 16 * i + 4 * k)
        let n (k : Nat) : Nat := (word k).toNat
        let time (k : Nat) : Nat := min (n k % 2 ^ 20) 600000
        let kind := n 0 / 2 ^ 20 % 2 ^ 3
        let index := n 1 % 2 ^ 10
        let own (k : Nat) : Option Nat := if (word k).getLsbD 31 then some (time k) else none
        let elem : Option Elem := match n 0 / 2 ^ 24 % 2 ^ 3 with
          | 0 => (fin? 96 index).map .role
          | 1 => (fin? 16 index).map .voice
          | 2 => (fin? 16 index).map .group
          | 3 => (fin? 1024 index).map .send
          | 4 => (fin? 40 index).map .master
          | 5 => (fin? 24 index).map .zone
          | _ => none
        let action (x : Content) : Option Move :=
          some { delay := time 0, content := x, ownUp := none, ownDown := none }
        let voice : VoiceId := Fin.ofNat 16 (n 1)
        (kind = 0 → readMove m base i = elem.map fun e =>
            { delay := time 0
              content := .level e (levelOfField ((word 1).extractLsb' 16 16))
                (if (word 0).getLsbD 23 then .cut else .steps)
              ownUp := own 2
              ownDown := own 3 })
          ∧ (kind = 1 → readMove m base i = action (.play voice (n 1 / 2 ^ 8 % 2 ^ 10)
              (levelOfField ((word 2).extractLsb' 0 16)) ((word 1).getLsbD 31)))
          ∧ (kind = 2 → readMove m base i = action (.stop voice (time 2)))
          ∧ (kind = 3 → readMove m base i
              = action (.relay (Fin.ofNat 8 (n 1)) ((word 1).getLsbD 31)))
          ∧ (3 < kind → readMove m base i = none)

/-- A record of a running cue whose delay has run out acts (6.3, 6.4): a LEVEL record cuts, or becomes a fade
from the present level, or the floor out of OFF, over the time its direction chooses, and takes over another
FADING record of its element, whose owner is told, and of which, were it a stop fade, the voice returns to its
resume state (7.6); a RELAY switches its group; a PLAY takes its voice; a STOP leaves an IDLE voice alone, and
fades any other out, or cuts it with a time of 0, taking over likewise. A record that leaves the table is told to
its cue, whose pending count falls and which completes at 0 (5.4, 6.1). That a PLAY's sound record is read then
and there, its turn being asked for, is the model's choice (log 15), and so are that the voices area is handed
over also where the cue restarts its own PRIMING voice or stops a STOPPING one (log 50), and that a voice's start
pending is cleared as a cut sends it to IDLE (log 49). A PLAY takes over a fade of its voice's level likewise, but
without the return to the resume state, the voice's stop record being cleared by the restart (7.3); a call whose voice
it takes ends CUT, is handed to the CALL cell with the cue as the one that cut it, and its page closes (9.4; codes:
log 9; bits of no field: log 41). -/
def Obligations.ExpiredDelayActs : Prop :=
  ∀ (s : State) (i : RecId) (r : FadeRec) (x : RunEntry), s.Runs → s.Quiet → s.fades[i] = some r →
    r.fading = false → r.delayLeft = 0 → s.seq.pause = false → r.owner = .firing x.id →
    entryOf s x.id = some x → 0 < x.pending → x.placing = false → r.stopMark = none →
    let told : State := { setFade i none s with seq := s.seq.told x }
    ∃ t, exec (.delayExpiry i) s = .next t
      ∧ (∀ e target curve, r.content = .level e target curve →
          let a := (s.level e).orFloor e.floor
          let T := min (if a < target.orFloor e.floor then r.ownUp.getD r.upTime
            else r.ownDown.getD r.downTime) 600000
          let fade : FadeRec :=
            { r with fading := true, delayLeft := 0, start := a, time := T, elapsed := 0 }
          let cuts : Prop := curve = .cut ∨ T = 0
          (s.NotFading e →
            (cuts → State.EndsAs [.cue] { told with levels := s.levels.put e target } t)
            ∧ (¬ cuts → State.EndsAs [] { s with
                levels := s.levels.put e (.steps a), fades := s.fades.set i (some fade) } t))
          ∧ ∀ (j : RecId) (old : FadeRec), fadingOf s e (some i) = some j → s.fades[j] = some old →
            let areas := s.takeoverAreas j old
            let acts (q q' : Seq) : Prop :=
              (cuts → State.EndsAs (.cue :: areas) { s with
                seq := q', takenOver := min (s.takenOver + 1) 65535, voices := s.resumed j old
                levels := s.levels.put e target
                fades := (s.fades.set j none).set i none } t)
              ∧ (¬ cuts → State.EndsAs areas { s with
                seq := q, takenOver := min (s.takenOver + 1) 65535, voices := s.resumed j old
                levels := s.levels.put e (.steps a)
                fades := (s.fades.set j none).set i (some fade) } t)
            (old.owner = .request → acts s.seq (s.seq.told x))
            ∧ (old.owner = .firing x.id → 2 ≤ x.pending → acts (s.seq.told x)
                ((s.seq.told x).told { x with pending := x.pending - 1 }))
            ∧ ∀ y : RunEntry, old.owner = .firing y.id → y.id ≠ x.id → entryOf s y.id = some y →
                0 < y.pending → y.placing = false → acts (s.seq.told y) ((s.seq.told y).told x))
      ∧ (∀ g on, r.content = .relay g on → t.fades = told.fades ∧ t.seq = told.seq
          ∧ ∀ z : ZoneId, (s.zoneGroups[g].getLsbD z = true → t.zones[z].relay = on)
            ∧ (s.zoneGroups[g].getLsbD z = false → t.zones[z] = s.zones[z]))
      ∧ (∀ v n start loop, r.content = .play v n start loop →
          (∀ snd, judgeSound s s.mem n loop = .usable snd → (∀ c, s.voices[v].owner ≠ .call c) →
            let takes (w : State) : Prop := State.EndsAs [.cue, .voices] { w with
              voices := s.voices.set v (Voice.restarted s.voices[v] snd (.cue x.id)).request
              levels := s.levels.put (.voice v) start
              arb := s.playedArb v } t
            (s.NotFading (.voice v) → takes told)
            ∧ ∀ (j : RecId) (old : FadeRec), s.OwnStopOnly v → fadingOf s (.voice v) none = some j →
                s.fades[j] = some old →
                let after (q : Seq) : State := { s with
                  seq := q, takenOver := min (s.takenOver + 1) 65535
                  fades := (s.fades.set i none).set j none }
                (old.owner = .request → takes (after (s.seq.told x)))
                ∧ (old.owner = .firing x.id → 2 ≤ x.pending →
                    takes (after ((s.seq.told x).told { x with pending := x.pending - 1 })))
                ∧ ∀ y : RunEntry, old.owner = .firing y.id → y.id ≠ x.id → entryOf s y.id = some y →
                    0 < y.pending → y.placing = false → takes (after ((s.seq.told x).told y)))
          ∧ (∀ (snd : SoundCopy) (c : CallId) (k : CallInst) (p : PageId) (pg : Page),
              judgeSound s s.mem n loop = .usable snd → s.OwnStopOnly v → s.voices[v].owner = .call c →
              s.calls[c].inst = some k → k.page = some p → s.pages[p] = some pg → pg.opener = .call c →
              t.voices = s.voices.set v (Voice.restarted s.voices[v] snd (.cue x.id)).request
                ∧ t.level (.voice v) = start
                ∧ t.calls = upd s.calls c (fun y => { y with inst := none, outcome := .cut })
                ∧ t.cutCalls = sat16 s.cutCalls ∧ t.missedCalls = s.missedCalls
                ∧ t.pages = s.pages.set p none
                ∧ t.lastClosed = some { id := p, opener := .call c, reason := .call, time := s.tod }
                ∧ s.Captured callCell (callWords c true none k (.cue x.id)) 0 t ∧ s.CellsKept [callCell] t)
          ∧ (judgeSound s s.mem n loop = .unknown ∨ judgeSound s s.mem n loop = .empty →
            2 ≤ x.pending → State.EndsAs [.cue] { told with
              arb := (s.soundAsked n).arb
              seq := { s.seq with
                running := s.seq.running.map fun y => if y.id = x.id
                  then { y with pending := y.pending - 1, failed := y.failed + 1 } else y } } t))
      ∧ ∀ v time, r.content = .stop v time →
          let y := s.voices[v]
          let a := (s.level (.voice v)).orFloor (-480)
          let cuts (areas : List Area) (w : State) : Prop :=
            s.VoiceAlone v → State.EndsAs (.cue :: .voices :: areas) { w with
              voices := w.voices.set v (Voice.idled w.voices[v])
              fades := w.fades.set i none
              levels := s.levels.put (.voice v) .off
              arb := (staleBurst v s).arb } t
          let fades (areas : List Area) (w : State) : Prop :=
            let z := w.voices[v]
            State.EndsAs (.voices :: areas) { w with
              voices := w.voices.set v { z with
                state := .stopping
                resume := if z.state = .stopping then z.resume else z.state
                stopRec := some i }
              levels := s.levels.put (.voice v) (.steps a)
              fades := w.fades.set i (some { r with
                fading := true, content := .level (.voice v) .off .steps
                upTime := min time 600000, downTime := min time 600000
                ownUp := none, ownDown := none, start := a, time := min time 600000, elapsed := 0
                stopMark := some v }) } t
          (y.state = .idle → told.EndsAs [.cue] t)
          ∧ (y.state ≠ .idle → s.NotFading (.voice v) →
              (time = 0 → cuts [] { s with seq := s.seq.told x }) ∧ (0 < time → fades [] s))
          ∧ ∀ (j : RecId) (old : FadeRec), y.state ≠ .idle → fadingOf s (.voice v) (some i) = some j →
              s.fades[j] = some old →
              let acts (q q' : Seq) : Prop :=
                let w : State := { s with
                  takenOver := min (s.takenOver + 1) 65535, voices := s.resumed j old
                  fades := s.fades.set j none }
                w.voices[v].state ≠ .idle →
                  (time = 0 → cuts (s.takeoverAreas j old) { w with seq := q' })
                  ∧ (0 < time → fades (s.takeoverAreas j old) { w with seq := q })
              (old.owner = .request → acts s.seq (s.seq.told x))
              ∧ (old.owner = .firing x.id → 2 ≤ x.pending → acts (s.seq.told x)
                  ((s.seq.told x).told { x with pending := x.pending - 1 }))
              ∧ ∀ z : RunEntry, old.owner = .firing z.id → z.id ≠ x.id → entryOf s z.id = some z →
                  0 < z.pending → z.placing = false → acts (s.seq.told z) ((s.seq.told z).told x)

/-- A fade that has reached its time writes its target exactly and leaves the table; the owner is told: a cue's
pending count falls and at 0 the cue completes, with its FOLLOW_COMPLETE standby's follow armed, and a crossfade
leaves its tap ACTIVE at 0 or IDLE at OFF (6.1, 6.4, 2.4, 5.4). The end of a stop fade, of a request's or of a
cue's, that is its voice's stop record sends the voice to IDLE, of any other it is ignored; a SET_LEVEL, cut or
fade, that takes the stop over returns the voice to its resume state, with its owner told (6.8, 7.6); a cue's
LEVEL record that does so stands in ExpiredDelayActs. That start pending is cleared as a voice enters IDLE is the
model's choice (log 49). A call whose voice so enters IDLE, at the end of a stop fade, at a VOICE_STOP made as a cut
or at a STOP of time 0, ends with it, and the page on the voice closes VOICE_END: DONE when it was playing, MISSED,
VOICE_LOST, when it waited for its zones, the miss being handed to the CALL cell (7.6, 9.2, 9.4; codes: log 9; bits of
no field: log 41), after the answer of a VOICE_STOP, the model's choice (log 69). -/
def Obligations.CompletedFadeTellsItsOwner : Prop :=
  (∀ (s : State) (i : RecId) (r : FadeRec) (e : Elem) (target : Level) (curve : Curve), s.Runs →
    s.Quiet → s.fades[i] = some r → r.fading = true → r.time ≤ r.elapsed → frozen s r = false →
    r.content = .level e target curve →
    let u := setFade i none (setElem e target s)
    ∃ t, exec (.fadeComplete i) s = .next t
      ∧ (r.stopMark = none → r.owner = .request → u.EndsAs [] t)
      ∧ (∀ x : RunEntry, r.stopMark = none → r.owner = .firing x.id → entryOf s x.id = some x →
          0 < x.pending → x.placing = false → State.EndsAs [.cue] { u with seq := s.seq.told x } t)
      ∧ (∀ (ro : RoleId) (k : TapId), r.stopMark = none → r.owner = .cast → e = .tap ro k →
          (target = .off → State.EndsAs [.roles] { u with
              roles := upd s.roles ro fun x => { x with taps := x.taps.set k .idle } } t)
          ∧ (target ≠ .off → State.EndsAs [.roles] { setElem e (.steps 0) u with
              roles := upd s.roles ro fun x => { x with taps := x.taps.set k .active } } t))
      ∧ ∀ v : VoiceId, r.stopMark = some v →
          let stops (areas : List Area) (w : State) : Prop :=
            (s.voices[v].state ≠ .idle → s.voices[v].stopRec = some i → s.VoiceAlone v →
              State.EndsAs (.voices :: areas) { w with
                voices := s.voices.set v (Voice.idled s.voices[v]), arb := (staleBurst v s).arb } t)
            ∧ (s.voices[v].state = .idle ∨ s.voices[v].stopRec ≠ some i → w.EndsAs areas t)
          (r.owner = .request → stops [] u)
          ∧ ∀ x : RunEntry, r.owner = .firing x.id → entryOf s x.id = some x → 0 < x.pending →
              x.placing = false → stops [.cue] { u with seq := s.seq.told x })
    ∧ (∀ (s : State) (v : VoiceId) (c : CallId) (i : CallInst) (p : PageId) (pg : Page) (cmd : Instr),
        s.Runs → s.Quiet → s.CallAlone c v (some p) → s.calls[c].cfg.voice = v →
        s.calls[c].inst = some i → i.phase ≠ .waitVoice → s.pages[p] = some pg → pg.source = .voice v →
        pg.opener = .call c → s.voices[v].state ≠ .idle →
        (cmd = .voiceStop v.val 0 ∧ s.Takes (.voiceStop v.val 0) ∧ s.NotFading (.voice v))
          ∨ (∃ (j : RecId) (r : FadeRec) (target : Level) (curve : Curve), cmd = .fadeComplete j
              ∧ s.fades[j] = some r ∧ r.fading = true ∧ r.time ≤ r.elapsed ∧ frozen s r = false
              ∧ r.content = .level (.voice v) target curve ∧ r.stopMark = some v
              ∧ s.voices[v].stopRec = some j)
          ∨ (∃ (j : RecId) (r : FadeRec), cmd = .delayExpiry j ∧ s.fades[j] = some r ∧ r.fading = false
              ∧ r.delayLeft = 0 ∧ frozen s r = false ∧ r.content = .stop v 0 ∧ s.NotFading (.voice v)) →
        ∃ t, exec cmd s = .next t ∧ t.voices = s.voices.set v (Voice.idled s.voices[v])
          ∧ t.calls = upd s.calls c (fun x => { x with
              inst := none
              outcome := if i.phase = .playing then .done false else .missed .voiceLost })
          ∧ t.missedCalls = (if i.phase = .playing then s.missedCalls else sat16 s.missedCalls)
          ∧ t.cutCalls = s.cutCalls ∧ t.pages = s.pages.set p none
          ∧ t.lastClosed = some { id := p, opener := .call c, reason := .voiceEnd, time := s.tod }
          ∧ (∀ z : ZoneId, (pg.zones.getLsbD z = true → t.zones[z].page = none)
              ∧ (pg.zones.getLsbD z = false → t.zones[z] = s.zones[z]))
          ∧ (i.phase = .playing → t.cells = s.cells)
          ∧ (i.phase = .waitZones → s.CellsKept [callCell] t
              ∧ s.Captured callCell (callWords c false (some .voiceLost) i .none) 2 t))
    ∧ ∀ (s : State) (v : VoiceId) (i : RecId) (r : FadeRec) (x : BitVec 16) (time : Nat)
        (k : Curve) (target : Level) (curve : Curve),
        let ref : ElemRef := { kind := some .voice, index := v.val }
        s.Takes (.setLevel ref x time (some k)) → fadingOf s (.voice v) none = some i →
        fadingOf s (.voice v) (some i) = none → s.fades[i] = some r →
        r.content = .level (.voice v) target curve → r.stopMark = some v →
        s.voices[v].stopRec = some i → s.voices[v].state = .stopping →
        let level := levelOfField x
        let a := (s.level (.voice v)).orFloor (-480)
        let resumes (areas : List Area) (owner : OwnerKind) (serial : Nat) (q : Seq) (t : State) : Prop :=
          let w : State := { s with
            seq := q, takenOver := min (s.takenOver + 1) 65535
            voices := s.voices.set v { s.voices[v] with
              state := s.voices[v].resume, stopRec := none } }
          let answer (how : SetHow) (after : Level) : Answer :=
            { code := .ok
              words := wordsOf (Config.code (.setHow how)) (Config.levelWord after)
                (Config.code (.owner owner)) (wordOf serial) }
          (k = .cut ∨ time = 0 → State.Answered areas { w with
              fades := s.fades.set i none, levels := s.levels.put (.voice v) level }
            (answer .set level) t)
          ∧ (k = .steps → 0 < time → State.Answered areas { w with
              fades := s.fades.set i
                (some (.begun .request (.voice v) level a (min time 600000) none))
              levels := s.levels.put (.voice v) (.steps a) } (answer .fading (.steps a)) t)
        ∃ t, exec (.setLevel ref x time (some k)) s = .next t
          ∧ (r.owner = .request → resumes [.voices] .request 0 s.seq t)
          ∧ ∀ y : RunEntry, r.owner = .firing y.id → entryOf s y.id = some y → 0 < y.pending →
              y.placing = false → resumes [.cue, .voices] .cue y.id.serial (s.seq.told y) t

/-! ## Voices, zones and calls -/

/-- When the last frame of a sound played once has been played the voice enters IDLE, its buffer emptied, its
burst discarded and its owner NONE; its signal stands for this frame (7.5). A call that was playing it ends DONE,
and the page it opened closes VOICE_END (9.2, 9.4). That its start pending is cleared is the model's choice (log
49). -/
def Obligations.PlayedOutVoiceEntersIdle : Prop :=
  ∀ (s : State) (v : VoiceId), s.Runs → s.Quiet → s.voices[v].state = .playing →
    s.voices[v].sound.looping = false → s.voices[v].sound.count ≤ s.voices[v].playPos →
    let idle : Voice := { s.voices[v].idled with signal := s.voices[v].signal }
    ∃ t, exec (.endOfSound v) s = .next t
      ∧ (s.VoiceAlone v → State.EndsAs [.voices] { s with
          voices := s.voices.set v idle, arb := (staleBurst v s).arb } t)
      ∧ ∀ (c : CallId) (i : CallInst) (p : PageId) (pg : Page), s.CallAlone c v (some p) →
          s.calls[c].inst = some i → i.phase = .playing → i.page = some p → s.pages[p] = some pg →
          pg.source = .voice v → pg.opener = .call c →
          t.voices = s.voices.set v idle
            ∧ t.calls = upd s.calls c (fun x => { x with inst := none, outcome := .done false })
            ∧ t.pages = s.pages.set p none
            ∧ t.lastClosed = some { id := p, opener := .call c, reason := .voiceEnd, time := s.tod }
            ∧ (∀ z : ZoneId, (pg.zones.getLsbD z = true → t.zones[z].page = none)
                ∧ (pg.zones.getLsbD z = false → t.zones[z] = s.zones[z]))
            ∧ t.cells = s.cells ∧ t.missedCalls = s.missedCalls

/-- The power sequence of a zone (8.4, 8.5): POWERING ends in CHECKING or LIVE, AMP_OK ends CHECKING in LIVE, the
idle timer being started when there is no demand; the sample window and a hundred false ticks end in FAULT, latched
and captured; the idle timer, which counts frames (1.1), ends in OFF, the false-run count being 0 then, the model's
choice (log 63). A tick's AMP_OK is read before its events (log 60). A page loses a zone that enters FAULT: it closes
NO_ZONES when it holds no other, and is LIVE when the rest are (8.5, 9.2). That the relay flag of the ZONE cell is 1
for ON is the model's choice (log 43). Where a zone that becomes LIVE, from POWERING or from CHECKING, was the last
of its page's zones to do so, the page becomes LIVE. A call whose page becomes LIVE while it waits for its zones
plays: its voice starts, or will when it is primed (9.2, 9.4). One whose page closes releases its voice: it is
MISSED, PAGE_CLOSED, where it waited, which is handed to the CALL cell, and else DONE (9.4; codes: log 9; bits of no
field: log 41). That a STOPPING voice's new resume state hands the voices area over (log 50), and that the released
voice's stop record and start pending are cleared (log 49), are the model's choices. -/
def Obligations.ZoneRunsItsPowerSequence : Prop :=
  (∀ (s : State) (z : ZoneId), s.Runs → s.Quiet →
    let x := s.zones[z]
    let becomes (y : Zone) (t : State) : Prop := State.EndsAs [.zones] { s with zones := s.zones.set z y } t
    let live : Zone := { x with
      state := .live, falseRun := 0
      timer := if x.relay = true ∨ x.cfg.idle = 0 ∨ x.cfg.stability = 255 then none
        else some (48 * (1000 * x.cfg.idle)) }
    let faulted (cause : ZoneFaultCause) (prior : ZoneState) (t : State) : Prop :=
      State.EndsAs [.zones]
        (captureEvent zoneCell
          [wordOf z.val, Config.code (.zoneCause cause), Config.code (.zoneState prior), 4#32,
            wordOf (bitOf x.relay)] { s with
          zones := s.zones.set z { x with
            state := .fault, ampen := false, timer := none, faults := min (x.faults + 1) 65535
            duck := x.duck.command 0 (rampFrames s x.cfg.duckRamp) }
          notice := { s.notice with
            zone := s.notice.zone || !(x.cfg.faultMask || s.header.zoneMask) } }) t
    (x.state = .powering → x.timer = some 0 → ∃ t, exec (.stabilityWindowExpiry z) s = .next t
        ∧ (x.cfg.sample ≠ 0 → x.cfg.sample ≠ 255 →
            becomes { x with state := .checking, timer := some (10 * x.cfg.sample) } t)
        ∧ (x.page = none → x.cfg.sample = 0 ∨ x.cfg.sample = 255 → becomes live t))
    ∧ (x.page = none → x.state = .checking → s.clock.tickOpen = true → x.ampOk = true →
        ∃ t, exec (.ampOkTrue z) s = .next t ∧ becomes live t)
    ∧ (x.page = none → x.state = .checking → x.timer = some 0 → x.ampOk = false →
        ∃ t, exec (.sampleWindowExpiry z) s = .next t ∧ faulted .sampleTimeout .checking t)
    ∧ (x.page = none → x.state = .live → x.cfg.sample ≠ 255 → 100 ≤ x.falseRun →
        ∃ t, exec (.ampDrop z) s = .next t ∧ faulted .ampDrop .live t)
    ∧ (x.state = .live → x.timer = some 0 → ∃ t, exec (.idleTimerExpiry z) s = .next t
        ∧ becomes { x with state := .off, ampen := false, timer := none, falseRun := 0 } t))
    ∧ (∀ (s : State) (z : ZoneId) (p : PageId) (pg : Page) (cmd : Instr) (cause : ZoneFaultCause)
        (prior : ZoneState), s.Runs → s.Quiet →
        s.zones[z].page = some p → s.pages[p] = some pg → pg.zones.getLsbD z = true →
        (cmd = .sampleWindowExpiry z ∧ s.zones[z].state = .checking ∧ s.zones[z].timer = some 0
            ∧ s.zones[z].ampOk = false ∧ cause = .sampleTimeout ∧ prior = .checking)
          ∨ (cmd = .ampDrop z ∧ s.zones[z].state = .live ∧ s.zones[z].cfg.sample ≠ 255
            ∧ 100 ≤ s.zones[z].falseRun ∧ cause = .ampDrop ∧ prior = .live) →
        let x := s.zones[z]
        let left : List ZoneId := (List.finRange 24).filter fun y => y != z && pg.zones.getLsbD y
        let allLive : Prop := ∀ y ∈ left, s.zones[y].state = .live
        let faulted : State :=
          captureEvent zoneCell
            [wordOf z.val, Config.code (.zoneCause cause), Config.code (.zoneState prior),
              wordOf p.val, wordOf (bitOf x.relay)] { s with
            zones := s.zones.set z { x with
              state := .fault, ampen := false, timer := none, faults := min (x.faults + 1) 65535
              page := none, pageHold := Gate.setTo (!x.held)
              duck := x.duck.command 0 (rampFrames s x.cfg.duckRamp) }
            pages := s.pages.set p (if left = [] then none else some { pg with
              zones := pg.zones &&& ~~~(BitVec.ofNat 24 (2 ^ z.val))
              state := if allLive then .live else pg.state })
            lastClosed := if left = []
              then some { id := p, opener := pg.opener, reason := .noZones, time := s.tod }
              else s.lastClosed
            notice := { s.notice with
              zone := s.notice.zone || !(x.cfg.faultMask || s.header.zoneMask) } }
        ∃ t, exec cmd s = .next t
          ∧ (pg.opener = .request → faulted.EndsAs [.zones, .pages] t)
          ∧ ∀ (c : CallId) (i : CallInst), pg.opener = .call c → s.calls[c].inst = some i →
              i.phase ≠ .waitVoice → i.page = some p → s.CallAlone c s.calls[c].cfg.voice (some p) →
              s.voices[s.calls[c].cfg.voice].state ≠ .idle →
              let v := s.calls[c].cfg.voice
              let released (u : State) (o : CallOutcome) : State := { u with
                calls := upd s.calls c fun y => { y with inst := none, outcome := o }
                voices := upd s.voices v Voice.idled
                arb := (staleBurst v s).arb }
              let begins : Prop := pg.state = .opened ∧ allLive ∧ i.phase = .waitZones
              (left = [] → i.phase = .waitZones → State.EndsAs [.zones, .pages, .voices]
                  (captureEvent callCell (callWords c false (some .pageClosed) i .none)
                    { released faulted (.missed .pageClosed) with missedCalls := sat16 s.missedCalls }) t)
              ∧ (left = [] → i.phase = .playing →
                  (released faulted (.done true)).EndsAs [.zones, .pages, .voices] t)
              ∧ (left ≠ [] → ¬ begins → faulted.EndsAs [.zones, .pages] t)
              ∧ (left ≠ [] → begins → State.EndsAs
                  ([.zones, .pages]
                    ++ if s.voices[v].state = .primed ∨ s.voices[v].state = .stopping then [.voices] else [])
                  { faulted with
                    calls := upd s.calls c fun y => { y with inst := some { i with phase := .playing } }
                    voices := upd s.voices v Voice.started } t))
    ∧ ∀ (s : State) (z : ZoneId) (p : PageId) (pg : Page) (cmd : Instr), s.Runs → s.Quiet →
        (cmd = .ampOkTrue z ∧ s.zones[z].state = .checking ∧ s.clock.tickOpen = true
            ∧ s.zones[z].ampOk = true)
          ∨ (cmd = .stabilityWindowExpiry z ∧ s.zones[z].state = .powering ∧ s.zones[z].timer = some 0
            ∧ (s.zones[z].cfg.sample = 0 ∨ s.zones[z].cfg.sample = 255)) →
        s.zones[z].page = some p → s.pages[p] = some pg →
        let u := { s with
          zones := s.zones.set z { s.zones[z] with state := .live, falseRun := 0, timer := none } }
        let others := ∀ y : ZoneId, y ≠ z → pg.zones.getLsbD y = true → s.zones[y].state = .live
        let w := { u with pages := s.pages.set p (some { pg with state := .live }) }
        ∃ t, exec cmd s = .next t
          ∧ (pg.state = .live ∨ ¬ others → u.EndsAs [.zones] t)
          ∧ (pg.state = .opened → others → pg.opener = .request → w.EndsAs [.zones, .pages] t)
          ∧ (∀ c : CallId, pg.state = .opened → others → pg.opener = .call c →
              (s.calls[c].inst.map (·.phase)) ≠ some .waitZones → w.EndsAs [.zones, .pages] t)
          ∧ ∀ (c : CallId) (i : CallInst), pg.state = .opened → others → pg.opener = .call c →
              s.calls[c].inst = some i → i.phase = .waitZones →
              let v := s.calls[c].cfg.voice
              s.voices[v].owner = .call c →
              State.EndsAs
                ([.zones, .pages]
                  ++ if s.voices[v].state = .primed ∨ s.voices[v].state = .stopping then [.voices] else [])
                { w with
                  calls := upd s.calls c fun x => { x with inst := some { i with phase := .playing } }
                  voices := upd s.voices v Voice.started } t

/-- At a second rollover of a LOADED engine the enabled calls are compared (9.3): with none matching, and
with the engine in any other state, only the rollover is taken; a match on a running instance is counted
as overlapped; a match without one is a firing, which counts down the repeat, clears the flag of a call
without chime at 0, and starts an instance that waits for a busy voice. The fields compared go by the mask
level. That the sound record is read then and there, its turn being asked for, is the model's choice
(log 15). -/
def Obligations.RolloverFiresTheMatchingCall : Prop :=
  (∀ (k : CallCfg) (d : TimeOfDay), k.matchesAt d = true ↔ d.seconds = k.seconds
      ∧ (k.maskLevel = .every10Min → d.minutes % 10 = k.minutes % 10)
      ∧ (k.maskLevel = .everyHour ∨ k.maskLevel = .everyDay ∨ k.maskLevel = .everyWeek →
          d.minutes = k.minutes)
      ∧ (k.maskLevel = .everyDay ∨ k.maskLevel = .everyWeek → d.hours = k.hours)
      ∧ (k.maskLevel = .everyWeek → d.day = k.day))
    ∧ ∀ s : State, s.Runs → s.Quiet → s.rollover = true →
    let hit (c : CallId) : Prop := s.calls[c].enabled = true ∧ s.calls[c].cfg.matchesAt s.tod = true
    let u := { s with rollover := false }
    ∃ t, exec .secondRollover s = .next t
      ∧ (s.engine ≠ .loaded ∨ (∀ c, ¬ hit c) → u.EndsAs [.pages] t)
      ∧ ∀ c : CallId, s.engine = .loaded → hit c → (∀ d, d ≠ c → ¬ hit d) →
          (s.calls[c].inst ≠ none →
              State.EndsAs [.pages] { u with overlapped := min (s.overlapped + 1) 65535 } t)
          ∧ ∀ snd, s.calls[c].inst = none →
              judgeSound s s.mem s.calls[c].cfg.sound false = .usable snd →
              s.voices[s.calls[c].cfg.voice].state ≠ .idle → 0 < s.calls[c].cfg.patience →
              let n := s.calls[c].remaining - 1
              let chime := s.calls[c].cfg.chime
              State.EndsAs [.pages] { u with
                arb := (s.soundAsked s.calls[c].cfg.sound).arb
                calls := upd s.calls c fun x => { x with
                  remaining := if n = 0 ∧ chime = true then 255 else n
                  enabled := if n = 0 ∧ chime = false then false else x.enabled
                  inst := some
                    { phase := .waitVoice, patience := x.cfg.patience * 1000, page := none,
                      started := s.tod, byCallNow := false } } } t

/-! ## The mirror and time -/

/-- An offer is discarded before the first install, accepted whole while fewer than 16 bursts are queued,
its count burst last, and else dropped, the area pending and the lag raised (10.2). Every mirror burst
writes whole words within the 4000h bytes from its base; where they lie, and how many an area takes, is
free (log 14). A 50 ms tick offers the meters: an accepted offer writes the largest magnitude since the last,
the frame in progress counted in (log 46), and clears the peaks. At the end of an event (log 30) each
area it marked is offered, in the order of the table, and no other: its count rises, or it is pending. Which areas
an event marks stands in the event's own statement (`EndsAs`). A level that changes marks its block. A 20 ms tick
offers the areas of which something runs or has changed as their own rules say (1.7, 2.6, 4.5, 5.11, 6.10, 7.8,
8.8, 9.6) and every area pending, the meters not where a 50 ms tick falls with it, each in its turn: one that
finds fewer than 16 bursts queued has its count raised and is pending no more; with a full queue each area it
offers is pending after, and the queue as it was. That the counters, the last, are offered at the same tick for a lag
that its drops have raised is the model's choice (log 70). -/
def Obligations.MirrorOffersAreWholeOrDropped : Prop :=
  (∀ (s : State) (a : Area) (base : Nat),
    (s.mirror.base = none → offer a s = s)
      ∧ (s.mirror.base = some base → s.wq.queue.length < 16 →
          let n := (s.mirror.areas[a.index].count + 1) % 65536
          (offer a s).wq.queue
              = s.wq.queue ++ dataBursts s base a ++ [.mirrorCount base a n]
            ∧ (offer a s).mirror.areas[a.index].count = n
            ∧ (offer a s).mirror.areas[a.index].pending = false
            ∧ (offer a s).mirror.lag = s.mirror.lag)
      ∧ (s.mirror.base = some base → 16 ≤ s.wq.queue.length →
          (offer a s).wq = s.wq ∧ (offer a s).mirror.areas[a.index].pending = true
            ∧ (offer a s).mirror.areas[a.index].count = s.mirror.areas[a.index].count
            ∧ (offer a s).mirror.lag = min (s.mirror.lag + 1) 65535
            ∧ (offer a s).mirror.peaks = s.mirror.peaks)
      ∧ (∀ k d w, w ∈ (Burst.mirrorData base a k d).words →
          base ≤ w.1 ∧ w.1 + 4 ≤ base + 0x4000 ∧ w.1 % 4 = 0)
      ∧ ∀ n, ∃ at', (Burst.mirrorCount base a n).words = [(at', wordOf n)]
          ∧ base ≤ at' ∧ at' + 4 ≤ base + 0x4000)
    ∧ (∀ s : State,
      let pending (a : Area) : Prop := s.mirror.areas[a.index].pending = true
      let last (a : Area) : Option AreaData := s.mirror.areas[a.index].last
      (offeredAtTick s .engine = true ↔ pending .engine)
        ∧ (offeredAtTick s .cue = true ↔ (s.seq.follow ≠ none ∧ s.seq.pause = false) ∨ pending .cue)
        ∧ (offeredAtTick s .channels = true
          ↔ (∃ c : Channel, s.channels[c].gate.ramp ≠ none) ∨ pending .channels)
        ∧ (offeredAtTick s .roles = true ↔ (∃ rs carriers, last .roles = some (.roles rs carriers)
            ∧ rs.map (·.clips) ≠ s.roles.toList.map (·.clips)) ∨ pending .roles)
        ∧ (offeredAtTick s .mixes = true ↔ (∃ m : MixId, s.mixes[m].gate.ramp ≠ none)
          ∨ (∃ ms lines, last .mixes = some (.mixes ms lines)
            ∧ ms.map (·.clips) ≠ s.mixes.toList.map (·.clips)) ∨ pending .mixes)
        ∧ (offeredAtTick s .zones = true
          ↔ (∃ z : ZoneId, s.zones[z].duck.ramp ≠ none ∨ s.zones[z].relayHold.ramp ≠ none
              ∨ s.zones[z].pageHold.ramp ≠ none ∨ s.zones[z].timer ≠ none)
          ∨ (∃ zs, last .zones = some (.zones zs)
            ∧ zs.map (·.clips) ≠ s.zones.toList.map (·.clips)) ∨ pending .zones)
        ∧ (offeredAtTick s .pages = true
          ↔ (∃ (p : PageId) (g : Page), s.pages[p] = some g ∧ g.limit ≠ none)
          ∨ (∃ (c : CallId) (i : CallInst), s.calls[c].inst = some i ∧ i.phase ≠ .playing)
          ∨ pending .pages)
        ∧ (offeredAtTick s .voices = true
          ↔ (∃ v : VoiceId, s.voices[v].state ≠ .idle) ∨ pending .voices)
        ∧ (offeredAtTick s .levels = true
          ↔ (∃ b : Fin 25, s.mirror.dirty[b] = true) ∨ pending .levels)
        ∧ (offeredAtTick s .meters = true ↔ pending .meters ∧ s.clock.ticks % 50 ≠ 0)
        ∧ (offeredAtTick s .counters = true ↔ s.mirror.inUseChanged = true
          ∨ last .counters ≠ some (.counters
            { guarded := s.seq.guarded, takenOver := s.takenOver
              inUse := (s.fades.toList.filter Option.isSome).length, overlapped := s.overlapped
              missedCalls := s.missedCalls, cutCalls := s.cutCalls, lag := s.mirror.lag })
          ∨ pending .counters)
        ∧ (s.notes = [] → State.EndsAs s.marks s (finish s))
        ∧ ∀ (e : Elem) (x : Level), s.level e ≠ x →
          (setElem e x s).mirror.dirty = s.mirror.dirty.set e.block true)
    ∧ (∀ (as : List Area) (s t : State), State.EndsAs as s t →
      (s.mirror.base = none → t.wq.queue = s.wq.queue ∧ t.mirror.areas = s.mirror.areas)
        ∧ ∀ base, s.mirror.base = some base → ∀ a : Area,
          (a ∉ as → t.mirror.areas[a.index] = s.mirror.areas[a.index])
          ∧ (a ∈ as → s.HandedOver base a t)
          ∧ (a ∈ as → s.wq.queue.length < 16 → (∀ b ∈ as, a.index ≤ b.index) →
              t.mirror.areas[a.index].pending = false)
          ∧ (a ∈ as → 16 ≤ s.wq.queue.length → t.mirror.areas[a.index].pending = true))
    ∧ ∀ (s : State) (base : Nat), s.Runs → s.Quiet → s.mirror.base = some base →
      (s.mirror.metersDue = true →
        let slots := formedSlots s
        let peak (i : Fin 128) : Nat :=
          if s.mirror.peaksSkip then s.mirror.peaks[i]
          else max s.mirror.peaks[i] (if h : i.val < 64 then s.channels[i.val].sample.toInt.natAbs
            else (slots[i.val - 64]'(by omega)).toInt.natAbs)
        ∃ t, exec .metersTick s = .next t ∧ t.mirror.metersDue = false
          ∧ (s.wq.queue.length < 16 → t.mirror.peaks = Vector.replicate 128 0
              ∧ (∀ b ∈ t.wq.queue.drop s.wq.queue.length, ∀ B a k d, b = .mirrorData B a k d →
                  a = .meters ∧ d = .meters ((List.finRange 128).map peak))
              ∧ t.mirror.areas[(9 : Fin 11)].count = (s.mirror.areas[(9 : Fin 11)].count + 1) % 65536
              ∧ t.mirror.areas[(9 : Fin 11)].pending = false)
          ∧ (16 ≤ s.wq.queue.length → t.mirror.peaks = s.mirror.peaks ∧ t.wq.queue = s.wq.queue
              ∧ t.mirror.areas[(9 : Fin 11)].pending = true
              ∧ t.mirror.lag = min (s.mirror.lag + 1) 65535)
          ∧ t.voices = s.voices ∧ t.zones = s.zones ∧ t.mem = s.mem)
      ∧ (s.mirror.levelsDue = true → ∃ t, exec .mirrorTick s = .next t ∧ t.mirror.levelsDue = false
          ∧ (16 ≤ s.wq.queue.length → t.wq.queue = s.wq.queue
              ∧ (∀ a : Area, s.mirror.areas[a.index].pending = true →
                  t.mirror.areas[a.index].pending = true)
              ∧ (∀ a : Area, offeredAtTick s a = true →
                  (∀ k, a = .counters → s.mirror.areas[(10 : Fin 11)].last = some (.counters k) →
                    k.lag ≤ s.mirror.lag) →
                  t.mirror.areas[a.index].pending = true)
              ∧ ∀ a : Area, t.mirror.areas[a.index].count = s.mirror.areas[a.index].count)
          ∧ (s.wq.queue = [] → s.mirror.areas[(0 : Fin 11)].pending = true →
              t.mirror.areas[(0 : Fin 11)].pending = false
              ∧ t.mirror.areas[(0 : Fin 11)].count
                  = (s.mirror.areas[(0 : Fin 11)].count + 1) % 65536)
          ∧ (∀ a : Area,
              let turn := s.turnAtTick a
              let old := s.mirror.areas[a.index]
              let new := t.mirror.areas[a.index]
              let n := (old.count + 1) % 65536
              (a ≠ .counters → offeredAtTick turn a = offeredAtTick s a)
              ∧ (offeredAtTick turn a = false → new = old)
              ∧ (offeredAtTick turn a = true → turn.wq.queue.length < 16 →
                  new.count = n ∧ new.pending = false ∧ .mirrorCount base a n ∈ t.wq.queue)
              ∧ (offeredAtTick turn a = true → 16 ≤ turn.wq.queue.length →
                  new.count = old.count ∧ new.pending = true))
          ∧ t.voices = s.voices ∧ t.zones = s.zones ∧ t.mem = s.mem)

/-- The sums of a frame (3.1, 3.3 to 3.7, 4.3): a contribution is 0 for OFF or a sum below −480 and else the gain
at the sum capped; a total is held to 24 bits; each stage adds the contributions of its taps, sends or feeds. A
voice plays out, underruns or is silent (7.5). With nothing due and the frame's tick not to come, a frame of the
sample clock sends the frame formed from the state as it stands, the transmit count rising by 1, and begins the
next (1.2, 1.3): clips are counted, the presented frames read (1.5), gates (3.9), voices and the timers of
channels and LIVE zones moved on by a frame (1.1, 1.5, 8.4), the peaks of the channels as presented and of the
slots as sent raised, but in a frame in which they were handed over (10.2; log 46), a link on which no frame
completed counts a bad one, the fourth of a run unlocking it (1.2; in which frame, log 64), and the edges of the
GO and trigger lines counted until they are taken (5.6, 5.7; log 33). That a frame is formed at its end, from the
state as it then stands, is the model's choice (log 4), and so are that a frame whose tick is due stands still
(log 6), which timers count frames (log 7) and that the presented frames are read as a frame begins (log 68). -/
def Obligations.SampleFrameIsSentAndBegun : Prop :=
  (∀ (x : Sample) (terms : List Level) (ceiling : Int),
    (Level.off ∈ terms → contribution x terms ceiling = 0)
      ∧ ∀ ns : List Int, terms = ns.map Level.steps →
        (ns.sum < -480 → contribution x terms ceiling = 0)
        ∧ (-480 ≤ ns.sum → contribution x terms ceiling = gain x.toInt (min ns.sum ceiling)))
    ∧ (∀ n : Int, (saturate n).1.toInt = max (-8388608) (min 8388607 n)
        ∧ ((saturate n).2 = true ↔ n < -8388608 ∨ 8388607 < n))
    ∧ (∀ s : State,
      let roles := roleSignals s
      let mixes := mixOutputs s roles
      let signal (src : SourceId) : Sample :=
        if h : src.val < 96 then roles[src.val].1 else (s.voices[src.val - 96]'(by omega)).signal
      let group (src : SourceId) : Option GroupId :=
        if h : src.val < 96 then s.roles[src.val].cfg.group
        else s.voiceGroups[src.val - 96]'(by omega)
      let level (src : SourceId) : Level :=
        if h : src.val < 96 then s.level (.role ⟨src.val, h⟩)
        else s.level (.voice ⟨src.val - 96, by omega⟩)
      (∀ r : RoleId, roles[r] = saturate (∑ k : TapId,
          if s.roles[r].taps[k] = .idle then 0
          else match s.roles[r].cfg.taps[k] with
            | none => 0
            | some c => contribution s.channels[c].sample
                [s.level (.tap r k), s.channels[c].gate.value] 0))
      ∧ (∀ m : MixId, mixes[m] = saturate (∑ i : SendId,
          if s.mixes[m].cfg.first ≤ i.val ∧ i.val < s.mixes[m].cfg.first + s.mixes[m].cfg.count
            ∧ s.sends[i].on = true then
            contribution (signal s.sends[i].source)
              ([level s.sends[i].source] ++ ((group s.sends[i].source).map fun g =>
                  s.level (.group g)).toList
                ++ [s.level (.send i), s.level (.master m), s.mixes[m].gate.value])
              (if s.mixes[m].cfg.kind = .foldback then s.mixes[m].cfg.ceiling else 48)
          else 0))
      ∧ ∀ z : ZoneId,
          let y := s.zones[z]
          let relay : Int := match y.cfg.relayMix with
            | none => 0
            | some m => if y.relay then
                contribution mixes[m].1 [s.level (.zone z), y.duck.value, y.relayHold.value] 48
              else 0
          let page : Int := match y.page.bind fun p => s.pages[p] with
            | none => 0
            | some g => match g.source with
              | .channel c => contribution s.channels[c].sample
                  [g.level, y.pageHold.value, s.channels[c].gate.value] 48
              | .voice v => contribution s.voices[v].signal [g.level, y.pageHold.value] 48
          (zoneOutputs s mixes)[z] = if y.state = .live then saturate (relay + page) else (0#24, false))
    ∧ (∀ x : Voice,
      let plays : Prop := x.state = .playing ∨ (x.state = .stopping ∧ x.resume = .playing)
      (¬ plays → x.frame = { x with signal := 0#24, underran := false })
        ∧ (plays → x.buffer = [] → x.frame = { x with
            signal := 0#24, underruns := min (x.underruns + 1) 65535, underran := true })
        ∧ ∀ y l, plays → x.buffer = y :: l → x.frame = { x with
            signal := y, buffer := l, underran := false
            playPos := if x.sound.looping = true ∧ x.playPos + 1 = x.sound.loopEnd
              then x.sound.loopStart else x.playPos + 1 })
    ∧ (∀ (s : State) (go : Bool) (trig : BitVec 4), s.Runs → s.TickIsDue →
        exec (.sampleFrame go trig) s = .next s)
    ∧ (∀ (s : State) (go : Bool) (trig : BitVec 4) (l : Link), s.Runs → s.Quiet →
        s.clock.sinceTick < 48 → settle s = s → s.rx[l].completed = false → s.rx[l].locked = true →
        s.rx[l].bad = 3 →
        ∃ t, exec (.sampleFrame go trig) s = .next t
          ∧ t.rx[l] = { s.rx[l] with
              locked := false, good := 0, bad := 0, presented := .silent, completed := false }
          ∧ ∀ c : Channel, linkOf c = l → t.channels[c].state
              = if s.channels[c].state = .unused then .unused else .lost)
    ∧ ∀ (s : State) (go : Bool) (trig : BitVec 4), s.Runs → s.Quiet → s.clock.sinceTick < 48 →
    settle s = s →
    (∀ l : Link, s.rx[l].lockDue = false ∧ s.rx[l].unlockDue = false
      ∧ (s.rx[l].completed = false → s.rx[l].locked = true → s.rx[l].bad ≠ 3)) →
    let roles := roleSignals s
    let mixes := mixOutputs s roles
    let zones := zoneOutputs s mixes
    let silent : Prop := s.engine = .stopped
      ∨ (s.engine = .loading ∧ s.load.map (·.origin) = some .stopped)
    ∃ t, exec (.sampleFrame go trig) s = .next t ∧ t.txCount = s.txCount + 1#8
      ∧ (∀ l : Link, t.rx[l] = { s.rx[l] with
          completed := false
          bad := if s.rx[l].completed = false ∧ s.rx[l].locked = true then min (s.rx[l].bad + 1) 4
            else s.rx[l].bad
          good := if s.rx[l].completed = false ∧ s.rx[l].locked = false then 0 else s.rx[l].good })
      ∧ (∀ l : Link, t.tx[l][0] = (0x5A3C96#24 ++ s.txCount : BitVec 32) ∧ t.tx[l][17] = 0#32
          ∧ ∀ k : Fin 16,
              let slot : Fin 64 := ⟨16 * l.val + k.val, by omega⟩
              (silent → t.tx[l][k.val + 1] = 0#32)
              ∧ (¬ silent → t.tx[l][k.val + 1] = ((match s.outMap[slot] with
                  | .none => 0#24
                  | .mix m => mixes[m].1
                  | .zone z => zones[z].1) ++ 0#8 : BitVec 32)))
      ∧ (∀ r : RoleId, t.roles[r] = { s.roles[r] with
          clips := if roles[r].2 then min (s.roles[r].clips + 1) 65535 else s.roles[r].clips })
      ∧ (∀ m : MixId, t.mixes[m] = { s.mixes[m] with
          clips := if mixes[m].2 then min (s.mixes[m].clips + 1) 65535 else s.mixes[m].clips
          gate := s.mixes[m].gate.advance
          rested := s.mixes[m].gate.advance.rested
          renewed := false })
      ∧ (∀ z : ZoneId, t.zones[z] = { s.zones[z] with
          clips := if zones[z].2 then min (s.zones[z].clips + 1) 65535 else s.zones[z].clips
          duck := s.zones[z].duck.advance
          relayHold := s.zones[z].relayHold.advance
          pageHold := s.zones[z].pageHold.advance
          timer := if s.zones[z].state = .live then s.zones[z].timer.map (· - 1)
            else s.zones[z].timer })
      ∧ t.mirror.peaksSkip = false
      ∧ (s.mirror.peaksSkip = true → t.mirror.peaks = s.mirror.peaks)
      ∧ (s.mirror.peaksSkip = false →
          (∀ c : Channel, t.mirror.peaks[c.val]
            = max s.mirror.peaks[c.val] s.channels[c].sample.toInt.natAbs)
          ∧ ∀ k : Fin 64,
              let slot : Sample := match s.outMap[k] with
                | .none => 0#24
                | .mix m => mixes[m].1
                | .zone z => zones[z].1
              t.mirror.peaks[64 + k.val] = if silent then s.mirror.peaks[64 + k.val]
                else max s.mirror.peaks[64 + k.val] slot.toInt.natAbs)
      ∧ (∀ c : Channel,
          let f := s.rx[linkOf c].presented
          t.channels[c] = { s.channels[c] with
            timer := s.channels[c].timer.map (· - 1)
            gate := s.channels[c].gate.advance
            present := f.status.getLsbD (2 * (c.val % 16))
            battery := f.status.getLsbD (2 * (c.val % 16) + 1)
            sample := f.slots[slotOf c]
            edge := f.status.getLsbD (2 * (c.val % 16) + 1) && !s.channels[c].battery
              && s.channels[c].state != .unused })
      ∧ (∀ v : VoiceId, t.voices[v] = (s.voices[v].frame).request)
      ∧ t.seq.goLevel = some go ∧ t.seq.trigLevel = some trig
      ∧ t.seq.goEdges
          = (if s.seq.goLevel = some true ∧ go = false then s.seq.goEdges + 1 else s.seq.goEdges)
      ∧ (∀ k : LineId, t.seq.trigEdges[k]
          = if trig.getLsbD k = true ∧ (s.seq.trigLevel.map fun w => w.getLsbD k) = some false
            then s.seq.trigEdges[k] + 1 else s.seq.trigEdges[k])
      ∧ t.clock.tickOpen = false ∧ t.clock.sinceTick = s.clock.sinceTick + 1
      ∧ t.tod = s.tod ∧ t.mem = s.mem ∧ t.fades = s.fades
      ∧ t.levels = s.levels ∧ t.pages = s.pages ∧ t.calls = s.calls ∧ t.cells = s.cells

/-- In the 48th frame since the last, a millisecond tick moves on the time of day, the timers that count
milliseconds, the hold lines and the fade table: a delay falls by 1, a fade's elapsed time rises by 1 and its
element takes the value of the fade law, frozen records standing still; a follow waits through a pause, the guard
does not (5.6), and a call's patience runs while it waits (1.1, 4.4, 5.5, 6.3 to 6.5, 8.4, 9.1, 9.2, 9.4). The
timers that the manual starts at a frame are moved by the frames instead (log 7). A tick in any other frame is
without effect, the model's choice (log 6). -/
def Obligations.MillisecondTickMovesEveryTimer : Prop :=
  (∀ (s : State) (hold : BitVec 4) (ampOk : BitVec 24), s.Runs → s.clock.sinceTick < 48 →
      exec (.millisecondTick hold ampOk) s = .next s)
    ∧ ∀ (s : State) (hold : BitVec 4) (ampOk : BitVec 24), s.Runs → s.Quiet → s.TickIsDue →
    ∃ t, exec (.millisecondTick hold ampOk) s = .next t ∧ t.tod = s.tod.next
      ∧ t.rollover = (s.rollover || s.tod.next.ms == 0)
      ∧ t.clock.ticks = (s.clock.ticks + 1) % 100 ∧ t.clock.tickOpen = true
      ∧ t.clock.sinceTick = 0
      ∧ t.mirror.metersDue = (s.mirror.metersDue || (s.clock.ticks + 1) % 100 % 50 == 0)
      ∧ t.mirror.levelsDue = (s.mirror.levelsDue || (s.clock.ticks + 1) % 100 % 20 == 0)
      ∧ t.channels = s.channels
      ∧ (∀ l : LineId,
          t.hold[l].raw = hold.getLsbD l ∧ t.hold[l].accepted = s.hold[l].accepted
            ∧ t.hold[l].run = if hold.getLsbD l = s.hold[l].accepted then 0
                else min (s.hold[l].run + 1) 20)
      ∧ t.seq.guard = s.seq.guard.map (· - 1)
      ∧ t.seq.follow = (if s.seq.pause then s.seq.follow else s.seq.follow.map (· - 1))
      ∧ (∀ z : ZoneId, t.zones[z].timer
            = (if s.zones[z].state = .live then s.zones[z].timer else s.zones[z].timer.map (· - 1))
          ∧ t.zones[z].ampOk = ampOk.getLsbD z ∧ t.zones[z].state = s.zones[z].state
          ∧ (s.zones[z].state = .live → s.zones[z].cfg.sample ≠ 255 →
              t.zones[z].falseRun = if ampOk.getLsbD z then 0 else min (s.zones[z].falseRun + 1) 100))
      ∧ (∀ p : PageId, t.pages[p]
          = s.pages[p].map fun g => { g with limit := g.limit.map (· - 1) })
      ∧ (∀ c : CallId, t.calls[c] = { s.calls[c] with
          inst := s.calls[c].inst.map fun i =>
            if i.phase = .playing then i else { i with patience := i.patience - 1 } })
      ∧ (∀ (i : RecId) (r : FadeRec), s.fades[i] = some r →
          (frozen s r = true → t.fades[i] = some r)
          ∧ (frozen s r = false → r.fading = false →
              t.fades[i] = some { r with delayLeft := r.delayLeft - 1 })
          ∧ (frozen s r = false → r.fading = true → r.elapsed < r.time →
              t.fades[i] = some { r with elapsed := r.elapsed + 1 })
          ∧ ∀ e target curve, frozen s r = false → r.fading = true → r.elapsed + 1 < r.time →
              r.content = .level e target curve →
              (∀ j : RecId, j ≠ i → ∀ q, s.fades[j] = some q → q.elem? ≠ some e) →
              t.level e
                = .steps (fadeValue r.start (target.orFloor e.floor) r.time (r.elapsed + 1)))
      ∧ t.mem = s.mem ∧ t.voices = s.voices ∧ t.tx = s.tx

/-! ## Resets and start-up -/

/-- A port reset, by command or at the release of RSTL before 20 ms, acts on the host side alone: the
arrival queue is empty, every POSTED slot is EMPTY in the port's view, its state word to be written in the
port's own turns, the fault record and the notices but RESTARTED are cleared, and nothing else changes
(11.6). An access of the memory window that arrives while such writes wait is held until they are done.
That the writes wait as an access does, and what the access meets meanwhile, is the model's choice
(log 37), as is the read data of a write's end (log 26). -/
def Obligations.PortResetActsOnTheHostSide : Prop :=
  (∀ s : State,
    let after : State := { s with
      slate := { s.slate with arrival := [] }
      port := { s.port with
        view := mapVec (fun v => if v = .posted then .empty else v) s.port.view
        clears := s.port.clears ++ (List.finRange 16).filter fun i => s.port.view[i] == .posted
        faultAddr := 0#22, faultCause := .none, faultWrite := false, further := 0 }
      arb := { s.arb with hostWait := if s.port.clears = [] then 0 else s.arb.hostWait }
      notice := { s.notice with
        input := false, zone := false, fault := false, clock := false, mask := 0x7F#7 } }
    (s.PortFree → exec .portReset s = .next { after with
        port := { after.port with result := { err := false, data := 0#32 } } })
      ∧ (s.rstl = .low1ms → exec .rstlRelease s = .next { after with rstl := .high }))
    ∧ ∀ s : State, s.PortFree → s.port.clears ≠ [] →
      let holds (a : HostAccess) : Host.Outcome State Fault Refusal :=
        .next { s with port := { s.port with held := some a } }
      ∀ (a : BitVec 22) (d : Word) (i : SlotId) (c : CellId) (w : Fin 8),
        exec (.hostRead (.memory a)) s = holds (.read (wordAddr a))
          ∧ exec (.hostWrite a d) s = holds (.write (wordAddr a) d)
          ∧ exec (.slotPost i) s = holds (.write (slotBase i) 1#32)
          ∧ exec (.slotWithdraw i) s = holds (.write (slotBase i) 0#32)
          ∧ exec (.slotReturn i) s = holds (.write (slotBase i) 0#32)
          ∧ exec (.cellReturn c w d) s = holds (.write (cellBase c + 4 * w.val) d)

/-- A full reset, by command or at the 20 ms mark of RSTL, sets every block as after State.reset, which has the
values that each chapter gives for a full reset (1.1, 1.2, 1.4, 2.1, 3.9, 4.1, 4.3, 4.6, 5.3, 5.6, 5.11, 6.1,
6.10, 7.2, 8.1, 9.1 to 9.3, 9.6, 10.1, 10.2, 11.4 to 11.6), and keeps show memory; at the 1 ms mark a waiting
access ends with ERR (log 37); start-up finds the size, writes the slot and cell state words EMPTY, leaves every
other byte, sets RESTARTED and runs the part (11.6). That the queue of commands and the count of free values stay
is the model's own (logs 3, 36), and so are the reset values of State.reset that the manual does not give (log
27) and the read data 0 of an access that ends with no data (log 26). -/
def Obligations.FullResetAndStartUpBeginAnew : Prop :=
  (let r := State.reset
    let isOpen (g : Gate) : Prop := g.value = .steps 0 ∧ g.ramp = none
    (r.engine = .stopped ∧ r.lock = .off ∧ r.load = none ∧ r.clock.inUse = .internal
        ∧ r.header.source = .internal ∧ r.header.guard = 0 ∧ r.header.pageLimit = 0
        ∧ r.header.zoneMask = false ∧ r.header.captureMasks = 0#12
        ∧ ∀ k : Fin 4, r.header.ramps[k] = 0)
      ∧ (∀ l : Link, r.rx[l].locked = false ∧ r.rx[l].good = 0 ∧ r.rx[l].bad = 0 ∧ r.rx[l].ref = none)
      ∧ (∀ c : Channel, r.channels[c].state = .unused ∧ isOpen r.channels[c].gate
          ∧ r.channels[c].timer = none)
      ∧ (∀ n : RoleId, let x := r.roles[n]
          (∀ k : TapId, x.cfg.taps[k] = none ∧ x.taps[k] = .idle) ∧ x.cfg.initial = none
            ∧ x.cfg.group = none ∧ x.cfg.autoSpare = false ∧ x.cfg.spareTime = 0
            ∧ x.unavailable = 0 ∧ x.clips = 0)
      ∧ (∀ e : Elem, r.level e = .off)
      ∧ (∀ m : MixId, let x := r.mixes[m]
          x.cfg.kind = .house ∧ x.cfg.ceiling = 48 ∧ x.cfg.holdMask = 0#4 ∧ x.cfg.holdRamp = 0
            ∧ x.cfg.first = 0 ∧ x.cfg.count = 0 ∧ isOpen x.gate ∧ x.held = false ∧ x.clips = 0)
      ∧ (∀ i : SendId, r.sends[i].mix = none ∧ r.sends[i].source = 0 ∧ r.sends[i].on = false)
      ∧ (∀ v : VoiceId, r.voiceGroups[v] = none) ∧ (∀ k : Fin 64, r.outMap[k] = .none)
      ∧ (∀ l : LineId, r.hold[l].accepted = false) ∧ r.txCount = 0#8
      ∧ (r.seq.standby = none ∧ r.seq.parent = none ∧ r.seq.follow = none ∧ r.seq.running = []
          ∧ r.seq.nextSerial = 1 ∧ r.seq.pause = false ∧ r.seq.guard = none ∧ r.seq.guarded = 0
          ∧ r.seq.last = none)
      ∧ (∀ i : RecId, r.fades[i] = none) ∧ r.takenOver = 0
      ∧ (∀ v : VoiceId, let x := r.voices[v]
          x.state = .idle ∧ x.owner = .none ∧ x.buffer = [] ∧ x.outstanding = none ∧ x.stopRec = none
            ∧ x.startPending = false ∧ x.playPos = 0 ∧ x.fetchPos = 0 ∧ x.underruns = 0)
      ∧ (∀ z : ZoneId, let x := r.zones[z]
          x.cfg.relayMix = none ∧ x.cfg.duckDepth = 0 ∧ x.cfg.duckRamp = 0 ∧ x.cfg.holdRamp = 0
            ∧ x.cfg.holdMask = 0#4 ∧ x.cfg.stability = 0 ∧ x.cfg.sample = 0 ∧ x.cfg.idle = 0
            ∧ x.cfg.faultMask = false ∧ x.state = .off ∧ x.ampen = false ∧ x.relay = false
            ∧ x.page = none ∧ x.timer = none ∧ x.falseRun = 0 ∧ x.held = false ∧ isOpen x.duck
            ∧ isOpen x.relayHold ∧ isOpen x.pageHold ∧ x.clips = 0 ∧ x.faults = 0)
      ∧ (∀ g : Fin 8, r.zoneGroups[g] = 0#24 ∧ (r.regions[g]).kind = .unused)
      ∧ (r.tod.day = 0 ∧ r.tod.hours = 0 ∧ r.tod.minutes = 0 ∧ r.tod.seconds = 0 ∧ r.tod.ms = 0)
      ∧ (∀ p : PageId, r.pages[p] = none) ∧ r.lastClosed = none
      ∧ (∀ c : CallId, let x := r.calls[c]
          x.enabled = false ∧ x.inst = none ∧ x.cfg.enabled = false ∧ x.cfg.repeatCount = 0
            ∧ x.cfg.chime = false ∧ x.cfg.group = 0)
      ∧ r.overlapped = 0 ∧ r.missedCalls = 0 ∧ r.cutCalls = 0
      ∧ (∀ c : CellId, r.cells[c].state = .empty ∧ r.cells[c].missed = 0)
      ∧ (r.mirror.base = none ∧ r.mirror.lag = 0
          ∧ (∀ a : Area, r.mirror.areas[a.index].count = 0 ∧ r.mirror.areas[a.index].pending = false)
          ∧ ∀ i : Fin 128, r.mirror.peaks[i] = 0)
      ∧ (r.wq.queue = [] ∧ r.slate.arrival = [] ∧ r.slate.current = none
          ∧ ∀ i : SlotId, r.port.view[i] = .empty)
      ∧ (r.port.faultCause = .none ∧ r.port.faultAddr = 0#22 ∧ r.port.further = 0)
      ∧ r.notice.input = false ∧ r.notice.zone = false ∧ r.notice.fault = false
      ∧ r.notice.clock = false ∧ r.notice.restarted = false ∧ r.notice.mask = 0x7F#7)
    ∧ (∀ s : State,
    let after : State := { State.reset with
      pending := s.pending, mem := s.mem, freeCount := s.freeCount, rstl := s.rstl }
    (s.PortFree → exec .fullReset s = .next { after with
        port := { after.port with result := { err := false, data := 0#32 } } })
      ∧ (s.rstl = .low1ms → exec .rstlHeld20ms s = .next { after with rstl := .low20ms })
      ∧ (s.rstl = .low20ms → exec .rstlRelease s = .next { s with rstl := .high })
      ∧ (s.rstl = .high → s.port.waiting = none → s.port.held = none →
          exec .rstlHeld1ms s = .next { s with rstl := .low1ms })
      ∧ (s.rstl = .high → s.port.waiting ≠ none ∨ s.port.held ≠ none →
          exec .rstlHeld1ms s = .next { s with
            rstl := .low1ms
            port := { s.port with
              waiting := none, held := none, result := { err := true, data := 0#32 } } }))
    ∧ ∀ (s : State) (size : DramSize), s.phase = .fullReset → s.rstl ≠ .low20ms →
        ∃ m, exec (.startUp size) s = .next { s with
            phase := .running
            memSize := DramSize.bytes size
            mem := m
            notice := { s.notice with restarted := true } }
          ∧ (∀ i : SlotId, Memory.readWord m (slotBase i) = 0#32)
          ∧ (∀ c : CellId, Memory.readWord m (cellBase c) = 0#32)
          ∧ (∀ a, (∀ i : SlotId, a < slotBase i ∨ slotBase i + 4 ≤ a) →
              (∀ c : CellId, a < cellBase c ∨ cellBase c + 4 ≤ a) →
              Memory.readByte m a = Memory.readByte s.mem a)
end

