-- ==== Sys2Proof/Laws/Keeps.lean ====
section
/-! SUPPORT. What no event touches: the queue of commands, the phase, RSTL, the installed size and the
contents of show memory; and that every event leaves the write queue bounded (R179). One lemma for each
operation: where the operation is applied to a state that keeps these things, its result keeps them. -/

namespace Sys2Proof.Machine

/-- `s` differs from `s0` in none of the things no event touches, and its write queue is bounded if that
of `s0` is. -/
structure Keeps (s0 s : State) : Prop where
  pending : s.pending = s0.pending
  phase : s.phase = s0.phase
  rstl : s.rstl = s0.rstl
  memSize : s.memSize = s0.memSize
  mem : s.mem = s0.mem
  bounded : s0.wq.Bounded → s.wq.Bounded

variable {s0 s t : State}

theorem Keeps.refl (s : State) : Keeps s s := ⟨rfl, rfl, rfl, rfl, rfl, id⟩

theorem Keeps.trans {s0 s t : State} (h : Keeps s0 s) (k : Keeps s t) : Keeps s0 t :=
  ⟨k.pending.trans h.pending, k.phase.trans h.phase, k.rstl.trans h.rstl, k.memSize.trans h.memSize,
    k.mem.trans h.mem, fun b => k.bounded (h.bounded b)⟩

/-- A change of nothing but other fields. -/
theorem Keeps.of_eq (h : Keeps s0 s) (h1 : t.pending = s.pending) (h2 : t.phase = s.phase)
    (h3 : t.rstl = s.rstl) (h4 : t.memSize = s.memSize) (h5 : t.mem = s.mem) (h6 : t.wq = s.wq) :
    Keeps s0 t :=
  h.trans ⟨h1, h2, h3, h4, h5, fun b => h6 ▸ b⟩

/-- A change of the write queue that leaves it bounded. -/
theorem Keeps.of_wq (h : Keeps s0 s) (q : WriteQueue) (hq : s.wq.Bounded → q.Bounded) :
    Keeps s0 { s with wq := q } :=
  h.trans ⟨rfl, rfl, rfl, rfl, rfl, hq⟩

theorem keeps_foldl {α : Type} {f : State → α → State} {l : List α}
    (hf : ∀ s x, Keeps s0 s → Keeps s0 (f s x)) (h : Keeps s0 s) : Keeps s0 (l.foldl f s) := by
  induction l generalizing s with
  | nil => exact h
  | cons x l ih => exact ih (hf s x h)

theorem keeps_forEach {n : Nat} {f : Fin n → State → State}
    (hf : ∀ i s, Keeps s0 s → Keeps s0 (f i s)) (h : Keeps s0 s) : Keeps s0 (forEach n f s) :=
  keeps_foldl (fun s i hs => hf i s hs) h

/-! ## The write queue -/

/-- A burst that joins leaves the queue bounded (R179). -/
theorem bounded_join {q : WriteQueue} (w : Writer) (b : Burst) (h : q.Bounded) : (q.join w b).Bounded := by
  obtain ⟨h1, h2⟩ := h
  unfold WriteQueue.join
  split
  · next hw =>
    cases w <;> simp_all [WriteQueue.Bounded, WriteQueue.setHeld, WriteQueue.held]
  · next hw =>
    split
    · next hl =>
      refine ⟨by simp; omega, fun hh => ?_⟩
      have := h2 hh
      omega
    · next hl =>
      have : q.queue.length = 48 := by omega
      cases w <;> simp [WriteQueue.Bounded, WriteQueue.setHeld, this]

/-- The head leaves, and a held burst takes the place (R179). -/
theorem bounded_leaveHead {q : WriteQueue} (h : q.Bounded) : q.leaveHead.Bounded := by
  obtain ⟨h1, h2⟩ := h
  unfold WriteQueue.leaveHead
  split
  · next he =>
    have hn : q.heldSlate = [] ∧ q.heldCapture = [] := by
      unfold WriteQueue.entering at he
      cases hq : q.next <;> simp_all [WriteQueue.held, Writer.other] <;> grind
    refine ⟨by simp; omega, fun hh => ?_⟩
    simp [hn] at hh
  · next w he =>
    have hw : q.held w ≠ [] := by
      unfold WriteQueue.entering at he
      grind
    have hlen : q.queue.length = 48 := by
      apply h2
      cases w <;> simp_all [WriteQueue.held]
    have hlen' : ((q.held w).head?.toList).length = 1 := by
      cases hq : q.held w with
      | nil => exact absurd hq hw
      | cons a l => simp
    have : (q.queue.tail ++ (q.held w).head?.toList).length = 48 := by
      rw [List.length_append, List.length_tail, hlen, hlen']
    exact ⟨le_of_eq this, fun _ => this⟩

/-- Every area of the layout takes between one burst and 32 (R172, R179). -/
theorem layoutAt_length (base : Nat) (a : Area) :
    1 ≤ ((layoutAt base).data[a.index]).length ∧ ((layoutAt base).data[a.index]).length ≤ 32 := by
  unfold layoutAt
  split
  · next h =>
    have hall : ((Config.mirrorLayout base).data.toList.all
        fun ps => decide (1 ≤ ps.length) && decide (ps.length ≤ 32)) = true := by
      simp only [MirrorLayout.sound, Bool.and_eq_true] at h
      exact h.2
    have := List.all_eq_true.mp hall _
      (Vector.mem_toList_iff.mpr (Vector.getElem_mem (Fin.isLt a.index)))
    simpa using this
  · cases a <;> exact ⟨of_decide_eq_true rfl, of_decide_eq_true rfl⟩

theorem dataBursts_length (s : State) (base : Nat) (a : Area) : (dataBursts s base a).length ≤ 32 := by
  unfold dataBursts
  split
  · exact le_trans (by simpa using List.length_filter_le _ _) (by simp)
  · simp only [List.length_map, List.length_range]
    exact (layoutAt_length base a).2

/-- An accepted hand-over finds fewer than 16 bursts and brings at most 33 (R172, R173, R179). -/
theorem bounded_offer {s : State} {base n : Nat} (a : Area) (ha : offerAccepted s = true)
    (h : s.wq.Bounded) :
    ({ s.wq with queue := s.wq.queue ++ dataBursts s base a ++ [.mirrorCount base a n] } :
      WriteQueue).Bounded := by
  have h16 : s.wq.queue.length < 16 := by simpa [offerAccepted] using ha
  have hd := dataBursts_length s base a
  refine ⟨by simp; omega, fun hh => ?_⟩
  have := h.2 hh
  omega

/-! ## The operations -/

theorem keeps_setElem (e : Elem) (x : Level) (h : Keeps s0 s) :
    Keeps s0 (setElem e x s) := by
  unfold setElem
  try dsimp only
  repeat' (first | with_reducible assumption | with_reducible apply keeps_foldl | with_reducible apply keeps_forEach | (with_reducible exact Keeps.of_eq h rfl rfl rfl rfl rfl rfl))

theorem keeps_updChannel (c : Channel) (f : ChannelRec → ChannelRec) (h : Keeps s0 s) :
    Keeps s0 (updChannel c f s) := by
  unfold updChannel
  try dsimp only
  repeat' (first | with_reducible assumption | with_reducible apply keeps_foldl | with_reducible apply keeps_forEach | (with_reducible exact Keeps.of_eq h rfl rfl rfl rfl rfl rfl))

theorem keeps_updRole (r : RoleId) (f : Role → Role) (h : Keeps s0 s) :
    Keeps s0 (updRole r f s) := by
  unfold updRole
  try dsimp only
  repeat' (first | with_reducible assumption | with_reducible apply keeps_foldl | with_reducible apply keeps_forEach | (with_reducible exact Keeps.of_eq h rfl rfl rfl rfl rfl rfl))

theorem keeps_updMix (m : MixId) (f : Mix → Mix) (h : Keeps s0 s) :
    Keeps s0 (updMix m f s) := by
  unfold updMix
  try dsimp only
  repeat' (first | with_reducible assumption | with_reducible apply keeps_foldl | with_reducible apply keeps_forEach | (with_reducible exact Keeps.of_eq h rfl rfl rfl rfl rfl rfl))

theorem keeps_updVoice (v : VoiceId) (f : Voice → Voice) (h : Keeps s0 s) :
    Keeps s0 (updVoice v f s) := by
  unfold updVoice
  try dsimp only
  repeat' (first | with_reducible assumption | with_reducible apply keeps_foldl | with_reducible apply keeps_forEach | (with_reducible exact Keeps.of_eq h rfl rfl rfl rfl rfl rfl))

theorem keeps_updZone (z : ZoneId) (f : Zone → Zone) (h : Keeps s0 s) :
    Keeps s0 (updZone z f s) := by
  unfold updZone
  try dsimp only
  repeat' (first | with_reducible assumption | with_reducible apply keeps_foldl | with_reducible apply keeps_forEach | (with_reducible exact Keeps.of_eq h rfl rfl rfl rfl rfl rfl))

theorem keeps_updCall (c : CallId) (f : Call → Call) (h : Keeps s0 s) :
    Keeps s0 (updCall c f s) := by
  unfold updCall
  try dsimp only
  repeat' (first | with_reducible assumption | with_reducible apply keeps_foldl | with_reducible apply keeps_forEach | (with_reducible exact Keeps.of_eq h rfl rfl rfl rfl rfl rfl))

theorem keeps_updRx (l : Link) (f : Receiver → Receiver) (h : Keeps s0 s) :
    Keeps s0 (updRx l f s) := by
  unfold updRx
  try dsimp only
  repeat' (first | with_reducible assumption | with_reducible apply keeps_foldl | with_reducible apply keeps_forEach | (with_reducible exact Keeps.of_eq h rfl rfl rfl rfl rfl rfl))

theorem keeps_setPage (p : PageId) (x : Option Page) (h : Keeps s0 s) :
    Keeps s0 (setPage p x s) := by
  unfold setPage
  try dsimp only
  repeat' (first | with_reducible assumption | with_reducible apply keeps_foldl | with_reducible apply keeps_forEach | (with_reducible exact Keeps.of_eq h rfl rfl rfl rfl rfl rfl))

theorem keeps_setFade (i : RecId) (r : Option FadeRec) (h : Keeps s0 s) :
    Keeps s0 (setFade i r s) := by
  unfold setFade
  try dsimp only
  repeat' (first | with_reducible assumption | with_reducible apply keeps_foldl | with_reducible apply keeps_forEach | (with_reducible exact Keeps.of_eq h rfl rfl rfl rfl rfl rfl))

theorem keeps_updSeq (f : Seq → Seq) (h : Keeps s0 s) :
    Keeps s0 (updSeq f s) := by
  unfold updSeq
  try dsimp only
  repeat' (first | with_reducible assumption | with_reducible apply keeps_foldl | with_reducible apply keeps_forEach | (with_reducible exact Keeps.of_eq h rfl rfl rfl rfl rfl rfl))

theorem keeps_updNotice (f : Notice → Notice) (h : Keeps s0 s) :
    Keeps s0 (updNotice f s) := by
  unfold updNotice
  try dsimp only
  repeat' (first | with_reducible assumption | with_reducible apply keeps_foldl | with_reducible apply keeps_forEach | (with_reducible exact Keeps.of_eq h rfl rfl rfl rfl rfl rfl))

theorem keeps_setView (i : SlotId) (v : SlotState) (h : Keeps s0 s) :
    Keeps s0 (setView i v s) := by
  unfold setView
  try dsimp only
  repeat' (first | with_reducible assumption | with_reducible apply keeps_foldl | with_reducible apply keeps_forEach | (with_reducible exact Keeps.of_eq h rfl rfl rfl rfl rfl rfl))

theorem keeps_mark (a : Area) (h : Keeps s0 s) :
    Keeps s0 (mark a s) := by
  unfold mark
  try dsimp only
  repeat' (first | with_reducible assumption | with_reducible apply keeps_foldl | with_reducible apply keeps_forEach | (with_reducible exact Keeps.of_eq h rfl rfl rfl rfl rfl rfl))

theorem keeps_tell (n : Note) (h : Keeps s0 s) :
    Keeps s0 (tell n s) := by
  unfold tell
  try dsimp only
  repeat' (first | with_reducible assumption | with_reducible apply keeps_foldl | with_reducible apply keeps_forEach | (with_reducible exact Keeps.of_eq h rfl rfl rfl rfl rfl rfl))

theorem keeps_updGate (id : GateId) (f : Gate → Gate) (h : Keeps s0 s) :
    Keeps s0 (updGate id f s) := by
  unfold updGate
  try dsimp only
  repeat' (first | with_reducible assumption | with_reducible apply keeps_updChannel | with_reducible apply keeps_updMix | with_reducible apply keeps_updZone | with_reducible apply keeps_foldl | with_reducible apply keeps_forEach | (with_reducible exact Keeps.of_eq h rfl rfl rfl rfl rfl rfl) | split)

theorem keeps_commandGate (id : GateId) (target : Int) (opt : Fin 4) (h : Keeps s0 s) :
    Keeps s0 (commandGate id target opt s) := by
  unfold commandGate
  try dsimp only
  repeat' (first | with_reducible assumption | with_reducible apply keeps_updGate)

theorem keeps_joinQueue (w : Writer) (b : Burst) (h : Keeps s0 s) :
    Keeps s0 (joinQueue w b s) := by
  exact h.of_wq _ fun hb => bounded_join w b hb

theorem keeps_setCell (c : CellId) (x : Cell) (h : Keeps s0 s) :
    Keeps s0 (setCell c x s) := by
  unfold setCell
  try dsimp only
  repeat' (first | with_reducible assumption | with_reducible apply keeps_foldl | with_reducible apply keeps_forEach | (with_reducible exact Keeps.of_eq h rfl rfl rfl rfl rfl rfl))

theorem keeps_captureEvent (c : CellId) (details : List Word) (h : Keeps s0 s) :
    Keeps s0 (captureEvent c details s) := by
  unfold captureEvent
  try dsimp only
  repeat' (first | with_reducible assumption | with_reducible apply keeps_joinQueue | with_reducible apply keeps_setCell | with_reducible apply keeps_foldl | with_reducible apply keeps_forEach | (with_reducible exact Keeps.of_eq h rfl rfl rfl rfl rfl rfl) | split)

theorem keeps_offer (a : Area) (h : Keeps s0 s) :
    Keeps s0 (offer a s) := by
  unfold offer
  split
  · exact h
  · split
    · exact h.trans ⟨rfl, rfl, rfl, rfl, rfl, fun hb => bounded_offer a ‹_› hb⟩
    · exact h.of_eq rfl rfl rfl rfl rfl rfl

theorem keeps_flushMarks (h : Keeps s0 s) :
    Keeps s0 (flushMarks s) := by
  unfold flushMarks
  try dsimp only
  repeat' (first | with_reducible assumption | with_reducible apply keeps_offer | with_reducible apply keeps_foldl | with_reducible apply keeps_forEach | (with_reducible exact Keeps.of_eq h rfl rfl rfl rfl rfl rfl))

theorem keeps_measure (slots : Vector Sample 64) (h : Keeps s0 s) : Keeps s0 (measure slots s) := by
  unfold measure
  split
  · exact h
  · exact h.of_eq rfl rfl rfl rfl rfl rfl

theorem keeps_offerMeters (h : Keeps s0 s) : Keeps s0 (offerMeters s) := by
  unfold offerMeters
  split
  · exact (keeps_offer .meters (keeps_measure _ h)).of_eq rfl rfl rfl rfl rfl rfl
  · exact keeps_offer .meters h

theorem keeps_offerAtTick (a : Area) (h : Keeps s0 s) : Keeps s0 (offerAtTick a s) := by
  unfold offerAtTick
  split
  · exact keeps_offerMeters h
  · exact keeps_offer a h

theorem keeps_mirrorTick (h : Keeps s0 s) :
    Keeps s0 (mirrorTick s) := by
  unfold mirrorTick
  try dsimp only
  repeat' (first | with_reducible assumption | with_reducible apply keeps_offerAtTick | with_reducible apply keeps_foldl | with_reducible apply keeps_forEach | (with_reducible exact Keeps.of_eq h rfl rfl rfl rfl rfl rfl) | split | intro)

theorem keeps_metersTick (h : Keeps s0 s) :
    Keeps s0 (metersTick s) := by
  unfold metersTick
  try dsimp only
  repeat' (first | with_reducible assumption | with_reducible apply keeps_offerMeters | with_reducible apply keeps_foldl | with_reducible apply keeps_forEach | (with_reducible exact Keeps.of_eq h rfl rfl rfl rfl rfl rfl))

theorem keeps_handOverAll (h : Keeps s0 s) :
    Keeps s0 (handOverAll s) := by
  unfold handOverAll
  try dsimp only
  repeat' (first | with_reducible assumption | with_reducible apply keeps_foldl | with_reducible apply keeps_forEach | (with_reducible exact Keeps.of_eq h rfl rfl rfl rfl rfl rfl))

theorem keeps_updEntry (id : FiringId) (f : RunEntry → RunEntry) (h : Keeps s0 s) :
    Keeps s0 (updEntry id f s) := by
  unfold updEntry
  try dsimp only
  repeat' (first | with_reducible assumption | with_reducible apply keeps_updSeq)

theorem keeps_completeCue (e : RunEntry) (h : Keeps s0 s) :
    Keeps s0 (completeCue e s) := by
  unfold completeCue
  try dsimp only
  repeat' (first | with_reducible assumption | with_reducible apply keeps_updSeq | with_reducible apply keeps_mark)

theorem keeps_completeIfDone (id : FiringId) (h : Keeps s0 s) :
    Keeps s0 (completeIfDone id s) := by
  unfold completeIfDone
  try dsimp only
  repeat' (first | with_reducible assumption | with_reducible apply keeps_completeCue | with_reducible apply keeps_foldl | with_reducible apply keeps_forEach | (with_reducible exact Keeps.of_eq h rfl rfl rfl rfl rfl rfl) | split)

theorem keeps_cueTold (id : FiringId) (h : Keeps s0 s) :
    Keeps s0 (cueTold id s) := by
  unfold cueTold
  try dsimp only
  repeat' (first | with_reducible assumption | with_reducible apply keeps_mark | with_reducible apply keeps_updEntry | with_reducible apply keeps_completeIfDone)

theorem keeps_cueFailed (id : FiringId) (h : Keeps s0 s) :
    Keeps s0 (cueFailed id s) := by
  unfold cueFailed
  try dsimp only
  repeat' (first | with_reducible assumption | with_reducible apply keeps_mark | with_reducible apply keeps_updEntry)

theorem keeps_cuePlaced (id : FiringId) (h : Keeps s0 s) :
    Keeps s0 (cuePlaced id s) := by
  unfold cuePlaced
  try dsimp only
  repeat' (first | with_reducible assumption | with_reducible apply keeps_mark | with_reducible apply keeps_updEntry)

theorem keeps_cueCrushed (id : FiringId) (h : Keeps s0 s) :
    Keeps s0 (cueCrushed id s) := by
  unfold cueCrushed
  try dsimp only
  repeat' (first | with_reducible assumption | with_reducible apply keeps_mark | with_reducible apply keeps_updEntry)

theorem keeps_askRead (r : EngineRead) (h : Keeps s0 s) : Keeps s0 (askRead r s) :=
  Keeps.of_eq h rfl rfl rfl rfl rfl rfl

theorem keeps_askFiring (c : FireCause) (h : Keeps s0 s) : Keeps s0 (askFiring c s) :=
  keeps_askRead _ (Keeps.of_eq h rfl rfl rfl rfl rfl rfl)

theorem keeps_askSound (view : Option Memory) (n : Nat) (h : Keeps s0 s) : Keeps s0 (askSound view n s) := by
  unfold askSound
  split
  · exact keeps_askRead _ h
  · exact h

theorem keeps_captureLine (t : Option LineId) (o : LineOutcome) (id : Option FiringId) (h : Keeps s0 s) :
    Keeps s0 (captureLine t o id s) := by
  unfold captureLine
  try dsimp only
  repeat' (first | with_reducible assumption | with_reducible apply keeps_captureEvent)

theorem keeps_staleBurst (v : VoiceId) (h : Keeps s0 s) :
    Keeps s0 (staleBurst v s) := by
  unfold staleBurst
  try dsimp only
  repeat' (first | with_reducible assumption | with_reducible apply keeps_foldl | with_reducible apply keeps_forEach | (with_reducible exact Keeps.of_eq h rfl rfl rfl rfl rfl rfl))

theorem keeps_flushVoice (v : VoiceId) (h : Keeps s0 s) :
    Keeps s0 (flushVoice v s) := by
  unfold flushVoice
  try dsimp only
  repeat' (first | with_reducible assumption | with_reducible apply keeps_updVoice | with_reducible apply keeps_staleBurst)

theorem keeps_enterIdle (v : VoiceId) (h : Keeps s0 s) :
    Keeps s0 (enterIdle v s) := by
  unfold enterIdle
  try dsimp only
  repeat' (first | with_reducible assumption | with_reducible apply keeps_updVoice | with_reducible apply keeps_mark | with_reducible apply keeps_tell | with_reducible apply keeps_flushVoice)

theorem keeps_endSound (v : VoiceId) (h : Keeps s0 s) :
    Keeps s0 (endSound v s) := by
  unfold endSound
  try dsimp only
  repeat' (first | with_reducible assumption | with_reducible apply keeps_updVoice | with_reducible apply keeps_enterIdle)

theorem keeps_primingStep (v : VoiceId) (h : Keeps s0 s) :
    Keeps s0 (primingStep v s) := by
  unfold primingStep
  try dsimp only
  repeat' (first | with_reducible assumption | with_reducible apply keeps_updVoice | with_reducible apply keeps_mark | with_reducible apply keeps_foldl | with_reducible apply keeps_forEach | (with_reducible exact Keeps.of_eq h rfl rfl rfl rfl rfl rfl) | split)

theorem keeps_startVoice (c : CallId) (v : VoiceId) (h : Keeps s0 s) :
    Keeps s0 (startVoice c v s) := by
  unfold startVoice
  try dsimp only
  repeat' (first | with_reducible assumption | with_reducible apply keeps_updVoice | with_reducible apply keeps_mark | with_reducible apply keeps_foldl | with_reducible apply keeps_forEach | (with_reducible exact Keeps.of_eq h rfl rfl rfl rfl rfl rfl) | split)

theorem keeps_releaseVoice (c : CallId) (v : VoiceId) (h : Keeps s0 s) :
    Keeps s0 (releaseVoice c v s) := by
  unfold releaseVoice
  try dsimp only
  repeat' (first | with_reducible assumption | with_reducible apply keeps_enterIdle | with_reducible apply keeps_foldl | with_reducible apply keeps_forEach | (with_reducible exact Keeps.of_eq h rfl rfl rfl rfl rfl rfl) | split)

theorem keeps_voiceStopping (v : VoiceId) (rec : RecId) (h : Keeps s0 s) :
    Keeps s0 (voiceStopping v rec s) := by
  unfold voiceStopping
  try dsimp only
  repeat' (first | with_reducible assumption | with_reducible apply keeps_updVoice | with_reducible apply keeps_mark | with_reducible apply keeps_foldl | with_reducible apply keeps_forEach | (with_reducible exact Keeps.of_eq h rfl rfl rfl rfl rfl rfl) | split)

theorem keeps_stopCompleted (v : VoiceId) (rec : Option RecId) (atOnce : Bool) (h : Keeps s0 s) :
    Keeps s0 (stopCompleted v rec atOnce s) := by
  unfold stopCompleted
  try dsimp only
  repeat' (first | with_reducible assumption | with_reducible apply keeps_enterIdle | with_reducible apply keeps_foldl | with_reducible apply keeps_forEach | (with_reducible exact Keeps.of_eq h rfl rfl rfl rfl rfl rfl) | split)

theorem keeps_stopTakenOver (v : VoiceId) (rec : RecId) (h : Keeps s0 s) :
    Keeps s0 (stopTakenOver v rec s) := by
  unfold stopTakenOver
  try dsimp only
  repeat' (first | with_reducible assumption | with_reducible apply keeps_updVoice | with_reducible apply keeps_mark | with_reducible apply keeps_foldl | with_reducible apply keeps_forEach | (with_reducible exact Keeps.of_eq h rfl rfl rfl rfl rfl rfl) | split)

theorem keeps_voicesFrame (h : Keeps s0 s) :
    Keeps s0 (voicesFrame s) := by
  unfold voicesFrame
  try dsimp only
  repeat' (first | with_reducible assumption | with_reducible apply keeps_mark | with_reducible apply keeps_foldl | with_reducible apply keeps_forEach | (with_reducible exact Keeps.of_eq h rfl rfl rfl rfl rfl rfl) | split)

theorem keeps_zoneEnterLive (z : ZoneId) (h : Keeps s0 s) :
    Keeps s0 (zoneEnterLive z s) := by
  unfold zoneEnterLive
  try dsimp only
  repeat' (first | with_reducible assumption | with_reducible apply keeps_updZone | with_reducible apply keeps_mark | with_reducible apply keeps_tell)

theorem keeps_stabilityEnd (z : ZoneId) (h : Keeps s0 s) :
    Keeps s0 (stabilityEnd z s) := by
  unfold stabilityEnd
  try dsimp only
  repeat' (first | with_reducible assumption | with_reducible apply keeps_updZone | with_reducible apply keeps_mark | with_reducible apply keeps_zoneEnterLive | with_reducible apply keeps_foldl | with_reducible apply keeps_forEach | (with_reducible exact Keeps.of_eq h rfl rfl rfl rfl rfl rfl) | split)

theorem keeps_powerZone (z : ZoneId) (h : Keeps s0 s) :
    Keeps s0 (powerZone z s) := by
  unfold powerZone
  try dsimp only
  repeat' (first | with_reducible assumption | with_reducible apply keeps_updZone | with_reducible apply keeps_mark | with_reducible apply keeps_stabilityEnd | with_reducible apply keeps_foldl | with_reducible apply keeps_forEach | (with_reducible exact Keeps.of_eq h rfl rfl rfl rfl rfl rfl) | split)

theorem keeps_rejudge (z : ZoneId) (before : Bool) (h : Keeps s0 s) :
    Keeps s0 (rejudge z before s) := by
  unfold rejudge
  try dsimp only
  repeat' (first | with_reducible assumption | with_reducible apply keeps_updZone | with_reducible apply keeps_powerZone | with_reducible apply keeps_foldl | with_reducible apply keeps_forEach | (with_reducible exact Keeps.of_eq h rfl rfl rfl rfl rfl rfl) | split)

theorem keeps_zoneOff (z : ZoneId) (h : Keeps s0 s) :
    Keeps s0 (zoneOff z s) := by
  unfold zoneOff
  try dsimp only
  repeat' (first | with_reducible assumption | with_reducible apply keeps_updZone | with_reducible apply keeps_mark)

theorem keeps_powerIfWanted (z : ZoneId) (h : Keeps s0 s) :
    Keeps s0 (powerIfWanted z s) := by
  unfold powerIfWanted
  try dsimp only
  repeat' (first | with_reducible assumption | with_reducible apply keeps_powerZone | with_reducible apply keeps_foldl | with_reducible apply keeps_forEach | (with_reducible exact Keeps.of_eq h rfl rfl rfl rfl rfl rfl) | split)

theorem keeps_commandDuck (z : ZoneId) (on : Bool) (h : Keeps s0 s) :
    Keeps s0 (commandDuck z on s) := by
  unfold commandDuck
  try dsimp only
  repeat' (first | with_reducible assumption | with_reducible apply keeps_commandGate)

theorem keeps_zoneHold (z : ZoneId) (h : Keeps s0 s) :
    Keeps s0 (zoneHold z s) := by
  unfold zoneHold
  try dsimp only
  repeat' (first | with_reducible assumption | with_reducible apply keeps_updZone | with_reducible apply keeps_commandGate)

theorem keeps_beginCarry (z : ZoneId) (p : PageId) (prio : Fin 4) (h : Keeps s0 s) :
    Keeps s0 (beginCarry z p prio s) := by
  unfold beginCarry
  try dsimp only
  repeat' (first | with_reducible assumption | with_reducible apply keeps_updZone | with_reducible apply keeps_mark | with_reducible apply keeps_rejudge | with_reducible apply keeps_commandDuck)

theorem keeps_endCarry (z : ZoneId) (h : Keeps s0 s) :
    Keeps s0 (endCarry z s) := by
  unfold endCarry
  try dsimp only
  repeat' (first | with_reducible assumption | with_reducible apply keeps_updZone | with_reducible apply keeps_mark | with_reducible apply keeps_rejudge | with_reducible apply keeps_commandDuck)

theorem keeps_latchZone (z : ZoneId) (h : Keeps s0 s) :
    Keeps s0 (latchZone z s) := by
  unfold latchZone
  try dsimp only
  repeat' (first | with_reducible assumption | with_reducible apply keeps_updNotice)

theorem keeps_zoneFault (z : ZoneId) (cause : ZoneFaultCause) (prior : ZoneState) (h : Keeps s0 s) :
    Keeps s0 (zoneFault z cause prior s) := by
  unfold zoneFault
  try dsimp only
  repeat' (first | with_reducible assumption | with_reducible apply keeps_updZone | with_reducible apply keeps_mark | with_reducible apply keeps_tell | with_reducible apply keeps_captureEvent | with_reducible apply keeps_commandDuck | with_reducible apply keeps_endCarry | with_reducible apply keeps_latchZone | with_reducible apply keeps_foldl | with_reducible apply keeps_forEach | (with_reducible exact Keeps.of_eq h rfl rfl rfl rfl rfl rfl) | split)

theorem keeps_setRelay (on : Bool) (z : ZoneId) (h : Keeps s0 s) :
    Keeps s0 (setRelay on z s) := by
  unfold setRelay
  try dsimp only
  repeat' (first | with_reducible assumption | with_reducible apply keeps_updZone | with_reducible apply keeps_mark | with_reducible apply keeps_rejudge | with_reducible apply keeps_foldl | with_reducible apply keeps_forEach | (with_reducible exact Keeps.of_eq h rfl rfl rfl rfl rfl rfl) | split)

theorem keeps_relayAction (g : Fin 8) (on : Bool) (h : Keeps s0 s) :
    Keeps s0 (relayAction g on s) := by
  unfold relayAction
  try dsimp only
  repeat' (first | with_reducible assumption | with_reducible apply keeps_setRelay | with_reducible apply keeps_foldl | with_reducible apply keeps_forEach | (with_reducible exact Keeps.of_eq h rfl rfl rfl rfl rfl rfl) | split | intro)

theorem keeps_setTap (r : RoleId) (t : TapId) (x : TapState) (h : Keeps s0 s) :
    Keeps s0 (setTap r t x s) := by
  unfold setTap
  try dsimp only
  repeat' (first | with_reducible assumption | with_reducible apply keeps_updRole | with_reducible apply keeps_mark)

theorem keeps_castEnd (r : RoleId) (t : TapId) (target : Level) (h : Keeps s0 s) :
    Keeps s0 (castEnd r t target s) := by
  unfold castEnd
  try dsimp only
  repeat' (first | with_reducible assumption | with_reducible apply keeps_setElem | with_reducible apply keeps_setTap | with_reducible apply keeps_foldl | with_reducible apply keeps_forEach | (with_reducible exact Keeps.of_eq h rfl rfl rfl rfl rfl rfl) | split)

theorem keeps_ownerTold (r : FadeRec) (how : Leave) (h : Keeps s0 s) :
    Keeps s0 (ownerTold r how s) := by
  unfold ownerTold
  try dsimp only
  repeat' (first | with_reducible assumption | with_reducible apply keeps_cueTold | with_reducible apply keeps_castEnd | with_reducible apply keeps_foldl | with_reducible apply keeps_forEach | (with_reducible exact Keeps.of_eq h rfl rfl rfl rfl rfl rfl) | split)

theorem keeps_stopTold (i : RecId) (r : FadeRec) (how : Leave) (h : Keeps s0 s) :
    Keeps s0 (stopTold i r how s) := by
  unfold stopTold
  try dsimp only
  repeat' (first | with_reducible assumption | with_reducible apply keeps_stopCompleted | with_reducible apply keeps_stopTakenOver | with_reducible apply keeps_foldl | with_reducible apply keeps_forEach | (with_reducible exact Keeps.of_eq h rfl rfl rfl rfl rfl rfl) | split)

theorem keeps_leaveTable (i : RecId) (how : Leave) (h : Keeps s0 s) :
    Keeps s0 (leaveTable i how s) := by
  unfold leaveTable
  try dsimp only
  repeat' (first | with_reducible assumption | with_reducible apply keeps_setFade | with_reducible apply keeps_ownerTold | with_reducible apply keeps_stopTold | with_reducible apply keeps_foldl | with_reducible apply keeps_forEach | (with_reducible exact Keeps.of_eq h rfl rfl rfl rfl rfl rfl) | split)

theorem keeps_takeOver (e : Elem) (except : Option RecId) (h : Keeps s0 s) :
    Keeps s0 (takeOver e except s) := by
  unfold takeOver
  try dsimp only
  repeat' (first | with_reducible assumption | with_reducible apply keeps_leaveTable | with_reducible apply keeps_foldl | with_reducible apply keeps_forEach | (with_reducible exact Keeps.of_eq h rfl rfl rfl rfl rfl rfl) | split)

theorem keeps_cut (e : Elem) (target : Level) (h : Keeps s0 s) :
    Keeps s0 (cut e target s) := by
  unfold cut
  try dsimp only
  repeat' (first | with_reducible assumption | with_reducible apply keeps_setElem | with_reducible apply keeps_takeOver)

theorem keeps_cutBy (i : RecId) (e : Elem) (target : Level) (h : Keeps s0 s) :
    Keeps s0 (cutBy i e target s) := by
  unfold cutBy
  try dsimp only
  repeat' (first | with_reducible assumption | with_reducible apply keeps_setElem | with_reducible apply keeps_leaveTable | with_reducible apply keeps_takeOver)

theorem keeps_startFade (i : RecId) (r : FadeRec) (e : Elem) (target : Level) (curve : Curve) (h : Keeps s0 s) :
    Keeps s0 (startFade i r e target curve s) := by
  unfold startFade
  try dsimp only
  repeat' (first | with_reducible assumption | with_reducible apply keeps_setElem | with_reducible apply keeps_setFade | with_reducible apply keeps_takeOver | with_reducible apply keeps_cutBy | with_reducible apply keeps_foldl | with_reducible apply keeps_forEach | (with_reducible exact Keeps.of_eq h rfl rfl rfl rfl rfl rfl) | split)

theorem keeps_tellCut (v : VoiceId) (owner : VoiceOwner) (h : Keeps s0 s) :
    Keeps s0 (tellCut v owner s) := by
  unfold tellCut
  try dsimp only
  repeat' (first | with_reducible assumption | with_reducible apply keeps_tell | with_reducible apply keeps_foldl | with_reducible apply keeps_forEach | (with_reducible exact Keeps.of_eq h rfl rfl rfl rfl rfl rfl) | split)

theorem keeps_takePlay (v : VoiceId) (snd : SoundCopy) (start : Level) (owner : VoiceOwner) (h : Keeps s0 s) :
    Keeps s0 (takePlay v snd start owner s) := by
  unfold takePlay
  try dsimp only
  repeat' (first | with_reducible assumption | with_reducible apply keeps_updVoice | with_reducible apply keeps_mark | with_reducible apply keeps_flushVoice | with_reducible apply keeps_cut | with_reducible apply keeps_tellCut)

theorem keeps_play (view : Option Memory) (v : VoiceId) (n : Nat) (start : Level) (loop : Bool)
    (owner : VoiceOwner) (h : Keeps s0 s) : Keeps s0 (play view v n start loop owner s).1 := by
  have ha := keeps_askSound view n h
  unfold play
  extract_lets x
  split
  · exact ha
  · exact ha
  · split
    · exact ha
    · exact keeps_takePlay _ _ _ _ ha

theorem keeps_playMove (view : Option Memory) (v : VoiceId) (n : Nat) (start : Level) (loop : Bool) (owner : Owner) (h : Keeps s0 s) :
    Keeps s0 (playMove view v n start loop owner s) := by
  unfold playMove
  have hp := keeps_play (view := view) (v := v) (n := n) (start := start) (loop := loop)
    (owner := owner.voiceOwner) h
  split
  · simpa [*] using hp
  · split
    · exact keeps_cueFailed _ (by simpa [*] using hp)
    · simpa [*] using hp

theorem keeps_stopCut (v : VoiceId) (h : Keeps s0 s) :
    Keeps s0 (stopCut v s) := by
  unfold stopCut
  try dsimp only
  repeat' (first | with_reducible assumption | with_reducible apply keeps_stopCompleted | with_reducible apply keeps_cut | with_reducible apply keeps_foldl | with_reducible apply keeps_forEach | (with_reducible exact Keeps.of_eq h rfl rfl rfl rfl rfl rfl) | split)

theorem keeps_startStop (i : RecId) (r : FadeRec) (v : VoiceId) (time : Nat) (h : Keeps s0 s) :
    Keeps s0 (startStop i r v time s) := by
  unfold startStop
  try dsimp only
  repeat' (first | with_reducible assumption | with_reducible apply keeps_setFade | with_reducible apply keeps_voiceStopping | with_reducible apply keeps_cutBy | with_reducible apply keeps_startFade | with_reducible apply keeps_foldl | with_reducible apply keeps_forEach | (with_reducible exact Keeps.of_eq h rfl rfl rfl rfl rfl rfl) | split)

theorem keeps_actRecord (view : Option Memory) (i : RecId) (h : Keeps s0 s) :
    Keeps s0 (actRecord view i s) := by
  unfold actRecord
  try dsimp only
  repeat' (first | with_reducible assumption | with_reducible apply keeps_relayAction | with_reducible apply keeps_leaveTable | with_reducible apply keeps_startFade | with_reducible apply keeps_playMove | with_reducible apply keeps_startStop | with_reducible apply keeps_foldl | with_reducible apply keeps_forEach | (with_reducible exact Keeps.of_eq h rfl rfl rfl rfl rfl rfl) | split)

theorem keeps_executeRecord (view : Option Memory) (i : RecId) (h : Keeps s0 s) :
    Keeps s0 (executeRecord view i s) := by
  unfold executeRecord
  try dsimp only
  repeat' (first | with_reducible assumption | with_reducible apply keeps_setElem | with_reducible apply keeps_leaveTable | with_reducible apply keeps_cutBy | with_reducible apply keeps_stopCut | with_reducible apply keeps_actRecord | with_reducible apply keeps_foldl | with_reducible apply keeps_forEach | (with_reducible exact Keeps.of_eq h rfl rfl rfl rfl rfl rfl) | split)

theorem keeps_actCrushed (view : Option Memory) (owner : Owner) (c : Content) (h : Keeps s0 s) :
    Keeps s0 (actCrushed view owner c s) := by
  unfold actCrushed
  try dsimp only
  repeat' (first | with_reducible assumption | with_reducible apply keeps_relayAction | with_reducible apply keeps_cut | with_reducible apply keeps_playMove | with_reducible apply keeps_stopCut | with_reducible apply keeps_foldl | with_reducible apply keeps_forEach | (with_reducible exact Keeps.of_eq h rfl rfl rfl rfl rfl rfl) | split)

theorem keeps_placeFade (i : RecId) (r : FadeRec) (e : Elem) (target : Level) (h : Keeps s0 s) :
    Keeps s0 (placeFade i r e target s) := by
  unfold placeFade
  try dsimp only
  repeat' (first | with_reducible assumption | with_reducible apply keeps_setFade | with_reducible apply keeps_takeOver | with_reducible apply keeps_startFade)

theorem keeps_tickRecord (i : RecId) (h : Keeps s0 s) :
    Keeps s0 (tickRecord i s) := by
  unfold tickRecord
  try dsimp only
  repeat' (first | with_reducible assumption | with_reducible apply keeps_setElem | with_reducible apply keeps_setFade | with_reducible apply keeps_foldl | with_reducible apply keeps_forEach | (with_reducible exact Keeps.of_eq h rfl rfl rfl rfl rfl rfl) | split)

theorem keeps_completeFade (i : RecId) (h : Keeps s0 s) :
    Keeps s0 (completeFade i s) := by
  unfold completeFade
  try dsimp only
  repeat' (first | with_reducible assumption | with_reducible apply keeps_setElem | with_reducible apply keeps_leaveTable | with_reducible apply keeps_foldl | with_reducible apply keeps_forEach | (with_reducible exact Keeps.of_eq h rfl rfl rfl rfl rfl rfl) | split)

end Sys2Proof.Machine
end

