-- ==== Sys2Proof/Laws/KeepsUnits.lean ====
section
/-! SUPPORT. The operations of the cast block, the channel supervisor, the page and call unit, the cue
sequencer, the hold lines, the load, the slate, the events and the steps of time, as in Laws/Keeps.lean. -/

namespace Sys2Proof.Machine

variable {s0 s t : State}

/-- The first part of a pair that a function of a state gives. -/
theorem keeps_fst {α : Type} {x : State × α} {a : α} (he : x = (t, a)) (h : Keeps s0 x.1) :
    Keeps s0 t := by subst he; exact h

theorem keeps_foldl_fst {α β : Type} {f : State × β → α → State × β} {l : List α} {x : State × β}
    (hf : ∀ x a, Keeps s0 x.1 → Keeps s0 (f x a).1) (h : Keeps s0 x.1) :
    Keeps s0 (l.foldl f x).1 := by
  induction l generalizing x with
  | nil => exact h
  | cons a l ih => exact ih (hf x a h)

theorem keeps_castFade (r : RoleId) (t : TapId) (target : Level) (time : Nat) (h : Keeps s0 s) :
    Keeps s0 (castFade r t target time s) := by
  unfold castFade
  try dsimp only
  repeat' (first | with_reducible assumption | with_reducible apply keeps_castEnd | with_reducible apply keeps_cut | with_reducible apply keeps_placeFade | with_reducible apply keeps_foldl | with_reducible apply keeps_forEach | (with_reducible exact Keeps.of_eq h rfl rfl rfl rfl rfl rfl) | split)

theorem keeps_swapTo (r : RoleId) (t : TapId) (time : Nat) (h : Keeps s0 s) :
    Keeps s0 (swapTo r t time s) := by
  unfold swapTo
  try dsimp only
  repeat' (first | with_reducible assumption | with_reducible apply keeps_setTap | with_reducible apply keeps_castFade | with_reducible apply keeps_foldl | with_reducible apply keeps_forEach | (with_reducible exact Keeps.of_eq h rfl rfl rfl rfl rfl rfl) | split)

theorem keeps_swapTapOwner (role tap time : Nat) (h : Keeps s0 s) :
    Keeps s0 (swapTapOwner role tap time s).1 := by
  unfold swapTapOwner
  try dsimp only
  repeat' (first | with_reducible assumption | with_reducible apply keeps_swapTo | with_reducible apply keeps_foldl | with_reducible apply keeps_forEach | (with_reducible exact Keeps.of_eq h rfl rfl rfl rfl rfl rfl) | split)

theorem keeps_spareFailover (c : Channel) (h : Keeps s0 s) :
    Keeps s0 (spareFailover c s) := by
  unfold spareFailover
  try dsimp only
  repeat' (first | with_reducible assumption | with_reducible apply keeps_updRole | with_reducible apply keeps_mark | with_reducible apply keeps_swapTo | with_reducible apply keeps_foldl | with_reducible apply keeps_forEach | (with_reducible exact Keeps.of_eq h rfl rfl rfl rfl rfl rfl) | split)

theorem keeps_finishTap (r : RoleId) (t : TapId) (h : Keeps s0 s) :
    Keeps s0 (finishTap r t s) := by
  unfold finishTap
  try dsimp only
  repeat' (first | with_reducible assumption | with_reducible apply keeps_setElem | with_reducible apply keeps_setTap | with_reducible apply keeps_foldl | with_reducible apply keeps_forEach | (with_reducible exact Keeps.of_eq h rfl rfl rfl rfl rfl rfl) | split)

theorem keeps_finishCrossfades (h : Keeps s0 s) :
    Keeps s0 (finishCrossfades s) := by
  unfold finishCrossfades
  try dsimp only
  repeat' (first | with_reducible assumption | with_reducible apply keeps_finishTap | with_reducible apply keeps_foldl | with_reducible apply keeps_forEach | (with_reducible exact Keeps.of_eq h rfl rfl rfl rfl rfl rfl) | split | intro)

theorem keeps_superviseGate (c : Channel) (isOpen : Bool) (h : Keeps s0 s) :
    Keeps s0 (superviseGate c isOpen s) := by
  unfold superviseGate
  try dsimp only
  repeat' (first | with_reducible assumption | with_reducible apply keeps_commandGate | with_reducible apply keeps_foldl | with_reducible apply keeps_forEach | (with_reducible exact Keeps.of_eq h rfl rfl rfl rfl rfl rfl) | split)

theorem keeps_latchInput (masked : Bool) (h : Keeps s0 s) :
    Keeps s0 (latchInput masked s) := by
  unfold latchInput
  try dsimp only
  repeat' (first | with_reducible assumption | with_reducible apply keeps_updNotice)

theorem keeps_setChannelState (c : Channel) (st : ChannelState) (timer : Option Nat) (h : Keeps s0 s) :
    Keeps s0 (setChannelState c st timer s) := by
  unfold setChannelState
  try dsimp only
  repeat' (first | with_reducible assumption | with_reducible apply keeps_updChannel | with_reducible apply keeps_mark)

theorem keeps_standLost (c : Channel) (h : Keeps s0 s) :
    Keeps s0 (standLost c s) :=
  keeps_superviseGate _ _ (keeps_setChannelState _ _ _ h)

theorem keeps_reportLost (c : Channel) (prior : ChannelState) (cause : LossCause) (h : Keeps s0 s) :
    Keeps s0 (reportLost c prior cause s) :=
  keeps_spareFailover _ (keeps_captureEvent _ _ (keeps_latchInput _ h))

theorem keeps_enterLost (c : Channel) (cause : LossCause) (h : Keeps s0 s) :
    Keeps s0 (enterLost c cause s) :=
  keeps_reportLost _ _ _ (keeps_standLost _ h)

theorem keeps_enterLive (c : Channel) (h : Keeps s0 s) :
    Keeps s0 (enterLive c s) := by
  unfold enterLive
  try dsimp only
  repeat' (first | with_reducible assumption | with_reducible apply keeps_superviseGate | with_reducible apply keeps_setChannelState)

theorem keeps_presentFalse (c : Channel) (h : Keeps s0 s) :
    Keeps s0 (presentFalse c s) := by
  unfold presentFalse
  try dsimp only
  repeat' (first | with_reducible assumption | with_reducible apply keeps_setChannelState | with_reducible apply keeps_enterLost | with_reducible apply keeps_foldl | with_reducible apply keeps_forEach | (with_reducible exact Keeps.of_eq h rfl rfl rfl rfl rfl rfl) | split)

theorem keeps_presentTrue (c : Channel) (h : Keeps s0 s) :
    Keeps s0 (presentTrue c s) := by
  unfold presentTrue
  try dsimp only
  repeat' (first | with_reducible assumption | with_reducible apply keeps_setChannelState | with_reducible apply keeps_enterLive | with_reducible apply keeps_foldl | with_reducible apply keeps_forEach | (with_reducible exact Keeps.of_eq h rfl rfl rfl rfl rfl rfl) | split)

theorem keeps_batteryEdge (c : Channel) (h : Keeps s0 s) :
    Keeps s0 (batteryEdge c s) := by
  unfold batteryEdge
  try dsimp only
  repeat' (first | with_reducible assumption | with_reducible apply keeps_updChannel | with_reducible apply keeps_mark | with_reducible apply keeps_captureEvent | with_reducible apply keeps_latchInput)

theorem keeps_linkLoss (l : Link) (h : Keeps s0 s) :
    Keeps s0 (linkLoss l s) := by
  unfold linkLoss
  try dsimp only
  repeat' (first | with_reducible assumption | with_reducible apply keeps_standLost | with_reducible apply keeps_reportLost | with_reducible apply keeps_foldl | with_reducible apply keeps_forEach | (with_reducible exact Keeps.of_eq h rfl rfl rfl rfl rfl rfl) | split | intro)

theorem keeps_lockReceiver (l : Link) (h : Keeps s0 s) :
    Keeps s0 (lockReceiver l s) := by
  unfold lockReceiver
  try dsimp only
  repeat' (first | with_reducible assumption | with_reducible apply keeps_updRx | with_reducible apply keeps_mark)

theorem keeps_unlockReceiver (l : Link) (h : Keeps s0 s) :
    Keeps s0 (unlockReceiver l s) := by
  unfold unlockReceiver
  try dsimp only
  repeat' (first | with_reducible assumption | with_reducible apply keeps_updRx | with_reducible apply keeps_mark | with_reducible apply keeps_linkLoss)

theorem keeps_readChannels (h : Keeps s0 s) :
    Keeps s0 (readChannels s) := by
  unfold readChannels
  try dsimp only
  repeat' (first | with_reducible assumption | with_reducible apply keeps_mark | with_reducible apply keeps_foldl | with_reducible apply keeps_forEach | (with_reducible exact Keeps.of_eq h rfl rfl rfl rfl rfl rfl) | split)

theorem keeps_tellOpener (o : Opener) (reason : CloseReason) (h : Keeps s0 s) :
    Keeps s0 (tellOpener o reason s) := by
  unfold tellOpener
  try dsimp only
  repeat' (first | with_reducible assumption | with_reducible apply keeps_updCall | with_reducible apply keeps_tell | with_reducible apply keeps_foldl | with_reducible apply keeps_forEach | (with_reducible exact Keeps.of_eq h rfl rfl rfl rfl rfl rfl) | split)

theorem keeps_closePage (p : PageId) (reason : CloseReason) (h : Keeps s0 s) :
    Keeps s0 (closePage p reason s) := by
  unfold closePage
  split
  · exact h
  · exact keeps_mark _ (keeps_tellOpener _ _ (Keeps.of_eq
      (keeps_foldl (fun s z hs => keeps_endCarry z hs) (keeps_setPage _ _ h)) rfl rfl rfl rfl rfl rfl))

theorem keeps_judgePage (p : PageId) (h : Keeps s0 s) :
    Keeps s0 (judgePage p s) := by
  unfold judgePage
  try dsimp only
  repeat' (first | with_reducible assumption | with_reducible apply keeps_setPage | with_reducible apply keeps_mark | with_reducible apply keeps_tell | with_reducible apply keeps_foldl | with_reducible apply keeps_forEach | (with_reducible exact Keeps.of_eq h rfl rfl rfl rfl rfl rfl) | split)

theorem keeps_loseZone (p : PageId) (z : ZoneId) (reason : CloseReason) (h : Keeps s0 s) :
    Keeps s0 (loseZone p z reason s) := by
  unfold loseZone
  try dsimp only
  repeat' (first | with_reducible assumption | with_reducible apply keeps_setPage | with_reducible apply keeps_mark | with_reducible apply keeps_closePage | with_reducible apply keeps_judgePage | with_reducible apply keeps_foldl | with_reducible apply keeps_forEach | (with_reducible exact Keeps.of_eq h rfl rfl rfl rfl rfl rfl) | split)

theorem keeps_enterPage (p : PageId) (opener : Opener) (source : PageSource) (prio : Fin 4)
    (level : Level) (k : Claim) (h : Keeps s0 s) :
    Keeps s0 (enterPage p opener source prio level k s) :=
  keeps_captureEvent _ _ (keeps_mark _ (keeps_setPage _ _ h))

theorem keeps_offerZone (p : PageId) (prio : Fin 4) (z : ZoneId) {x : State × Claim}
    (h : Keeps s0 x.1) : Keeps s0 (offerZone p prio z x).1 := by
  unfold offerZone
  dsimp only
  split
  · exact h
  · split
    · exact keeps_beginCarry _ _ _ h
    · split
      · split
        · exact keeps_beginCarry _ _ _ (keeps_loseZone _ _ _ h)
        · exact h
      · exact h

theorem keeps_openPage (g : Fin 8) (opener : Opener) (source : PageSource) (prio : Fin 4) (level : Level) (h : Keeps s0 s) :
    Keeps s0 (openPage g opener source prio level s).1 := by
  unfold openPage
  split
  · exact h
  · next p _ =>
    have hf : Keeps s0 ((membersOf s g).foldl (fun x z => offerZone p prio z x) (s, Claim.start)).1 :=
      keeps_foldl_fst (fun x z hx => keeps_offerZone p prio z hx) h
    generalize (membersOf s g).foldl (fun x z => offerZone p prio z x) (s, Claim.start) = x at hf
    obtain ⟨s', k⟩ := x
    dsimp only
    split
    · exact hf
    · exact keeps_enterPage _ _ _ _ _ _ hf

theorem keeps_setInst (c : CallId) (i : Option CallInst) (h : Keeps s0 s) :
    Keeps s0 (setInst c i s) := by
  unfold setInst
  try dsimp only
  repeat' (first | with_reducible assumption | with_reducible apply keeps_updCall | with_reducible apply keeps_mark)

theorem keeps_endInst (c : CallId) (o : CallOutcome) (h : Keeps s0 s) :
    Keeps s0 (endInst c o s) := by
  unfold endInst
  try dsimp only
  repeat' (first | with_reducible assumption | with_reducible apply keeps_updCall | with_reducible apply keeps_mark)

theorem keeps_closeOwnPage (i : CallInst) (h : Keeps s0 s) :
    Keeps s0 (closeOwnPage i s) := by
  unfold closeOwnPage
  try dsimp only
  repeat' (first | with_reducible assumption | with_reducible apply keeps_closePage | with_reducible apply keeps_foldl | with_reducible apply keeps_forEach | (with_reducible exact Keeps.of_eq h rfl rfl rfl rfl rfl rfl) | split)

theorem keeps_missCall (c : CallId) (reason : MissReason) (h : Keeps s0 s) :
    Keeps s0 (missCall c reason s) := by
  unfold missCall
  try dsimp only
  repeat' (first | with_reducible assumption | with_reducible apply keeps_captureEvent | with_reducible apply keeps_releaseVoice | with_reducible apply keeps_endInst | with_reducible apply keeps_closeOwnPage | with_reducible apply keeps_foldl | with_reducible apply keeps_forEach | (with_reducible exact Keeps.of_eq h rfl rfl rfl rfl rfl rfl) | split)

theorem keeps_cutCall (c : CallId) (by' : VoiceOwner) (h : Keeps s0 s) :
    Keeps s0 (cutCall c by' s) := by
  unfold cutCall
  try dsimp only
  repeat' (first | with_reducible assumption | with_reducible apply keeps_captureEvent | with_reducible apply keeps_endInst | with_reducible apply keeps_closeOwnPage | with_reducible apply keeps_foldl | with_reducible apply keeps_forEach | (with_reducible exact Keeps.of_eq h rfl rfl rfl rfl rfl rfl) | split)

theorem keeps_beginPlaying (c : CallId) (h : Keeps s0 s) :
    Keeps s0 (beginPlaying c s) := by
  unfold beginPlaying
  try dsimp only
  repeat' (first | with_reducible assumption | with_reducible apply keeps_updCall | with_reducible apply keeps_mark | with_reducible apply keeps_startVoice)

theorem keeps_enterWaitZones (c : CallId) (h : Keeps s0 s) :
    Keeps s0 (enterWaitZones c s) := by
  unfold enterWaitZones
  dsimp only
  generalize hs : mark Area.pages _ = s1
  have h1 : Keeps s0 s1 := hs ▸ keeps_mark _ (keeps_updCall _ _ h)
  split
  · next he => exact keeps_missCall _ _ (keeps_fst he (keeps_openPage _ _ _ _ _ h1))
  · next he => exact keeps_missCall _ _ (keeps_fst he (keeps_openPage _ _ _ _ _ h1))
  · next he =>
    have h2 := keeps_fst he (keeps_openPage _ _ _ _ _ h1)
    split
    · exact keeps_beginPlaying _ (keeps_updCall _ _ h2)
    · exact keeps_updCall _ _ h2

theorem keeps_offerPlay (c : CallId) (h : Keeps s0 s) : Keeps s0 (offerPlay c s) := by
  unfold offerPlay
  extract_lets cfg
  have hp := keeps_play none cfg.voice cfg.sound .off false (.call c) h
  split
  · next he => exact keeps_enterWaitZones _ (keeps_fst he hp)
  · next he => exact keeps_fst he hp
  · next he => exact keeps_missCall _ _ (keeps_fst he hp)

theorem keeps_patienceEnds (c : CallId) (h : Keeps s0 s) :
    Keeps s0 (patienceEnds c s) := by
  unfold patienceEnds
  try dsimp only
  repeat' (first | with_reducible assumption | with_reducible apply keeps_missCall | with_reducible apply keeps_beginPlaying | with_reducible apply keeps_foldl | with_reducible apply keeps_forEach | (with_reducible exact Keeps.of_eq h rfl rfl rfl rfl rfl rfl) | split)

theorem keeps_startInstance (c : CallId) (byCallNow : Bool) (h : Keeps s0 s) :
    Keeps s0 (startInstance c byCallNow s) := by
  unfold startInstance
  try dsimp only
  repeat' (first | with_reducible assumption | with_reducible apply keeps_setInst | with_reducible apply keeps_offerPlay | with_reducible apply keeps_patienceEnds | with_reducible apply keeps_foldl | with_reducible apply keeps_forEach | (with_reducible exact Keeps.of_eq h rfl rfl rfl rfl rfl rfl) | split)

theorem keeps_ownPageClosed (c : CallId) (reason : CloseReason) (h : Keeps s0 s) :
    Keeps s0 (ownPageClosed c reason s) := by
  unfold ownPageClosed
  try dsimp only
  repeat' (first | with_reducible assumption | with_reducible apply keeps_releaseVoice | with_reducible apply keeps_endInst | with_reducible apply keeps_missCall | with_reducible apply keeps_foldl | with_reducible apply keeps_forEach | (with_reducible exact Keeps.of_eq h rfl rfl rfl rfl rfl rfl) | split)

theorem keeps_ownVoiceIdle (c : CallId) (h : Keeps s0 s) :
    Keeps s0 (ownVoiceIdle c s) := by
  unfold ownVoiceIdle
  try dsimp only
  repeat' (first | with_reducible assumption | with_reducible apply keeps_endInst | with_reducible apply keeps_missCall | with_reducible apply keeps_foldl | with_reducible apply keeps_forEach | (with_reducible exact Keeps.of_eq h rfl rfl rfl rfl rfl rfl) | split)

theorem keeps_closeIfFrom (v : VoiceId) (p : PageId) (h : Keeps s0 s) :
    Keeps s0 (closeIfFrom v p s) := by
  unfold closeIfFrom
  split
  · exact keeps_closePage _ _ h
  · exact h

theorem keeps_reoffer (v : VoiceId) (c : Fin 16) (h : Keeps s0 s) : Keeps s0 (reoffer v c s) := by
  unfold reoffer
  split
  · exact keeps_offerPlay _ h
  · exact h

theorem keeps_voiceIdleNote (v : VoiceId) (owner : VoiceOwner) (h : Keeps s0 s) :
    Keeps s0 (voiceIdleNote v owner s) := by
  have h1 : Keeps s0 (forEach 4 (closeIfFrom v) s) :=
    keeps_forEach (fun _ _ h => keeps_closeIfFrom _ _ h) h
  unfold voiceIdleNote
  dsimp only
  apply keeps_forEach
  · exact fun c _ h => keeps_reoffer v c h
  · cases owner.call? with
    | none => exact h1
    | some c => exact keeps_ownVoiceIdle _ h1

theorem keeps_handleNote (n : Note) (h : Keeps s0 s) :
    Keeps s0 (handleNote n s) := by
  unfold handleNote
  try dsimp only
  repeat' (first | with_reducible assumption | with_reducible apply keeps_judgePage | with_reducible apply keeps_loseZone | with_reducible apply keeps_cutCall | with_reducible apply keeps_beginPlaying | with_reducible apply keeps_ownPageClosed | with_reducible apply keeps_voiceIdleNote | with_reducible apply keeps_foldl | with_reducible apply keeps_forEach | (with_reducible exact Keeps.of_eq h rfl rfl rfl rfl rfl rfl) | split)

theorem keeps_drainN (n : Nat) (h : Keeps s0 s) : Keeps s0 (drainN n s) := by
  induction n generalizing s with
  | zero => exact h
  | succ n ih =>
    unfold drainN
    split
    · exact h
    · exact ih (keeps_handleNote _ (h.of_eq rfl rfl rfl rfl rfl rfl))

theorem keeps_drain (h : Keeps s0 s) : Keeps s0 (drain s) := keeps_drainN _ h

theorem keeps_finish (h : Keeps s0 s) :
    Keeps s0 (finish s) := by
  exact (keeps_flushMarks (keeps_drain h)).trans ⟨rfl, rfl, rfl, rfl, rfl, fun b => b⟩

theorem keeps_compareCall (c : CallId) (h : Keeps s0 s) :
    Keeps s0 (compareCall c s) := by
  unfold compareCall
  try dsimp only
  repeat' (first | with_reducible assumption | with_reducible apply keeps_updCall | with_reducible apply keeps_mark | with_reducible apply keeps_startInstance | with_reducible apply keeps_drain | with_reducible apply keeps_foldl | with_reducible apply keeps_forEach | (with_reducible exact Keeps.of_eq h rfl rfl rfl rfl rfl rfl) | split)

theorem keeps_secondRollover (h : Keeps s0 s) :
    Keeps s0 (secondRollover s) := by
  unfold secondRollover
  try dsimp only
  repeat' (first | with_reducible assumption | with_reducible apply keeps_mark | with_reducible apply keeps_compareCall | with_reducible apply keeps_foldl | with_reducible apply keeps_forEach | (with_reducible exact Keeps.of_eq h rfl rfl rfl rfl rfl rfl) | split | intro)

theorem keeps_setTimeOwner (day hours minutes seconds : Nat) (h : Keeps s0 s) :
    Keeps s0 (setTimeOwner day hours minutes seconds s).1 := by
  unfold setTimeOwner
  try dsimp only
  repeat' (first | with_reducible assumption | with_reducible apply keeps_mark | with_reducible apply keeps_foldl | with_reducible apply keeps_forEach | (with_reducible exact Keeps.of_eq h rfl rfl rfl rfl rfl rfl) | split)

theorem keeps_pageOpenOwner (group : Nat) (source : SourceRef) (priority : Nat) (level : BitVec 16) (h : Keeps s0 s) :
    Keeps s0 (pageOpenOwner group source priority level s).1 := by
  unfold pageOpenOwner
  dsimp only
  split
  · exact h
  · exact h
  · exact h
  · split
    · next he => exact keeps_fst he (keeps_openPage _ _ _ _ _ h)
    · next he => exact keeps_fst he (keeps_openPage _ _ _ _ _ h)
    · next he => exact keeps_fst he (keeps_openPage _ _ _ _ _ h)

theorem keeps_pageCloseOwner (page : Nat) (h : Keeps s0 s) :
    Keeps s0 (pageCloseOwner page s).1 := by
  unfold pageCloseOwner
  try dsimp only
  repeat' (first | with_reducible assumption | with_reducible apply keeps_closePage | with_reducible apply keeps_foldl | with_reducible apply keeps_forEach | (with_reducible exact Keeps.of_eq h rfl rfl rfl rfl rfl rfl) | split)

theorem keeps_callNowOwner (call : Nat) (h : Keeps s0 s) :
    Keeps s0 (callNowOwner call s).1 := by
  unfold callNowOwner
  try dsimp only
  repeat' (first | with_reducible assumption | with_reducible apply keeps_startInstance | with_reducible apply keeps_foldl | with_reducible apply keeps_forEach | (with_reducible exact Keeps.of_eq h rfl rfl rfl rfl rfl rfl) | split)

theorem keeps_stopPagesAndCalls (h : Keeps s0 s) :
    Keeps s0 (stopPagesAndCalls s) := by
  unfold stopPagesAndCalls
  try dsimp only
  repeat' (first | with_reducible assumption | with_reducible apply keeps_closePage | with_reducible apply keeps_setInst | with_reducible apply keeps_foldl | with_reducible apply keeps_forEach | (with_reducible exact Keeps.of_eq h rfl rfl rfl rfl rfl rfl) | split | intro)

theorem keeps_finishRequest (a : Answer) (h : Keeps s0 s) :
    Keeps s0 (finishRequest a s) := by
  unfold finishRequest
  try dsimp only
  repeat' (first | with_reducible assumption | with_reducible apply keeps_joinQueue | with_reducible apply keeps_foldl | with_reducible apply keeps_forEach | (with_reducible exact Keeps.of_eq h rfl rfl rfl rfl rfl rfl) | split)

theorem keeps_executeAt (view : Option Memory) (id : FiringId) (k : Nat) {x : State × RunEntry}
    (h : Keeps s0 x.1) : Keeps s0 (executeAt view id k x).1 := by
  unfold executeAt
  split
  · exact h
  · exact keeps_drain (keeps_executeRecord _ _ h)

theorem keeps_executeOwned (view : Option Memory) (e : RunEntry) (h : Keeps s0 s) :
    Keeps s0 (executeOwned view e s).1 :=
  keeps_foldl_fst (fun _ k hx => keeps_executeAt view e.id k hx) h

theorem keeps_completeLeft (id : FiringId) (h : Keeps s0 s) :
    Keeps s0 (completeLeft id s) := by
  unfold completeLeft
  try dsimp only
  repeat' (first | with_reducible assumption | with_reducible apply keeps_completeCue | with_reducible apply keeps_foldl | with_reducible apply keeps_forEach | (with_reducible exact Keeps.of_eq h rfl rfl rfl rfl rfl rfl) | split)

theorem keeps_forceComplete (view : Memory) (forcing : Nat) (e : RunEntry) (h : Keeps s0 s) :
    Keeps s0 (forceComplete view forcing e s) := by
  unfold forceComplete
  try dsimp only
  repeat' (first | with_reducible assumption | with_reducible apply keeps_captureEvent | with_reducible apply keeps_updEntry | with_reducible apply keeps_executeOwned | with_reducible apply keeps_completeLeft)

theorem keeps_makeRoom (view : Memory) (forcing : Nat) (h : Keeps s0 s) :
    Keeps s0 (makeRoom view forcing s) := by
  unfold makeRoom
  try dsimp only
  repeat' (first | with_reducible assumption | with_reducible apply keeps_forceComplete | with_reducible apply keeps_foldl | with_reducible apply keeps_forEach | (with_reducible exact Keeps.of_eq h rfl rfl rfl rfl rfl rfl) | split)

theorem keeps_enterCue (id : FiringId) (failed : Nat) (h : Keeps s0 s) :
    Keeps s0 (enterCue id failed s) := by
  unfold enterCue
  try dsimp only
  repeat' (first | with_reducible assumption | with_reducible apply keeps_updSeq)

theorem keeps_placeMove (view : Memory) (id : FiringId) (c : CueRec) (k : Nat) (m : Move) (i : RecId) (h : Keeps s0 s) :
    Keeps s0 (placeMove view id c k m i s) := by
  unfold placeMove
  try dsimp only
  repeat' (first | with_reducible assumption | with_reducible apply keeps_setFade | with_reducible apply keeps_cuePlaced | with_reducible apply keeps_actRecord | with_reducible apply keeps_foldl | with_reducible apply keeps_forEach | (with_reducible exact Keeps.of_eq h rfl rfl rfl rfl rfl rfl) | split)

theorem keeps_crushMove (view : Memory) (id : FiringId) (c : Content) (h : Keeps s0 s) :
    Keeps s0 (crushMove view id c s).1 :=
  keeps_drain (keeps_actCrushed _ _ _ (keeps_cueCrushed _ h))

theorem keeps_takeMove (view : Memory) (id : FiringId) (c : CueRec) (k : Nat) {x : State × Option Nat}
    (h : Keeps s0 x.1) : Keeps s0 (takeMove view id c k x).1 := by
  unfold takeMove
  split
  · exact keeps_cueFailed _ h
  · split
    · exact keeps_drain (keeps_placeMove _ _ _ _ _ _ h)
    · exact keeps_crushMove _ _ _ h

theorem keeps_takeMoves (view : Memory) (id : FiringId) (c : CueRec) (h : Keeps s0 s) :
    Keeps s0 (takeMoves view id c s).1 :=
  keeps_foldl_fst (fun _ k hx => keeps_takeMove view id c k hx) h

theorem keeps_reportCrushed (id : FiringId) (failed : Option Nat) (h : Keeps s0 s) :
    Keeps s0 (reportCrushed id failed s) := by
  unfold reportCrushed
  try dsimp only
  repeat' (first | with_reducible assumption | with_reducible apply keeps_captureEvent | with_reducible apply keeps_foldl | with_reducible apply keeps_forEach | (with_reducible exact Keeps.of_eq h rfl rfl rfl rfl rfl rfl) | split)

theorem keeps_deriveStandby (view : Memory) (id : FiringId) (h : Keeps s0 s) :
    Keeps s0 (deriveStandby view id s) := by
  unfold deriveStandby
  try dsimp only
  repeat' (first | with_reducible assumption | with_reducible apply keeps_updSeq)

theorem keeps_closeFiring (id : FiringId) (h : Keeps s0 s) :
    Keeps s0 (closeFiring id s) := by
  unfold closeFiring
  try dsimp only
  repeat' (first | with_reducible assumption | with_reducible apply keeps_mark | with_reducible apply keeps_updEntry | with_reducible apply keeps_completeIfDone)

theorem keeps_enterAndPlace (view : Memory) (st : Standby) (id : FiringId) (h : Keeps s0 s) :
    Keeps s0 (enterAndPlace view st id s) := by
  unfold enterAndPlace
  try dsimp only
  repeat' (first | with_reducible assumption | with_reducible apply keeps_makeRoom | with_reducible apply keeps_enterCue | with_reducible apply keeps_takeMoves | with_reducible apply keeps_reportCrushed | with_reducible apply keeps_foldl | with_reducible apply keeps_forEach | (with_reducible exact Keeps.of_eq h rfl rfl rfl rfl rfl rfl) | split)

theorem keeps_startGuard (h : Keeps s0 s) :
    Keeps s0 (startGuard s) := by
  unfold startGuard
  try dsimp only
  repeat' (first | with_reducible assumption | with_reducible apply keeps_updSeq)

theorem keeps_reportFiring (cause : FireCause) (id : FiringId) (crushed : Nat) (h : Keeps s0 s) :
    Keeps s0 (reportFiring cause id crushed s) := by
  unfold reportFiring
  try dsimp only
  repeat' (first | with_reducible assumption | with_reducible apply keeps_captureLine | with_reducible apply keeps_finishRequest | with_reducible apply keeps_startGuard | with_reducible apply keeps_foldl | with_reducible apply keeps_forEach | (with_reducible exact Keeps.of_eq h rfl rfl rfl rfl rfl rfl) | split)

theorem keeps_fire (cause : FireCause) (view : Memory) (st : Standby) (h : Keeps s0 s) :
    Keeps s0 (fire cause view st s) := by
  unfold fire
  try dsimp only
  repeat' (first | with_reducible assumption | with_reducible apply keeps_deriveStandby | with_reducible apply keeps_closeFiring | with_reducible apply keeps_enterAndPlace | with_reducible apply keeps_reportFiring)

theorem keeps_cueFiring (h : Keeps s0 s) :
    Keeps s0 (cueFiring s) := by
  unfold cueFiring
  try dsimp only
  repeat' (first | with_reducible assumption | with_reducible apply keeps_updSeq | with_reducible apply keeps_fire | with_reducible apply keeps_foldl | with_reducible apply keeps_forEach | (with_reducible exact Keeps.of_eq h rfl rfl rfl rfl rfl rfl) | split)

theorem keeps_followExpires (h : Keeps s0 s) :
    Keeps s0 (followExpires s) := by
  unfold followExpires
  try dsimp only
  repeat' (first | with_reducible assumption | with_reducible apply keeps_updSeq | with_reducible apply keeps_mark | with_reducible apply keeps_askFiring)

theorem keeps_lineGo (h : Keeps s0 s) :
    Keeps s0 (lineGo s) := by
  unfold lineGo
  try dsimp only
  repeat' (first | with_reducible assumption | with_reducible apply keeps_updSeq | with_reducible apply keeps_askFiring | with_reducible apply keeps_captureLine | with_reducible apply keeps_foldl | with_reducible apply keeps_forEach | (with_reducible exact Keeps.of_eq h rfl rfl rfl rfl rfl rfl) | split)

theorem keeps_triggerEdge (t : LineId) (h : Keeps s0 s) :
    Keeps s0 (triggerEdge t s) := by
  unfold triggerEdge
  try dsimp only
  repeat' (first | with_reducible assumption | with_reducible apply keeps_updSeq | with_reducible apply keeps_askFiring | with_reducible apply keeps_captureLine | with_reducible apply keeps_foldl | with_reducible apply keeps_forEach | (with_reducible exact Keeps.of_eq h rfl rfl rfl rfl rfl rfl) | split)

theorem keeps_guardEnds (h : Keeps s0 s) :
    Keeps s0 (guardEnds s) := by
  unfold guardEnds
  try dsimp only
  repeat' (first | with_reducible assumption | with_reducible apply keeps_updSeq)

theorem keeps_goOwner (h : Keeps s0 s) :
    Keeps s0 (goOwner s).1 := by
  unfold goOwner
  try dsimp only
  repeat' (first | with_reducible assumption | with_reducible apply keeps_askFiring | with_reducible apply keeps_foldl | with_reducible apply keeps_forEach | (with_reducible exact Keeps.of_eq h rfl rfl rfl rfl rfl rfl) | split)

theorem keeps_goToOwner (n : Nat) (h : Keeps s0 s) :
    Keeps s0 (goToOwner n s).1 := by
  unfold goToOwner
  split
  · exact h
  · extract_lets x
    have hx : Keeps s0 x := keeps_askRead _ h
    split
    · exact hx
    · exact keeps_mark _ (keeps_updSeq _ hx)

theorem keeps_pauseOwner (h : Keeps s0 s) :
    Keeps s0 (pauseOwner s).1 := by
  unfold pauseOwner
  try dsimp only
  repeat' (first | with_reducible assumption | with_reducible apply keeps_updSeq | with_reducible apply keeps_mark | with_reducible apply keeps_foldl | with_reducible apply keeps_forEach | (with_reducible exact Keeps.of_eq h rfl rfl rfl rfl rfl rfl) | split)

theorem keeps_resumeOwner (h : Keeps s0 s) :
    Keeps s0 (resumeOwner s).1 := by
  unfold resumeOwner
  try dsimp only
  repeat' (first | with_reducible assumption | with_reducible apply keeps_updSeq | with_reducible apply keeps_mark | with_reducible apply keeps_foldl | with_reducible apply keeps_forEach | (with_reducible exact Keeps.of_eq h rfl rfl rfl rfl rfl rfl) | split)

theorem keeps_completeAllOwner (h : Keeps s0 s) :
    Keeps s0 (completeAllOwner s).1 := by
  unfold completeAllOwner
  try dsimp only
  repeat' (first | with_reducible assumption | with_reducible apply keeps_updSeq | with_reducible apply keeps_mark | with_reducible apply keeps_executeOwned | with_reducible apply keeps_completeLeft | with_reducible apply keeps_foldl | with_reducible apply keeps_forEach | (with_reducible exact Keeps.of_eq h rfl rfl rfl rfl rfl rfl) | split | intro)

theorem keeps_stopSequencer (h : Keeps s0 s) :
    Keeps s0 (stopSequencer s) := by
  unfold stopSequencer
  try dsimp only
  repeat' (first | with_reducible assumption | with_reducible apply keeps_updSeq | with_reducible apply keeps_mark)

theorem keeps_mixHold (m : MixId) (h : Keeps s0 s) :
    Keeps s0 (mixHold m s) := by
  unfold mixHold
  try dsimp only
  repeat' (first | with_reducible assumption | with_reducible apply keeps_updMix)

theorem keeps_acceptHold (l : LineId) (h : Keeps s0 s) :
    Keeps s0 (acceptHold l s) := by
  unfold acceptHold
  try dsimp only
  repeat' (first | with_reducible assumption | with_reducible apply keeps_mark | with_reducible apply keeps_captureEvent | with_reducible apply keeps_zoneHold | with_reducible apply keeps_mixHold | with_reducible apply keeps_foldl | with_reducible apply keeps_forEach | (with_reducible exact Keeps.of_eq h rfl rfl rfl rfl rfl rfl) | split | intro)

theorem keeps_gateRampEnd (g : GateId) (h : Keeps s0 s) :
    Keeps s0 (gateRampEnd g s) := by
  unfold gateRampEnd
  try dsimp only
  repeat' (first | with_reducible assumption | with_reducible apply keeps_mark | with_reducible apply keeps_updGate)

theorem keeps_loadTable (k : TableKind) (h : Keeps s0 s) :
    Keeps s0 (loadTable k s) := by
  unfold loadTable
  try dsimp only
  repeat' (first | with_reducible assumption | with_reducible apply keeps_askRead | with_reducible apply keeps_foldl | with_reducible apply keeps_forEach | (with_reducible exact Keeps.of_eq h rfl rfl rfl rfl rfl rfl) | split)

theorem keeps_setEngine (e : EngineState) (h : Keeps s0 s) :
    Keeps s0 (setEngine e s) := by
  unfold setEngine
  try dsimp only
  repeat' (first | with_reducible assumption | with_reducible apply keeps_mark | with_reducible apply keeps_foldl | with_reducible apply keeps_forEach | (with_reducible exact Keeps.of_eq h rfl rfl rfl rfl rfl rfl))

theorem keeps_loadShowOwner (h : Keeps s0 s) :
    Keeps s0 (loadShowOwner s).1 := by
  unfold loadShowOwner
  try dsimp only
  repeat' (first | with_reducible assumption | with_reducible apply keeps_askRead | with_reducible apply keeps_setEngine | with_reducible apply keeps_foldl | with_reducible apply keeps_forEach | (with_reducible exact Keeps.of_eq h rfl rfl rfl rfl rfl rfl) | split)

theorem keeps_refuseLoad (h : Keeps s0 s) :
    Keeps s0 (refuseLoad s) := by
  unfold refuseLoad
  try dsimp only
  repeat' (first | with_reducible assumption | with_reducible apply keeps_finishRequest | with_reducible apply keeps_setEngine | with_reducible apply keeps_foldl | with_reducible apply keeps_forEach | (with_reducible exact Keeps.of_eq h rfl rfl rfl rfl rfl rfl) | split)

theorem keeps_installChannels (x : Show) (h : Keeps s0 s) :
    Keeps s0 (installChannels x s) := by
  unfold installChannels
  try dsimp only
  repeat' (first | with_reducible assumption | with_reducible apply keeps_foldl | with_reducible apply keeps_forEach | (with_reducible exact Keeps.of_eq h rfl rfl rfl rfl rfl rfl))

theorem keeps_installClock (x : Show) (h : Keeps s0 s) :
    Keeps s0 (installClock x s) := by
  unfold installClock
  try dsimp only
  repeat' (first | with_reducible assumption | with_reducible apply keeps_foldl | with_reducible apply keeps_forEach | (with_reducible exact Keeps.of_eq h rfl rfl rfl rfl rfl rfl))

theorem keeps_installMixes (x : Show) (h : Keeps s0 s) :
    Keeps s0 (installMixes x s) := by
  unfold installMixes
  try dsimp only
  repeat' (first | with_reducible assumption | with_reducible apply keeps_mixHold | with_reducible apply keeps_foldl | with_reducible apply keeps_forEach | (with_reducible exact Keeps.of_eq h rfl rfl rfl rfl rfl rfl) | split | intro)

theorem keeps_installZone (cfg : ZoneCfg) (z : ZoneId) (h : Keeps s0 s) :
    Keeps s0 (installZone cfg z s) := by
  unfold installZone
  try dsimp only
  repeat' (first | with_reducible assumption | with_reducible apply keeps_updZone | with_reducible apply keeps_powerIfWanted | with_reducible apply keeps_commandDuck | with_reducible apply keeps_zoneHold | with_reducible apply keeps_foldl | with_reducible apply keeps_forEach | (with_reducible exact Keeps.of_eq h rfl rfl rfl rfl rfl rfl) | split)

theorem keeps_installZones (x : Show) (h : Keeps s0 s) :
    Keeps s0 (installZones x s) := by
  unfold installZones
  try dsimp only
  repeat' (first | with_reducible assumption | with_reducible apply keeps_installZone | with_reducible apply keeps_foldl | with_reducible apply keeps_forEach | (with_reducible exact Keeps.of_eq h rfl rfl rfl rfl rfl rfl) | split | intro)

theorem keeps_installSequencer (x : Show) (h : Keeps s0 s) : Keeps s0 (installSequencer x s) :=
  keeps_askRead _ (keeps_updSeq _ h)

theorem keeps_installMirror (x : Show) (h : Keeps s0 s) :
    Keeps s0 (installMirror x s) := by
  unfold installMirror
  try dsimp only
  repeat' (first | with_reducible assumption | with_reducible apply keeps_handOverAll | with_reducible apply keeps_foldl | with_reducible apply keeps_forEach | (with_reducible exact Keeps.of_eq h rfl rfl rfl rfl rfl rfl))

theorem keeps_installTables (x : Show) (h : Keeps s0 s) :
    Keeps s0 (installTables x s) := by
  unfold installTables
  try dsimp only
  repeat' (first | with_reducible assumption | with_reducible apply keeps_foldl | with_reducible apply keeps_forEach | (with_reducible exact Keeps.of_eq h rfl rfl rfl rfl rfl rfl))

theorem keeps_install (x : Show) (h : Keeps s0 s) :
    Keeps s0 (install x s) := by
  unfold install
  try dsimp only
  repeat' (first | with_reducible assumption | with_reducible apply keeps_setEngine | with_reducible apply keeps_installChannels | with_reducible apply keeps_installClock | with_reducible apply keeps_installMixes | with_reducible apply keeps_installZones | with_reducible apply keeps_installSequencer | with_reducible apply keeps_installMirror | with_reducible apply keeps_installTables | with_reducible apply keeps_foldl | with_reducible apply keeps_forEach | (with_reducible exact Keeps.of_eq h rfl rfl rfl rfl rfl rfl))

theorem keeps_installLoad (h : Keeps s0 s) :
    Keeps s0 (installLoad s) := by
  unfold installLoad
  try dsimp only
  repeat' (first | with_reducible assumption | with_reducible apply keeps_finishRequest | with_reducible apply keeps_install | with_reducible apply keeps_foldl | with_reducible apply keeps_forEach | (with_reducible exact Keeps.of_eq h rfl rfl rfl rfl rfl rfl) | split)

theorem keeps_stopVoices (h : Keeps s0 s) :
    Keeps s0 (stopVoices s) := by
  unfold stopVoices
  try dsimp only
  repeat' (first | with_reducible assumption | with_reducible apply keeps_enterIdle | with_reducible apply keeps_foldl | with_reducible apply keeps_forEach | (with_reducible exact Keeps.of_eq h rfl rfl rfl rfl rfl rfl) | split | intro)

theorem keeps_stopZones (h : Keeps s0 s) :
    Keeps s0 (stopZones s) := by
  unfold stopZones
  try dsimp only
  repeat' (first | with_reducible assumption | with_reducible apply keeps_zoneOff | with_reducible apply keeps_commandDuck | with_reducible apply keeps_foldl | with_reducible apply keeps_forEach | (with_reducible exact Keeps.of_eq h rfl rfl rfl rfl rfl rfl) | split | intro)

theorem keeps_stopShowOwner (h : Keeps s0 s) :
    Keeps s0 (stopShowOwner s).1 := by
  unfold stopShowOwner
  try dsimp only
  repeat' (first | with_reducible assumption | with_reducible apply keeps_mark | with_reducible apply keeps_finishCrossfades | with_reducible apply keeps_stopPagesAndCalls | with_reducible apply keeps_stopSequencer | with_reducible apply keeps_setEngine | with_reducible apply keeps_stopVoices | with_reducible apply keeps_stopZones | with_reducible apply keeps_foldl | with_reducible apply keeps_forEach | (with_reducible exact Keeps.of_eq h rfl rfl rfl rfl rfl rfl))

theorem keeps_setLevel (e : Elem) (x : Level) (time : Nat) (curve : Curve) (h : Keeps s0 s) :
    Keeps s0 (setLevel e x time curve s).1 := by
  unfold setLevel
  try dsimp only
  repeat' (first | with_reducible assumption | with_reducible apply keeps_cut | with_reducible apply keeps_placeFade | with_reducible apply keeps_foldl | with_reducible apply keeps_forEach | (with_reducible exact Keeps.of_eq h rfl rfl rfl rfl rfl rfl) | split)

theorem keeps_setLevelOwner (ref : ElemRef) (value : BitVec 16) (time : Nat) (curve : Option Curve) (h : Keeps s0 s) :
    Keeps s0 (setLevelOwner ref value time curve s).1 := by
  unfold setLevelOwner
  try dsimp only
  repeat' (first | with_reducible assumption | with_reducible apply keeps_setLevel | with_reducible apply keeps_foldl | with_reducible apply keeps_forEach | (with_reducible exact Keeps.of_eq h rfl rfl rfl rfl rfl rfl) | split)

theorem keeps_voiceStartOwner (voice sound : Nat) (level : BitVec 16) (loop : Bool) (h : Keeps s0 s) :
    Keeps s0 (voiceStartOwner voice sound level loop s).1 := by
  have ha := keeps_askSound none sound h
  unfold voiceStartOwner
  split
  · exact h
  · extract_lets x
    split
    · exact ha
    · exact ha
    · exact keeps_takePlay _ _ _ _ ha

theorem keeps_stopVoice (v : VoiceId) (time : Nat) (h : Keeps s0 s) :
    Keeps s0 (stopVoice v time s).1 := by
  unfold stopVoice
  try dsimp only
  repeat' (first | with_reducible assumption | with_reducible apply keeps_voiceStopping | with_reducible apply keeps_stopCut | with_reducible apply keeps_placeFade | with_reducible apply keeps_foldl | with_reducible apply keeps_forEach | (with_reducible exact Keeps.of_eq h rfl rfl rfl rfl rfl rfl) | split)

theorem keeps_voiceStopOwner (voice time : Nat) (h : Keeps s0 s) :
    Keeps s0 (voiceStopOwner voice time s).1 := by
  unfold voiceStopOwner
  try dsimp only
  repeat' (first | with_reducible assumption | with_reducible apply keeps_stopVoice | with_reducible apply keeps_foldl | with_reducible apply keeps_forEach | (with_reducible exact Keeps.of_eq h rfl rfl rfl rfl rfl rfl) | split)

theorem keeps_relayOwner (group : Nat) (switch : Option Bool) (h : Keeps s0 s) :
    Keeps s0 (relayOwner group switch s).1 := by
  unfold relayOwner
  try dsimp only
  repeat' (first | with_reducible assumption | with_reducible apply keeps_relayAction | with_reducible apply keeps_foldl | with_reducible apply keeps_forEach | (with_reducible exact Keeps.of_eq h rfl rfl rfl rfl rfl rfl) | split)

theorem keeps_clearFault (z : ZoneId) (h : Keeps s0 s) :
    Keeps s0 (clearFault z s) := by
  unfold clearFault
  try dsimp only
  repeat' (first | with_reducible assumption | with_reducible apply keeps_zoneOff | with_reducible apply keeps_powerIfWanted)

theorem keeps_clearZoneFaultOwner (group : Nat) (h : Keeps s0 s) :
    Keeps s0 (clearZoneFaultOwner group s).1 := by
  unfold clearZoneFaultOwner
  try dsimp only
  repeat' (first | with_reducible assumption | with_reducible apply keeps_clearFault | with_reducible apply keeps_foldl | with_reducible apply keeps_forEach | (with_reducible exact Keeps.of_eq h rfl rfl rfl rfl rfl rfl) | split)

theorem keeps_setLock (l : LockLevel) (h : Keeps s0 s) :
    Keeps s0 (setLock l s) := by
  unfold setLock
  try dsimp only
  repeat' (first | with_reducible assumption | with_reducible apply keeps_mark | with_reducible apply keeps_foldl | with_reducible apply keeps_forEach | (with_reducible exact Keeps.of_eq h rfl rfl rfl rfl rfl rfl) | split)

theorem keeps_lockOwner (level : Nat) (h : Keeps s0 s) :
    Keeps s0 (lockOwner level s).1 := by
  unfold lockOwner
  try dsimp only
  repeat' (first | with_reducible assumption | with_reducible apply keeps_setLock | with_reducible apply keeps_foldl | with_reducible apply keeps_forEach | (with_reducible exact Keeps.of_eq h rfl rfl rfl rfl rfl rfl) | split)

theorem keeps_unlockOwner (h : Keeps s0 s) :
    Keeps s0 (unlockOwner s).1 := by
  unfold unlockOwner
  try dsimp only
  repeat' (first | with_reducible assumption | with_reducible apply keeps_setLock | with_reducible apply keeps_foldl | with_reducible apply keeps_forEach | (with_reducible exact Keeps.of_eq h rfl rfl rfl rfl rfl rfl) | split)

theorem keeps_captureNowOwner (word0 word1 : Word) (h : Keeps s0 s) :
    Keeps s0 (captureNowOwner word0 word1 s).1 := by
  unfold captureNowOwner
  try dsimp only
  repeat' (first | with_reducible assumption | with_reducible apply keeps_captureEvent | with_reducible apply keeps_foldl | with_reducible apply keeps_forEach | (with_reducible exact Keeps.of_eq h rfl rfl rfl rfl rfl rfl) | split)

theorem keeps_ownerOf (r : Request) (h : Keeps s0 s) :
    Keeps s0 (ownerOf r s).1 := by
  cases r <;> simp only [ownerOf, later]
  · exact keeps_loadShowOwner h
  · exact keeps_stopShowOwner h
  · exact keeps_goOwner h
  · exact keeps_goToOwner _ h
  · exact keeps_pauseOwner h
  · exact keeps_resumeOwner h
  · exact keeps_completeAllOwner h
  · exact keeps_setLevelOwner _ _ _ _ h
  · exact keeps_swapTapOwner _ _ _ h
  · exact keeps_voiceStartOwner _ _ _ _ h
  · exact keeps_voiceStopOwner _ _ h
  · exact keeps_relayOwner _ _ h
  · exact keeps_clearZoneFaultOwner _ h
  · exact keeps_pageOpenOwner _ _ _ _ h
  · exact keeps_pageCloseOwner _ h
  · exact keeps_callNowOwner _ h
  · exact keeps_setTimeOwner _ _ _ _ h
  · exact keeps_lockOwner _ h
  · exact keeps_unlockOwner h
  · exact keeps_captureNowOwner _ _ h

theorem keeps_markHanded (h : Keeps s0 s) :
    Keeps s0 (markHanded s) := by
  unfold markHanded
  try dsimp only
  repeat' (first | with_reducible assumption | with_reducible apply keeps_foldl | with_reducible apply keeps_forEach | (with_reducible exact Keeps.of_eq h rfl rfl rfl rfl rfl rfl))

theorem keeps_handOver (r : Request) (h : Keeps s0 s) :
    Keeps s0 (handOver r s) := by
  unfold handOver
  split
  · exact keeps_finishRequest _ h
  · split
    · next he => exact keeps_finishRequest _ (keeps_fst he (keeps_ownerOf _ (keeps_markHanded h)))
    · next he => exact keeps_fst he (keeps_ownerOf _ (keeps_markHanded h))

theorem keeps_dispatch (h : Keeps s0 s) :
    Keeps s0 (dispatch s) := by
  unfold dispatch
  try dsimp only
  repeat' (first | with_reducible assumption | with_reducible apply keeps_finishRequest | with_reducible apply keeps_handOver | with_reducible apply keeps_foldl | with_reducible apply keeps_forEach | (with_reducible exact Keeps.of_eq h rfl rfl rfl rfl rfl rfl) | split)

theorem keeps_takeSlot (h : Keeps s0 s) :
    Keeps s0 (takeSlot s) := by
  unfold takeSlot
  try dsimp only
  repeat' (first | with_reducible assumption | with_reducible apply keeps_setView | with_reducible apply keeps_joinQueue | with_reducible apply keeps_askRead | with_reducible apply keeps_foldl | with_reducible apply keeps_forEach | (with_reducible exact Keeps.of_eq h rfl rfl rfl rfl rfl rfl) | split)

theorem keeps_slotRead (i : SlotId) (h : Keeps s0 s) :
    Keeps s0 (slotRead i s) := by
  unfold slotRead
  try dsimp only
  repeat' (first | with_reducible assumption | with_reducible apply keeps_foldl | with_reducible apply keeps_forEach | (with_reducible exact Keeps.of_eq h rfl rfl rfl rfl rfl rfl) | split)

theorem keeps_slotAnswered (i : SlotId) (st : SlotState) (h : Keeps s0 s) :
    Keeps s0 (slotAnswered i st s) := by
  unfold slotAnswered
  try dsimp only
  repeat' (first | with_reducible assumption | with_reducible apply keeps_setView | with_reducible apply keeps_foldl | with_reducible apply keeps_forEach | (with_reducible exact Keeps.of_eq h rfl rfl rfl rfl rfl rfl))

theorem keeps_endAccess (err : Bool) (data : Word) (h : Keeps s0 s) :
    Keeps s0 (endAccess err data s) := by
  unfold endAccess
  try dsimp only
  repeat' (first | with_reducible assumption | with_reducible apply keeps_foldl | with_reducible apply keeps_forEach | (with_reducible exact Keeps.of_eq h rfl rfl rfl rfl rfl rfl))

theorem keeps_refuseAccess (addr : Nat) (cause : FaultCause) (write : Bool) (h : Keeps s0 s) :
    Keeps s0 (refuseAccess addr cause write s) := by
  unfold refuseAccess
  try dsimp only
  repeat' (first | with_reducible assumption | with_reducible apply keeps_updNotice | with_reducible apply keeps_endAccess | with_reducible apply keeps_foldl | with_reducible apply keeps_forEach | (with_reducible exact Keeps.of_eq h rfl rfl rfl rfl rfl rfl))

theorem keeps_setArrival (l : List SlotId) (h : Keeps s0 s) :
    Keeps s0 (setArrival l s) := by
  unfold setArrival
  try dsimp only
  repeat' (first | with_reducible assumption | with_reducible apply keeps_foldl | with_reducible apply keeps_forEach | (with_reducible exact Keeps.of_eq h rfl rfl rfl rfl rfl rfl))

theorem keeps_applyEffect (e : WriteEffect) (h : Keeps s0 s) :
    Keeps s0 (applyEffect e s) := by
  unfold applyEffect
  try dsimp only
  repeat' (first | with_reducible assumption | with_reducible apply keeps_setView | with_reducible apply keeps_setCell | with_reducible apply keeps_setArrival | with_reducible apply keeps_foldl | with_reducible apply keeps_forEach | (with_reducible exact Keeps.of_eq h rfl rfl rfl rfl rfl rfl) | split)

theorem keeps_beginWait (a : HostAccess) (h : Keeps s0 s) :
    Keeps s0 (beginWait a s) := by
  unfold beginWait
  try dsimp only
  repeat' (first | with_reducible assumption | with_reducible apply keeps_foldl | with_reducible apply keeps_forEach | (with_reducible exact Keeps.of_eq h rfl rfl rfl rfl rfl rfl))

theorem keeps_hostWrite (addr : Nat) (data : Word) (h : Keeps s0 s) :
    Keeps s0 (hostWrite addr data s) := by
  unfold hostWrite
  try dsimp only
  repeat' (first | with_reducible assumption | with_reducible apply keeps_refuseAccess | with_reducible apply keeps_applyEffect | with_reducible apply keeps_beginWait | with_reducible apply keeps_foldl | with_reducible apply keeps_forEach | (with_reducible exact Keeps.of_eq h rfl rfl rfl rfl rfl rfl) | split)

theorem keeps_hostRead (addr : Nat) (h : Keeps s0 s) :
    Keeps s0 (hostRead addr s) := by
  unfold hostRead
  try dsimp only
  repeat' (first | with_reducible assumption | with_reducible apply keeps_refuseAccess | with_reducible apply keeps_beginWait | with_reducible apply keeps_foldl | with_reducible apply keeps_forEach | (with_reducible exact Keeps.of_eq h rfl rfl rfl rfl rfl rfl) | split)

theorem keeps_admit (a : HostAccess) (h : Keeps s0 s) : Keeps s0 (admitAccess a s) := by
  cases a with
  | read addr => exact keeps_hostRead addr h
  | write addr data => exact keeps_hostWrite addr data h

theorem keeps_arrive (a : HostAccess) (h : Keeps s0 s) : Keeps s0 (arrive a s) := by
  unfold arrive
  split
  · exact keeps_admit a h
  · exact h.of_eq rfl rfl rfl rfl rfl rfl

theorem keeps_countTurn (h : Keeps s0 s) :
    Keeps s0 (countTurn s) := by
  unfold countTurn
  try dsimp only
  repeat' (first | with_reducible assumption | with_reducible apply keeps_foldl | with_reducible apply keeps_forEach | (with_reducible exact Keeps.of_eq h rfl rfl rfl rfl rfl rfl) | split)

theorem keeps_setBusy (t : Option Turn) (h : Keeps s0 s) :
    Keeps s0 (setBusy t s) := by
  unfold setBusy
  try dsimp only
  repeat' (first | with_reducible assumption | with_reducible apply keeps_foldl | with_reducible apply keeps_forEach | (with_reducible exact Keeps.of_eq h rfl rfl rfl rfl rfl rfl))

theorem keeps_firingRead (h : Keeps s0 s) :
    Keeps s0 (firingRead s) := by
  unfold firingRead
  try dsimp only
  repeat' (first | with_reducible assumption | with_reducible apply keeps_updSeq)

theorem keeps_engineRead (r : EngineRead) (h : Keeps s0 s) :
    Keeps s0 (engineRead r s) := by
  unfold engineRead
  try dsimp only
  repeat' (first | with_reducible assumption | with_reducible apply keeps_loadTable | with_reducible apply keeps_slotRead | with_reducible apply keeps_countTurn | with_reducible apply keeps_firingRead | with_reducible apply keeps_foldl | with_reducible apply keeps_forEach | (with_reducible exact Keeps.of_eq h rfl rfl rfl rfl rfl rfl) | split)

theorem keeps_grantFetch (v : VoiceId) (h : Keeps s0 s) :
    Keeps s0 (grantFetch v s) := by
  unfold grantFetch
  try dsimp only
  repeat' (first | with_reducible assumption | with_reducible apply keeps_countTurn | with_reducible apply keeps_setBusy | with_reducible apply keeps_foldl | with_reducible apply keeps_forEach | (with_reducible exact Keeps.of_eq h rfl rfl rfl rfl rfl rfl) | split)

theorem keeps_takeBurst (v : VoiceId) (samples : List Sample) (h : Keeps s0 s) :
    Keeps s0 (takeBurst v samples s) := by
  unfold takeBurst
  try dsimp only
  repeat' (first | with_reducible assumption | with_reducible apply keeps_updVoice | with_reducible apply keeps_primingStep)

theorem keeps_burstArrives (v : VoiceId) (h : Keeps s0 s) :
    Keeps s0 (burstArrives v s) := by
  unfold burstArrives
  try dsimp only
  repeat' (first | with_reducible assumption | with_reducible apply keeps_setBusy | with_reducible apply keeps_takeBurst | with_reducible apply keeps_foldl | with_reducible apply keeps_forEach | (with_reducible exact Keeps.of_eq h rfl rfl rfl rfl rfl rfl) | split)

theorem keeps_burstTold (b : Burst) (h : Keeps s0 s) :
    Keeps s0 (burstTold b s) := by
  unfold burstTold
  try dsimp only
  repeat' (first | with_reducible assumption | with_reducible apply keeps_setCell | with_reducible apply keeps_slotAnswered | with_reducible apply keeps_foldl | with_reducible apply keeps_forEach | (with_reducible exact Keeps.of_eq h rfl rfl rfl rfl rfl rfl) | split)

theorem keeps_event {due : Bool} {op : State → State} (hop : ∀ s, Keeps s0 s → Keeps s0 (op s))
    (h : Keeps s0 s) : Keeps s0 (event due op s) := by
  unfold event
  split
  · exact keeps_finish (hop s h)
  · exact h

theorem keeps_lockEvent (l : Link) (h : Keeps s0 s) :
    Keeps s0 (lockEvent l s) := by
  unfold lockEvent
  try dsimp only
  repeat' (first | with_reducible assumption | with_reducible apply keeps_lockReceiver | with_reducible apply keeps_event | with_reducible apply keeps_foldl | with_reducible apply keeps_forEach | (with_reducible exact Keeps.of_eq h rfl rfl rfl rfl rfl rfl) | split | intro)

theorem keeps_unlockEvent (l : Link) (h : Keeps s0 s) :
    Keeps s0 (unlockEvent l s) := by
  unfold unlockEvent
  try dsimp only
  repeat' (first | with_reducible assumption | with_reducible apply keeps_unlockReceiver | with_reducible apply keeps_event | with_reducible apply keeps_foldl | with_reducible apply keeps_forEach | (with_reducible exact Keeps.of_eq h rfl rfl rfl rfl rfl rfl) | split | intro)

theorem keeps_setSource (src : ClockSource) (coasting : Bool) (h : Keeps s0 s) :
    Keeps s0 (setSource src coasting s) := by
  unfold setSource
  try dsimp only
  repeat' (first | with_reducible assumption | with_reducible apply keeps_mark | with_reducible apply keeps_foldl | with_reducible apply keeps_forEach | (with_reducible exact Keeps.of_eq h rfl rfl rfl rfl rfl rfl))

theorem keeps_fallBack (h : Keeps s0 s) :
    Keeps s0 (fallBack s) := by
  unfold fallBack
  try dsimp only
  repeat' (first | with_reducible assumption | with_reducible apply keeps_updNotice | with_reducible apply keeps_setSource)

theorem keeps_returnToWclk (h : Keeps s0 s) :
    Keeps s0 (returnToWclk s) := by
  unfold returnToWclk
  try dsimp only
  repeat' (first | with_reducible assumption | with_reducible apply keeps_setSource)

theorem keeps_fallbackEvent (h : Keeps s0 s) :
    Keeps s0 (fallbackEvent s) := by
  unfold fallbackEvent
  try dsimp only
  repeat' (first | with_reducible assumption | with_reducible apply keeps_event | with_reducible apply keeps_fallBack)

theorem keeps_returnEvent (h : Keeps s0 s) :
    Keeps s0 (returnEvent s) := by
  unfold returnEvent
  try dsimp only
  repeat' (first | with_reducible assumption | with_reducible apply keeps_event | with_reducible apply keeps_returnToWclk)

theorem keeps_presentFalseEvent (c : Channel) (h : Keeps s0 s) :
    Keeps s0 (presentFalseEvent c s) := by
  unfold presentFalseEvent
  try dsimp only
  repeat' (first | with_reducible assumption | with_reducible apply keeps_presentFalse | with_reducible apply keeps_event | with_reducible apply keeps_foldl | with_reducible apply keeps_forEach | (with_reducible exact Keeps.of_eq h rfl rfl rfl rfl rfl rfl) | split | intro)

theorem keeps_presentTrueEvent (c : Channel) (h : Keeps s0 s) :
    Keeps s0 (presentTrueEvent c s) := by
  unfold presentTrueEvent
  try dsimp only
  repeat' (first | with_reducible assumption | with_reducible apply keeps_presentTrue | with_reducible apply keeps_event | with_reducible apply keeps_foldl | with_reducible apply keeps_forEach | (with_reducible exact Keeps.of_eq h rfl rfl rfl rfl rfl rfl) | split | intro)

theorem keeps_confirmEvent (c : Channel) (h : Keeps s0 s) :
    Keeps s0 (confirmEvent c s) := by
  unfold confirmEvent
  try dsimp only
  repeat' (first | with_reducible assumption | with_reducible apply keeps_enterLost | with_reducible apply keeps_event | with_reducible apply keeps_foldl | with_reducible apply keeps_forEach | (with_reducible exact Keeps.of_eq h rfl rfl rfl rfl rfl rfl) | split | intro)

theorem keeps_holdTimerEvent (c : Channel) (h : Keeps s0 s) :
    Keeps s0 (holdTimerEvent c s) := by
  unfold holdTimerEvent
  try dsimp only
  repeat' (first | with_reducible assumption | with_reducible apply keeps_enterLive | with_reducible apply keeps_event | with_reducible apply keeps_foldl | with_reducible apply keeps_forEach | (with_reducible exact Keeps.of_eq h rfl rfl rfl rfl rfl rfl) | split | intro)

theorem keeps_batteryEvent (c : Channel) (h : Keeps s0 s) :
    Keeps s0 (batteryEvent c s) := by
  unfold batteryEvent
  try dsimp only
  repeat' (first | with_reducible assumption | with_reducible apply keeps_batteryEdge | with_reducible apply keeps_event | with_reducible apply keeps_foldl | with_reducible apply keeps_forEach | (with_reducible exact Keeps.of_eq h rfl rfl rfl rfl rfl rfl) | split | intro)

theorem keeps_rampEndEvent (g : GateId) (h : Keeps s0 s) :
    Keeps s0 (rampEndEvent g s) := by
  unfold rampEndEvent
  try dsimp only
  repeat' (first | with_reducible assumption | with_reducible apply keeps_gateRampEnd | with_reducible apply keeps_event | with_reducible apply keeps_foldl | with_reducible apply keeps_forEach | (with_reducible exact Keeps.of_eq h rfl rfl rfl rfl rfl rfl) | split | intro)

theorem keeps_acceptEvent (l : LineId) (h : Keeps s0 s) :
    Keeps s0 (acceptEvent l s) := by
  unfold acceptEvent
  try dsimp only
  repeat' (first | with_reducible assumption | with_reducible apply keeps_acceptHold | with_reducible apply keeps_event | with_reducible apply keeps_foldl | with_reducible apply keeps_forEach | (with_reducible exact Keeps.of_eq h rfl rfl rfl rfl rfl rfl) | split | intro)

theorem keeps_lineGoEvent (h : Keeps s0 s) :
    Keeps s0 (lineGoEvent s) := by
  unfold lineGoEvent
  try dsimp only
  repeat' (first | with_reducible assumption | with_reducible apply keeps_lineGo | with_reducible apply keeps_event)

theorem keeps_triggerEvent (t : LineId) (h : Keeps s0 s) :
    Keeps s0 (triggerEvent t s) := by
  unfold triggerEvent
  try dsimp only
  repeat' (first | with_reducible assumption | with_reducible apply keeps_triggerEdge | with_reducible apply keeps_event | with_reducible apply keeps_foldl | with_reducible apply keeps_forEach | (with_reducible exact Keeps.of_eq h rfl rfl rfl rfl rfl rfl) | split | intro)

theorem keeps_guardEvent (h : Keeps s0 s) :
    Keeps s0 (guardEvent s) := by
  unfold guardEvent
  try dsimp only
  repeat' (first | with_reducible assumption | with_reducible apply keeps_guardEnds | with_reducible apply keeps_event)

theorem keeps_followEvent (h : Keeps s0 s) :
    Keeps s0 (followEvent s) := by
  unfold followEvent
  try dsimp only
  repeat' (first | with_reducible assumption | with_reducible apply keeps_followExpires | with_reducible apply keeps_event)

theorem keeps_firingEvent (h : Keeps s0 s) :
    Keeps s0 (firingEvent s) := by
  unfold firingEvent
  try dsimp only
  repeat' (first | with_reducible assumption | with_reducible apply keeps_cueFiring | with_reducible apply keeps_event)

theorem keeps_delayEvent (i : RecId) (h : Keeps s0 s) :
    Keeps s0 (delayEvent i s) := by
  unfold delayEvent
  try dsimp only
  repeat' (first | with_reducible assumption | with_reducible apply keeps_actRecord | with_reducible apply keeps_event | with_reducible apply keeps_foldl | with_reducible apply keeps_forEach | (with_reducible exact Keeps.of_eq h rfl rfl rfl rfl rfl rfl) | split | intro)

theorem keeps_fadeEvent (i : RecId) (h : Keeps s0 s) :
    Keeps s0 (fadeEvent i s) := by
  unfold fadeEvent
  try dsimp only
  repeat' (first | with_reducible assumption | with_reducible apply keeps_completeFade | with_reducible apply keeps_event | with_reducible apply keeps_foldl | with_reducible apply keeps_forEach | (with_reducible exact Keeps.of_eq h rfl rfl rfl rfl rfl rfl) | split | intro)

theorem keeps_arrivalEvent (v : VoiceId) (h : Keeps s0 s) :
    Keeps s0 (arrivalEvent v s) := by
  unfold arrivalEvent
  try dsimp only
  repeat' (first | with_reducible assumption | with_reducible apply keeps_burstArrives | with_reducible apply keeps_event | with_reducible apply keeps_foldl | with_reducible apply keeps_forEach | (with_reducible exact Keeps.of_eq h rfl rfl rfl rfl rfl rfl) | split | intro)

theorem keeps_soundEndEvent (v : VoiceId) (h : Keeps s0 s) :
    Keeps s0 (soundEndEvent v s) := by
  unfold soundEndEvent
  try dsimp only
  repeat' (first | with_reducible assumption | with_reducible apply keeps_endSound | with_reducible apply keeps_event | with_reducible apply keeps_foldl | with_reducible apply keeps_forEach | (with_reducible exact Keeps.of_eq h rfl rfl rfl rfl rfl rfl) | split | intro)

theorem keeps_stabilityEvent (z : ZoneId) (h : Keeps s0 s) :
    Keeps s0 (stabilityEvent z s) := by
  unfold stabilityEvent
  try dsimp only
  repeat' (first | with_reducible assumption | with_reducible apply keeps_stabilityEnd | with_reducible apply keeps_event | with_reducible apply keeps_foldl | with_reducible apply keeps_forEach | (with_reducible exact Keeps.of_eq h rfl rfl rfl rfl rfl rfl) | split | intro)

theorem keeps_ampOkEvent (z : ZoneId) (h : Keeps s0 s) :
    Keeps s0 (ampOkEvent z s) := by
  unfold ampOkEvent
  try dsimp only
  repeat' (first | with_reducible assumption | with_reducible apply keeps_zoneEnterLive | with_reducible apply keeps_event | with_reducible apply keeps_foldl | with_reducible apply keeps_forEach | (with_reducible exact Keeps.of_eq h rfl rfl rfl rfl rfl rfl) | split | intro)

theorem keeps_sampleEvent (z : ZoneId) (h : Keeps s0 s) :
    Keeps s0 (sampleEvent z s) := by
  unfold sampleEvent
  try dsimp only
  repeat' (first | with_reducible assumption | with_reducible apply keeps_zoneFault | with_reducible apply keeps_event | with_reducible apply keeps_foldl | with_reducible apply keeps_forEach | (with_reducible exact Keeps.of_eq h rfl rfl rfl rfl rfl rfl) | split | intro)

theorem keeps_ampDropEvent (z : ZoneId) (h : Keeps s0 s) :
    Keeps s0 (ampDropEvent z s) := by
  unfold ampDropEvent
  try dsimp only
  repeat' (first | with_reducible assumption | with_reducible apply keeps_zoneFault | with_reducible apply keeps_event | with_reducible apply keeps_foldl | with_reducible apply keeps_forEach | (with_reducible exact Keeps.of_eq h rfl rfl rfl rfl rfl rfl) | split | intro)

theorem keeps_idleEvent (z : ZoneId) (h : Keeps s0 s) :
    Keeps s0 (idleEvent z s) := by
  unfold idleEvent
  try dsimp only
  repeat' (first | with_reducible assumption | with_reducible apply keeps_zoneOff | with_reducible apply keeps_event | with_reducible apply keeps_foldl | with_reducible apply keeps_forEach | (with_reducible exact Keeps.of_eq h rfl rfl rfl rfl rfl rfl) | split | intro)

theorem keeps_limitEvent (p : PageId) (h : Keeps s0 s) :
    Keeps s0 (limitEvent p s) := by
  unfold limitEvent
  try dsimp only
  repeat' (first | with_reducible assumption | with_reducible apply keeps_closePage | with_reducible apply keeps_event | with_reducible apply keeps_foldl | with_reducible apply keeps_forEach | (with_reducible exact Keeps.of_eq h rfl rfl rfl rfl rfl rfl) | split | intro)

theorem keeps_rolloverEvent (h : Keeps s0 s) :
    Keeps s0 (rolloverEvent s) := by
  unfold rolloverEvent
  try dsimp only
  repeat' (first | with_reducible assumption | with_reducible apply keeps_secondRollover | with_reducible apply keeps_event)

theorem keeps_patienceEvent (c : CallId) (h : Keeps s0 s) :
    Keeps s0 (patienceEvent c s) := by
  unfold patienceEvent
  try dsimp only
  repeat' (first | with_reducible assumption | with_reducible apply keeps_patienceEnds | with_reducible apply keeps_event | with_reducible apply keeps_foldl | with_reducible apply keeps_forEach | (with_reducible exact Keeps.of_eq h rfl rfl rfl rfl rfl rfl) | split | intro)

theorem keeps_mirrorEvent (h : Keeps s0 s) :
    Keeps s0 (mirrorEvent s) := by
  unfold mirrorEvent
  try dsimp only
  repeat' (first | with_reducible assumption | with_reducible apply keeps_mirrorTick | with_reducible apply keeps_event)

theorem keeps_metersEvent (h : Keeps s0 s) :
    Keeps s0 (metersEvent s) := by
  unfold metersEvent
  try dsimp only
  repeat' (first | with_reducible assumption | with_reducible apply keeps_metersTick | with_reducible apply keeps_event)

theorem keeps_settleLinks (h : Keeps s0 s) :
    Keeps s0 (settleLinks s) := by
  unfold settleLinks
  try dsimp only
  repeat' (first | with_reducible assumption | with_reducible apply keeps_lockEvent | with_reducible apply keeps_unlockEvent | with_reducible apply keeps_foldl | with_reducible apply keeps_forEach | (with_reducible exact Keeps.of_eq h rfl rfl rfl rfl rfl rfl) | split | intro)

theorem keeps_settleChannel (c : Channel) (h : Keeps s0 s) :
    Keeps s0 (settleChannel c s) := by
  unfold settleChannel
  try dsimp only
  repeat' (first | with_reducible assumption | with_reducible apply keeps_presentFalseEvent | with_reducible apply keeps_presentTrueEvent | with_reducible apply keeps_confirmEvent | with_reducible apply keeps_holdTimerEvent | with_reducible apply keeps_batteryEvent)

theorem keeps_settleZone (z : ZoneId) (h : Keeps s0 s) :
    Keeps s0 (settleZone z s) := by
  unfold settleZone
  try dsimp only
  repeat' (first | with_reducible assumption | with_reducible apply keeps_stabilityEvent | with_reducible apply keeps_ampOkEvent | with_reducible apply keeps_sampleEvent | with_reducible apply keeps_ampDropEvent | with_reducible apply keeps_idleEvent)

theorem keeps_settleClock (h : Keeps s0 s) :
    Keeps s0 (settleClock s) := by
  unfold settleClock
  try dsimp only
  repeat' (first | with_reducible assumption | with_reducible apply keeps_fallbackEvent | with_reducible apply keeps_returnEvent)

theorem keeps_settleRecords (h : Keeps s0 s) :
    Keeps s0 (settleRecords s) := by
  unfold settleRecords
  try dsimp only
  repeat' (first | with_reducible assumption | with_reducible apply keeps_delayEvent | with_reducible apply keeps_fadeEvent | with_reducible apply keeps_foldl | with_reducible apply keeps_forEach | (with_reducible exact Keeps.of_eq h rfl rfl rfl rfl rfl rfl) | split | intro)

theorem keeps_settleCalls (h : Keeps s0 s) :
    Keeps s0 (settleCalls s) := by
  unfold settleCalls
  try dsimp only
  repeat' (first | with_reducible assumption | with_reducible apply keeps_limitEvent | with_reducible apply keeps_rolloverEvent | with_reducible apply keeps_patienceEvent | with_reducible apply keeps_foldl | with_reducible apply keeps_forEach | (with_reducible exact Keeps.of_eq h rfl rfl rfl rfl rfl rfl) | split | intro)

theorem keeps_settleCues (h : Keeps s0 s) :
    Keeps s0 (settleCues s) := by
  unfold settleCues
  try dsimp only
  repeat' (first | with_reducible assumption | with_reducible apply keeps_lineGoEvent | with_reducible apply keeps_triggerEvent | with_reducible apply keeps_guardEvent | with_reducible apply keeps_followEvent | with_reducible apply keeps_foldl | with_reducible apply keeps_forEach | (with_reducible exact Keeps.of_eq h rfl rfl rfl rfl rfl rfl) | split | intro)

theorem keeps_settle (h : Keeps s0 s) :
    Keeps s0 (settle s) := by
  unfold settle
  try dsimp only
  repeat' (first | with_reducible assumption | with_reducible apply keeps_rampEndEvent | with_reducible apply keeps_acceptEvent | with_reducible apply keeps_firingEvent | with_reducible apply keeps_soundEndEvent | with_reducible apply keeps_mirrorEvent | with_reducible apply keeps_metersEvent | with_reducible apply keeps_settleLinks | with_reducible apply keeps_settleChannel | with_reducible apply keeps_settleZone | with_reducible apply keeps_settleClock | with_reducible apply keeps_settleRecords | with_reducible apply keeps_settleCalls | with_reducible apply keeps_settleCues | with_reducible apply keeps_foldl | with_reducible apply keeps_forEach | (with_reducible exact Keeps.of_eq h rfl rfl rfl rfl rfl rfl) | split | intro)

theorem keeps_linkFrame (l : Link) (w : Vector Word 18) (h : Keeps s0 s) :
    Keeps s0 (linkFrame l w s) := by
  unfold linkFrame
  try dsimp only
  repeat' (first | with_reducible assumption | with_reducible apply keeps_updRx | with_reducible apply keeps_lockEvent | with_reducible apply keeps_unlockEvent)

theorem keeps_countClips (roles : Vector (Sample × Bool) 96) (mixes : Vector (Sample × Bool) 40) (zones : Vector (Sample × Bool) 24) (h : Keeps s0 s) :
    Keeps s0 (countClips roles mixes zones s) := by
  unfold countClips
  try dsimp only
  repeat' (first | with_reducible assumption | with_reducible apply keeps_foldl | with_reducible apply keeps_forEach | (with_reducible exact Keeps.of_eq h rfl rfl rfl rfl rfl rfl))

theorem keeps_formFrame (h : Keeps s0 s) :
    Keeps s0 (formFrame s) := by
  exact (keeps_measure _ (keeps_countClips _ _ _ h)).of_eq rfl rfl rfl rfl rfl rfl

theorem keeps_advanceGates (h : Keeps s0 s) :
    Keeps s0 (advanceGates s) := by
  unfold advanceGates
  try dsimp only
  repeat' (first | with_reducible assumption | with_reducible apply keeps_foldl | with_reducible apply keeps_forEach | (with_reducible exact Keeps.of_eq h rfl rfl rfl rfl rfl rfl))

theorem keeps_frameTimers (h : Keeps s0 s) : Keeps s0 (frameTimers s) :=
  h.of_eq rfl rfl rfl rfl rfl rfl

theorem keeps_beginFrame (go : Bool) (trig : BitVec 4) (h : Keeps s0 s) :
    Keeps s0 (beginFrame go trig s) :=
  (keeps_voicesFrame (keeps_frameTimers (keeps_advanceGates (keeps_updSeq _ (keeps_updSeq _
    (keeps_readChannels h)))))).of_eq rfl rfl rfl rfl rfl rfl

theorem keeps_endFrame (h : Keeps s0 s) :
    Keeps s0 (endFrame s) := by
  exact keeps_settleLinks (h.of_eq rfl rfl rfl rfl rfl rfl)

theorem keeps_sampleFrame (go : Bool) (trig : BitVec 4) (h : Keeps s0 s) :
    Keeps s0 (sampleFrame go trig s) := by
  unfold sampleFrame
  split
  · exact h
  · exact keeps_finish (keeps_beginFrame _ _ (keeps_endFrame (keeps_formFrame (keeps_settle h))))

theorem keeps_tickTimers (hold : BitVec 4) (ampOk : BitVec 24) (h : Keeps s0 s) :
    Keeps s0 (tickTimers hold ampOk s) := by
  unfold tickTimers
  try dsimp only
  repeat' (first | with_reducible assumption | with_reducible apply keeps_foldl | with_reducible apply keeps_forEach | (with_reducible exact Keeps.of_eq h rfl rfl rfl rfl rfl rfl))

theorem keeps_tickClock (h : Keeps s0 s) :
    Keeps s0 (tickClock s) := by
  unfold tickClock
  try dsimp only
  repeat' (first | with_reducible assumption | with_reducible apply keeps_foldl | with_reducible apply keeps_forEach | (with_reducible exact Keeps.of_eq h rfl rfl rfl rfl rfl rfl))

theorem keeps_tickTime (h : Keeps s0 s) :
    Keeps s0 (tickTime s) := by
  unfold tickTime
  try dsimp only
  repeat' (first | with_reducible assumption | with_reducible apply keeps_foldl | with_reducible apply keeps_forEach | (with_reducible exact Keeps.of_eq h rfl rfl rfl rfl rfl rfl))

theorem keeps_millisecondTick (hold : BitVec 4) (ampOk : BitVec 24) (h : Keeps s0 s) :
    Keeps s0 (millisecondTick hold ampOk s) := by
  unfold millisecondTick
  try dsimp only
  repeat' (first | with_reducible assumption | with_reducible apply keeps_tickRecord | with_reducible apply keeps_finish | with_reducible apply keeps_settle | with_reducible apply keeps_tickTimers | with_reducible apply keeps_tickClock | with_reducible apply keeps_tickTime | with_reducible apply keeps_foldl | with_reducible apply keeps_forEach | (with_reducible exact Keeps.of_eq h rfl rfl rfl rfl rfl rfl) | split | intro)

theorem keeps_judgeWclk (periods : List Nat) (h : Keeps s0 s) :
    Keeps s0 (judgeWclk periods s) := by
  exact (keeps_settleClock h).of_eq rfl rfl rfl rfl rfl rfl

theorem keeps_realign (h : Keeps s0 s) :
    Keeps s0 (realign s) := by
  unfold realign
  try dsimp only
  repeat' (first | with_reducible assumption | with_reducible apply keeps_foldl | with_reducible apply keeps_forEach | (with_reducible exact Keeps.of_eq h rfl rfl rfl rfl rfl rfl) | split)

end Sys2Proof.Machine
end

