-- ==== Sys2Proof/Laws/State.lean ====
section
/-! SUPPORT. What each change of the state leaves in each field, and what an entry of a changed vector
is. -/

namespace Sys2Proof.Machine

/-! ## Vectors -/

@[simp] theorem tabulate_get {α : Type} {n : Nat} (f : Fin n → α) (i : Nat) (h : i < n) :
    (tabulate f)[i] = f ⟨i, h⟩ := by
  simp [tabulate]

@[simp] theorem mapVec_get {α β : Type} {n : Nat} (f : α → β) (v : Vector α n) (i : Nat) (h : i < n) :
    (mapVec f v)[i] = f v[i] := by
  simp [mapVec]

@[simp] theorem upd_get_self {α : Type} {n : Nat} (v : Vector α n) (i : Fin n) (f : α → α) :
    (upd v i f)[i] = f v[i] := by
  simp [upd]

theorem upd_get_ne {α : Type} {n : Nat} (v : Vector α n) (i j : Fin n) (f : α → α) (h : i ≠ j) :
    (upd v i f)[j] = v[j] := by
  have h' : i.val ≠ j.val := fun e => h (Fin.ext e)
  simp [upd, h']

variable (s : State)

/-! ## updChannel -/

@[simp] theorem updChannel_pending (c : Channel) (f : ChannelRec → ChannelRec) : (updChannel c f s).pending = s.pending := rfl
@[simp] theorem updChannel_phase (c : Channel) (f : ChannelRec → ChannelRec) : (updChannel c f s).phase = s.phase := rfl
@[simp] theorem updChannel_rstl (c : Channel) (f : ChannelRec → ChannelRec) : (updChannel c f s).rstl = s.rstl := rfl
@[simp] theorem updChannel_memSize (c : Channel) (f : ChannelRec → ChannelRec) : (updChannel c f s).memSize = s.memSize := rfl
@[simp] theorem updChannel_mem (c : Channel) (f : ChannelRec → ChannelRec) : (updChannel c f s).mem = s.mem := rfl
@[simp] theorem updChannel_clock (c : Channel) (f : ChannelRec → ChannelRec) : (updChannel c f s).clock = s.clock := rfl
@[simp] theorem updChannel_rx (c : Channel) (f : ChannelRec → ChannelRec) : (updChannel c f s).rx = s.rx := rfl
@[simp] theorem updChannel_channels (c : Channel) (f : ChannelRec → ChannelRec) : (updChannel c f s).channels = upd s.channels c f := rfl
@[simp] theorem updChannel_roles (c : Channel) (f : ChannelRec → ChannelRec) : (updChannel c f s).roles = s.roles := rfl
@[simp] theorem updChannel_levels (c : Channel) (f : ChannelRec → ChannelRec) : (updChannel c f s).levels = s.levels := rfl
@[simp] theorem updChannel_mixes (c : Channel) (f : ChannelRec → ChannelRec) : (updChannel c f s).mixes = s.mixes := rfl
@[simp] theorem updChannel_sends (c : Channel) (f : ChannelRec → ChannelRec) : (updChannel c f s).sends = s.sends := rfl
@[simp] theorem updChannel_voiceGroups (c : Channel) (f : ChannelRec → ChannelRec) : (updChannel c f s).voiceGroups = s.voiceGroups := rfl
@[simp] theorem updChannel_outMap (c : Channel) (f : ChannelRec → ChannelRec) : (updChannel c f s).outMap = s.outMap := rfl
@[simp] theorem updChannel_tx (c : Channel) (f : ChannelRec → ChannelRec) : (updChannel c f s).tx = s.tx := rfl
@[simp] theorem updChannel_txCount (c : Channel) (f : ChannelRec → ChannelRec) : (updChannel c f s).txCount = s.txCount := rfl
@[simp] theorem updChannel_hold (c : Channel) (f : ChannelRec → ChannelRec) : (updChannel c f s).hold = s.hold := rfl
@[simp] theorem updChannel_header (c : Channel) (f : ChannelRec → ChannelRec) : (updChannel c f s).header = s.header := rfl
@[simp] theorem updChannel_tables (c : Channel) (f : ChannelRec → ChannelRec) : (updChannel c f s).tables = s.tables := rfl
@[simp] theorem updChannel_regions (c : Channel) (f : ChannelRec → ChannelRec) : (updChannel c f s).regions = s.regions := rfl
@[simp] theorem updChannel_seq (c : Channel) (f : ChannelRec → ChannelRec) : (updChannel c f s).seq = s.seq := rfl
@[simp] theorem updChannel_fades (c : Channel) (f : ChannelRec → ChannelRec) : (updChannel c f s).fades = s.fades := rfl
@[simp] theorem updChannel_takenOver (c : Channel) (f : ChannelRec → ChannelRec) : (updChannel c f s).takenOver = s.takenOver := rfl
@[simp] theorem updChannel_voices (c : Channel) (f : ChannelRec → ChannelRec) : (updChannel c f s).voices = s.voices := rfl
@[simp] theorem updChannel_zones (c : Channel) (f : ChannelRec → ChannelRec) : (updChannel c f s).zones = s.zones := rfl
@[simp] theorem updChannel_zoneGroups (c : Channel) (f : ChannelRec → ChannelRec) : (updChannel c f s).zoneGroups = s.zoneGroups := rfl
@[simp] theorem updChannel_tod (c : Channel) (f : ChannelRec → ChannelRec) : (updChannel c f s).tod = s.tod := rfl
@[simp] theorem updChannel_rollover (c : Channel) (f : ChannelRec → ChannelRec) : (updChannel c f s).rollover = s.rollover := rfl
@[simp] theorem updChannel_pages (c : Channel) (f : ChannelRec → ChannelRec) : (updChannel c f s).pages = s.pages := rfl
@[simp] theorem updChannel_lastClosed (c : Channel) (f : ChannelRec → ChannelRec) : (updChannel c f s).lastClosed = s.lastClosed := rfl
@[simp] theorem updChannel_calls (c : Channel) (f : ChannelRec → ChannelRec) : (updChannel c f s).calls = s.calls := rfl
@[simp] theorem updChannel_overlapped (c : Channel) (f : ChannelRec → ChannelRec) : (updChannel c f s).overlapped = s.overlapped := rfl
@[simp] theorem updChannel_missedCalls (c : Channel) (f : ChannelRec → ChannelRec) : (updChannel c f s).missedCalls = s.missedCalls := rfl
@[simp] theorem updChannel_cutCalls (c : Channel) (f : ChannelRec → ChannelRec) : (updChannel c f s).cutCalls = s.cutCalls := rfl
@[simp] theorem updChannel_cells (c : Channel) (f : ChannelRec → ChannelRec) : (updChannel c f s).cells = s.cells := rfl
@[simp] theorem updChannel_mirror (c : Channel) (f : ChannelRec → ChannelRec) : (updChannel c f s).mirror = s.mirror := rfl
@[simp] theorem updChannel_wq (c : Channel) (f : ChannelRec → ChannelRec) : (updChannel c f s).wq = s.wq := rfl
@[simp] theorem updChannel_arb (c : Channel) (f : ChannelRec → ChannelRec) : (updChannel c f s).arb = s.arb := rfl
@[simp] theorem updChannel_port (c : Channel) (f : ChannelRec → ChannelRec) : (updChannel c f s).port = s.port := rfl
@[simp] theorem updChannel_slate (c : Channel) (f : ChannelRec → ChannelRec) : (updChannel c f s).slate = s.slate := rfl
@[simp] theorem updChannel_engine (c : Channel) (f : ChannelRec → ChannelRec) : (updChannel c f s).engine = s.engine := rfl
@[simp] theorem updChannel_lock (c : Channel) (f : ChannelRec → ChannelRec) : (updChannel c f s).lock = s.lock := rfl
@[simp] theorem updChannel_load (c : Channel) (f : ChannelRec → ChannelRec) : (updChannel c f s).load = s.load := rfl
@[simp] theorem updChannel_notice (c : Channel) (f : ChannelRec → ChannelRec) : (updChannel c f s).notice = s.notice := rfl
@[simp] theorem updChannel_freeCount (c : Channel) (f : ChannelRec → ChannelRec) : (updChannel c f s).freeCount = s.freeCount := rfl
@[simp] theorem updChannel_notes (c : Channel) (f : ChannelRec → ChannelRec) : (updChannel c f s).notes = s.notes := rfl
@[simp] theorem updChannel_marks (c : Channel) (f : ChannelRec → ChannelRec) : (updChannel c f s).marks = s.marks := rfl

/-! ## updRole -/

@[simp] theorem updRole_pending (r : RoleId) (f : Role → Role) : (updRole r f s).pending = s.pending := rfl
@[simp] theorem updRole_phase (r : RoleId) (f : Role → Role) : (updRole r f s).phase = s.phase := rfl
@[simp] theorem updRole_rstl (r : RoleId) (f : Role → Role) : (updRole r f s).rstl = s.rstl := rfl
@[simp] theorem updRole_memSize (r : RoleId) (f : Role → Role) : (updRole r f s).memSize = s.memSize := rfl
@[simp] theorem updRole_mem (r : RoleId) (f : Role → Role) : (updRole r f s).mem = s.mem := rfl
@[simp] theorem updRole_clock (r : RoleId) (f : Role → Role) : (updRole r f s).clock = s.clock := rfl
@[simp] theorem updRole_rx (r : RoleId) (f : Role → Role) : (updRole r f s).rx = s.rx := rfl
@[simp] theorem updRole_channels (r : RoleId) (f : Role → Role) : (updRole r f s).channels = s.channels := rfl
@[simp] theorem updRole_roles (r : RoleId) (f : Role → Role) : (updRole r f s).roles = upd s.roles r f := rfl
@[simp] theorem updRole_levels (r : RoleId) (f : Role → Role) : (updRole r f s).levels = s.levels := rfl
@[simp] theorem updRole_mixes (r : RoleId) (f : Role → Role) : (updRole r f s).mixes = s.mixes := rfl
@[simp] theorem updRole_sends (r : RoleId) (f : Role → Role) : (updRole r f s).sends = s.sends := rfl
@[simp] theorem updRole_voiceGroups (r : RoleId) (f : Role → Role) : (updRole r f s).voiceGroups = s.voiceGroups := rfl
@[simp] theorem updRole_outMap (r : RoleId) (f : Role → Role) : (updRole r f s).outMap = s.outMap := rfl
@[simp] theorem updRole_tx (r : RoleId) (f : Role → Role) : (updRole r f s).tx = s.tx := rfl
@[simp] theorem updRole_txCount (r : RoleId) (f : Role → Role) : (updRole r f s).txCount = s.txCount := rfl
@[simp] theorem updRole_hold (r : RoleId) (f : Role → Role) : (updRole r f s).hold = s.hold := rfl
@[simp] theorem updRole_header (r : RoleId) (f : Role → Role) : (updRole r f s).header = s.header := rfl
@[simp] theorem updRole_tables (r : RoleId) (f : Role → Role) : (updRole r f s).tables = s.tables := rfl
@[simp] theorem updRole_regions (r : RoleId) (f : Role → Role) : (updRole r f s).regions = s.regions := rfl
@[simp] theorem updRole_seq (r : RoleId) (f : Role → Role) : (updRole r f s).seq = s.seq := rfl
@[simp] theorem updRole_fades (r : RoleId) (f : Role → Role) : (updRole r f s).fades = s.fades := rfl
@[simp] theorem updRole_takenOver (r : RoleId) (f : Role → Role) : (updRole r f s).takenOver = s.takenOver := rfl
@[simp] theorem updRole_voices (r : RoleId) (f : Role → Role) : (updRole r f s).voices = s.voices := rfl
@[simp] theorem updRole_zones (r : RoleId) (f : Role → Role) : (updRole r f s).zones = s.zones := rfl
@[simp] theorem updRole_zoneGroups (r : RoleId) (f : Role → Role) : (updRole r f s).zoneGroups = s.zoneGroups := rfl
@[simp] theorem updRole_tod (r : RoleId) (f : Role → Role) : (updRole r f s).tod = s.tod := rfl
@[simp] theorem updRole_rollover (r : RoleId) (f : Role → Role) : (updRole r f s).rollover = s.rollover := rfl
@[simp] theorem updRole_pages (r : RoleId) (f : Role → Role) : (updRole r f s).pages = s.pages := rfl
@[simp] theorem updRole_lastClosed (r : RoleId) (f : Role → Role) : (updRole r f s).lastClosed = s.lastClosed := rfl
@[simp] theorem updRole_calls (r : RoleId) (f : Role → Role) : (updRole r f s).calls = s.calls := rfl
@[simp] theorem updRole_overlapped (r : RoleId) (f : Role → Role) : (updRole r f s).overlapped = s.overlapped := rfl
@[simp] theorem updRole_missedCalls (r : RoleId) (f : Role → Role) : (updRole r f s).missedCalls = s.missedCalls := rfl
@[simp] theorem updRole_cutCalls (r : RoleId) (f : Role → Role) : (updRole r f s).cutCalls = s.cutCalls := rfl
@[simp] theorem updRole_cells (r : RoleId) (f : Role → Role) : (updRole r f s).cells = s.cells := rfl
@[simp] theorem updRole_mirror (r : RoleId) (f : Role → Role) : (updRole r f s).mirror = s.mirror := rfl
@[simp] theorem updRole_wq (r : RoleId) (f : Role → Role) : (updRole r f s).wq = s.wq := rfl
@[simp] theorem updRole_arb (r : RoleId) (f : Role → Role) : (updRole r f s).arb = s.arb := rfl
@[simp] theorem updRole_port (r : RoleId) (f : Role → Role) : (updRole r f s).port = s.port := rfl
@[simp] theorem updRole_slate (r : RoleId) (f : Role → Role) : (updRole r f s).slate = s.slate := rfl
@[simp] theorem updRole_engine (r : RoleId) (f : Role → Role) : (updRole r f s).engine = s.engine := rfl
@[simp] theorem updRole_lock (r : RoleId) (f : Role → Role) : (updRole r f s).lock = s.lock := rfl
@[simp] theorem updRole_load (r : RoleId) (f : Role → Role) : (updRole r f s).load = s.load := rfl
@[simp] theorem updRole_notice (r : RoleId) (f : Role → Role) : (updRole r f s).notice = s.notice := rfl
@[simp] theorem updRole_freeCount (r : RoleId) (f : Role → Role) : (updRole r f s).freeCount = s.freeCount := rfl
@[simp] theorem updRole_notes (r : RoleId) (f : Role → Role) : (updRole r f s).notes = s.notes := rfl
@[simp] theorem updRole_marks (r : RoleId) (f : Role → Role) : (updRole r f s).marks = s.marks := rfl

/-! ## updMix -/

@[simp] theorem updMix_pending (m : MixId) (f : Mix → Mix) : (updMix m f s).pending = s.pending := rfl
@[simp] theorem updMix_phase (m : MixId) (f : Mix → Mix) : (updMix m f s).phase = s.phase := rfl
@[simp] theorem updMix_rstl (m : MixId) (f : Mix → Mix) : (updMix m f s).rstl = s.rstl := rfl
@[simp] theorem updMix_memSize (m : MixId) (f : Mix → Mix) : (updMix m f s).memSize = s.memSize := rfl
@[simp] theorem updMix_mem (m : MixId) (f : Mix → Mix) : (updMix m f s).mem = s.mem := rfl
@[simp] theorem updMix_clock (m : MixId) (f : Mix → Mix) : (updMix m f s).clock = s.clock := rfl
@[simp] theorem updMix_rx (m : MixId) (f : Mix → Mix) : (updMix m f s).rx = s.rx := rfl
@[simp] theorem updMix_channels (m : MixId) (f : Mix → Mix) : (updMix m f s).channels = s.channels := rfl
@[simp] theorem updMix_roles (m : MixId) (f : Mix → Mix) : (updMix m f s).roles = s.roles := rfl
@[simp] theorem updMix_levels (m : MixId) (f : Mix → Mix) : (updMix m f s).levels = s.levels := rfl
@[simp] theorem updMix_mixes (m : MixId) (f : Mix → Mix) : (updMix m f s).mixes = upd s.mixes m f := rfl
@[simp] theorem updMix_sends (m : MixId) (f : Mix → Mix) : (updMix m f s).sends = s.sends := rfl
@[simp] theorem updMix_voiceGroups (m : MixId) (f : Mix → Mix) : (updMix m f s).voiceGroups = s.voiceGroups := rfl
@[simp] theorem updMix_outMap (m : MixId) (f : Mix → Mix) : (updMix m f s).outMap = s.outMap := rfl
@[simp] theorem updMix_tx (m : MixId) (f : Mix → Mix) : (updMix m f s).tx = s.tx := rfl
@[simp] theorem updMix_txCount (m : MixId) (f : Mix → Mix) : (updMix m f s).txCount = s.txCount := rfl
@[simp] theorem updMix_hold (m : MixId) (f : Mix → Mix) : (updMix m f s).hold = s.hold := rfl
@[simp] theorem updMix_header (m : MixId) (f : Mix → Mix) : (updMix m f s).header = s.header := rfl
@[simp] theorem updMix_tables (m : MixId) (f : Mix → Mix) : (updMix m f s).tables = s.tables := rfl
@[simp] theorem updMix_regions (m : MixId) (f : Mix → Mix) : (updMix m f s).regions = s.regions := rfl
@[simp] theorem updMix_seq (m : MixId) (f : Mix → Mix) : (updMix m f s).seq = s.seq := rfl
@[simp] theorem updMix_fades (m : MixId) (f : Mix → Mix) : (updMix m f s).fades = s.fades := rfl
@[simp] theorem updMix_takenOver (m : MixId) (f : Mix → Mix) : (updMix m f s).takenOver = s.takenOver := rfl
@[simp] theorem updMix_voices (m : MixId) (f : Mix → Mix) : (updMix m f s).voices = s.voices := rfl
@[simp] theorem updMix_zones (m : MixId) (f : Mix → Mix) : (updMix m f s).zones = s.zones := rfl
@[simp] theorem updMix_zoneGroups (m : MixId) (f : Mix → Mix) : (updMix m f s).zoneGroups = s.zoneGroups := rfl
@[simp] theorem updMix_tod (m : MixId) (f : Mix → Mix) : (updMix m f s).tod = s.tod := rfl
@[simp] theorem updMix_rollover (m : MixId) (f : Mix → Mix) : (updMix m f s).rollover = s.rollover := rfl
@[simp] theorem updMix_pages (m : MixId) (f : Mix → Mix) : (updMix m f s).pages = s.pages := rfl
@[simp] theorem updMix_lastClosed (m : MixId) (f : Mix → Mix) : (updMix m f s).lastClosed = s.lastClosed := rfl
@[simp] theorem updMix_calls (m : MixId) (f : Mix → Mix) : (updMix m f s).calls = s.calls := rfl
@[simp] theorem updMix_overlapped (m : MixId) (f : Mix → Mix) : (updMix m f s).overlapped = s.overlapped := rfl
@[simp] theorem updMix_missedCalls (m : MixId) (f : Mix → Mix) : (updMix m f s).missedCalls = s.missedCalls := rfl
@[simp] theorem updMix_cutCalls (m : MixId) (f : Mix → Mix) : (updMix m f s).cutCalls = s.cutCalls := rfl
@[simp] theorem updMix_cells (m : MixId) (f : Mix → Mix) : (updMix m f s).cells = s.cells := rfl
@[simp] theorem updMix_mirror (m : MixId) (f : Mix → Mix) : (updMix m f s).mirror = s.mirror := rfl
@[simp] theorem updMix_wq (m : MixId) (f : Mix → Mix) : (updMix m f s).wq = s.wq := rfl
@[simp] theorem updMix_arb (m : MixId) (f : Mix → Mix) : (updMix m f s).arb = s.arb := rfl
@[simp] theorem updMix_port (m : MixId) (f : Mix → Mix) : (updMix m f s).port = s.port := rfl
@[simp] theorem updMix_slate (m : MixId) (f : Mix → Mix) : (updMix m f s).slate = s.slate := rfl
@[simp] theorem updMix_engine (m : MixId) (f : Mix → Mix) : (updMix m f s).engine = s.engine := rfl
@[simp] theorem updMix_lock (m : MixId) (f : Mix → Mix) : (updMix m f s).lock = s.lock := rfl
@[simp] theorem updMix_load (m : MixId) (f : Mix → Mix) : (updMix m f s).load = s.load := rfl
@[simp] theorem updMix_notice (m : MixId) (f : Mix → Mix) : (updMix m f s).notice = s.notice := rfl
@[simp] theorem updMix_freeCount (m : MixId) (f : Mix → Mix) : (updMix m f s).freeCount = s.freeCount := rfl
@[simp] theorem updMix_notes (m : MixId) (f : Mix → Mix) : (updMix m f s).notes = s.notes := rfl
@[simp] theorem updMix_marks (m : MixId) (f : Mix → Mix) : (updMix m f s).marks = s.marks := rfl

/-! ## updVoice -/

@[simp] theorem updVoice_pending (v : VoiceId) (f : Voice → Voice) : (updVoice v f s).pending = s.pending := rfl
@[simp] theorem updVoice_phase (v : VoiceId) (f : Voice → Voice) : (updVoice v f s).phase = s.phase := rfl
@[simp] theorem updVoice_rstl (v : VoiceId) (f : Voice → Voice) : (updVoice v f s).rstl = s.rstl := rfl
@[simp] theorem updVoice_memSize (v : VoiceId) (f : Voice → Voice) : (updVoice v f s).memSize = s.memSize := rfl
@[simp] theorem updVoice_mem (v : VoiceId) (f : Voice → Voice) : (updVoice v f s).mem = s.mem := rfl
@[simp] theorem updVoice_clock (v : VoiceId) (f : Voice → Voice) : (updVoice v f s).clock = s.clock := rfl
@[simp] theorem updVoice_rx (v : VoiceId) (f : Voice → Voice) : (updVoice v f s).rx = s.rx := rfl
@[simp] theorem updVoice_channels (v : VoiceId) (f : Voice → Voice) : (updVoice v f s).channels = s.channels := rfl
@[simp] theorem updVoice_roles (v : VoiceId) (f : Voice → Voice) : (updVoice v f s).roles = s.roles := rfl
@[simp] theorem updVoice_levels (v : VoiceId) (f : Voice → Voice) : (updVoice v f s).levels = s.levels := rfl
@[simp] theorem updVoice_mixes (v : VoiceId) (f : Voice → Voice) : (updVoice v f s).mixes = s.mixes := rfl
@[simp] theorem updVoice_sends (v : VoiceId) (f : Voice → Voice) : (updVoice v f s).sends = s.sends := rfl
@[simp] theorem updVoice_voiceGroups (v : VoiceId) (f : Voice → Voice) : (updVoice v f s).voiceGroups = s.voiceGroups := rfl
@[simp] theorem updVoice_outMap (v : VoiceId) (f : Voice → Voice) : (updVoice v f s).outMap = s.outMap := rfl
@[simp] theorem updVoice_tx (v : VoiceId) (f : Voice → Voice) : (updVoice v f s).tx = s.tx := rfl
@[simp] theorem updVoice_txCount (v : VoiceId) (f : Voice → Voice) : (updVoice v f s).txCount = s.txCount := rfl
@[simp] theorem updVoice_hold (v : VoiceId) (f : Voice → Voice) : (updVoice v f s).hold = s.hold := rfl
@[simp] theorem updVoice_header (v : VoiceId) (f : Voice → Voice) : (updVoice v f s).header = s.header := rfl
@[simp] theorem updVoice_tables (v : VoiceId) (f : Voice → Voice) : (updVoice v f s).tables = s.tables := rfl
@[simp] theorem updVoice_regions (v : VoiceId) (f : Voice → Voice) : (updVoice v f s).regions = s.regions := rfl
@[simp] theorem updVoice_seq (v : VoiceId) (f : Voice → Voice) : (updVoice v f s).seq = s.seq := rfl
@[simp] theorem updVoice_fades (v : VoiceId) (f : Voice → Voice) : (updVoice v f s).fades = s.fades := rfl
@[simp] theorem updVoice_takenOver (v : VoiceId) (f : Voice → Voice) : (updVoice v f s).takenOver = s.takenOver := rfl
@[simp] theorem updVoice_voices (v : VoiceId) (f : Voice → Voice) : (updVoice v f s).voices = upd s.voices v f := rfl
@[simp] theorem updVoice_zones (v : VoiceId) (f : Voice → Voice) : (updVoice v f s).zones = s.zones := rfl
@[simp] theorem updVoice_zoneGroups (v : VoiceId) (f : Voice → Voice) : (updVoice v f s).zoneGroups = s.zoneGroups := rfl
@[simp] theorem updVoice_tod (v : VoiceId) (f : Voice → Voice) : (updVoice v f s).tod = s.tod := rfl
@[simp] theorem updVoice_rollover (v : VoiceId) (f : Voice → Voice) : (updVoice v f s).rollover = s.rollover := rfl
@[simp] theorem updVoice_pages (v : VoiceId) (f : Voice → Voice) : (updVoice v f s).pages = s.pages := rfl
@[simp] theorem updVoice_lastClosed (v : VoiceId) (f : Voice → Voice) : (updVoice v f s).lastClosed = s.lastClosed := rfl
@[simp] theorem updVoice_calls (v : VoiceId) (f : Voice → Voice) : (updVoice v f s).calls = s.calls := rfl
@[simp] theorem updVoice_overlapped (v : VoiceId) (f : Voice → Voice) : (updVoice v f s).overlapped = s.overlapped := rfl
@[simp] theorem updVoice_missedCalls (v : VoiceId) (f : Voice → Voice) : (updVoice v f s).missedCalls = s.missedCalls := rfl
@[simp] theorem updVoice_cutCalls (v : VoiceId) (f : Voice → Voice) : (updVoice v f s).cutCalls = s.cutCalls := rfl
@[simp] theorem updVoice_cells (v : VoiceId) (f : Voice → Voice) : (updVoice v f s).cells = s.cells := rfl
@[simp] theorem updVoice_mirror (v : VoiceId) (f : Voice → Voice) : (updVoice v f s).mirror = s.mirror := rfl
@[simp] theorem updVoice_wq (v : VoiceId) (f : Voice → Voice) : (updVoice v f s).wq = s.wq := rfl
@[simp] theorem updVoice_arb (v : VoiceId) (f : Voice → Voice) : (updVoice v f s).arb = s.arb := rfl
@[simp] theorem updVoice_port (v : VoiceId) (f : Voice → Voice) : (updVoice v f s).port = s.port := rfl
@[simp] theorem updVoice_slate (v : VoiceId) (f : Voice → Voice) : (updVoice v f s).slate = s.slate := rfl
@[simp] theorem updVoice_engine (v : VoiceId) (f : Voice → Voice) : (updVoice v f s).engine = s.engine := rfl
@[simp] theorem updVoice_lock (v : VoiceId) (f : Voice → Voice) : (updVoice v f s).lock = s.lock := rfl
@[simp] theorem updVoice_load (v : VoiceId) (f : Voice → Voice) : (updVoice v f s).load = s.load := rfl
@[simp] theorem updVoice_notice (v : VoiceId) (f : Voice → Voice) : (updVoice v f s).notice = s.notice := rfl
@[simp] theorem updVoice_freeCount (v : VoiceId) (f : Voice → Voice) : (updVoice v f s).freeCount = s.freeCount := rfl
@[simp] theorem updVoice_notes (v : VoiceId) (f : Voice → Voice) : (updVoice v f s).notes = s.notes := rfl
@[simp] theorem updVoice_marks (v : VoiceId) (f : Voice → Voice) : (updVoice v f s).marks = s.marks := rfl

/-! ## updZone -/

@[simp] theorem updZone_pending (z : ZoneId) (f : Zone → Zone) : (updZone z f s).pending = s.pending := rfl
@[simp] theorem updZone_phase (z : ZoneId) (f : Zone → Zone) : (updZone z f s).phase = s.phase := rfl
@[simp] theorem updZone_rstl (z : ZoneId) (f : Zone → Zone) : (updZone z f s).rstl = s.rstl := rfl
@[simp] theorem updZone_memSize (z : ZoneId) (f : Zone → Zone) : (updZone z f s).memSize = s.memSize := rfl
@[simp] theorem updZone_mem (z : ZoneId) (f : Zone → Zone) : (updZone z f s).mem = s.mem := rfl
@[simp] theorem updZone_clock (z : ZoneId) (f : Zone → Zone) : (updZone z f s).clock = s.clock := rfl
@[simp] theorem updZone_rx (z : ZoneId) (f : Zone → Zone) : (updZone z f s).rx = s.rx := rfl
@[simp] theorem updZone_channels (z : ZoneId) (f : Zone → Zone) : (updZone z f s).channels = s.channels := rfl
@[simp] theorem updZone_roles (z : ZoneId) (f : Zone → Zone) : (updZone z f s).roles = s.roles := rfl
@[simp] theorem updZone_levels (z : ZoneId) (f : Zone → Zone) : (updZone z f s).levels = s.levels := rfl
@[simp] theorem updZone_mixes (z : ZoneId) (f : Zone → Zone) : (updZone z f s).mixes = s.mixes := rfl
@[simp] theorem updZone_sends (z : ZoneId) (f : Zone → Zone) : (updZone z f s).sends = s.sends := rfl
@[simp] theorem updZone_voiceGroups (z : ZoneId) (f : Zone → Zone) : (updZone z f s).voiceGroups = s.voiceGroups := rfl
@[simp] theorem updZone_outMap (z : ZoneId) (f : Zone → Zone) : (updZone z f s).outMap = s.outMap := rfl
@[simp] theorem updZone_tx (z : ZoneId) (f : Zone → Zone) : (updZone z f s).tx = s.tx := rfl
@[simp] theorem updZone_txCount (z : ZoneId) (f : Zone → Zone) : (updZone z f s).txCount = s.txCount := rfl
@[simp] theorem updZone_hold (z : ZoneId) (f : Zone → Zone) : (updZone z f s).hold = s.hold := rfl
@[simp] theorem updZone_header (z : ZoneId) (f : Zone → Zone) : (updZone z f s).header = s.header := rfl
@[simp] theorem updZone_tables (z : ZoneId) (f : Zone → Zone) : (updZone z f s).tables = s.tables := rfl
@[simp] theorem updZone_regions (z : ZoneId) (f : Zone → Zone) : (updZone z f s).regions = s.regions := rfl
@[simp] theorem updZone_seq (z : ZoneId) (f : Zone → Zone) : (updZone z f s).seq = s.seq := rfl
@[simp] theorem updZone_fades (z : ZoneId) (f : Zone → Zone) : (updZone z f s).fades = s.fades := rfl
@[simp] theorem updZone_takenOver (z : ZoneId) (f : Zone → Zone) : (updZone z f s).takenOver = s.takenOver := rfl
@[simp] theorem updZone_voices (z : ZoneId) (f : Zone → Zone) : (updZone z f s).voices = s.voices := rfl
@[simp] theorem updZone_zones (z : ZoneId) (f : Zone → Zone) : (updZone z f s).zones = upd s.zones z f := rfl
@[simp] theorem updZone_zoneGroups (z : ZoneId) (f : Zone → Zone) : (updZone z f s).zoneGroups = s.zoneGroups := rfl
@[simp] theorem updZone_tod (z : ZoneId) (f : Zone → Zone) : (updZone z f s).tod = s.tod := rfl
@[simp] theorem updZone_rollover (z : ZoneId) (f : Zone → Zone) : (updZone z f s).rollover = s.rollover := rfl
@[simp] theorem updZone_pages (z : ZoneId) (f : Zone → Zone) : (updZone z f s).pages = s.pages := rfl
@[simp] theorem updZone_lastClosed (z : ZoneId) (f : Zone → Zone) : (updZone z f s).lastClosed = s.lastClosed := rfl
@[simp] theorem updZone_calls (z : ZoneId) (f : Zone → Zone) : (updZone z f s).calls = s.calls := rfl
@[simp] theorem updZone_overlapped (z : ZoneId) (f : Zone → Zone) : (updZone z f s).overlapped = s.overlapped := rfl
@[simp] theorem updZone_missedCalls (z : ZoneId) (f : Zone → Zone) : (updZone z f s).missedCalls = s.missedCalls := rfl
@[simp] theorem updZone_cutCalls (z : ZoneId) (f : Zone → Zone) : (updZone z f s).cutCalls = s.cutCalls := rfl
@[simp] theorem updZone_cells (z : ZoneId) (f : Zone → Zone) : (updZone z f s).cells = s.cells := rfl
@[simp] theorem updZone_mirror (z : ZoneId) (f : Zone → Zone) : (updZone z f s).mirror = s.mirror := rfl
@[simp] theorem updZone_wq (z : ZoneId) (f : Zone → Zone) : (updZone z f s).wq = s.wq := rfl
@[simp] theorem updZone_arb (z : ZoneId) (f : Zone → Zone) : (updZone z f s).arb = s.arb := rfl
@[simp] theorem updZone_port (z : ZoneId) (f : Zone → Zone) : (updZone z f s).port = s.port := rfl
@[simp] theorem updZone_slate (z : ZoneId) (f : Zone → Zone) : (updZone z f s).slate = s.slate := rfl
@[simp] theorem updZone_engine (z : ZoneId) (f : Zone → Zone) : (updZone z f s).engine = s.engine := rfl
@[simp] theorem updZone_lock (z : ZoneId) (f : Zone → Zone) : (updZone z f s).lock = s.lock := rfl
@[simp] theorem updZone_load (z : ZoneId) (f : Zone → Zone) : (updZone z f s).load = s.load := rfl
@[simp] theorem updZone_notice (z : ZoneId) (f : Zone → Zone) : (updZone z f s).notice = s.notice := rfl
@[simp] theorem updZone_freeCount (z : ZoneId) (f : Zone → Zone) : (updZone z f s).freeCount = s.freeCount := rfl
@[simp] theorem updZone_notes (z : ZoneId) (f : Zone → Zone) : (updZone z f s).notes = s.notes := rfl
@[simp] theorem updZone_marks (z : ZoneId) (f : Zone → Zone) : (updZone z f s).marks = s.marks := rfl

/-! ## updCall -/

@[simp] theorem updCall_pending (c : CallId) (f : Call → Call) : (updCall c f s).pending = s.pending := rfl
@[simp] theorem updCall_phase (c : CallId) (f : Call → Call) : (updCall c f s).phase = s.phase := rfl
@[simp] theorem updCall_rstl (c : CallId) (f : Call → Call) : (updCall c f s).rstl = s.rstl := rfl
@[simp] theorem updCall_memSize (c : CallId) (f : Call → Call) : (updCall c f s).memSize = s.memSize := rfl
@[simp] theorem updCall_mem (c : CallId) (f : Call → Call) : (updCall c f s).mem = s.mem := rfl
@[simp] theorem updCall_clock (c : CallId) (f : Call → Call) : (updCall c f s).clock = s.clock := rfl
@[simp] theorem updCall_rx (c : CallId) (f : Call → Call) : (updCall c f s).rx = s.rx := rfl
@[simp] theorem updCall_channels (c : CallId) (f : Call → Call) : (updCall c f s).channels = s.channels := rfl
@[simp] theorem updCall_roles (c : CallId) (f : Call → Call) : (updCall c f s).roles = s.roles := rfl
@[simp] theorem updCall_levels (c : CallId) (f : Call → Call) : (updCall c f s).levels = s.levels := rfl
@[simp] theorem updCall_mixes (c : CallId) (f : Call → Call) : (updCall c f s).mixes = s.mixes := rfl
@[simp] theorem updCall_sends (c : CallId) (f : Call → Call) : (updCall c f s).sends = s.sends := rfl
@[simp] theorem updCall_voiceGroups (c : CallId) (f : Call → Call) : (updCall c f s).voiceGroups = s.voiceGroups := rfl
@[simp] theorem updCall_outMap (c : CallId) (f : Call → Call) : (updCall c f s).outMap = s.outMap := rfl
@[simp] theorem updCall_tx (c : CallId) (f : Call → Call) : (updCall c f s).tx = s.tx := rfl
@[simp] theorem updCall_txCount (c : CallId) (f : Call → Call) : (updCall c f s).txCount = s.txCount := rfl
@[simp] theorem updCall_hold (c : CallId) (f : Call → Call) : (updCall c f s).hold = s.hold := rfl
@[simp] theorem updCall_header (c : CallId) (f : Call → Call) : (updCall c f s).header = s.header := rfl
@[simp] theorem updCall_tables (c : CallId) (f : Call → Call) : (updCall c f s).tables = s.tables := rfl
@[simp] theorem updCall_regions (c : CallId) (f : Call → Call) : (updCall c f s).regions = s.regions := rfl
@[simp] theorem updCall_seq (c : CallId) (f : Call → Call) : (updCall c f s).seq = s.seq := rfl
@[simp] theorem updCall_fades (c : CallId) (f : Call → Call) : (updCall c f s).fades = s.fades := rfl
@[simp] theorem updCall_takenOver (c : CallId) (f : Call → Call) : (updCall c f s).takenOver = s.takenOver := rfl
@[simp] theorem updCall_voices (c : CallId) (f : Call → Call) : (updCall c f s).voices = s.voices := rfl
@[simp] theorem updCall_zones (c : CallId) (f : Call → Call) : (updCall c f s).zones = s.zones := rfl
@[simp] theorem updCall_zoneGroups (c : CallId) (f : Call → Call) : (updCall c f s).zoneGroups = s.zoneGroups := rfl
@[simp] theorem updCall_tod (c : CallId) (f : Call → Call) : (updCall c f s).tod = s.tod := rfl
@[simp] theorem updCall_rollover (c : CallId) (f : Call → Call) : (updCall c f s).rollover = s.rollover := rfl
@[simp] theorem updCall_pages (c : CallId) (f : Call → Call) : (updCall c f s).pages = s.pages := rfl
@[simp] theorem updCall_lastClosed (c : CallId) (f : Call → Call) : (updCall c f s).lastClosed = s.lastClosed := rfl
@[simp] theorem updCall_calls (c : CallId) (f : Call → Call) : (updCall c f s).calls = upd s.calls c f := rfl
@[simp] theorem updCall_overlapped (c : CallId) (f : Call → Call) : (updCall c f s).overlapped = s.overlapped := rfl
@[simp] theorem updCall_missedCalls (c : CallId) (f : Call → Call) : (updCall c f s).missedCalls = s.missedCalls := rfl
@[simp] theorem updCall_cutCalls (c : CallId) (f : Call → Call) : (updCall c f s).cutCalls = s.cutCalls := rfl
@[simp] theorem updCall_cells (c : CallId) (f : Call → Call) : (updCall c f s).cells = s.cells := rfl
@[simp] theorem updCall_mirror (c : CallId) (f : Call → Call) : (updCall c f s).mirror = s.mirror := rfl
@[simp] theorem updCall_wq (c : CallId) (f : Call → Call) : (updCall c f s).wq = s.wq := rfl
@[simp] theorem updCall_arb (c : CallId) (f : Call → Call) : (updCall c f s).arb = s.arb := rfl
@[simp] theorem updCall_port (c : CallId) (f : Call → Call) : (updCall c f s).port = s.port := rfl
@[simp] theorem updCall_slate (c : CallId) (f : Call → Call) : (updCall c f s).slate = s.slate := rfl
@[simp] theorem updCall_engine (c : CallId) (f : Call → Call) : (updCall c f s).engine = s.engine := rfl
@[simp] theorem updCall_lock (c : CallId) (f : Call → Call) : (updCall c f s).lock = s.lock := rfl
@[simp] theorem updCall_load (c : CallId) (f : Call → Call) : (updCall c f s).load = s.load := rfl
@[simp] theorem updCall_notice (c : CallId) (f : Call → Call) : (updCall c f s).notice = s.notice := rfl
@[simp] theorem updCall_freeCount (c : CallId) (f : Call → Call) : (updCall c f s).freeCount = s.freeCount := rfl
@[simp] theorem updCall_notes (c : CallId) (f : Call → Call) : (updCall c f s).notes = s.notes := rfl
@[simp] theorem updCall_marks (c : CallId) (f : Call → Call) : (updCall c f s).marks = s.marks := rfl

/-! ## updRx -/

@[simp] theorem updRx_pending (l : Link) (f : Receiver → Receiver) : (updRx l f s).pending = s.pending := rfl
@[simp] theorem updRx_phase (l : Link) (f : Receiver → Receiver) : (updRx l f s).phase = s.phase := rfl
@[simp] theorem updRx_rstl (l : Link) (f : Receiver → Receiver) : (updRx l f s).rstl = s.rstl := rfl
@[simp] theorem updRx_memSize (l : Link) (f : Receiver → Receiver) : (updRx l f s).memSize = s.memSize := rfl
@[simp] theorem updRx_mem (l : Link) (f : Receiver → Receiver) : (updRx l f s).mem = s.mem := rfl
@[simp] theorem updRx_clock (l : Link) (f : Receiver → Receiver) : (updRx l f s).clock = s.clock := rfl
@[simp] theorem updRx_rx (l : Link) (f : Receiver → Receiver) : (updRx l f s).rx = upd s.rx l f := rfl
@[simp] theorem updRx_channels (l : Link) (f : Receiver → Receiver) : (updRx l f s).channels = s.channels := rfl
@[simp] theorem updRx_roles (l : Link) (f : Receiver → Receiver) : (updRx l f s).roles = s.roles := rfl
@[simp] theorem updRx_levels (l : Link) (f : Receiver → Receiver) : (updRx l f s).levels = s.levels := rfl
@[simp] theorem updRx_mixes (l : Link) (f : Receiver → Receiver) : (updRx l f s).mixes = s.mixes := rfl
@[simp] theorem updRx_sends (l : Link) (f : Receiver → Receiver) : (updRx l f s).sends = s.sends := rfl
@[simp] theorem updRx_voiceGroups (l : Link) (f : Receiver → Receiver) : (updRx l f s).voiceGroups = s.voiceGroups := rfl
@[simp] theorem updRx_outMap (l : Link) (f : Receiver → Receiver) : (updRx l f s).outMap = s.outMap := rfl
@[simp] theorem updRx_tx (l : Link) (f : Receiver → Receiver) : (updRx l f s).tx = s.tx := rfl
@[simp] theorem updRx_txCount (l : Link) (f : Receiver → Receiver) : (updRx l f s).txCount = s.txCount := rfl
@[simp] theorem updRx_hold (l : Link) (f : Receiver → Receiver) : (updRx l f s).hold = s.hold := rfl
@[simp] theorem updRx_header (l : Link) (f : Receiver → Receiver) : (updRx l f s).header = s.header := rfl
@[simp] theorem updRx_tables (l : Link) (f : Receiver → Receiver) : (updRx l f s).tables = s.tables := rfl
@[simp] theorem updRx_regions (l : Link) (f : Receiver → Receiver) : (updRx l f s).regions = s.regions := rfl
@[simp] theorem updRx_seq (l : Link) (f : Receiver → Receiver) : (updRx l f s).seq = s.seq := rfl
@[simp] theorem updRx_fades (l : Link) (f : Receiver → Receiver) : (updRx l f s).fades = s.fades := rfl
@[simp] theorem updRx_takenOver (l : Link) (f : Receiver → Receiver) : (updRx l f s).takenOver = s.takenOver := rfl
@[simp] theorem updRx_voices (l : Link) (f : Receiver → Receiver) : (updRx l f s).voices = s.voices := rfl
@[simp] theorem updRx_zones (l : Link) (f : Receiver → Receiver) : (updRx l f s).zones = s.zones := rfl
@[simp] theorem updRx_zoneGroups (l : Link) (f : Receiver → Receiver) : (updRx l f s).zoneGroups = s.zoneGroups := rfl
@[simp] theorem updRx_tod (l : Link) (f : Receiver → Receiver) : (updRx l f s).tod = s.tod := rfl
@[simp] theorem updRx_rollover (l : Link) (f : Receiver → Receiver) : (updRx l f s).rollover = s.rollover := rfl
@[simp] theorem updRx_pages (l : Link) (f : Receiver → Receiver) : (updRx l f s).pages = s.pages := rfl
@[simp] theorem updRx_lastClosed (l : Link) (f : Receiver → Receiver) : (updRx l f s).lastClosed = s.lastClosed := rfl
@[simp] theorem updRx_calls (l : Link) (f : Receiver → Receiver) : (updRx l f s).calls = s.calls := rfl
@[simp] theorem updRx_overlapped (l : Link) (f : Receiver → Receiver) : (updRx l f s).overlapped = s.overlapped := rfl
@[simp] theorem updRx_missedCalls (l : Link) (f : Receiver → Receiver) : (updRx l f s).missedCalls = s.missedCalls := rfl
@[simp] theorem updRx_cutCalls (l : Link) (f : Receiver → Receiver) : (updRx l f s).cutCalls = s.cutCalls := rfl
@[simp] theorem updRx_cells (l : Link) (f : Receiver → Receiver) : (updRx l f s).cells = s.cells := rfl
@[simp] theorem updRx_mirror (l : Link) (f : Receiver → Receiver) : (updRx l f s).mirror = s.mirror := rfl
@[simp] theorem updRx_wq (l : Link) (f : Receiver → Receiver) : (updRx l f s).wq = s.wq := rfl
@[simp] theorem updRx_arb (l : Link) (f : Receiver → Receiver) : (updRx l f s).arb = s.arb := rfl
@[simp] theorem updRx_port (l : Link) (f : Receiver → Receiver) : (updRx l f s).port = s.port := rfl
@[simp] theorem updRx_slate (l : Link) (f : Receiver → Receiver) : (updRx l f s).slate = s.slate := rfl
@[simp] theorem updRx_engine (l : Link) (f : Receiver → Receiver) : (updRx l f s).engine = s.engine := rfl
@[simp] theorem updRx_lock (l : Link) (f : Receiver → Receiver) : (updRx l f s).lock = s.lock := rfl
@[simp] theorem updRx_load (l : Link) (f : Receiver → Receiver) : (updRx l f s).load = s.load := rfl
@[simp] theorem updRx_notice (l : Link) (f : Receiver → Receiver) : (updRx l f s).notice = s.notice := rfl
@[simp] theorem updRx_freeCount (l : Link) (f : Receiver → Receiver) : (updRx l f s).freeCount = s.freeCount := rfl
@[simp] theorem updRx_notes (l : Link) (f : Receiver → Receiver) : (updRx l f s).notes = s.notes := rfl
@[simp] theorem updRx_marks (l : Link) (f : Receiver → Receiver) : (updRx l f s).marks = s.marks := rfl

/-! ## setPage -/

@[simp] theorem setPage_pending (p : PageId) (x : Option Page) : (setPage p x s).pending = s.pending := rfl
@[simp] theorem setPage_phase (p : PageId) (x : Option Page) : (setPage p x s).phase = s.phase := rfl
@[simp] theorem setPage_rstl (p : PageId) (x : Option Page) : (setPage p x s).rstl = s.rstl := rfl
@[simp] theorem setPage_memSize (p : PageId) (x : Option Page) : (setPage p x s).memSize = s.memSize := rfl
@[simp] theorem setPage_mem (p : PageId) (x : Option Page) : (setPage p x s).mem = s.mem := rfl
@[simp] theorem setPage_clock (p : PageId) (x : Option Page) : (setPage p x s).clock = s.clock := rfl
@[simp] theorem setPage_rx (p : PageId) (x : Option Page) : (setPage p x s).rx = s.rx := rfl
@[simp] theorem setPage_channels (p : PageId) (x : Option Page) : (setPage p x s).channels = s.channels := rfl
@[simp] theorem setPage_roles (p : PageId) (x : Option Page) : (setPage p x s).roles = s.roles := rfl
@[simp] theorem setPage_levels (p : PageId) (x : Option Page) : (setPage p x s).levels = s.levels := rfl
@[simp] theorem setPage_mixes (p : PageId) (x : Option Page) : (setPage p x s).mixes = s.mixes := rfl
@[simp] theorem setPage_sends (p : PageId) (x : Option Page) : (setPage p x s).sends = s.sends := rfl
@[simp] theorem setPage_voiceGroups (p : PageId) (x : Option Page) : (setPage p x s).voiceGroups = s.voiceGroups := rfl
@[simp] theorem setPage_outMap (p : PageId) (x : Option Page) : (setPage p x s).outMap = s.outMap := rfl
@[simp] theorem setPage_tx (p : PageId) (x : Option Page) : (setPage p x s).tx = s.tx := rfl
@[simp] theorem setPage_txCount (p : PageId) (x : Option Page) : (setPage p x s).txCount = s.txCount := rfl
@[simp] theorem setPage_hold (p : PageId) (x : Option Page) : (setPage p x s).hold = s.hold := rfl
@[simp] theorem setPage_header (p : PageId) (x : Option Page) : (setPage p x s).header = s.header := rfl
@[simp] theorem setPage_tables (p : PageId) (x : Option Page) : (setPage p x s).tables = s.tables := rfl
@[simp] theorem setPage_regions (p : PageId) (x : Option Page) : (setPage p x s).regions = s.regions := rfl
@[simp] theorem setPage_seq (p : PageId) (x : Option Page) : (setPage p x s).seq = s.seq := rfl
@[simp] theorem setPage_fades (p : PageId) (x : Option Page) : (setPage p x s).fades = s.fades := rfl
@[simp] theorem setPage_takenOver (p : PageId) (x : Option Page) : (setPage p x s).takenOver = s.takenOver := rfl
@[simp] theorem setPage_voices (p : PageId) (x : Option Page) : (setPage p x s).voices = s.voices := rfl
@[simp] theorem setPage_zones (p : PageId) (x : Option Page) : (setPage p x s).zones = s.zones := rfl
@[simp] theorem setPage_zoneGroups (p : PageId) (x : Option Page) : (setPage p x s).zoneGroups = s.zoneGroups := rfl
@[simp] theorem setPage_tod (p : PageId) (x : Option Page) : (setPage p x s).tod = s.tod := rfl
@[simp] theorem setPage_rollover (p : PageId) (x : Option Page) : (setPage p x s).rollover = s.rollover := rfl
@[simp] theorem setPage_pages (p : PageId) (x : Option Page) : (setPage p x s).pages = s.pages.set p x := rfl
@[simp] theorem setPage_lastClosed (p : PageId) (x : Option Page) : (setPage p x s).lastClosed = s.lastClosed := rfl
@[simp] theorem setPage_calls (p : PageId) (x : Option Page) : (setPage p x s).calls = s.calls := rfl
@[simp] theorem setPage_overlapped (p : PageId) (x : Option Page) : (setPage p x s).overlapped = s.overlapped := rfl
@[simp] theorem setPage_missedCalls (p : PageId) (x : Option Page) : (setPage p x s).missedCalls = s.missedCalls := rfl
@[simp] theorem setPage_cutCalls (p : PageId) (x : Option Page) : (setPage p x s).cutCalls = s.cutCalls := rfl
@[simp] theorem setPage_cells (p : PageId) (x : Option Page) : (setPage p x s).cells = s.cells := rfl
@[simp] theorem setPage_mirror (p : PageId) (x : Option Page) : (setPage p x s).mirror = s.mirror := rfl
@[simp] theorem setPage_wq (p : PageId) (x : Option Page) : (setPage p x s).wq = s.wq := rfl
@[simp] theorem setPage_arb (p : PageId) (x : Option Page) : (setPage p x s).arb = s.arb := rfl
@[simp] theorem setPage_port (p : PageId) (x : Option Page) : (setPage p x s).port = s.port := rfl
@[simp] theorem setPage_slate (p : PageId) (x : Option Page) : (setPage p x s).slate = s.slate := rfl
@[simp] theorem setPage_engine (p : PageId) (x : Option Page) : (setPage p x s).engine = s.engine := rfl
@[simp] theorem setPage_lock (p : PageId) (x : Option Page) : (setPage p x s).lock = s.lock := rfl
@[simp] theorem setPage_load (p : PageId) (x : Option Page) : (setPage p x s).load = s.load := rfl
@[simp] theorem setPage_notice (p : PageId) (x : Option Page) : (setPage p x s).notice = s.notice := rfl
@[simp] theorem setPage_freeCount (p : PageId) (x : Option Page) : (setPage p x s).freeCount = s.freeCount := rfl
@[simp] theorem setPage_notes (p : PageId) (x : Option Page) : (setPage p x s).notes = s.notes := rfl
@[simp] theorem setPage_marks (p : PageId) (x : Option Page) : (setPage p x s).marks = s.marks := rfl

/-! ## setFade -/

@[simp] theorem setFade_pending (i : RecId) (x : Option FadeRec) : (setFade i x s).pending = s.pending := rfl
@[simp] theorem setFade_phase (i : RecId) (x : Option FadeRec) : (setFade i x s).phase = s.phase := rfl
@[simp] theorem setFade_rstl (i : RecId) (x : Option FadeRec) : (setFade i x s).rstl = s.rstl := rfl
@[simp] theorem setFade_memSize (i : RecId) (x : Option FadeRec) : (setFade i x s).memSize = s.memSize := rfl
@[simp] theorem setFade_mem (i : RecId) (x : Option FadeRec) : (setFade i x s).mem = s.mem := rfl
@[simp] theorem setFade_clock (i : RecId) (x : Option FadeRec) : (setFade i x s).clock = s.clock := rfl
@[simp] theorem setFade_rx (i : RecId) (x : Option FadeRec) : (setFade i x s).rx = s.rx := rfl
@[simp] theorem setFade_channels (i : RecId) (x : Option FadeRec) : (setFade i x s).channels = s.channels := rfl
@[simp] theorem setFade_roles (i : RecId) (x : Option FadeRec) : (setFade i x s).roles = s.roles := rfl
@[simp] theorem setFade_levels (i : RecId) (x : Option FadeRec) : (setFade i x s).levels = s.levels := rfl
@[simp] theorem setFade_mixes (i : RecId) (x : Option FadeRec) : (setFade i x s).mixes = s.mixes := rfl
@[simp] theorem setFade_sends (i : RecId) (x : Option FadeRec) : (setFade i x s).sends = s.sends := rfl
@[simp] theorem setFade_voiceGroups (i : RecId) (x : Option FadeRec) : (setFade i x s).voiceGroups = s.voiceGroups := rfl
@[simp] theorem setFade_outMap (i : RecId) (x : Option FadeRec) : (setFade i x s).outMap = s.outMap := rfl
@[simp] theorem setFade_tx (i : RecId) (x : Option FadeRec) : (setFade i x s).tx = s.tx := rfl
@[simp] theorem setFade_txCount (i : RecId) (x : Option FadeRec) : (setFade i x s).txCount = s.txCount := rfl
@[simp] theorem setFade_hold (i : RecId) (x : Option FadeRec) : (setFade i x s).hold = s.hold := rfl
@[simp] theorem setFade_header (i : RecId) (x : Option FadeRec) : (setFade i x s).header = s.header := rfl
@[simp] theorem setFade_tables (i : RecId) (x : Option FadeRec) : (setFade i x s).tables = s.tables := rfl
@[simp] theorem setFade_regions (i : RecId) (x : Option FadeRec) : (setFade i x s).regions = s.regions := rfl
@[simp] theorem setFade_seq (i : RecId) (x : Option FadeRec) : (setFade i x s).seq = s.seq := rfl
@[simp] theorem setFade_fades (i : RecId) (x : Option FadeRec) : (setFade i x s).fades = s.fades.set i x := rfl
@[simp] theorem setFade_takenOver (i : RecId) (x : Option FadeRec) : (setFade i x s).takenOver = s.takenOver := rfl
@[simp] theorem setFade_voices (i : RecId) (x : Option FadeRec) : (setFade i x s).voices = s.voices := rfl
@[simp] theorem setFade_zones (i : RecId) (x : Option FadeRec) : (setFade i x s).zones = s.zones := rfl
@[simp] theorem setFade_zoneGroups (i : RecId) (x : Option FadeRec) : (setFade i x s).zoneGroups = s.zoneGroups := rfl
@[simp] theorem setFade_tod (i : RecId) (x : Option FadeRec) : (setFade i x s).tod = s.tod := rfl
@[simp] theorem setFade_rollover (i : RecId) (x : Option FadeRec) : (setFade i x s).rollover = s.rollover := rfl
@[simp] theorem setFade_pages (i : RecId) (x : Option FadeRec) : (setFade i x s).pages = s.pages := rfl
@[simp] theorem setFade_lastClosed (i : RecId) (x : Option FadeRec) : (setFade i x s).lastClosed = s.lastClosed := rfl
@[simp] theorem setFade_calls (i : RecId) (x : Option FadeRec) : (setFade i x s).calls = s.calls := rfl
@[simp] theorem setFade_overlapped (i : RecId) (x : Option FadeRec) : (setFade i x s).overlapped = s.overlapped := rfl
@[simp] theorem setFade_missedCalls (i : RecId) (x : Option FadeRec) : (setFade i x s).missedCalls = s.missedCalls := rfl
@[simp] theorem setFade_cutCalls (i : RecId) (x : Option FadeRec) : (setFade i x s).cutCalls = s.cutCalls := rfl
@[simp] theorem setFade_cells (i : RecId) (x : Option FadeRec) : (setFade i x s).cells = s.cells := rfl
@[simp] theorem setFade_mirror (i : RecId) (x : Option FadeRec) : (setFade i x s).mirror
    = { s.mirror with inUseChanged := s.mirror.inUseChanged || (s.fades[i].isSome != x.isSome) } := rfl
@[simp] theorem setFade_wq (i : RecId) (x : Option FadeRec) : (setFade i x s).wq = s.wq := rfl
@[simp] theorem setFade_arb (i : RecId) (x : Option FadeRec) : (setFade i x s).arb = s.arb := rfl
@[simp] theorem setFade_port (i : RecId) (x : Option FadeRec) : (setFade i x s).port = s.port := rfl
@[simp] theorem setFade_slate (i : RecId) (x : Option FadeRec) : (setFade i x s).slate = s.slate := rfl
@[simp] theorem setFade_engine (i : RecId) (x : Option FadeRec) : (setFade i x s).engine = s.engine := rfl
@[simp] theorem setFade_lock (i : RecId) (x : Option FadeRec) : (setFade i x s).lock = s.lock := rfl
@[simp] theorem setFade_load (i : RecId) (x : Option FadeRec) : (setFade i x s).load = s.load := rfl
@[simp] theorem setFade_notice (i : RecId) (x : Option FadeRec) : (setFade i x s).notice = s.notice := rfl
@[simp] theorem setFade_freeCount (i : RecId) (x : Option FadeRec) : (setFade i x s).freeCount = s.freeCount := rfl
@[simp] theorem setFade_notes (i : RecId) (x : Option FadeRec) : (setFade i x s).notes = s.notes := rfl
@[simp] theorem setFade_marks (i : RecId) (x : Option FadeRec) : (setFade i x s).marks = s.marks := rfl

/-! ## noteInUse -/

@[simp] theorem noteInUse_pending (b : Bool) : (noteInUse b s).pending = s.pending := rfl
@[simp] theorem noteInUse_phase (b : Bool) : (noteInUse b s).phase = s.phase := rfl
@[simp] theorem noteInUse_rstl (b : Bool) : (noteInUse b s).rstl = s.rstl := rfl
@[simp] theorem noteInUse_memSize (b : Bool) : (noteInUse b s).memSize = s.memSize := rfl
@[simp] theorem noteInUse_mem (b : Bool) : (noteInUse b s).mem = s.mem := rfl
@[simp] theorem noteInUse_clock (b : Bool) : (noteInUse b s).clock = s.clock := rfl
@[simp] theorem noteInUse_rx (b : Bool) : (noteInUse b s).rx = s.rx := rfl
@[simp] theorem noteInUse_channels (b : Bool) : (noteInUse b s).channels = s.channels := rfl
@[simp] theorem noteInUse_roles (b : Bool) : (noteInUse b s).roles = s.roles := rfl
@[simp] theorem noteInUse_levels (b : Bool) : (noteInUse b s).levels = s.levels := rfl
@[simp] theorem noteInUse_mixes (b : Bool) : (noteInUse b s).mixes = s.mixes := rfl
@[simp] theorem noteInUse_sends (b : Bool) : (noteInUse b s).sends = s.sends := rfl
@[simp] theorem noteInUse_voiceGroups (b : Bool) : (noteInUse b s).voiceGroups = s.voiceGroups := rfl
@[simp] theorem noteInUse_outMap (b : Bool) : (noteInUse b s).outMap = s.outMap := rfl
@[simp] theorem noteInUse_tx (b : Bool) : (noteInUse b s).tx = s.tx := rfl
@[simp] theorem noteInUse_txCount (b : Bool) : (noteInUse b s).txCount = s.txCount := rfl
@[simp] theorem noteInUse_hold (b : Bool) : (noteInUse b s).hold = s.hold := rfl
@[simp] theorem noteInUse_header (b : Bool) : (noteInUse b s).header = s.header := rfl
@[simp] theorem noteInUse_tables (b : Bool) : (noteInUse b s).tables = s.tables := rfl
@[simp] theorem noteInUse_regions (b : Bool) : (noteInUse b s).regions = s.regions := rfl
@[simp] theorem noteInUse_seq (b : Bool) : (noteInUse b s).seq = s.seq := rfl
@[simp] theorem noteInUse_fades (b : Bool) : (noteInUse b s).fades = s.fades := rfl
@[simp] theorem noteInUse_takenOver (b : Bool) : (noteInUse b s).takenOver = s.takenOver := rfl
@[simp] theorem noteInUse_voices (b : Bool) : (noteInUse b s).voices = s.voices := rfl
@[simp] theorem noteInUse_zones (b : Bool) : (noteInUse b s).zones = s.zones := rfl
@[simp] theorem noteInUse_zoneGroups (b : Bool) : (noteInUse b s).zoneGroups = s.zoneGroups := rfl
@[simp] theorem noteInUse_tod (b : Bool) : (noteInUse b s).tod = s.tod := rfl
@[simp] theorem noteInUse_rollover (b : Bool) : (noteInUse b s).rollover = s.rollover := rfl
@[simp] theorem noteInUse_pages (b : Bool) : (noteInUse b s).pages = s.pages := rfl
@[simp] theorem noteInUse_lastClosed (b : Bool) : (noteInUse b s).lastClosed = s.lastClosed := rfl
@[simp] theorem noteInUse_calls (b : Bool) : (noteInUse b s).calls = s.calls := rfl
@[simp] theorem noteInUse_overlapped (b : Bool) : (noteInUse b s).overlapped = s.overlapped := rfl
@[simp] theorem noteInUse_missedCalls (b : Bool) : (noteInUse b s).missedCalls = s.missedCalls := rfl
@[simp] theorem noteInUse_cutCalls (b : Bool) : (noteInUse b s).cutCalls = s.cutCalls := rfl
@[simp] theorem noteInUse_cells (b : Bool) : (noteInUse b s).cells = s.cells := rfl
@[simp] theorem noteInUse_mirror (b : Bool) : (noteInUse b s).mirror
    = { s.mirror with inUseChanged := s.mirror.inUseChanged || b } := rfl
@[simp] theorem noteInUse_wq (b : Bool) : (noteInUse b s).wq = s.wq := rfl
@[simp] theorem noteInUse_arb (b : Bool) : (noteInUse b s).arb = s.arb := rfl
@[simp] theorem noteInUse_port (b : Bool) : (noteInUse b s).port = s.port := rfl
@[simp] theorem noteInUse_slate (b : Bool) : (noteInUse b s).slate = s.slate := rfl
@[simp] theorem noteInUse_engine (b : Bool) : (noteInUse b s).engine = s.engine := rfl
@[simp] theorem noteInUse_lock (b : Bool) : (noteInUse b s).lock = s.lock := rfl
@[simp] theorem noteInUse_load (b : Bool) : (noteInUse b s).load = s.load := rfl
@[simp] theorem noteInUse_notice (b : Bool) : (noteInUse b s).notice = s.notice := rfl
@[simp] theorem noteInUse_freeCount (b : Bool) : (noteInUse b s).freeCount = s.freeCount := rfl
@[simp] theorem noteInUse_notes (b : Bool) : (noteInUse b s).notes = s.notes := rfl
@[simp] theorem noteInUse_marks (b : Bool) : (noteInUse b s).marks = s.marks := rfl

/-! ## emptyFades -/

@[simp] theorem emptyFades_pending : (emptyFades s).pending = s.pending := rfl
@[simp] theorem emptyFades_phase : (emptyFades s).phase = s.phase := rfl
@[simp] theorem emptyFades_rstl : (emptyFades s).rstl = s.rstl := rfl
@[simp] theorem emptyFades_memSize : (emptyFades s).memSize = s.memSize := rfl
@[simp] theorem emptyFades_mem : (emptyFades s).mem = s.mem := rfl
@[simp] theorem emptyFades_clock : (emptyFades s).clock = s.clock := rfl
@[simp] theorem emptyFades_rx : (emptyFades s).rx = s.rx := rfl
@[simp] theorem emptyFades_channels : (emptyFades s).channels = s.channels := rfl
@[simp] theorem emptyFades_roles : (emptyFades s).roles = s.roles := rfl
@[simp] theorem emptyFades_levels : (emptyFades s).levels = s.levels := rfl
@[simp] theorem emptyFades_mixes : (emptyFades s).mixes = s.mixes := rfl
@[simp] theorem emptyFades_sends : (emptyFades s).sends = s.sends := rfl
@[simp] theorem emptyFades_voiceGroups : (emptyFades s).voiceGroups = s.voiceGroups := rfl
@[simp] theorem emptyFades_outMap : (emptyFades s).outMap = s.outMap := rfl
@[simp] theorem emptyFades_tx : (emptyFades s).tx = s.tx := rfl
@[simp] theorem emptyFades_txCount : (emptyFades s).txCount = s.txCount := rfl
@[simp] theorem emptyFades_hold : (emptyFades s).hold = s.hold := rfl
@[simp] theorem emptyFades_header : (emptyFades s).header = s.header := rfl
@[simp] theorem emptyFades_tables : (emptyFades s).tables = s.tables := rfl
@[simp] theorem emptyFades_regions : (emptyFades s).regions = s.regions := rfl
@[simp] theorem emptyFades_seq : (emptyFades s).seq = s.seq := rfl
@[simp] theorem emptyFades_fades : (emptyFades s).fades
    = Vector.replicate 128 none := rfl
@[simp] theorem emptyFades_takenOver : (emptyFades s).takenOver = s.takenOver := rfl
@[simp] theorem emptyFades_voices : (emptyFades s).voices = s.voices := rfl
@[simp] theorem emptyFades_zones : (emptyFades s).zones = s.zones := rfl
@[simp] theorem emptyFades_zoneGroups : (emptyFades s).zoneGroups = s.zoneGroups := rfl
@[simp] theorem emptyFades_tod : (emptyFades s).tod = s.tod := rfl
@[simp] theorem emptyFades_rollover : (emptyFades s).rollover = s.rollover := rfl
@[simp] theorem emptyFades_pages : (emptyFades s).pages = s.pages := rfl
@[simp] theorem emptyFades_lastClosed : (emptyFades s).lastClosed = s.lastClosed := rfl
@[simp] theorem emptyFades_calls : (emptyFades s).calls = s.calls := rfl
@[simp] theorem emptyFades_overlapped : (emptyFades s).overlapped = s.overlapped := rfl
@[simp] theorem emptyFades_missedCalls : (emptyFades s).missedCalls = s.missedCalls := rfl
@[simp] theorem emptyFades_cutCalls : (emptyFades s).cutCalls = s.cutCalls := rfl
@[simp] theorem emptyFades_cells : (emptyFades s).cells = s.cells := rfl
@[simp] theorem emptyFades_mirror : (emptyFades s).mirror
    = { s.mirror with
      inUseChanged := s.mirror.inUseChanged || s.fades.toList.any Option.isSome } := rfl
@[simp] theorem emptyFades_wq : (emptyFades s).wq = s.wq := rfl
@[simp] theorem emptyFades_arb : (emptyFades s).arb = s.arb := rfl
@[simp] theorem emptyFades_port : (emptyFades s).port = s.port := rfl
@[simp] theorem emptyFades_slate : (emptyFades s).slate = s.slate := rfl
@[simp] theorem emptyFades_engine : (emptyFades s).engine = s.engine := rfl
@[simp] theorem emptyFades_lock : (emptyFades s).lock = s.lock := rfl
@[simp] theorem emptyFades_load : (emptyFades s).load = s.load := rfl
@[simp] theorem emptyFades_notice : (emptyFades s).notice = s.notice := rfl
@[simp] theorem emptyFades_freeCount : (emptyFades s).freeCount = s.freeCount := rfl
@[simp] theorem emptyFades_notes : (emptyFades s).notes = s.notes := rfl
@[simp] theorem emptyFades_marks : (emptyFades s).marks = s.marks := rfl

/-! ## setCell -/

@[simp] theorem setCell_pending (c : CellId) (x : Cell) : (setCell c x s).pending = s.pending := rfl
@[simp] theorem setCell_phase (c : CellId) (x : Cell) : (setCell c x s).phase = s.phase := rfl
@[simp] theorem setCell_rstl (c : CellId) (x : Cell) : (setCell c x s).rstl = s.rstl := rfl
@[simp] theorem setCell_memSize (c : CellId) (x : Cell) : (setCell c x s).memSize = s.memSize := rfl
@[simp] theorem setCell_mem (c : CellId) (x : Cell) : (setCell c x s).mem = s.mem := rfl
@[simp] theorem setCell_clock (c : CellId) (x : Cell) : (setCell c x s).clock = s.clock := rfl
@[simp] theorem setCell_rx (c : CellId) (x : Cell) : (setCell c x s).rx = s.rx := rfl
@[simp] theorem setCell_channels (c : CellId) (x : Cell) : (setCell c x s).channels = s.channels := rfl
@[simp] theorem setCell_roles (c : CellId) (x : Cell) : (setCell c x s).roles = s.roles := rfl
@[simp] theorem setCell_levels (c : CellId) (x : Cell) : (setCell c x s).levels = s.levels := rfl
@[simp] theorem setCell_mixes (c : CellId) (x : Cell) : (setCell c x s).mixes = s.mixes := rfl
@[simp] theorem setCell_sends (c : CellId) (x : Cell) : (setCell c x s).sends = s.sends := rfl
@[simp] theorem setCell_voiceGroups (c : CellId) (x : Cell) : (setCell c x s).voiceGroups = s.voiceGroups := rfl
@[simp] theorem setCell_outMap (c : CellId) (x : Cell) : (setCell c x s).outMap = s.outMap := rfl
@[simp] theorem setCell_tx (c : CellId) (x : Cell) : (setCell c x s).tx = s.tx := rfl
@[simp] theorem setCell_txCount (c : CellId) (x : Cell) : (setCell c x s).txCount = s.txCount := rfl
@[simp] theorem setCell_hold (c : CellId) (x : Cell) : (setCell c x s).hold = s.hold := rfl
@[simp] theorem setCell_header (c : CellId) (x : Cell) : (setCell c x s).header = s.header := rfl
@[simp] theorem setCell_tables (c : CellId) (x : Cell) : (setCell c x s).tables = s.tables := rfl
@[simp] theorem setCell_regions (c : CellId) (x : Cell) : (setCell c x s).regions = s.regions := rfl
@[simp] theorem setCell_seq (c : CellId) (x : Cell) : (setCell c x s).seq = s.seq := rfl
@[simp] theorem setCell_fades (c : CellId) (x : Cell) : (setCell c x s).fades = s.fades := rfl
@[simp] theorem setCell_takenOver (c : CellId) (x : Cell) : (setCell c x s).takenOver = s.takenOver := rfl
@[simp] theorem setCell_voices (c : CellId) (x : Cell) : (setCell c x s).voices = s.voices := rfl
@[simp] theorem setCell_zones (c : CellId) (x : Cell) : (setCell c x s).zones = s.zones := rfl
@[simp] theorem setCell_zoneGroups (c : CellId) (x : Cell) : (setCell c x s).zoneGroups = s.zoneGroups := rfl
@[simp] theorem setCell_tod (c : CellId) (x : Cell) : (setCell c x s).tod = s.tod := rfl
@[simp] theorem setCell_rollover (c : CellId) (x : Cell) : (setCell c x s).rollover = s.rollover := rfl
@[simp] theorem setCell_pages (c : CellId) (x : Cell) : (setCell c x s).pages = s.pages := rfl
@[simp] theorem setCell_lastClosed (c : CellId) (x : Cell) : (setCell c x s).lastClosed = s.lastClosed := rfl
@[simp] theorem setCell_calls (c : CellId) (x : Cell) : (setCell c x s).calls = s.calls := rfl
@[simp] theorem setCell_overlapped (c : CellId) (x : Cell) : (setCell c x s).overlapped = s.overlapped := rfl
@[simp] theorem setCell_missedCalls (c : CellId) (x : Cell) : (setCell c x s).missedCalls = s.missedCalls := rfl
@[simp] theorem setCell_cutCalls (c : CellId) (x : Cell) : (setCell c x s).cutCalls = s.cutCalls := rfl
@[simp] theorem setCell_cells (c : CellId) (x : Cell) : (setCell c x s).cells = s.cells.set c x := rfl
@[simp] theorem setCell_mirror (c : CellId) (x : Cell) : (setCell c x s).mirror = s.mirror := rfl
@[simp] theorem setCell_wq (c : CellId) (x : Cell) : (setCell c x s).wq = s.wq := rfl
@[simp] theorem setCell_arb (c : CellId) (x : Cell) : (setCell c x s).arb = s.arb := rfl
@[simp] theorem setCell_port (c : CellId) (x : Cell) : (setCell c x s).port = s.port := rfl
@[simp] theorem setCell_slate (c : CellId) (x : Cell) : (setCell c x s).slate = s.slate := rfl
@[simp] theorem setCell_engine (c : CellId) (x : Cell) : (setCell c x s).engine = s.engine := rfl
@[simp] theorem setCell_lock (c : CellId) (x : Cell) : (setCell c x s).lock = s.lock := rfl
@[simp] theorem setCell_load (c : CellId) (x : Cell) : (setCell c x s).load = s.load := rfl
@[simp] theorem setCell_notice (c : CellId) (x : Cell) : (setCell c x s).notice = s.notice := rfl
@[simp] theorem setCell_freeCount (c : CellId) (x : Cell) : (setCell c x s).freeCount = s.freeCount := rfl
@[simp] theorem setCell_notes (c : CellId) (x : Cell) : (setCell c x s).notes = s.notes := rfl
@[simp] theorem setCell_marks (c : CellId) (x : Cell) : (setCell c x s).marks = s.marks := rfl

/-! ## updSeq -/

@[simp] theorem updSeq_pending (f : Seq → Seq) : (updSeq f s).pending = s.pending := rfl
@[simp] theorem updSeq_phase (f : Seq → Seq) : (updSeq f s).phase = s.phase := rfl
@[simp] theorem updSeq_rstl (f : Seq → Seq) : (updSeq f s).rstl = s.rstl := rfl
@[simp] theorem updSeq_memSize (f : Seq → Seq) : (updSeq f s).memSize = s.memSize := rfl
@[simp] theorem updSeq_mem (f : Seq → Seq) : (updSeq f s).mem = s.mem := rfl
@[simp] theorem updSeq_clock (f : Seq → Seq) : (updSeq f s).clock = s.clock := rfl
@[simp] theorem updSeq_rx (f : Seq → Seq) : (updSeq f s).rx = s.rx := rfl
@[simp] theorem updSeq_channels (f : Seq → Seq) : (updSeq f s).channels = s.channels := rfl
@[simp] theorem updSeq_roles (f : Seq → Seq) : (updSeq f s).roles = s.roles := rfl
@[simp] theorem updSeq_levels (f : Seq → Seq) : (updSeq f s).levels = s.levels := rfl
@[simp] theorem updSeq_mixes (f : Seq → Seq) : (updSeq f s).mixes = s.mixes := rfl
@[simp] theorem updSeq_sends (f : Seq → Seq) : (updSeq f s).sends = s.sends := rfl
@[simp] theorem updSeq_voiceGroups (f : Seq → Seq) : (updSeq f s).voiceGroups = s.voiceGroups := rfl
@[simp] theorem updSeq_outMap (f : Seq → Seq) : (updSeq f s).outMap = s.outMap := rfl
@[simp] theorem updSeq_tx (f : Seq → Seq) : (updSeq f s).tx = s.tx := rfl
@[simp] theorem updSeq_txCount (f : Seq → Seq) : (updSeq f s).txCount = s.txCount := rfl
@[simp] theorem updSeq_hold (f : Seq → Seq) : (updSeq f s).hold = s.hold := rfl
@[simp] theorem updSeq_header (f : Seq → Seq) : (updSeq f s).header = s.header := rfl
@[simp] theorem updSeq_tables (f : Seq → Seq) : (updSeq f s).tables = s.tables := rfl
@[simp] theorem updSeq_regions (f : Seq → Seq) : (updSeq f s).regions = s.regions := rfl
@[simp] theorem updSeq_seq (f : Seq → Seq) : (updSeq f s).seq = f s.seq := rfl
@[simp] theorem updSeq_fades (f : Seq → Seq) : (updSeq f s).fades = s.fades := rfl
@[simp] theorem updSeq_takenOver (f : Seq → Seq) : (updSeq f s).takenOver = s.takenOver := rfl
@[simp] theorem updSeq_voices (f : Seq → Seq) : (updSeq f s).voices = s.voices := rfl
@[simp] theorem updSeq_zones (f : Seq → Seq) : (updSeq f s).zones = s.zones := rfl
@[simp] theorem updSeq_zoneGroups (f : Seq → Seq) : (updSeq f s).zoneGroups = s.zoneGroups := rfl
@[simp] theorem updSeq_tod (f : Seq → Seq) : (updSeq f s).tod = s.tod := rfl
@[simp] theorem updSeq_rollover (f : Seq → Seq) : (updSeq f s).rollover = s.rollover := rfl
@[simp] theorem updSeq_pages (f : Seq → Seq) : (updSeq f s).pages = s.pages := rfl
@[simp] theorem updSeq_lastClosed (f : Seq → Seq) : (updSeq f s).lastClosed = s.lastClosed := rfl
@[simp] theorem updSeq_calls (f : Seq → Seq) : (updSeq f s).calls = s.calls := rfl
@[simp] theorem updSeq_overlapped (f : Seq → Seq) : (updSeq f s).overlapped = s.overlapped := rfl
@[simp] theorem updSeq_missedCalls (f : Seq → Seq) : (updSeq f s).missedCalls = s.missedCalls := rfl
@[simp] theorem updSeq_cutCalls (f : Seq → Seq) : (updSeq f s).cutCalls = s.cutCalls := rfl
@[simp] theorem updSeq_cells (f : Seq → Seq) : (updSeq f s).cells = s.cells := rfl
@[simp] theorem updSeq_mirror (f : Seq → Seq) : (updSeq f s).mirror = s.mirror := rfl
@[simp] theorem updSeq_wq (f : Seq → Seq) : (updSeq f s).wq = s.wq := rfl
@[simp] theorem updSeq_arb (f : Seq → Seq) : (updSeq f s).arb = s.arb := rfl
@[simp] theorem updSeq_port (f : Seq → Seq) : (updSeq f s).port = s.port := rfl
@[simp] theorem updSeq_slate (f : Seq → Seq) : (updSeq f s).slate = s.slate := rfl
@[simp] theorem updSeq_engine (f : Seq → Seq) : (updSeq f s).engine = s.engine := rfl
@[simp] theorem updSeq_lock (f : Seq → Seq) : (updSeq f s).lock = s.lock := rfl
@[simp] theorem updSeq_load (f : Seq → Seq) : (updSeq f s).load = s.load := rfl
@[simp] theorem updSeq_notice (f : Seq → Seq) : (updSeq f s).notice = s.notice := rfl
@[simp] theorem updSeq_freeCount (f : Seq → Seq) : (updSeq f s).freeCount = s.freeCount := rfl
@[simp] theorem updSeq_notes (f : Seq → Seq) : (updSeq f s).notes = s.notes := rfl
@[simp] theorem updSeq_marks (f : Seq → Seq) : (updSeq f s).marks = s.marks := rfl

/-! ## updNotice -/

@[simp] theorem updNotice_pending (f : Notice → Notice) : (updNotice f s).pending = s.pending := rfl
@[simp] theorem updNotice_phase (f : Notice → Notice) : (updNotice f s).phase = s.phase := rfl
@[simp] theorem updNotice_rstl (f : Notice → Notice) : (updNotice f s).rstl = s.rstl := rfl
@[simp] theorem updNotice_memSize (f : Notice → Notice) : (updNotice f s).memSize = s.memSize := rfl
@[simp] theorem updNotice_mem (f : Notice → Notice) : (updNotice f s).mem = s.mem := rfl
@[simp] theorem updNotice_clock (f : Notice → Notice) : (updNotice f s).clock = s.clock := rfl
@[simp] theorem updNotice_rx (f : Notice → Notice) : (updNotice f s).rx = s.rx := rfl
@[simp] theorem updNotice_channels (f : Notice → Notice) : (updNotice f s).channels = s.channels := rfl
@[simp] theorem updNotice_roles (f : Notice → Notice) : (updNotice f s).roles = s.roles := rfl
@[simp] theorem updNotice_levels (f : Notice → Notice) : (updNotice f s).levels = s.levels := rfl
@[simp] theorem updNotice_mixes (f : Notice → Notice) : (updNotice f s).mixes = s.mixes := rfl
@[simp] theorem updNotice_sends (f : Notice → Notice) : (updNotice f s).sends = s.sends := rfl
@[simp] theorem updNotice_voiceGroups (f : Notice → Notice) : (updNotice f s).voiceGroups = s.voiceGroups := rfl
@[simp] theorem updNotice_outMap (f : Notice → Notice) : (updNotice f s).outMap = s.outMap := rfl
@[simp] theorem updNotice_tx (f : Notice → Notice) : (updNotice f s).tx = s.tx := rfl
@[simp] theorem updNotice_txCount (f : Notice → Notice) : (updNotice f s).txCount = s.txCount := rfl
@[simp] theorem updNotice_hold (f : Notice → Notice) : (updNotice f s).hold = s.hold := rfl
@[simp] theorem updNotice_header (f : Notice → Notice) : (updNotice f s).header = s.header := rfl
@[simp] theorem updNotice_tables (f : Notice → Notice) : (updNotice f s).tables = s.tables := rfl
@[simp] theorem updNotice_regions (f : Notice → Notice) : (updNotice f s).regions = s.regions := rfl
@[simp] theorem updNotice_seq (f : Notice → Notice) : (updNotice f s).seq = s.seq := rfl
@[simp] theorem updNotice_fades (f : Notice → Notice) : (updNotice f s).fades = s.fades := rfl
@[simp] theorem updNotice_takenOver (f : Notice → Notice) : (updNotice f s).takenOver = s.takenOver := rfl
@[simp] theorem updNotice_voices (f : Notice → Notice) : (updNotice f s).voices = s.voices := rfl
@[simp] theorem updNotice_zones (f : Notice → Notice) : (updNotice f s).zones = s.zones := rfl
@[simp] theorem updNotice_zoneGroups (f : Notice → Notice) : (updNotice f s).zoneGroups = s.zoneGroups := rfl
@[simp] theorem updNotice_tod (f : Notice → Notice) : (updNotice f s).tod = s.tod := rfl
@[simp] theorem updNotice_rollover (f : Notice → Notice) : (updNotice f s).rollover = s.rollover := rfl
@[simp] theorem updNotice_pages (f : Notice → Notice) : (updNotice f s).pages = s.pages := rfl
@[simp] theorem updNotice_lastClosed (f : Notice → Notice) : (updNotice f s).lastClosed = s.lastClosed := rfl
@[simp] theorem updNotice_calls (f : Notice → Notice) : (updNotice f s).calls = s.calls := rfl
@[simp] theorem updNotice_overlapped (f : Notice → Notice) : (updNotice f s).overlapped = s.overlapped := rfl
@[simp] theorem updNotice_missedCalls (f : Notice → Notice) : (updNotice f s).missedCalls = s.missedCalls := rfl
@[simp] theorem updNotice_cutCalls (f : Notice → Notice) : (updNotice f s).cutCalls = s.cutCalls := rfl
@[simp] theorem updNotice_cells (f : Notice → Notice) : (updNotice f s).cells = s.cells := rfl
@[simp] theorem updNotice_mirror (f : Notice → Notice) : (updNotice f s).mirror = s.mirror := rfl
@[simp] theorem updNotice_wq (f : Notice → Notice) : (updNotice f s).wq = s.wq := rfl
@[simp] theorem updNotice_arb (f : Notice → Notice) : (updNotice f s).arb = s.arb := rfl
@[simp] theorem updNotice_port (f : Notice → Notice) : (updNotice f s).port = s.port := rfl
@[simp] theorem updNotice_slate (f : Notice → Notice) : (updNotice f s).slate = s.slate := rfl
@[simp] theorem updNotice_engine (f : Notice → Notice) : (updNotice f s).engine = s.engine := rfl
@[simp] theorem updNotice_lock (f : Notice → Notice) : (updNotice f s).lock = s.lock := rfl
@[simp] theorem updNotice_load (f : Notice → Notice) : (updNotice f s).load = s.load := rfl
@[simp] theorem updNotice_notice (f : Notice → Notice) : (updNotice f s).notice = f s.notice := rfl
@[simp] theorem updNotice_freeCount (f : Notice → Notice) : (updNotice f s).freeCount = s.freeCount := rfl
@[simp] theorem updNotice_notes (f : Notice → Notice) : (updNotice f s).notes = s.notes := rfl
@[simp] theorem updNotice_marks (f : Notice → Notice) : (updNotice f s).marks = s.marks := rfl

/-! ## setView -/

@[simp] theorem setView_pending (i : SlotId) (v : SlotState) : (setView i v s).pending = s.pending := rfl
@[simp] theorem setView_phase (i : SlotId) (v : SlotState) : (setView i v s).phase = s.phase := rfl
@[simp] theorem setView_rstl (i : SlotId) (v : SlotState) : (setView i v s).rstl = s.rstl := rfl
@[simp] theorem setView_memSize (i : SlotId) (v : SlotState) : (setView i v s).memSize = s.memSize := rfl
@[simp] theorem setView_mem (i : SlotId) (v : SlotState) : (setView i v s).mem = s.mem := rfl
@[simp] theorem setView_clock (i : SlotId) (v : SlotState) : (setView i v s).clock = s.clock := rfl
@[simp] theorem setView_rx (i : SlotId) (v : SlotState) : (setView i v s).rx = s.rx := rfl
@[simp] theorem setView_channels (i : SlotId) (v : SlotState) : (setView i v s).channels = s.channels := rfl
@[simp] theorem setView_roles (i : SlotId) (v : SlotState) : (setView i v s).roles = s.roles := rfl
@[simp] theorem setView_levels (i : SlotId) (v : SlotState) : (setView i v s).levels = s.levels := rfl
@[simp] theorem setView_mixes (i : SlotId) (v : SlotState) : (setView i v s).mixes = s.mixes := rfl
@[simp] theorem setView_sends (i : SlotId) (v : SlotState) : (setView i v s).sends = s.sends := rfl
@[simp] theorem setView_voiceGroups (i : SlotId) (v : SlotState) : (setView i v s).voiceGroups = s.voiceGroups := rfl
@[simp] theorem setView_outMap (i : SlotId) (v : SlotState) : (setView i v s).outMap = s.outMap := rfl
@[simp] theorem setView_tx (i : SlotId) (v : SlotState) : (setView i v s).tx = s.tx := rfl
@[simp] theorem setView_txCount (i : SlotId) (v : SlotState) : (setView i v s).txCount = s.txCount := rfl
@[simp] theorem setView_hold (i : SlotId) (v : SlotState) : (setView i v s).hold = s.hold := rfl
@[simp] theorem setView_header (i : SlotId) (v : SlotState) : (setView i v s).header = s.header := rfl
@[simp] theorem setView_tables (i : SlotId) (v : SlotState) : (setView i v s).tables = s.tables := rfl
@[simp] theorem setView_regions (i : SlotId) (v : SlotState) : (setView i v s).regions = s.regions := rfl
@[simp] theorem setView_seq (i : SlotId) (v : SlotState) : (setView i v s).seq = s.seq := rfl
@[simp] theorem setView_fades (i : SlotId) (v : SlotState) : (setView i v s).fades = s.fades := rfl
@[simp] theorem setView_takenOver (i : SlotId) (v : SlotState) : (setView i v s).takenOver = s.takenOver := rfl
@[simp] theorem setView_voices (i : SlotId) (v : SlotState) : (setView i v s).voices = s.voices := rfl
@[simp] theorem setView_zones (i : SlotId) (v : SlotState) : (setView i v s).zones = s.zones := rfl
@[simp] theorem setView_zoneGroups (i : SlotId) (v : SlotState) : (setView i v s).zoneGroups = s.zoneGroups := rfl
@[simp] theorem setView_tod (i : SlotId) (v : SlotState) : (setView i v s).tod = s.tod := rfl
@[simp] theorem setView_rollover (i : SlotId) (v : SlotState) : (setView i v s).rollover = s.rollover := rfl
@[simp] theorem setView_pages (i : SlotId) (v : SlotState) : (setView i v s).pages = s.pages := rfl
@[simp] theorem setView_lastClosed (i : SlotId) (v : SlotState) : (setView i v s).lastClosed = s.lastClosed := rfl
@[simp] theorem setView_calls (i : SlotId) (v : SlotState) : (setView i v s).calls = s.calls := rfl
@[simp] theorem setView_overlapped (i : SlotId) (v : SlotState) : (setView i v s).overlapped = s.overlapped := rfl
@[simp] theorem setView_missedCalls (i : SlotId) (v : SlotState) : (setView i v s).missedCalls = s.missedCalls := rfl
@[simp] theorem setView_cutCalls (i : SlotId) (v : SlotState) : (setView i v s).cutCalls = s.cutCalls := rfl
@[simp] theorem setView_cells (i : SlotId) (v : SlotState) : (setView i v s).cells = s.cells := rfl
@[simp] theorem setView_mirror (i : SlotId) (v : SlotState) : (setView i v s).mirror = s.mirror := rfl
@[simp] theorem setView_wq (i : SlotId) (v : SlotState) : (setView i v s).wq = s.wq := rfl
@[simp] theorem setView_arb (i : SlotId) (v : SlotState) : (setView i v s).arb = s.arb := rfl
@[simp] theorem setView_port (i : SlotId) (v : SlotState) : (setView i v s).port = { s.port with view := s.port.view.set i v } := rfl
@[simp] theorem setView_slate (i : SlotId) (v : SlotState) : (setView i v s).slate = s.slate := rfl
@[simp] theorem setView_engine (i : SlotId) (v : SlotState) : (setView i v s).engine = s.engine := rfl
@[simp] theorem setView_lock (i : SlotId) (v : SlotState) : (setView i v s).lock = s.lock := rfl
@[simp] theorem setView_load (i : SlotId) (v : SlotState) : (setView i v s).load = s.load := rfl
@[simp] theorem setView_notice (i : SlotId) (v : SlotState) : (setView i v s).notice = s.notice := rfl
@[simp] theorem setView_freeCount (i : SlotId) (v : SlotState) : (setView i v s).freeCount = s.freeCount := rfl
@[simp] theorem setView_notes (i : SlotId) (v : SlotState) : (setView i v s).notes = s.notes := rfl
@[simp] theorem setView_marks (i : SlotId) (v : SlotState) : (setView i v s).marks = s.marks := rfl

/-! ## setArrival -/

@[simp] theorem setArrival_pending (l : List SlotId) : (setArrival l s).pending = s.pending := rfl
@[simp] theorem setArrival_phase (l : List SlotId) : (setArrival l s).phase = s.phase := rfl
@[simp] theorem setArrival_rstl (l : List SlotId) : (setArrival l s).rstl = s.rstl := rfl
@[simp] theorem setArrival_memSize (l : List SlotId) : (setArrival l s).memSize = s.memSize := rfl
@[simp] theorem setArrival_mem (l : List SlotId) : (setArrival l s).mem = s.mem := rfl
@[simp] theorem setArrival_clock (l : List SlotId) : (setArrival l s).clock = s.clock := rfl
@[simp] theorem setArrival_rx (l : List SlotId) : (setArrival l s).rx = s.rx := rfl
@[simp] theorem setArrival_channels (l : List SlotId) : (setArrival l s).channels = s.channels := rfl
@[simp] theorem setArrival_roles (l : List SlotId) : (setArrival l s).roles = s.roles := rfl
@[simp] theorem setArrival_levels (l : List SlotId) : (setArrival l s).levels = s.levels := rfl
@[simp] theorem setArrival_mixes (l : List SlotId) : (setArrival l s).mixes = s.mixes := rfl
@[simp] theorem setArrival_sends (l : List SlotId) : (setArrival l s).sends = s.sends := rfl
@[simp] theorem setArrival_voiceGroups (l : List SlotId) : (setArrival l s).voiceGroups = s.voiceGroups := rfl
@[simp] theorem setArrival_outMap (l : List SlotId) : (setArrival l s).outMap = s.outMap := rfl
@[simp] theorem setArrival_tx (l : List SlotId) : (setArrival l s).tx = s.tx := rfl
@[simp] theorem setArrival_txCount (l : List SlotId) : (setArrival l s).txCount = s.txCount := rfl
@[simp] theorem setArrival_hold (l : List SlotId) : (setArrival l s).hold = s.hold := rfl
@[simp] theorem setArrival_header (l : List SlotId) : (setArrival l s).header = s.header := rfl
@[simp] theorem setArrival_tables (l : List SlotId) : (setArrival l s).tables = s.tables := rfl
@[simp] theorem setArrival_regions (l : List SlotId) : (setArrival l s).regions = s.regions := rfl
@[simp] theorem setArrival_seq (l : List SlotId) : (setArrival l s).seq = s.seq := rfl
@[simp] theorem setArrival_fades (l : List SlotId) : (setArrival l s).fades = s.fades := rfl
@[simp] theorem setArrival_takenOver (l : List SlotId) : (setArrival l s).takenOver = s.takenOver := rfl
@[simp] theorem setArrival_voices (l : List SlotId) : (setArrival l s).voices = s.voices := rfl
@[simp] theorem setArrival_zones (l : List SlotId) : (setArrival l s).zones = s.zones := rfl
@[simp] theorem setArrival_zoneGroups (l : List SlotId) : (setArrival l s).zoneGroups = s.zoneGroups := rfl
@[simp] theorem setArrival_tod (l : List SlotId) : (setArrival l s).tod = s.tod := rfl
@[simp] theorem setArrival_rollover (l : List SlotId) : (setArrival l s).rollover = s.rollover := rfl
@[simp] theorem setArrival_pages (l : List SlotId) : (setArrival l s).pages = s.pages := rfl
@[simp] theorem setArrival_lastClosed (l : List SlotId) : (setArrival l s).lastClosed = s.lastClosed := rfl
@[simp] theorem setArrival_calls (l : List SlotId) : (setArrival l s).calls = s.calls := rfl
@[simp] theorem setArrival_overlapped (l : List SlotId) : (setArrival l s).overlapped = s.overlapped := rfl
@[simp] theorem setArrival_missedCalls (l : List SlotId) : (setArrival l s).missedCalls = s.missedCalls := rfl
@[simp] theorem setArrival_cutCalls (l : List SlotId) : (setArrival l s).cutCalls = s.cutCalls := rfl
@[simp] theorem setArrival_cells (l : List SlotId) : (setArrival l s).cells = s.cells := rfl
@[simp] theorem setArrival_mirror (l : List SlotId) : (setArrival l s).mirror = s.mirror := rfl
@[simp] theorem setArrival_wq (l : List SlotId) : (setArrival l s).wq = s.wq := rfl
@[simp] theorem setArrival_arb (l : List SlotId) : (setArrival l s).arb = s.arb := rfl
@[simp] theorem setArrival_port (l : List SlotId) : (setArrival l s).port = s.port := rfl
@[simp] theorem setArrival_slate (l : List SlotId) : (setArrival l s).slate = { s.slate with arrival := l } := rfl
@[simp] theorem setArrival_engine (l : List SlotId) : (setArrival l s).engine = s.engine := rfl
@[simp] theorem setArrival_lock (l : List SlotId) : (setArrival l s).lock = s.lock := rfl
@[simp] theorem setArrival_load (l : List SlotId) : (setArrival l s).load = s.load := rfl
@[simp] theorem setArrival_notice (l : List SlotId) : (setArrival l s).notice = s.notice := rfl
@[simp] theorem setArrival_freeCount (l : List SlotId) : (setArrival l s).freeCount = s.freeCount := rfl
@[simp] theorem setArrival_notes (l : List SlotId) : (setArrival l s).notes = s.notes := rfl
@[simp] theorem setArrival_marks (l : List SlotId) : (setArrival l s).marks = s.marks := rfl

/-! ## setBusy -/

@[simp] theorem setBusy_pending (b : Option Turn) : (setBusy b s).pending = s.pending := rfl
@[simp] theorem setBusy_phase (b : Option Turn) : (setBusy b s).phase = s.phase := rfl
@[simp] theorem setBusy_rstl (b : Option Turn) : (setBusy b s).rstl = s.rstl := rfl
@[simp] theorem setBusy_memSize (b : Option Turn) : (setBusy b s).memSize = s.memSize := rfl
@[simp] theorem setBusy_mem (b : Option Turn) : (setBusy b s).mem = s.mem := rfl
@[simp] theorem setBusy_clock (b : Option Turn) : (setBusy b s).clock = s.clock := rfl
@[simp] theorem setBusy_rx (b : Option Turn) : (setBusy b s).rx = s.rx := rfl
@[simp] theorem setBusy_channels (b : Option Turn) : (setBusy b s).channels = s.channels := rfl
@[simp] theorem setBusy_roles (b : Option Turn) : (setBusy b s).roles = s.roles := rfl
@[simp] theorem setBusy_levels (b : Option Turn) : (setBusy b s).levels = s.levels := rfl
@[simp] theorem setBusy_mixes (b : Option Turn) : (setBusy b s).mixes = s.mixes := rfl
@[simp] theorem setBusy_sends (b : Option Turn) : (setBusy b s).sends = s.sends := rfl
@[simp] theorem setBusy_voiceGroups (b : Option Turn) : (setBusy b s).voiceGroups = s.voiceGroups := rfl
@[simp] theorem setBusy_outMap (b : Option Turn) : (setBusy b s).outMap = s.outMap := rfl
@[simp] theorem setBusy_tx (b : Option Turn) : (setBusy b s).tx = s.tx := rfl
@[simp] theorem setBusy_txCount (b : Option Turn) : (setBusy b s).txCount = s.txCount := rfl
@[simp] theorem setBusy_hold (b : Option Turn) : (setBusy b s).hold = s.hold := rfl
@[simp] theorem setBusy_header (b : Option Turn) : (setBusy b s).header = s.header := rfl
@[simp] theorem setBusy_tables (b : Option Turn) : (setBusy b s).tables = s.tables := rfl
@[simp] theorem setBusy_regions (b : Option Turn) : (setBusy b s).regions = s.regions := rfl
@[simp] theorem setBusy_seq (b : Option Turn) : (setBusy b s).seq = s.seq := rfl
@[simp] theorem setBusy_fades (b : Option Turn) : (setBusy b s).fades = s.fades := rfl
@[simp] theorem setBusy_takenOver (b : Option Turn) : (setBusy b s).takenOver = s.takenOver := rfl
@[simp] theorem setBusy_voices (b : Option Turn) : (setBusy b s).voices = s.voices := rfl
@[simp] theorem setBusy_zones (b : Option Turn) : (setBusy b s).zones = s.zones := rfl
@[simp] theorem setBusy_zoneGroups (b : Option Turn) : (setBusy b s).zoneGroups = s.zoneGroups := rfl
@[simp] theorem setBusy_tod (b : Option Turn) : (setBusy b s).tod = s.tod := rfl
@[simp] theorem setBusy_rollover (b : Option Turn) : (setBusy b s).rollover = s.rollover := rfl
@[simp] theorem setBusy_pages (b : Option Turn) : (setBusy b s).pages = s.pages := rfl
@[simp] theorem setBusy_lastClosed (b : Option Turn) : (setBusy b s).lastClosed = s.lastClosed := rfl
@[simp] theorem setBusy_calls (b : Option Turn) : (setBusy b s).calls = s.calls := rfl
@[simp] theorem setBusy_overlapped (b : Option Turn) : (setBusy b s).overlapped = s.overlapped := rfl
@[simp] theorem setBusy_missedCalls (b : Option Turn) : (setBusy b s).missedCalls = s.missedCalls := rfl
@[simp] theorem setBusy_cutCalls (b : Option Turn) : (setBusy b s).cutCalls = s.cutCalls := rfl
@[simp] theorem setBusy_cells (b : Option Turn) : (setBusy b s).cells = s.cells := rfl
@[simp] theorem setBusy_mirror (b : Option Turn) : (setBusy b s).mirror = s.mirror := rfl
@[simp] theorem setBusy_wq (b : Option Turn) : (setBusy b s).wq = s.wq := rfl
@[simp] theorem setBusy_arb (b : Option Turn) : (setBusy b s).arb = { s.arb with busy := b } := rfl
@[simp] theorem setBusy_port (b : Option Turn) : (setBusy b s).port = s.port := rfl
@[simp] theorem setBusy_slate (b : Option Turn) : (setBusy b s).slate = s.slate := rfl
@[simp] theorem setBusy_engine (b : Option Turn) : (setBusy b s).engine = s.engine := rfl
@[simp] theorem setBusy_lock (b : Option Turn) : (setBusy b s).lock = s.lock := rfl
@[simp] theorem setBusy_load (b : Option Turn) : (setBusy b s).load = s.load := rfl
@[simp] theorem setBusy_notice (b : Option Turn) : (setBusy b s).notice = s.notice := rfl
@[simp] theorem setBusy_freeCount (b : Option Turn) : (setBusy b s).freeCount = s.freeCount := rfl
@[simp] theorem setBusy_notes (b : Option Turn) : (setBusy b s).notes = s.notes := rfl
@[simp] theorem setBusy_marks (b : Option Turn) : (setBusy b s).marks = s.marks := rfl

/-! ## endAccess -/

@[simp] theorem endAccess_pending (e : Bool) (w : Word) : (endAccess e w s).pending = s.pending := rfl
@[simp] theorem endAccess_phase (e : Bool) (w : Word) : (endAccess e w s).phase = s.phase := rfl
@[simp] theorem endAccess_rstl (e : Bool) (w : Word) : (endAccess e w s).rstl = s.rstl := rfl
@[simp] theorem endAccess_memSize (e : Bool) (w : Word) : (endAccess e w s).memSize = s.memSize := rfl
@[simp] theorem endAccess_mem (e : Bool) (w : Word) : (endAccess e w s).mem = s.mem := rfl
@[simp] theorem endAccess_clock (e : Bool) (w : Word) : (endAccess e w s).clock = s.clock := rfl
@[simp] theorem endAccess_rx (e : Bool) (w : Word) : (endAccess e w s).rx = s.rx := rfl
@[simp] theorem endAccess_channels (e : Bool) (w : Word) : (endAccess e w s).channels = s.channels := rfl
@[simp] theorem endAccess_roles (e : Bool) (w : Word) : (endAccess e w s).roles = s.roles := rfl
@[simp] theorem endAccess_levels (e : Bool) (w : Word) : (endAccess e w s).levels = s.levels := rfl
@[simp] theorem endAccess_mixes (e : Bool) (w : Word) : (endAccess e w s).mixes = s.mixes := rfl
@[simp] theorem endAccess_sends (e : Bool) (w : Word) : (endAccess e w s).sends = s.sends := rfl
@[simp] theorem endAccess_voiceGroups (e : Bool) (w : Word) : (endAccess e w s).voiceGroups = s.voiceGroups := rfl
@[simp] theorem endAccess_outMap (e : Bool) (w : Word) : (endAccess e w s).outMap = s.outMap := rfl
@[simp] theorem endAccess_tx (e : Bool) (w : Word) : (endAccess e w s).tx = s.tx := rfl
@[simp] theorem endAccess_txCount (e : Bool) (w : Word) : (endAccess e w s).txCount = s.txCount := rfl
@[simp] theorem endAccess_hold (e : Bool) (w : Word) : (endAccess e w s).hold = s.hold := rfl
@[simp] theorem endAccess_header (e : Bool) (w : Word) : (endAccess e w s).header = s.header := rfl
@[simp] theorem endAccess_tables (e : Bool) (w : Word) : (endAccess e w s).tables = s.tables := rfl
@[simp] theorem endAccess_regions (e : Bool) (w : Word) : (endAccess e w s).regions = s.regions := rfl
@[simp] theorem endAccess_seq (e : Bool) (w : Word) : (endAccess e w s).seq = s.seq := rfl
@[simp] theorem endAccess_fades (e : Bool) (w : Word) : (endAccess e w s).fades = s.fades := rfl
@[simp] theorem endAccess_takenOver (e : Bool) (w : Word) : (endAccess e w s).takenOver = s.takenOver := rfl
@[simp] theorem endAccess_voices (e : Bool) (w : Word) : (endAccess e w s).voices = s.voices := rfl
@[simp] theorem endAccess_zones (e : Bool) (w : Word) : (endAccess e w s).zones = s.zones := rfl
@[simp] theorem endAccess_zoneGroups (e : Bool) (w : Word) : (endAccess e w s).zoneGroups = s.zoneGroups := rfl
@[simp] theorem endAccess_tod (e : Bool) (w : Word) : (endAccess e w s).tod = s.tod := rfl
@[simp] theorem endAccess_rollover (e : Bool) (w : Word) : (endAccess e w s).rollover = s.rollover := rfl
@[simp] theorem endAccess_pages (e : Bool) (w : Word) : (endAccess e w s).pages = s.pages := rfl
@[simp] theorem endAccess_lastClosed (e : Bool) (w : Word) : (endAccess e w s).lastClosed = s.lastClosed := rfl
@[simp] theorem endAccess_calls (e : Bool) (w : Word) : (endAccess e w s).calls = s.calls := rfl
@[simp] theorem endAccess_overlapped (e : Bool) (w : Word) : (endAccess e w s).overlapped = s.overlapped := rfl
@[simp] theorem endAccess_missedCalls (e : Bool) (w : Word) : (endAccess e w s).missedCalls = s.missedCalls := rfl
@[simp] theorem endAccess_cutCalls (e : Bool) (w : Word) : (endAccess e w s).cutCalls = s.cutCalls := rfl
@[simp] theorem endAccess_cells (e : Bool) (w : Word) : (endAccess e w s).cells = s.cells := rfl
@[simp] theorem endAccess_mirror (e : Bool) (w : Word) : (endAccess e w s).mirror = s.mirror := rfl
@[simp] theorem endAccess_wq (e : Bool) (w : Word) : (endAccess e w s).wq = s.wq := rfl
@[simp] theorem endAccess_arb (e : Bool) (w : Word) : (endAccess e w s).arb = s.arb := rfl
@[simp] theorem endAccess_port (e : Bool) (w : Word) : (endAccess e w s).port = { s.port with result := { err := e, data := w } } := rfl
@[simp] theorem endAccess_slate (e : Bool) (w : Word) : (endAccess e w s).slate = s.slate := rfl
@[simp] theorem endAccess_engine (e : Bool) (w : Word) : (endAccess e w s).engine = s.engine := rfl
@[simp] theorem endAccess_lock (e : Bool) (w : Word) : (endAccess e w s).lock = s.lock := rfl
@[simp] theorem endAccess_load (e : Bool) (w : Word) : (endAccess e w s).load = s.load := rfl
@[simp] theorem endAccess_notice (e : Bool) (w : Word) : (endAccess e w s).notice = s.notice := rfl
@[simp] theorem endAccess_freeCount (e : Bool) (w : Word) : (endAccess e w s).freeCount = s.freeCount := rfl
@[simp] theorem endAccess_notes (e : Bool) (w : Word) : (endAccess e w s).notes = s.notes := rfl
@[simp] theorem endAccess_marks (e : Bool) (w : Word) : (endAccess e w s).marks = s.marks := rfl

/-! ## joinQueue -/

@[simp] theorem joinQueue_pending (w : Writer) (b : Burst) : (joinQueue w b s).pending = s.pending := rfl
@[simp] theorem joinQueue_phase (w : Writer) (b : Burst) : (joinQueue w b s).phase = s.phase := rfl
@[simp] theorem joinQueue_rstl (w : Writer) (b : Burst) : (joinQueue w b s).rstl = s.rstl := rfl
@[simp] theorem joinQueue_memSize (w : Writer) (b : Burst) : (joinQueue w b s).memSize = s.memSize := rfl
@[simp] theorem joinQueue_mem (w : Writer) (b : Burst) : (joinQueue w b s).mem = s.mem := rfl
@[simp] theorem joinQueue_clock (w : Writer) (b : Burst) : (joinQueue w b s).clock = s.clock := rfl
@[simp] theorem joinQueue_rx (w : Writer) (b : Burst) : (joinQueue w b s).rx = s.rx := rfl
@[simp] theorem joinQueue_channels (w : Writer) (b : Burst) : (joinQueue w b s).channels = s.channels := rfl
@[simp] theorem joinQueue_roles (w : Writer) (b : Burst) : (joinQueue w b s).roles = s.roles := rfl
@[simp] theorem joinQueue_levels (w : Writer) (b : Burst) : (joinQueue w b s).levels = s.levels := rfl
@[simp] theorem joinQueue_mixes (w : Writer) (b : Burst) : (joinQueue w b s).mixes = s.mixes := rfl
@[simp] theorem joinQueue_sends (w : Writer) (b : Burst) : (joinQueue w b s).sends = s.sends := rfl
@[simp] theorem joinQueue_voiceGroups (w : Writer) (b : Burst) : (joinQueue w b s).voiceGroups = s.voiceGroups := rfl
@[simp] theorem joinQueue_outMap (w : Writer) (b : Burst) : (joinQueue w b s).outMap = s.outMap := rfl
@[simp] theorem joinQueue_tx (w : Writer) (b : Burst) : (joinQueue w b s).tx = s.tx := rfl
@[simp] theorem joinQueue_txCount (w : Writer) (b : Burst) : (joinQueue w b s).txCount = s.txCount := rfl
@[simp] theorem joinQueue_hold (w : Writer) (b : Burst) : (joinQueue w b s).hold = s.hold := rfl
@[simp] theorem joinQueue_header (w : Writer) (b : Burst) : (joinQueue w b s).header = s.header := rfl
@[simp] theorem joinQueue_tables (w : Writer) (b : Burst) : (joinQueue w b s).tables = s.tables := rfl
@[simp] theorem joinQueue_regions (w : Writer) (b : Burst) : (joinQueue w b s).regions = s.regions := rfl
@[simp] theorem joinQueue_seq (w : Writer) (b : Burst) : (joinQueue w b s).seq = s.seq := rfl
@[simp] theorem joinQueue_fades (w : Writer) (b : Burst) : (joinQueue w b s).fades = s.fades := rfl
@[simp] theorem joinQueue_takenOver (w : Writer) (b : Burst) : (joinQueue w b s).takenOver = s.takenOver := rfl
@[simp] theorem joinQueue_voices (w : Writer) (b : Burst) : (joinQueue w b s).voices = s.voices := rfl
@[simp] theorem joinQueue_zones (w : Writer) (b : Burst) : (joinQueue w b s).zones = s.zones := rfl
@[simp] theorem joinQueue_zoneGroups (w : Writer) (b : Burst) : (joinQueue w b s).zoneGroups = s.zoneGroups := rfl
@[simp] theorem joinQueue_tod (w : Writer) (b : Burst) : (joinQueue w b s).tod = s.tod := rfl
@[simp] theorem joinQueue_rollover (w : Writer) (b : Burst) : (joinQueue w b s).rollover = s.rollover := rfl
@[simp] theorem joinQueue_pages (w : Writer) (b : Burst) : (joinQueue w b s).pages = s.pages := rfl
@[simp] theorem joinQueue_lastClosed (w : Writer) (b : Burst) : (joinQueue w b s).lastClosed = s.lastClosed := rfl
@[simp] theorem joinQueue_calls (w : Writer) (b : Burst) : (joinQueue w b s).calls = s.calls := rfl
@[simp] theorem joinQueue_overlapped (w : Writer) (b : Burst) : (joinQueue w b s).overlapped = s.overlapped := rfl
@[simp] theorem joinQueue_missedCalls (w : Writer) (b : Burst) : (joinQueue w b s).missedCalls = s.missedCalls := rfl
@[simp] theorem joinQueue_cutCalls (w : Writer) (b : Burst) : (joinQueue w b s).cutCalls = s.cutCalls := rfl
@[simp] theorem joinQueue_cells (w : Writer) (b : Burst) : (joinQueue w b s).cells = s.cells := rfl
@[simp] theorem joinQueue_mirror (w : Writer) (b : Burst) : (joinQueue w b s).mirror = s.mirror := rfl
@[simp] theorem joinQueue_wq (w : Writer) (b : Burst) : (joinQueue w b s).wq = s.wq.join w b := rfl
@[simp] theorem joinQueue_arb (w : Writer) (b : Burst) : (joinQueue w b s).arb = s.arb := rfl
@[simp] theorem joinQueue_port (w : Writer) (b : Burst) : (joinQueue w b s).port = s.port := rfl
@[simp] theorem joinQueue_slate (w : Writer) (b : Burst) : (joinQueue w b s).slate = s.slate := rfl
@[simp] theorem joinQueue_engine (w : Writer) (b : Burst) : (joinQueue w b s).engine = s.engine := rfl
@[simp] theorem joinQueue_lock (w : Writer) (b : Burst) : (joinQueue w b s).lock = s.lock := rfl
@[simp] theorem joinQueue_load (w : Writer) (b : Burst) : (joinQueue w b s).load = s.load := rfl
@[simp] theorem joinQueue_notice (w : Writer) (b : Burst) : (joinQueue w b s).notice = s.notice := rfl
@[simp] theorem joinQueue_freeCount (w : Writer) (b : Burst) : (joinQueue w b s).freeCount = s.freeCount := rfl
@[simp] theorem joinQueue_notes (w : Writer) (b : Burst) : (joinQueue w b s).notes = s.notes := rfl
@[simp] theorem joinQueue_marks (w : Writer) (b : Burst) : (joinQueue w b s).marks = s.marks := rfl

/-! ## mark -/

@[simp] theorem mark_pending (a : Area) : (mark a s).pending = s.pending := rfl
@[simp] theorem mark_phase (a : Area) : (mark a s).phase = s.phase := rfl
@[simp] theorem mark_rstl (a : Area) : (mark a s).rstl = s.rstl := rfl
@[simp] theorem mark_memSize (a : Area) : (mark a s).memSize = s.memSize := rfl
@[simp] theorem mark_mem (a : Area) : (mark a s).mem = s.mem := rfl
@[simp] theorem mark_clock (a : Area) : (mark a s).clock = s.clock := rfl
@[simp] theorem mark_rx (a : Area) : (mark a s).rx = s.rx := rfl
@[simp] theorem mark_channels (a : Area) : (mark a s).channels = s.channels := rfl
@[simp] theorem mark_roles (a : Area) : (mark a s).roles = s.roles := rfl
@[simp] theorem mark_levels (a : Area) : (mark a s).levels = s.levels := rfl
@[simp] theorem mark_mixes (a : Area) : (mark a s).mixes = s.mixes := rfl
@[simp] theorem mark_sends (a : Area) : (mark a s).sends = s.sends := rfl
@[simp] theorem mark_voiceGroups (a : Area) : (mark a s).voiceGroups = s.voiceGroups := rfl
@[simp] theorem mark_outMap (a : Area) : (mark a s).outMap = s.outMap := rfl
@[simp] theorem mark_tx (a : Area) : (mark a s).tx = s.tx := rfl
@[simp] theorem mark_txCount (a : Area) : (mark a s).txCount = s.txCount := rfl
@[simp] theorem mark_hold (a : Area) : (mark a s).hold = s.hold := rfl
@[simp] theorem mark_header (a : Area) : (mark a s).header = s.header := rfl
@[simp] theorem mark_tables (a : Area) : (mark a s).tables = s.tables := rfl
@[simp] theorem mark_regions (a : Area) : (mark a s).regions = s.regions := rfl
@[simp] theorem mark_seq (a : Area) : (mark a s).seq = s.seq := rfl
@[simp] theorem mark_fades (a : Area) : (mark a s).fades = s.fades := rfl
@[simp] theorem mark_takenOver (a : Area) : (mark a s).takenOver = s.takenOver := rfl
@[simp] theorem mark_voices (a : Area) : (mark a s).voices = s.voices := rfl
@[simp] theorem mark_zones (a : Area) : (mark a s).zones = s.zones := rfl
@[simp] theorem mark_zoneGroups (a : Area) : (mark a s).zoneGroups = s.zoneGroups := rfl
@[simp] theorem mark_tod (a : Area) : (mark a s).tod = s.tod := rfl
@[simp] theorem mark_rollover (a : Area) : (mark a s).rollover = s.rollover := rfl
@[simp] theorem mark_pages (a : Area) : (mark a s).pages = s.pages := rfl
@[simp] theorem mark_lastClosed (a : Area) : (mark a s).lastClosed = s.lastClosed := rfl
@[simp] theorem mark_calls (a : Area) : (mark a s).calls = s.calls := rfl
@[simp] theorem mark_overlapped (a : Area) : (mark a s).overlapped = s.overlapped := rfl
@[simp] theorem mark_missedCalls (a : Area) : (mark a s).missedCalls = s.missedCalls := rfl
@[simp] theorem mark_cutCalls (a : Area) : (mark a s).cutCalls = s.cutCalls := rfl
@[simp] theorem mark_cells (a : Area) : (mark a s).cells = s.cells := rfl
@[simp] theorem mark_mirror (a : Area) : (mark a s).mirror = s.mirror := rfl
@[simp] theorem mark_wq (a : Area) : (mark a s).wq = s.wq := rfl
@[simp] theorem mark_arb (a : Area) : (mark a s).arb = s.arb := rfl
@[simp] theorem mark_port (a : Area) : (mark a s).port = s.port := rfl
@[simp] theorem mark_slate (a : Area) : (mark a s).slate = s.slate := rfl
@[simp] theorem mark_engine (a : Area) : (mark a s).engine = s.engine := rfl
@[simp] theorem mark_lock (a : Area) : (mark a s).lock = s.lock := rfl
@[simp] theorem mark_load (a : Area) : (mark a s).load = s.load := rfl
@[simp] theorem mark_notice (a : Area) : (mark a s).notice = s.notice := rfl
@[simp] theorem mark_freeCount (a : Area) : (mark a s).freeCount = s.freeCount := rfl
@[simp] theorem mark_notes (a : Area) : (mark a s).notes = s.notes := rfl
@[simp] theorem mark_marks (a : Area) : (mark a s).marks = if a ∈ s.marks then s.marks else s.marks ++ [a] := rfl

/-! ## tell -/

@[simp] theorem tell_pending (n : Note) : (tell n s).pending = s.pending := rfl
@[simp] theorem tell_phase (n : Note) : (tell n s).phase = s.phase := rfl
@[simp] theorem tell_rstl (n : Note) : (tell n s).rstl = s.rstl := rfl
@[simp] theorem tell_memSize (n : Note) : (tell n s).memSize = s.memSize := rfl
@[simp] theorem tell_mem (n : Note) : (tell n s).mem = s.mem := rfl
@[simp] theorem tell_clock (n : Note) : (tell n s).clock = s.clock := rfl
@[simp] theorem tell_rx (n : Note) : (tell n s).rx = s.rx := rfl
@[simp] theorem tell_channels (n : Note) : (tell n s).channels = s.channels := rfl
@[simp] theorem tell_roles (n : Note) : (tell n s).roles = s.roles := rfl
@[simp] theorem tell_levels (n : Note) : (tell n s).levels = s.levels := rfl
@[simp] theorem tell_mixes (n : Note) : (tell n s).mixes = s.mixes := rfl
@[simp] theorem tell_sends (n : Note) : (tell n s).sends = s.sends := rfl
@[simp] theorem tell_voiceGroups (n : Note) : (tell n s).voiceGroups = s.voiceGroups := rfl
@[simp] theorem tell_outMap (n : Note) : (tell n s).outMap = s.outMap := rfl
@[simp] theorem tell_tx (n : Note) : (tell n s).tx = s.tx := rfl
@[simp] theorem tell_txCount (n : Note) : (tell n s).txCount = s.txCount := rfl
@[simp] theorem tell_hold (n : Note) : (tell n s).hold = s.hold := rfl
@[simp] theorem tell_header (n : Note) : (tell n s).header = s.header := rfl
@[simp] theorem tell_tables (n : Note) : (tell n s).tables = s.tables := rfl
@[simp] theorem tell_regions (n : Note) : (tell n s).regions = s.regions := rfl
@[simp] theorem tell_seq (n : Note) : (tell n s).seq = s.seq := rfl
@[simp] theorem tell_fades (n : Note) : (tell n s).fades = s.fades := rfl
@[simp] theorem tell_takenOver (n : Note) : (tell n s).takenOver = s.takenOver := rfl
@[simp] theorem tell_voices (n : Note) : (tell n s).voices = s.voices := rfl
@[simp] theorem tell_zones (n : Note) : (tell n s).zones = s.zones := rfl
@[simp] theorem tell_zoneGroups (n : Note) : (tell n s).zoneGroups = s.zoneGroups := rfl
@[simp] theorem tell_tod (n : Note) : (tell n s).tod = s.tod := rfl
@[simp] theorem tell_rollover (n : Note) : (tell n s).rollover = s.rollover := rfl
@[simp] theorem tell_pages (n : Note) : (tell n s).pages = s.pages := rfl
@[simp] theorem tell_lastClosed (n : Note) : (tell n s).lastClosed = s.lastClosed := rfl
@[simp] theorem tell_calls (n : Note) : (tell n s).calls = s.calls := rfl
@[simp] theorem tell_overlapped (n : Note) : (tell n s).overlapped = s.overlapped := rfl
@[simp] theorem tell_missedCalls (n : Note) : (tell n s).missedCalls = s.missedCalls := rfl
@[simp] theorem tell_cutCalls (n : Note) : (tell n s).cutCalls = s.cutCalls := rfl
@[simp] theorem tell_cells (n : Note) : (tell n s).cells = s.cells := rfl
@[simp] theorem tell_mirror (n : Note) : (tell n s).mirror = s.mirror := rfl
@[simp] theorem tell_wq (n : Note) : (tell n s).wq = s.wq := rfl
@[simp] theorem tell_arb (n : Note) : (tell n s).arb = s.arb := rfl
@[simp] theorem tell_port (n : Note) : (tell n s).port = s.port := rfl
@[simp] theorem tell_slate (n : Note) : (tell n s).slate = s.slate := rfl
@[simp] theorem tell_engine (n : Note) : (tell n s).engine = s.engine := rfl
@[simp] theorem tell_lock (n : Note) : (tell n s).lock = s.lock := rfl
@[simp] theorem tell_load (n : Note) : (tell n s).load = s.load := rfl
@[simp] theorem tell_notice (n : Note) : (tell n s).notice = s.notice := rfl
@[simp] theorem tell_freeCount (n : Note) : (tell n s).freeCount = s.freeCount := rfl
@[simp] theorem tell_notes (n : Note) : (tell n s).notes = s.notes ++ [n] := rfl
@[simp] theorem tell_marks (n : Note) : (tell n s).marks = s.marks := rfl

/-! ## setElem -/

@[simp] theorem setElem_pending (e : Elem) (x : Level) : (setElem e x s).pending = s.pending := rfl
@[simp] theorem setElem_phase (e : Elem) (x : Level) : (setElem e x s).phase = s.phase := rfl
@[simp] theorem setElem_rstl (e : Elem) (x : Level) : (setElem e x s).rstl = s.rstl := rfl
@[simp] theorem setElem_memSize (e : Elem) (x : Level) : (setElem e x s).memSize = s.memSize := rfl
@[simp] theorem setElem_mem (e : Elem) (x : Level) : (setElem e x s).mem = s.mem := rfl
@[simp] theorem setElem_clock (e : Elem) (x : Level) : (setElem e x s).clock = s.clock := rfl
@[simp] theorem setElem_rx (e : Elem) (x : Level) : (setElem e x s).rx = s.rx := rfl
@[simp] theorem setElem_channels (e : Elem) (x : Level) : (setElem e x s).channels = s.channels := rfl
@[simp] theorem setElem_roles (e : Elem) (x : Level) : (setElem e x s).roles = s.roles := rfl
@[simp] theorem setElem_levels (e : Elem) (x : Level) : (setElem e x s).levels = s.levels.put e x := rfl
@[simp] theorem setElem_mixes (e : Elem) (x : Level) : (setElem e x s).mixes = s.mixes := rfl
@[simp] theorem setElem_sends (e : Elem) (x : Level) : (setElem e x s).sends = s.sends := rfl
@[simp] theorem setElem_voiceGroups (e : Elem) (x : Level) : (setElem e x s).voiceGroups = s.voiceGroups := rfl
@[simp] theorem setElem_outMap (e : Elem) (x : Level) : (setElem e x s).outMap = s.outMap := rfl
@[simp] theorem setElem_tx (e : Elem) (x : Level) : (setElem e x s).tx = s.tx := rfl
@[simp] theorem setElem_txCount (e : Elem) (x : Level) : (setElem e x s).txCount = s.txCount := rfl
@[simp] theorem setElem_hold (e : Elem) (x : Level) : (setElem e x s).hold = s.hold := rfl
@[simp] theorem setElem_header (e : Elem) (x : Level) : (setElem e x s).header = s.header := rfl
@[simp] theorem setElem_tables (e : Elem) (x : Level) : (setElem e x s).tables = s.tables := rfl
@[simp] theorem setElem_regions (e : Elem) (x : Level) : (setElem e x s).regions = s.regions := rfl
@[simp] theorem setElem_seq (e : Elem) (x : Level) : (setElem e x s).seq = s.seq := rfl
@[simp] theorem setElem_fades (e : Elem) (x : Level) : (setElem e x s).fades = s.fades := rfl
@[simp] theorem setElem_takenOver (e : Elem) (x : Level) : (setElem e x s).takenOver = s.takenOver := rfl
@[simp] theorem setElem_voices (e : Elem) (x : Level) : (setElem e x s).voices = s.voices := rfl
@[simp] theorem setElem_zones (e : Elem) (x : Level) : (setElem e x s).zones = s.zones := rfl
@[simp] theorem setElem_zoneGroups (e : Elem) (x : Level) : (setElem e x s).zoneGroups = s.zoneGroups := rfl
@[simp] theorem setElem_tod (e : Elem) (x : Level) : (setElem e x s).tod = s.tod := rfl
@[simp] theorem setElem_rollover (e : Elem) (x : Level) : (setElem e x s).rollover = s.rollover := rfl
@[simp] theorem setElem_pages (e : Elem) (x : Level) : (setElem e x s).pages = s.pages := rfl
@[simp] theorem setElem_lastClosed (e : Elem) (x : Level) : (setElem e x s).lastClosed = s.lastClosed := rfl
@[simp] theorem setElem_calls (e : Elem) (x : Level) : (setElem e x s).calls = s.calls := rfl
@[simp] theorem setElem_overlapped (e : Elem) (x : Level) : (setElem e x s).overlapped = s.overlapped := rfl
@[simp] theorem setElem_missedCalls (e : Elem) (x : Level) : (setElem e x s).missedCalls = s.missedCalls := rfl
@[simp] theorem setElem_cutCalls (e : Elem) (x : Level) : (setElem e x s).cutCalls = s.cutCalls := rfl
@[simp] theorem setElem_cells (e : Elem) (x : Level) : (setElem e x s).cells = s.cells := rfl
@[simp] theorem setElem_wq (e : Elem) (x : Level) : (setElem e x s).wq = s.wq := rfl
@[simp] theorem setElem_arb (e : Elem) (x : Level) : (setElem e x s).arb = s.arb := rfl
@[simp] theorem setElem_port (e : Elem) (x : Level) : (setElem e x s).port = s.port := rfl
@[simp] theorem setElem_slate (e : Elem) (x : Level) : (setElem e x s).slate = s.slate := rfl
@[simp] theorem setElem_engine (e : Elem) (x : Level) : (setElem e x s).engine = s.engine := rfl
@[simp] theorem setElem_lock (e : Elem) (x : Level) : (setElem e x s).lock = s.lock := rfl
@[simp] theorem setElem_load (e : Elem) (x : Level) : (setElem e x s).load = s.load := rfl
@[simp] theorem setElem_notice (e : Elem) (x : Level) : (setElem e x s).notice = s.notice := rfl
@[simp] theorem setElem_freeCount (e : Elem) (x : Level) : (setElem e x s).freeCount = s.freeCount := rfl
@[simp] theorem setElem_notes (e : Elem) (x : Level) : (setElem e x s).notes = s.notes := rfl
@[simp] theorem setElem_marks (e : Elem) (x : Level) : (setElem e x s).marks = s.marks := rfl

end Sys2Proof.Machine
end

