-- ==== Sys2Proof/Laws/Memory.lean ====
section
/-! SUPPORT. Show memory: reading after writing, byte by byte, and the canonical form, which every memory
operation keeps. -/

namespace Sys2Proof.Machine

/-! ## Reading after writing -/

theorem Memory.get?_writeByte (m : Memory) (a k : Nat) (b : Byte) :
    Memory.get? (Memory.writeByte m a b) k = if k = a then some b else Memory.get? m k := by
  induction m with
  | nil => simp [Memory.writeByte, Memory.get?, eq_comm]
  | cons c m ih =>
    obtain ⟨x, y⟩ := c
    by_cases h1 : a < x
    · by_cases h2 : k = a
      · simp [Memory.writeByte, Memory.get?, h1, h2]
      · have : a ≠ k := fun e => h2 e.symm
        simp [Memory.writeByte, Memory.get?, h1, h2, this]
    · by_cases h3 : a = x
      · subst h3
        by_cases h2 : k = a
        · simp [Memory.writeByte, Memory.get?, h2]
        · have : a ≠ k := fun e => h2 e.symm
          simp [Memory.writeByte, Memory.get?, h2, this]
      · by_cases h4 : x = k
        · subst h4
          have : x ≠ a := fun e => h3 e.symm
          simp [Memory.writeByte, Memory.get?, h1, h3, this]
        · simp [Memory.writeByte, Memory.get?, h1, h3, h4, ih]

theorem Memory.readByte_writeByte_same (m : Memory) (a : Nat) (b : Byte) :
    Memory.readByte (Memory.writeByte m a b) a = b := by
  simp [Memory.readByte, Memory.get?_writeByte]

theorem Memory.readByte_writeByte_other (m : Memory) (a k : Nat) (b : Byte) (h : k ≠ a) :
    Memory.readByte (Memory.writeByte m a b) k = Memory.readByte m k := by
  simp [Memory.readByte, Memory.get?_writeByte, h]

/-- A word write leaves every byte outside its four alone. -/
theorem Memory.readByte_writeWord_other (m : Memory) (a k : Nat) (w : Word) (h : k < a ∨ a + 4 ≤ k) :
    Memory.readByte (Memory.writeWord m a w) k = Memory.readByte m k := by
  simp only [Memory.writeWord]
  rw [Memory.readByte_writeByte_other _ _ _ _ (by omega),
    Memory.readByte_writeByte_other _ _ _ _ (by omega),
    Memory.readByte_writeByte_other _ _ _ _ (by omega),
    Memory.readByte_writeByte_other _ _ _ _ (by omega)]

/-! ## The canonical form -/

/-- Whatever lies below every address of a memory and below a byte written lies below the result. -/
theorem Memory.below_writeByte (m : Memory) (a x : Nat) (b : Byte) (hx : x < a)
    (h : ∀ c ∈ m, x < c.1) : ∀ c ∈ Memory.writeByte m a b, x < c.1 := by
  induction m with
  | nil => simp [Memory.writeByte, hx]
  | cons c m ih =>
    obtain ⟨k, y⟩ := c
    have hk : x < k := h (k, y) (by simp)
    have hm : ∀ c ∈ m, x < c.1 := fun c hc => h c (by simp [hc])
    simp only [Memory.writeByte]
    split
    · intro c hc
      simp only [List.mem_cons] at hc
      rcases hc with rfl | rfl | hc
      · exact hx
      · exact hk
      · exact hm c hc
    · split
      · intro c hc
        simp only [List.mem_cons] at hc
        rcases hc with rfl | hc
        · exact hx
        · exact hm c hc
      · intro c hc
        simp only [List.mem_cons] at hc
        rcases hc with rfl | hc
        · exact hk
        · exact ih hm c hc

theorem Memory.wf_writeByte (m : Memory) (a : Nat) (b : Byte) (h : Memory.wf m) :
    Memory.wf (Memory.writeByte m a b) := by
  induction m with
  | nil => simp [Memory.wf, Memory.writeByte]
  | cons c m ih =>
    obtain ⟨k, y⟩ := c
    obtain ⟨hk, hm⟩ := List.pairwise_cons.mp h
    simp only [Memory.writeByte]
    split
    · next h1 =>
      refine List.pairwise_cons.mpr ⟨?_, h⟩
      intro c hc
      rcases List.mem_cons.mp hc with rfl | hc
      · exact h1
      · exact lt_trans h1 (hk c hc)
    · split
      · next h2 => subst h2; exact List.pairwise_cons.mpr ⟨hk, hm⟩
      · next h1 h2 =>
        exact List.pairwise_cons.mpr ⟨Memory.below_writeByte m a k b (by omega) hk, ih hm⟩

theorem Memory.wf_writeWord (m : Memory) (a : Nat) (w : Word) (h : Memory.wf m) :
    Memory.wf (Memory.writeWord m a w) :=
  Memory.wf_writeByte _ _ _ (Memory.wf_writeByte _ _ _ (Memory.wf_writeByte _ _ _
    (Memory.wf_writeByte _ _ _ h)))

theorem Memory.wf_writeAll (m : Memory) (ws : List (Nat × Word)) (h : Memory.wf m) :
    Memory.wf (Memory.writeAll m ws) := by
  unfold Memory.writeAll
  induction ws generalizing m with
  | nil => exact h
  | cons w ws ih => exact ih _ (Memory.wf_writeWord _ _ _ h)

theorem reset_mem_wf : Memory.wf State.reset.mem := List.Pairwise.nil

end Sys2Proof.Machine
end

