-- ==== Sys2Proof/Laws/Events.lean ====
section
/-! SUPPORT. One law for each shared operation of an event, a host access, a turn of the arbiter and a
reset: what it can do, so that a proof cites it and does not unfold it. -/

namespace Sys2Proof.Machine

variable {s t : State}

/-! ## Events and commands -/

theorem event_due {due : Bool} {op : State → State} (h : due = true) :
    event due op s = finish (op s) := by simp [event, h]

theorem event_idle {due : Bool} {op : State → State} (h : due = false) : event due op s = s := by
  simp [event, h]

theorem running_next (f : State → State) (h : s.phase = .running) : running f s = .next (f s) := by
  simp [running, h]

theorem running_reset (f : State → State) (h : s.phase = .fullReset) : running f s = .next s := by
  simp [running, h]

/-- A command of the running part answers a next state: its effect, or, in a full reset, nothing. -/
theorem running_cases {f : State → State} (h : running f s = .next t) :
    (s.phase = .running ∧ t = f s) ∨ (s.phase = .fullReset ∧ t = s) := by
  unfold running at h
  cases hp : s.phase <;> simp [hp] at h <;> simp [← h]

theorem keeps_running {f : State → State} (hf : ∀ s, Keeps s (f s)) (h : running f s = .next t) :
    Keeps s t := by
  rcases running_cases h with ⟨_, rfl⟩ | ⟨_, rfl⟩
  · exact hf s
  · exact .refl t

/-! ## The end of an event -/

theorem finish_notes : (finish s).notes = [] := rfl

theorem offer_marks (a : Area) (s : State) : (offer a s).marks = s.marks := by
  unfold offer
  split
  · rfl
  · split <;> rfl

theorem foldl_offer_marks (l : List Area) (s : State) :
    (l.foldl (fun s a => offer a s) s).marks = s.marks := by
  induction l generalizing s with
  | nil => rfl
  | cons a l ih => rw [List.foldl_cons, ih, offer_marks]

theorem flushMarks_marks : (flushMarks s).marks = [] := by
  unfold flushMarks
  exact foldl_offer_marks _ _

theorem finish_marks : (finish s).marks = [] := flushMarks_marks

/-- An event leaves no notice and no hand-over behind (log 22, 30). -/
theorem finish_quiet : (finish s).Quiet := ⟨finish_notes, finish_marks⟩

theorem drainN_nil (n : Nat) (h : s.notes = []) : drainN n s = s := by
  cases n with
  | zero => rfl
  | succ n => simp [drainN, h]

/-- With no notice given there is nothing to work off. -/
theorem drain_nil (h : s.notes = []) : drain s = s := drainN_nil 256 h

theorem flushMarks_nil (h : s.marks = []) : flushMarks s = s := by
  unfold flushMarks
  have : Area.all.filter (fun a => decide (a ∈ s.marks)) = [] := by simp [h]
  simp only [this, List.foldl_nil]
  rw [← h]

/-! ## Offers -/

/-- An offer touches the write queue and the mirror writer alone (R172, R173). -/
theorem offer_eq (a : Area) (s : State) :
    ∃ q m, offer a s = { s with wq := q, mirror := m } := by
  unfold offer
  split
  · exact ⟨s.wq, s.mirror, rfl⟩
  · split
    · exact ⟨_, _, rfl⟩
    · exact ⟨s.wq, _, rfl⟩

theorem foldl_offer_eq (l : List Area) (s : State) :
    ∃ q m, l.foldl (fun s a => offer a s) s = { s with wq := q, mirror := m } := by
  induction l generalizing s with
  | nil => exact ⟨s.wq, s.mirror, rfl⟩
  | cons a l ih =>
    obtain ⟨q, m, h⟩ := offer_eq a s
    obtain ⟨q', m', h'⟩ := ih (offer a s)
    exact ⟨q', m', by rw [List.foldl_cons, h', h]⟩

theorem flushMarks_eq (s : State) : ∃ q m, flushMarks s = { s with wq := q, mirror := m, marks := [] } :=
  foldl_offer_eq _ { s with marks := [] }

/-- The end of an event that gave no notice touches the write queue, the mirror writer and the marks
alone. -/
theorem finish_eq (h : s.notes = []) :
    ∃ q m, finish s = { s with wq := q, mirror := m, marks := [] } := by
  unfold finish
  rw [drain_nil h]
  obtain ⟨q, m, hf⟩ := flushMarks_eq s
  rw [hf]
  refine ⟨{ q with began := false }, m, ?_⟩
  rw [← h]

/-! ## Host accesses -/

/-- An access is not taken while the port is busy, ends with ERR while the port is blocked, and acts
otherwise (R175, log 20). -/
theorem portAccess_cases (f : State → State) (s : State) :
    (portBusy s = true ∧ portAccess f s = s)
      ∨ (portBusy s = false ∧ portBlocked s = true ∧ portAccess f s = endAccess true 0#32 s)
      ∨ (portBusy s = false ∧ portBlocked s = false ∧ portAccess f s = f s) := by
  unfold portAccess
  cases hw : portBusy s <;> cases hb : portBlocked s <;> simp

theorem portAccess_free {f : State → State} (hw : portBusy s = false) (hb : portBlocked s = false) :
    portAccess f s = f s := by simp [portAccess, hw, hb]

/-- With no write of a port reset to do, an access that arrives is admitted at once (R189). -/
theorem arrive_free {a : HostAccess} (h : s.port.clears = []) : arrive a s = admitAccess a s := by
  simp [arrive, h]

/-- A host read arrives in the memory window, or changes the record of how the access ended alone (R175). -/
theorem readWindow_cases (a : WindowAddr) (s : State) :
    (∃ b, a = .memory b ∧ readWindow a s = arrive (.read (wordAddr b)) s)
      ∨ ∃ b, a = .register b
        ∧ readWindow a s = endAccess false (readRegister s (wordAddr b)) s := by
  cases a with
  | memory b => exact .inl ⟨b, rfl, rfl⟩
  | register b => exact .inr ⟨b, rfl, rfl⟩

theorem keeps_readWindow (a : WindowAddr) : Keeps s (readWindow a s) := by
  obtain ⟨b, _, h⟩ | ⟨b, _, h⟩ := readWindow_cases a s <;> rw [h]
  · exact keeps_arrive _ (.refl s)
  · exact keeps_endAccess _ _ (.refl s)

theorem keeps_portAccess {f : State → State} (hf : Keeps s (f s)) : Keeps s (portAccess f s) := by
  rcases portAccess_cases f s with ⟨_, h⟩ | ⟨_, _, h⟩ | ⟨_, _, h⟩ <;> rw [h]
  · exact .refl s
  · exact keeps_endAccess _ _ (.refl s)
  · exact hf

/-! ## Operations that write show memory -/

/-- An access that is judged touches the port, the arrival queue, the cells, the register and the arbiter
alone: what else the statements name stays (R175, R176). -/
theorem admit_notes_marks (a : HostAccess) (s : State) :
    (admitAccess a s).notes = s.notes ∧ (admitAccess a s).marks = s.marks ∧ (admitAccess a s).wq = s.wq := by
  cases a with
  | read addr =>
    unfold admitAccess hostRead
    dsimp only
    split <;> exact ⟨rfl, rfl, rfl⟩
  | write addr data =>
    unfold admitAccess hostWrite
    dsimp only
    split
    · exact ⟨rfl, rfl, rfl⟩
    · unfold applyEffect
      split <;> exact ⟨rfl, rfl, rfl⟩

/-- The host port's turn writes at most one word, a slot's state word or the word of a host write, and
leaves the commands, the write queue and the notices as they are (R175, R189). -/
theorem hostTurn_law (s : State) :
    (hostTurn s).pending = s.pending ∧ (hostTurn s).wq = s.wq ∧ (hostTurn s).notes = s.notes
      ∧ (hostTurn s).marks = s.marks
      ∧ ((hostTurn s).mem = s.mem ∨ ∃ a w, (hostTurn s).mem = Memory.writeWord s.mem a w) := by
  unfold hostTurn
  split
  · next i rest _ =>
    unfold clearTurn
    dsimp only
    split
    · next a _ _ =>
      refine ⟨?_, ?_, ?_, ?_, .inr ⟨slotBase i, 0#32, ?_⟩⟩
      · exact (keeps_admit a (.refl _)).pending
      · exact (admit_notes_marks a _).2.2
      · exact (admit_notes_marks a _).1
      · exact (admit_notes_marks a _).2.1
      · exact (keeps_admit a (.refl _)).mem
    · exact ⟨rfl, rfl, rfl, rfl, .inr ⟨_, _, rfl⟩⟩
  · unfold accessTurn
    dsimp only
    split
    · exact ⟨rfl, rfl, rfl, rfl, .inr ⟨_, _, rfl⟩⟩
    · exact ⟨rfl, rfl, rfl, rfl, .inl rfl⟩
  · exact ⟨rfl, rfl, rfl, rfl, .inl rfl⟩

/-- A host turn keeps the canonical form of show memory. -/
theorem wf_hostTurn (h : Memory.wf s.mem) : Memory.wf (hostTurn s).mem := by
  obtain ⟨_, _, _, _, hm | ⟨a, w, hm⟩⟩ := hostTurn_law s
  · rw [hm]; exact h
  · rw [hm]; exact Memory.wf_writeWord _ _ _ h

/-- The head burst is written and leaves the queue (R179). -/
theorem burstWritten_cons {b : Burst} {l : List Burst} (h : s.wq.queue = b :: l) :
    (burstWritten s).mem = Memory.writeAll s.mem b.words ∧ (burstWritten s).wq = s.wq.leaveHead
      ∧ (burstWritten s).pending = s.pending ∧ (burstWritten s).notes = s.notes
      ∧ (burstWritten s).marks = s.marks := by
  unfold burstWritten
  rw [h]
  dsimp only
  unfold burstTold
  split
  · exact ⟨rfl, rfl, rfl, rfl, rfl⟩
  · exact ⟨rfl, rfl, rfl, rfl, rfl⟩
  · split <;> exact ⟨rfl, rfl, rfl, rfl, rfl⟩
  · exact ⟨rfl, rfl, rfl, rfl, rfl⟩

/-- A port reset acts on the host side alone: commands, show memory, write queue and notices stay; the
state words of POSTED slots are written in turns of their own (R189). -/
theorem resetPort_law (s : State) :
    (resetPort s).pending = s.pending ∧ (resetPort s).wq = s.wq ∧ (resetPort s).notes = s.notes
      ∧ (resetPort s).marks = s.marks ∧ (resetPort s).mem = s.mem :=
  ⟨rfl, rfl, rfl, rfl, rfl⟩

theorem keeps_resetPort (s : State) : Keeps s (resetPort s) :=
  (Keeps.refl s).of_eq rfl rfl rfl rfl rfl rfl

end Sys2Proof.Machine
end

