-- ==== Sys2Proof/Laws/Ends.lean ====
section
/-! SUPPORT. How an event ends, in the terms of the statements: one law says what `finish` makes of a state
without notices, and one what a request row makes of its owner's answer. -/

namespace Sys2Proof.Machine

variable {s u v : State}

/-! ## Hand-overs -/

/-- What an offer leaves alone: mirror bursts may join the queue, and the mirror writer's base, what was
shown and the ticks not yet taken stay. -/
theorem offer_law (a : Area) (s : State) :
    ∃ (l : List Burst) (m : Mirror),
      offer a s = { s with wq := { s.wq with queue := s.wq.queue ++ l }, mirror := m }
        ∧ (∀ b ∈ l, Burst.isMirror b = true) ∧ m.base = s.mirror.base ∧ m.shown = s.mirror.shown
        ∧ m.levelsDue = s.mirror.levelsDue ∧ m.metersDue = s.mirror.metersDue := by
  unfold offer
  split
  · exact ⟨[], s.mirror, by simp, by simp, rfl, rfl, rfl, rfl⟩
  · next base hb =>
    split
    · refine ⟨dataBursts s base a
        ++ [.mirrorCount base a ((s.mirror.areas[a.index].count + 1) % 65536)],
        { s.mirror with
          areas := upd s.mirror.areas a.index (·.accepted (areaData s a))
          dirty := if a = .levels then Vector.replicate 25 false else s.mirror.dirty
          inUseChanged := if a = .counters then false else s.mirror.inUseChanged },
        by rw [← List.append_assoc], ?_, rfl, rfl, rfl, rfl⟩
      intro b hmem
      simp only [List.mem_append, List.mem_singleton] at hmem
      rcases hmem with hmem | rfl
      · unfold dataBursts at hmem
        split at hmem <;>
          · simp only [List.mem_map] at hmem
            obtain ⟨i, _, rfl⟩ := hmem
            rfl
      · rfl
    · exact ⟨[], { s.mirror with
          areas := upd s.mirror.areas a.index (fun m => { m with pending := true })
          lag := sat16 s.mirror.lag }, by simp, by simp, rfl, rfl, rfl, rfl⟩

theorem foldl_offer_law (as : List Area) (s : State) :
    ∃ (l : List Burst) (m : Mirror),
      as.foldl (fun s a => offer a s) s
          = { s with wq := { s.wq with queue := s.wq.queue ++ l }, mirror := m }
        ∧ (∀ b ∈ l, Burst.isMirror b = true) ∧ m.base = s.mirror.base ∧ m.shown = s.mirror.shown
        ∧ m.levelsDue = s.mirror.levelsDue ∧ m.metersDue = s.mirror.metersDue := by
  induction as generalizing s with
  | nil => exact ⟨[], s.mirror, by simp, by simp, rfl, rfl, rfl, rfl⟩
  | cons a as ih =>
    obtain ⟨l, m, h, hl, h1, h2, h3, h4⟩ := offer_law a s
    obtain ⟨l', m', h', hl', h1', h2', h3', h4'⟩ := ih (offer a s)
    refine ⟨l ++ l', m', ?_, ?_, ?_, ?_, ?_, ?_⟩
    · rw [List.foldl_cons, h', h]
      simp
    · intro b hb
      rcases List.mem_append.mp hb with hb | hb
      · exact hl b hb
      · exact hl' b hb
    · rw [h1', h]; exact h1
    · rw [h2', h]; exact h2
    · rw [h3', h]; exact h3
    · rw [h4', h]; exact h4

theorem noted_self : u.noted u.mirror.dirty u.mirror.inUseChanged = u := rfl

/-- The areas handed over are a matter of membership alone. -/
theorem offered_congr {as bs : List Area} (h : ∀ a, a ∈ as ↔ a ∈ bs) : u.offered as = u.offered bs := by
  unfold State.offered
  simp only [h]

/-- What the end of an event leaves alone, whichever areas it offers. -/
theorem EndsAs.law {as : List Area} {t : State} (h : u.EndsAs as t) :
    ∃ (l : List Burst) (m : Mirror),
      t = { u with
            wq := { u.wq with queue := u.wq.queue ++ l, began := false }
            mirror := m
            marks := [] }
        ∧ (∀ b ∈ l, Burst.isMirror b = true) ∧ m.base = u.mirror.base ∧ m.shown = u.mirror.shown
        ∧ m.levelsDue = u.mirror.levelsDue ∧ m.metersDue = u.mirror.metersDue := by
  obtain ⟨d, c, _, _, h⟩ := h
  obtain ⟨l, m, hf, hl⟩ :=
    foldl_offer_law (Area.all.filter fun a => a ∈ as) { u.noted d c with marks := [] }
  refine ⟨l, m, ?_, hl⟩
  unfold State.offered at h
  rw [h, hf]
  rfl

/-! ## The end of an event -/

/-- An event that leaves no notice offers the areas it marked (R173). -/
theorem finish_endsAs {as : List Area}
    (h : v = { u.noted v.mirror.dirty v.mirror.inUseChanged with marks := v.marks })
    (hn : u.notes = []) (hd : ∀ b : Fin 25, u.mirror.dirty[b] = true → v.mirror.dirty[b] = true)
    (hi : u.mirror.inUseChanged = true → v.mirror.inUseChanged = true)
    (ha : ∀ a, a ∈ v.marks ↔ a ∈ as) : State.EndsAs as u (finish v) := by
  have hv : v.notes = [] := by rw [h]; exact hn
  refine ⟨v.mirror.dirty, v.mirror.inUseChanged, hd, hi, ?_⟩
  generalize v.mirror.dirty = d at h
  generalize v.mirror.inUseChanged = c at h
  have ho : flushMarks v = (u.noted d c).offered as := by
    rw [← offered_congr ha]
    unfold flushMarks State.offered
    rw [h]
  obtain ⟨l, m, hf, _⟩ :=
    foldl_offer_law (Area.all.filter fun a => a ∈ as) { u.noted d c with marks := [] }
  unfold finish
  rw [drain_nil hv, ho]
  unfold State.offered
  rw [hf]
  simp [State.noted, hn]

/-- A command of the running part that is due ends as its operation's state. -/
theorem running_event_endsAs {as : List Area} {due : Bool} {op : State → State} {t : State}
    (hr : s.Runs) (hd : due = true)
    (h : op s = { u.noted (op s).mirror.dirty (op s).mirror.inUseChanged with marks := (op s).marks })
    (hn : u.notes = [])
    (hm : ∀ b : Fin 25, u.mirror.dirty[b] = true → (op s).mirror.dirty[b] = true)
    (hi : u.mirror.inUseChanged = true → (op s).mirror.inUseChanged = true)
    (ha : ∀ a, a ∈ (op s).marks ↔ a ∈ as)
    (ht : running (fun s => event due op s) s = .next t) : State.EndsAs as u t := by
  rw [running_next _ hr, event_due hd] at ht
  cases ht
  exact finish_endsAs h hn hm hi ha

/-! ## Answers -/

theorem finishRequest_none {a : Answer} (h : s.slate.current = none) :
    finishRequest a s
      = { s with
          slate := { s.slate with current := none, lastAnswer := some a }
          freeCount := s.freeCount + 1 } := by
  unfold finishRequest
  simp only [h]

theorem finishRequest_some {a : Answer} {cur : Current} (h : s.slate.current = some cur) :
    finishRequest a s
      = { s with
          slate := { s.slate with
            current := some { cur with phase := .answered }, lastAnswer := some a }
          freeCount := s.freeCount + 1
          wq := (s.wq.join .slate (.slotResult cur.slot a.code a.words)).join .slate
            (.slotState cur.slot (answerState a.code)) } := by
  unfold finishRequest
  simp only [h]
  rfl

/-- An answer takes no notice of the stage the current request stands in, of marks, nor of what the mirror
writer has noted (R181). -/
theorem finishRequest_of_eq {a : Answer} {d : Vector Bool 25} {c : Bool} {ms : List Area}
    (h : v = { u.noted d c with
      slate := { u.slate with current := u.slate.current.map fun c => { c with phase := .handed } }
      marks := ms }) :
    finishRequest a v = { (finishRequest a u).noted d c with marks := ms } := by
  subst h
  cases hc : u.slate.current with
  | none =>
    rw [finishRequest_none (s := u) hc, finishRequest_none rfl]
    rfl
  | some cur =>
    rw [finishRequest_some (s := u) hc, finishRequest_some (cur := { cur with phase := .handed }) rfl]
    rfl

theorem finishRequest_mirror (a : Answer) (s : State) : (finishRequest a s).mirror = s.mirror := by
  cases hc : s.slate.current with
  | none => rw [finishRequest_none hc]
  | some cur => rw [finishRequest_some hc]

theorem finishRequest_notes (a : Answer) (s : State) : (finishRequest a s).notes = s.notes := by
  cases hc : s.slate.current with
  | none => rw [finishRequest_none hc]
  | some cur => rw [finishRequest_some hc]

/-- A request row whose owner answers at once ends as the owner's state with the answer given, the areas the
owner marked being handed over. -/
theorem request_answered {as : List Area} {r : Request} {a : Answer} (ht : s.Takes r)
    (ho : ownerOf r (markHanded s) = (v, some a))
    (h : v = { u.noted v.mirror.dirty v.mirror.inUseChanged with
      slate := { u.slate with current := u.slate.current.map fun c => { c with phase := .handed } }
      marks := v.marks })
    (hn : u.notes = []) (hm : ∀ b : Fin 25, u.mirror.dirty[b] = true → v.mirror.dirty[b] = true)
    (hi : u.mirror.inUseChanged = true → v.mirror.inUseChanged = true)
    (ha : ∀ a, a ∈ v.marks ↔ a ∈ as) :
    State.Answered as u a (request r s) := by
  obtain ⟨hr, _, hd, he⟩ := ht
  have hand : handOver r s = finishRequest a v := by
    unfold handOver
    rw [if_neg (by rcases he with he | he <;> simp [he]), ho]
  unfold request State.Answered
  rw [event_due hd, hand, finishRequest_of_eq h]
  refine finish_endsAs rfl ((finishRequest_notes a u).trans hn) ?_ ?_ ha
  · rw [finishRequest_mirror]; exact hm
  · rw [finishRequest_mirror]; exact hi

end Sys2Proof.Machine
end

