-- ==== Sys2Proof/Laws/Mirror.lean ====
section
/-! SUPPORT. The layout of the mirror that the part uses is sound at every base of whole words (R172,
log 14). -/

namespace Sys2Proof.Machine

/-- A place moved up by a number of bytes. -/
def shifted (k : Nat) (p : MirrorPlace) : MirrorPlace := { p with first := k + p.first }

theorem meets_shifted (k : Nat) (p q : MirrorPlace) : (shifted k p).meets (shifted k q) = p.meets q := by
  simp only [MirrorPlace.meets, shifted, Nat.add_assoc, Nat.add_lt_add_iff_left]

theorem plainLayout_places (base : Nat) :
    (plainLayout base).places = (plainLayout 0).places.map (shifted ((256 - base % 256) % 256)) := by
  unfold plainLayout
  generalize (256 - base % 256) % 256 = k
  rfl

/-- No two places of the plain layout meet. -/
theorem plainLayout_apart (base : Nat) :
    (plainLayout base).places.Pairwise fun p q => p.meets q = false := by
  rw [plainLayout_places, List.pairwise_map]
  simp only [meets_shifted]
  decide

/-- The places of the plain layout at base 0 lie each within a block of 256 bytes, in whole words. -/
theorem plainLayout_blocks : ∀ p ∈ (plainLayout 0).places,
    0 < p.length ∧ p.length ≤ 64 ∧ p.first % 4 = 0 ∧ p.first % 256 + 4 * p.length ≤ 256
      ∧ p.first + 4 * p.length ≤ 0x3F00 := by
  decide

theorem plainLayout_fits (base : Nat) (h : base % 4 = 0) :
    ∀ p ∈ (plainLayout base).places, p.fits base = true := by
  rw [plainLayout_places]
  intro p hp
  obtain ⟨q, hq, rfl⟩ := List.mem_map.1 hp
  obtain ⟨h0, h1, h2, h3, h4⟩ := plainLayout_blocks q hq
  have h5 : ((256 - base % 256) % 256 + base) % 256 = 0 := by omega
  simp only [MirrorPlace.fits, shifted, Bool.and_eq_true, beq_iff_eq]
  refine ⟨⟨⟨⟨?_, ?_⟩, ?_⟩, ?_⟩, ?_⟩ <;> (try apply decide_eq_true) <;> omega

theorem plainLayout_sound (base : Nat) (h : base % 4 = 0) : (plainLayout base).sound base = true := by
  have hf := List.all_eq_true.2 (plainLayout_fits base h)
  have hp := decide_eq_true (plainLayout_apart base)
  simp only [MirrorLayout.sound, hf, hp, Bool.true_and, Bool.and_eq_true]
  constructor
  · rfl
  · rfl

/-- Whatever the free layout is, the layout in use is sound. -/
theorem layoutAt_sound (base : Nat) (h : base % 4 = 0) : (layoutAt base).sound base = true := by
  unfold layoutAt
  split
  · assumption
  · exact plainLayout_sound base h

end Sys2Proof.Machine
end

