-- ==== Sys2Proof/WellFormed.lean ====
section
/-! DEFINITION. Which terms of `Instr` stand for a command the outside can send. Indices are bounded
by their types; what is checked here is what the types leave open. -/

namespace Sys2Proof

/-- A request argument is one 32-bit word of its slot (R191). -/
def argWord (n : Nat) : Bool := n < 2 ^ 32

/-- Address lines 2 to 21 select words (11, section 11.1). -/
def wordAligned (a : BitVec 22) : Bool := a.extractLsb' 0 2 == 0#2

/-- The register writes that R191 ignores: a read-only or unassigned offset, or ENGINE with both or
neither command (R188). -/
def ignoredRegisterWrite (offset : BitVec 22) (value : Word) : Bool :=
  if offset = 0x04#22 then value.getLsbD 16 == value.getLsbD 17
  else offset != 0x08#22 && offset != 0x0C#22

def Instr.wellFormed : Instr → Bool
  | .hostRead (.memory a) => wordAligned a
  | .hostRead (.register a) => wordAligned a
  | .hostWrite a _ => wordAligned a
  | .registerWriteIgnored o v => wordAligned o && ignoredRegisterWrite o v
  | .goTo n => argWord n
  | .setLevel e _ t _ => argWord e.index && argWord t
  | .swapTap r t x => argWord r && argWord t && argWord x
  | .voiceStart v n _ _ => argWord v && argWord n
  | .voiceStop v t => argWord v && argWord t
  | .relay g _ => argWord g
  | .clearZoneFault g => argWord g
  | .pageOpen g s p _ => argWord g && argWord s.index && argWord p
  | .pageClose p => argWord p
  | .callNow c => argWord c
  | .setTime d h m n => argWord d && argWord h && argWord m && argWord n
  | .lock l => argWord l
  | .linkFrame .. | .receiverLocked _ | .receiverUnlocked _ | .wclkFallback | .wclkReturn
  | .channelPresentFalse _ | .channelPresentTrue _ | .confirmExpiry _ | .holdTimerExpiry _
  | .batteryLowEdge _ | .gateRampEnd _ | .holdAccepted _ | .lineGo | .triggerEdge _ | .guardExpiry
  | .followExpiry | .cueFiring | .delayExpiry _ | .fadeComplete _ | .burstArrival _ | .endOfSound _
  | .stabilityWindowExpiry _ | .ampOkTrue _ | .sampleWindowExpiry _ | .ampDrop _
  | .idleTimerExpiry _ | .pageLimitExpiry _ | .secondRollover | .patienceExpiry _ | .cellReturn ..
  | .mirrorTick | .metersTick | .memoryGrant | .writeBurstWritten | .slotPost _ | .slotWithdraw _
  | .slotReturn _ | .slotTake | .requestDispatch | .loadShow | .loadRefused | .install | .stopShow
  | .go | .pause | .resume | .completeAll | .unlock | .captureNow .. | .noticeWrite _
  | .noticeMaskWrite _ | .portReset | .fullReset | .rstlHeld1ms | .rstlHeld20ms | .rstlRelease
  | .startUp _ | .sampleFrame .. | .millisecondTick .. | .wclkPresenceJudgement _
  | .frameClockRealignment => true

end Sys2Proof
end

