-- ==== Sys2Proof/Laws/PerInstr.lean ====
section
/-! SUPPORT. A statement of every command as syntax: the numbers a well-formed command carries as request
arguments each fit in one word of a slot (R191). -/

namespace Sys2Proof.Laws

/-- The request arguments of a command that are numbers. -/
def numbers : Instr → List Nat
  | .linkFrame .. => []
  | .receiverLocked .. => []
  | .receiverUnlocked .. => []
  | .wclkFallback => []
  | .wclkReturn => []
  | .channelPresentFalse .. => []
  | .channelPresentTrue .. => []
  | .confirmExpiry .. => []
  | .holdTimerExpiry .. => []
  | .batteryLowEdge .. => []
  | .gateRampEnd .. => []
  | .holdAccepted .. => []
  | .lineGo => []
  | .triggerEdge .. => []
  | .guardExpiry => []
  | .followExpiry => []
  | .cueFiring => []
  | .delayExpiry .. => []
  | .fadeComplete .. => []
  | .burstArrival .. => []
  | .endOfSound .. => []
  | .stabilityWindowExpiry .. => []
  | .ampOkTrue .. => []
  | .sampleWindowExpiry .. => []
  | .ampDrop .. => []
  | .idleTimerExpiry .. => []
  | .pageLimitExpiry .. => []
  | .secondRollover => []
  | .patienceExpiry .. => []
  | .cellReturn .. => []
  | .mirrorTick => []
  | .metersTick => []
  | .memoryGrant => []
  | .writeBurstWritten => []
  | .hostRead .. => []
  | .hostWrite .. => []
  | .slotPost .. => []
  | .slotWithdraw .. => []
  | .slotReturn .. => []
  | .slotTake => []
  | .requestDispatch => []
  | .loadShow => []
  | .loadRefused => []
  | .install => []
  | .stopShow => []
  | .go => []
  | .goTo n => [n]
  | .pause => []
  | .resume => []
  | .completeAll => []
  | .setLevel elem _ time _ => [elem.index, time]
  | .swapTap role tap time => [role, tap, time]
  | .voiceStart voice sound _ _ => [voice, sound]
  | .voiceStop voice time => [voice, time]
  | .relay group _ => [group]
  | .clearZoneFault group => [group]
  | .pageOpen group source priority _ => [group, source.index, priority]
  | .pageClose page => [page]
  | .callNow call => [call]
  | .setTime day hours minutes seconds => [day, hours, minutes, seconds]
  | .lock level => [level]
  | .unlock => []
  | .captureNow .. => []
  | .noticeWrite .. => []
  | .noticeMaskWrite .. => []
  | .portReset => []
  | .fullReset => []
  | .registerWriteIgnored .. => []
  | .rstlHeld1ms => []
  | .rstlHeld20ms => []
  | .rstlRelease => []
  | .startUp .. => []
  | .sampleFrame .. => []
  | .millisecondTick .. => []
  | .wclkPresenceJudgement .. => []
  | .frameClockRealignment => []

/-- The family: each number of a well-formed command is a word. -/
def Bounded.Statement (i : Instr) : Prop :=
  i.wellFormed = true → ∀ n ∈ numbers i, n < 2 ^ 32

theorem Bounded.linkFrame (link : Link) (words : Vector Word 18) :
    Bounded.Statement (.linkFrame link words) := by
  intro _ n hn
  exact absurd hn (List.not_mem_nil)

theorem Bounded.receiverLocked (link : Link) : Bounded.Statement (.receiverLocked link) := by
  intro _ n hn
  exact absurd hn (List.not_mem_nil)

theorem Bounded.receiverUnlocked (link : Link) : Bounded.Statement (.receiverUnlocked link) := by
  intro _ n hn
  exact absurd hn (List.not_mem_nil)

theorem Bounded.wclkFallback : Bounded.Statement (.wclkFallback) := by
  intro _ n hn
  exact absurd hn (List.not_mem_nil)

theorem Bounded.wclkReturn : Bounded.Statement (.wclkReturn) := by
  intro _ n hn
  exact absurd hn (List.not_mem_nil)

theorem Bounded.channelPresentFalse (ch : Channel) :
    Bounded.Statement (.channelPresentFalse ch) := by
  intro _ n hn
  exact absurd hn (List.not_mem_nil)

theorem Bounded.channelPresentTrue (ch : Channel) : Bounded.Statement (.channelPresentTrue ch) := by
  intro _ n hn
  exact absurd hn (List.not_mem_nil)

theorem Bounded.confirmExpiry (ch : Channel) : Bounded.Statement (.confirmExpiry ch) := by
  intro _ n hn
  exact absurd hn (List.not_mem_nil)

theorem Bounded.holdTimerExpiry (ch : Channel) : Bounded.Statement (.holdTimerExpiry ch) := by
  intro _ n hn
  exact absurd hn (List.not_mem_nil)

theorem Bounded.batteryLowEdge (ch : Channel) : Bounded.Statement (.batteryLowEdge ch) := by
  intro _ n hn
  exact absurd hn (List.not_mem_nil)

theorem Bounded.gateRampEnd (gate : GateId) : Bounded.Statement (.gateRampEnd gate) := by
  intro _ n hn
  exact absurd hn (List.not_mem_nil)

theorem Bounded.holdAccepted (line : LineId) : Bounded.Statement (.holdAccepted line) := by
  intro _ n hn
  exact absurd hn (List.not_mem_nil)

theorem Bounded.lineGo : Bounded.Statement (.lineGo) := by
  intro _ n hn
  exact absurd hn (List.not_mem_nil)

theorem Bounded.triggerEdge (line : LineId) : Bounded.Statement (.triggerEdge line) := by
  intro _ n hn
  exact absurd hn (List.not_mem_nil)

theorem Bounded.guardExpiry : Bounded.Statement (.guardExpiry) := by
  intro _ n hn
  exact absurd hn (List.not_mem_nil)

theorem Bounded.followExpiry : Bounded.Statement (.followExpiry) := by
  intro _ n hn
  exact absurd hn (List.not_mem_nil)

theorem Bounded.cueFiring : Bounded.Statement (.cueFiring) := by
  intro _ n hn
  exact absurd hn (List.not_mem_nil)

theorem Bounded.delayExpiry (rec : RecId) : Bounded.Statement (.delayExpiry rec) := by
  intro _ n hn
  exact absurd hn (List.not_mem_nil)

theorem Bounded.fadeComplete (rec : RecId) : Bounded.Statement (.fadeComplete rec) := by
  intro _ n hn
  exact absurd hn (List.not_mem_nil)

theorem Bounded.burstArrival (voice : VoiceId) : Bounded.Statement (.burstArrival voice) := by
  intro _ n hn
  exact absurd hn (List.not_mem_nil)

theorem Bounded.endOfSound (voice : VoiceId) : Bounded.Statement (.endOfSound voice) := by
  intro _ n hn
  exact absurd hn (List.not_mem_nil)

theorem Bounded.stabilityWindowExpiry (zone : ZoneId) :
    Bounded.Statement (.stabilityWindowExpiry zone) := by
  intro _ n hn
  exact absurd hn (List.not_mem_nil)

theorem Bounded.ampOkTrue (zone : ZoneId) : Bounded.Statement (.ampOkTrue zone) := by
  intro _ n hn
  exact absurd hn (List.not_mem_nil)

theorem Bounded.sampleWindowExpiry (zone : ZoneId) :
    Bounded.Statement (.sampleWindowExpiry zone) := by
  intro _ n hn
  exact absurd hn (List.not_mem_nil)

theorem Bounded.ampDrop (zone : ZoneId) : Bounded.Statement (.ampDrop zone) := by
  intro _ n hn
  exact absurd hn (List.not_mem_nil)

theorem Bounded.idleTimerExpiry (zone : ZoneId) : Bounded.Statement (.idleTimerExpiry zone) := by
  intro _ n hn
  exact absurd hn (List.not_mem_nil)

theorem Bounded.pageLimitExpiry (page : PageId) : Bounded.Statement (.pageLimitExpiry page) := by
  intro _ n hn
  exact absurd hn (List.not_mem_nil)

theorem Bounded.secondRollover : Bounded.Statement (.secondRollover) := by
  intro _ n hn
  exact absurd hn (List.not_mem_nil)

theorem Bounded.patienceExpiry (call : CallId) : Bounded.Statement (.patienceExpiry call) := by
  intro _ n hn
  exact absurd hn (List.not_mem_nil)

theorem Bounded.cellReturn (cell : CellId) (word : Fin 8) (data : Word) :
    Bounded.Statement (.cellReturn cell word data) := by
  intro _ n hn
  exact absurd hn (List.not_mem_nil)

theorem Bounded.mirrorTick : Bounded.Statement (.mirrorTick) := by
  intro _ n hn
  exact absurd hn (List.not_mem_nil)

theorem Bounded.metersTick : Bounded.Statement (.metersTick) := by
  intro _ n hn
  exact absurd hn (List.not_mem_nil)

theorem Bounded.memoryGrant : Bounded.Statement (.memoryGrant) := by
  intro _ n hn
  exact absurd hn (List.not_mem_nil)

theorem Bounded.writeBurstWritten : Bounded.Statement (.writeBurstWritten) := by
  intro _ n hn
  exact absurd hn (List.not_mem_nil)

theorem Bounded.hostRead (addr : WindowAddr) : Bounded.Statement (.hostRead addr) := by
  intro _ n hn
  exact absurd hn (List.not_mem_nil)

theorem Bounded.hostWrite (addr : BitVec 22) (data : Word) :
    Bounded.Statement (.hostWrite addr data) := by
  intro _ n hn
  exact absurd hn (List.not_mem_nil)

theorem Bounded.slotPost (slot : SlotId) : Bounded.Statement (.slotPost slot) := by
  intro _ n hn
  exact absurd hn (List.not_mem_nil)

theorem Bounded.slotWithdraw (slot : SlotId) : Bounded.Statement (.slotWithdraw slot) := by
  intro _ n hn
  exact absurd hn (List.not_mem_nil)

theorem Bounded.slotReturn (slot : SlotId) : Bounded.Statement (.slotReturn slot) := by
  intro _ n hn
  exact absurd hn (List.not_mem_nil)

theorem Bounded.slotTake : Bounded.Statement (.slotTake) := by
  intro _ n hn
  exact absurd hn (List.not_mem_nil)

theorem Bounded.requestDispatch : Bounded.Statement (.requestDispatch) := by
  intro _ n hn
  exact absurd hn (List.not_mem_nil)

theorem Bounded.loadShow : Bounded.Statement (.loadShow) := by
  intro _ n hn
  exact absurd hn (List.not_mem_nil)

theorem Bounded.loadRefused : Bounded.Statement (.loadRefused) := by
  intro _ n hn
  exact absurd hn (List.not_mem_nil)

theorem Bounded.install : Bounded.Statement (.install) := by
  intro _ n hn
  exact absurd hn (List.not_mem_nil)

theorem Bounded.stopShow : Bounded.Statement (.stopShow) := by
  intro _ n hn
  exact absurd hn (List.not_mem_nil)

theorem Bounded.go : Bounded.Statement (.go) := by
  intro _ n hn
  exact absurd hn (List.not_mem_nil)

theorem Bounded.goTo (n : Nat) : Bounded.Statement (.goTo n) := by
  intro h n hn
  simp only [Instr.wellFormed, argWord, decide_eq_true_eq] at h
  simp only [numbers, List.mem_cons, List.not_mem_nil, or_false] at hn
  omega

theorem Bounded.pause : Bounded.Statement (.pause) := by
  intro _ n hn
  exact absurd hn (List.not_mem_nil)

theorem Bounded.resume : Bounded.Statement (.resume) := by
  intro _ n hn
  exact absurd hn (List.not_mem_nil)

theorem Bounded.completeAll : Bounded.Statement (.completeAll) := by
  intro _ n hn
  exact absurd hn (List.not_mem_nil)

theorem Bounded.setLevel (elem : ElemRef) (value : BitVec 16) (time : Nat) (curve : Option Curve) :
    Bounded.Statement (.setLevel elem value time curve) := by
  intro h n hn
  simp only [Instr.wellFormed, argWord, Bool.and_eq_true, decide_eq_true_eq] at h
  simp only [numbers, List.mem_cons, List.not_mem_nil, or_false] at hn
  omega

theorem Bounded.swapTap (role tap time : Nat) : Bounded.Statement (.swapTap role tap time) := by
  intro h n hn
  simp only [Instr.wellFormed, argWord, Bool.and_eq_true, decide_eq_true_eq] at h
  simp only [numbers, List.mem_cons, List.not_mem_nil, or_false] at hn
  omega

theorem Bounded.voiceStart (voice sound : Nat) (level : BitVec 16) (loop : Bool) :
    Bounded.Statement (.voiceStart voice sound level loop) := by
  intro h n hn
  simp only [Instr.wellFormed, argWord, Bool.and_eq_true, decide_eq_true_eq] at h
  simp only [numbers, List.mem_cons, List.not_mem_nil, or_false] at hn
  omega

theorem Bounded.voiceStop (voice time : Nat) : Bounded.Statement (.voiceStop voice time) := by
  intro h n hn
  simp only [Instr.wellFormed, argWord, Bool.and_eq_true, decide_eq_true_eq] at h
  simp only [numbers, List.mem_cons, List.not_mem_nil, or_false] at hn
  omega

theorem Bounded.relay (group : Nat) (switch : Option Bool) :
    Bounded.Statement (.relay group switch) := by
  intro h n hn
  simp only [Instr.wellFormed, argWord, decide_eq_true_eq] at h
  simp only [numbers, List.mem_cons, List.not_mem_nil, or_false] at hn
  omega

theorem Bounded.clearZoneFault (group : Nat) : Bounded.Statement (.clearZoneFault group) := by
  intro h n hn
  simp only [Instr.wellFormed, argWord, decide_eq_true_eq] at h
  simp only [numbers, List.mem_cons, List.not_mem_nil, or_false] at hn
  omega

theorem Bounded.pageOpen (group : Nat) (source : SourceRef) (priority : Nat) (level : BitVec 16) :
    Bounded.Statement (.pageOpen group source priority level) := by
  intro h n hn
  simp only [Instr.wellFormed, argWord, Bool.and_eq_true, decide_eq_true_eq] at h
  simp only [numbers, List.mem_cons, List.not_mem_nil, or_false] at hn
  omega

theorem Bounded.pageClose (page : Nat) : Bounded.Statement (.pageClose page) := by
  intro h n hn
  simp only [Instr.wellFormed, argWord, decide_eq_true_eq] at h
  simp only [numbers, List.mem_cons, List.not_mem_nil, or_false] at hn
  omega

theorem Bounded.callNow (call : Nat) : Bounded.Statement (.callNow call) := by
  intro h n hn
  simp only [Instr.wellFormed, argWord, decide_eq_true_eq] at h
  simp only [numbers, List.mem_cons, List.not_mem_nil, or_false] at hn
  omega

theorem Bounded.setTime (day hours minutes seconds : Nat) :
    Bounded.Statement (.setTime day hours minutes seconds) := by
  intro h n hn
  simp only [Instr.wellFormed, argWord, Bool.and_eq_true, decide_eq_true_eq] at h
  simp only [numbers, List.mem_cons, List.not_mem_nil, or_false] at hn
  omega

theorem Bounded.lock (level : Nat) : Bounded.Statement (.lock level) := by
  intro h n hn
  simp only [Instr.wellFormed, argWord, decide_eq_true_eq] at h
  simp only [numbers, List.mem_cons, List.not_mem_nil, or_false] at hn
  omega

theorem Bounded.unlock : Bounded.Statement (.unlock) := by
  intro _ n hn
  exact absurd hn (List.not_mem_nil)

theorem Bounded.captureNow (word0 word1 : Word) : Bounded.Statement (.captureNow word0 word1) := by
  intro _ n hn
  exact absurd hn (List.not_mem_nil)

theorem Bounded.noticeWrite (value : Word) : Bounded.Statement (.noticeWrite value) := by
  intro _ n hn
  exact absurd hn (List.not_mem_nil)

theorem Bounded.noticeMaskWrite (value : Word) : Bounded.Statement (.noticeMaskWrite value) := by
  intro _ n hn
  exact absurd hn (List.not_mem_nil)

theorem Bounded.portReset : Bounded.Statement (.portReset) := by
  intro _ n hn
  exact absurd hn (List.not_mem_nil)

theorem Bounded.fullReset : Bounded.Statement (.fullReset) := by
  intro _ n hn
  exact absurd hn (List.not_mem_nil)

theorem Bounded.registerWriteIgnored (offset : BitVec 22) (value : Word) :
    Bounded.Statement (.registerWriteIgnored offset value) := by
  intro _ n hn
  exact absurd hn (List.not_mem_nil)

theorem Bounded.rstlHeld1ms : Bounded.Statement (.rstlHeld1ms) := by
  intro _ n hn
  exact absurd hn (List.not_mem_nil)

theorem Bounded.rstlHeld20ms : Bounded.Statement (.rstlHeld20ms) := by
  intro _ n hn
  exact absurd hn (List.not_mem_nil)

theorem Bounded.rstlRelease : Bounded.Statement (.rstlRelease) := by
  intro _ n hn
  exact absurd hn (List.not_mem_nil)

theorem Bounded.startUp (size : DramSize) : Bounded.Statement (.startUp size) := by
  intro _ n hn
  exact absurd hn (List.not_mem_nil)

theorem Bounded.sampleFrame (go : Bool) (trig : BitVec 4) :
    Bounded.Statement (.sampleFrame go trig) := by
  intro _ n hn
  exact absurd hn (List.not_mem_nil)

theorem Bounded.millisecondTick (hold : BitVec 4) (ampOk : BitVec 24) :
    Bounded.Statement (.millisecondTick hold ampOk) := by
  intro _ n hn
  exact absurd hn (List.not_mem_nil)

theorem Bounded.wclkPresenceJudgement (periods : List Nat) :
    Bounded.Statement (.wclkPresenceJudgement periods) := by
  intro _ n hn
  exact absurd hn (List.not_mem_nil)

theorem Bounded.frameClockRealignment : Bounded.Statement (.frameClockRealignment) := by
  intro _ n hn
  exact absurd hn (List.not_mem_nil)

end Sys2Proof.Laws
end

