-- ==== Sys2Proof/Laws/Settle.lean ====
section
/-! SUPPORT. A state in which no event is due is settled: what a frame takes first is then
nothing. -/

namespace Sys2Proof.Machine

theorem forEach_same {σ : Type} {n : Nat} {f : Fin n → σ → σ} {s : σ} (h : ∀ i, f i s = s) :
    forEach n f s = s := by
  unfold forEach
  induction List.finRange n with
  | nil => rfl
  | cons i l ih => simpa [h i] using ih

theorem event_same {due : Bool} {op : State → State} {s : State} (h : due = false) : event due op s = s := by
  simp [event, h]

/-- Each event's own condition fails at `s`. -/
abbrev QuietChannel (s : State) (c : Channel) : Prop :=
  presentFalseDue s c = false ∧ presentTrueDue s c = false ∧ confirmDue s c = false
    ∧ holdDue s c = false ∧ batteryDue s c = false

abbrev QuietZone (s : State) (z : ZoneId) : Prop :=
  stabilityDue s z = false ∧ ampOkDue s z = false ∧ sampleDue s z = false ∧ ampDropDue s z = false
    ∧ idleDue s z = false

abbrev QuietLine (s : State) (l : LineId) : Prop :=
  s.rx[l].lockDue = false ∧ s.rx[l].unlockDue = false ∧ acceptDue s l = false
    ∧ triggerDue s l = false ∧ limitDue s l = false

abbrev QuietCues (s : State) : Prop :=
  fallbackDue s = false ∧ returnDue s = false ∧ s.rollover = false ∧ firingDue s = false
    ∧ followDue s = false ∧ guardDue s = false ∧ lineGoDue s = false ∧ s.mirror.levelsDue = false
    ∧ s.mirror.metersDue = false

theorem settle_same (s : State) (hl : ∀ l, QuietLine s l) (hk : QuietCues s)
    (hc : ∀ c, QuietChannel s c) (hg : ∀ g, rampEndDue s g = false)
    (hv : ∀ v : VoiceId, Voice.endDue s.voices[v] = false)
    (hp : ∀ c : CallId, Call.patienceOut s.calls[c] = false)
    (hr : ∀ i : RecId, delayDue s i = false ∧ fadeDue s i = false) (hz : ∀ z, QuietZone s z) :
    settle s = s := by
  obtain ⟨k1, k2, k3, k4, k5, k6, k7, k8, k9⟩ := hk
  have links : settleLinks s = s := forEach_same fun l => by
    rw [unlockEvent, event_same (hl l).2.1, lockEvent, event_same (hl l).1]
  have chans : forEach 64 settleChannel s = s := forEach_same fun c => by
    obtain ⟨a, b, d, e, f⟩ := hc c
    simp [settleChannel, presentFalseEvent, presentTrueEvent, confirmEvent, holdTimerEvent, batteryEvent,
      event_same, a, b, d, e, f]
  have gates : ∀ l : List GateId, l.foldl (fun s g => rampEndEvent g s) s = s := fun l => by
    induction l with
    | nil => rfl
    | cons g l ih => simpa [rampEndEvent, event_same (hg g)] using ih
  have lines : forEach 4 acceptEvent s = s := forEach_same fun l => event_same (hl l).2.2.1
  have trigs : forEach 4 triggerEvent s = s := forEach_same fun l => event_same (hl l).2.2.2.1
  have limits : forEach 4 limitEvent s = s := forEach_same fun l => event_same (hl l).2.2.2.2
  have ends : forEach 16 soundEndEvent s = s := forEach_same fun v => event_same (hv v)
  have calls : forEach 16 patienceEvent s = s := forEach_same fun c => event_same (hp c)
  have recs : settleRecords s = s := forEach_same fun i => by
    rw [delayEvent, event_same (hr i).1, fadeEvent, event_same (hr i).2]
  have zones : forEach 24 settleZone s = s := forEach_same fun z => by
    obtain ⟨a, b, d, e, f⟩ := hz z
    simp [settleZone, stabilityEvent, ampOkEvent, sampleEvent, ampDropEvent, idleEvent, event_same, a, b,
      d, e, f]
  simp [settle, links, settleClock, fallbackEvent, returnEvent, event_same k1, event_same k2, chans,
    lines, gates, ends, settleCalls, limits, rolloverEvent, event_same k3, calls, recs, firingEvent,
    event_same k4, zones, settleCues, followEvent, event_same k5, guardEvent, event_same k6, lineGoEvent,
    event_same k7, trigs, mirrorEvent, event_same k8, metersEvent, event_same k9]

theorem forall_gate {P : GateId → Prop} (h1 : ∀ c, P (.supervision c)) (h2 : ∀ m, P (.mixHold m))
    (h3 : ∀ z, P (.relayHold z)) (h4 : ∀ z, P (.pageHold z)) (h5 : ∀ z, P (.duck z)) : ∀ g, P g := by
  intro g; cases g <;> simp_all

end Sys2Proof.Machine
end

