-- ==== Sys2Proof/Laws/Zones.lean ====
section
/-! SUPPORT. What powering a zone, judging its demand anew and clearing its fault make of it: one law for each of
these operations, in the terms of the statements. -/

namespace Sys2Proof.Machine

theorem updZone_zone (z : ZoneId) (f : Zone → Zone) (s : State) :
    (updZone z f s).zones[z] = f s.zones[z] := by simp [updZone, upd]

/-- The entry to LIVE (R139). -/
theorem zoneEnterLive_zone (z : ZoneId) (s : State) :
    (zoneEnterLive z s).zones[z] = { s.zones[z] with
      state := .live, falseRun := 0
      timer := if s.zones[z].demand then none else s.zones[z].idleTimer } := by
  simp only [zoneEnterLive, mark_zones, tell_zones, updZone_zone]

/-- The end of POWERING (R139). -/
theorem stabilityEnd_zone {z : ZoneId} {s : State} {x : Zone} (h : s.zones[z] = x) :
    (stabilityEnd z s).zones[z] =
      if x.cfg.sample ≠ 0 ∧ x.cfg.sample ≠ 255 then
        { x with state := .checking, timer := some (10 * x.cfg.sample) }
      else { x with state := .live, falseRun := 0, timer := if x.demand then none else x.idleTimer } := by
  subst h
  unfold stabilityEnd
  dsimp only
  by_cases w : s.zones[z].cfg.sample = 0 ∨ s.zones[z].cfg.sample = 255
  · rw [if_pos w, if_neg (by tauto)]; exact zoneEnterLive_zone z s
  · rw [if_neg w, if_pos (by tauto)]; simp only [mark_zones, updZone_zone]

/-- While the engine is not STOPPED, powering makes of a zone what `Zone.poweredUp` says (R137, R139). -/
theorem powerZone_zone {z : ZoneId} {s : State} (h : s.engine ≠ .stopped) :
    (powerZone z s).zones[z] = s.zones[z].poweredUp := by
  unfold powerZone
  rw [if_neg h]
  dsimp only
  by_cases w : s.zones[z].cfg.stability = 0 ∨ s.zones[z].cfg.stability = 255
  · rw [if_pos w, stabilityEnd_zone (by rw [mark_zones, updZone_zone])]
    unfold Zone.poweredUp
    rw [if_neg (c := s.zones[z].cfg.stability ≠ 0 ∧ _) (by tauto)]
    dsimp only
    split
    · rfl
    · simp only [Zone.demand, Zone.idleTimer, Zone.alwaysPowered, framesOf]
      congr 1
      cases s.zones[z].relay <;> cases s.zones[z].page <;> simp
  · rw [if_neg w]; simp only [mark_zones, updZone_zone, Zone.poweredUp]; rw [if_pos (by tauto)]

/-- Demand judged anew powers an OFF zone newly wanted and starts or stops the idle timer of a LIVE one (R137,
R140). -/
theorem rejudge_zone {z : ZoneId} {before : Bool} {s : State} {x : Zone} (h : s.engine ≠ .stopped)
    (hx : s.zones[z] = x) :
    (rejudge z before s).zones[z] = match x.state with
      | .off => if (x.demand && !before) || x.alwaysPowered then x.poweredUp else x
      | .live =>
        if x.demand && !before then { x with timer := none }
        else if !x.demand && before then { x with timer := x.idleTimer } else x
      | _ => x := by
  subst hx
  unfold rejudge
  dsimp only
  cases hs : s.zones[z].state with
  | off =>
    dsimp only
    split
    · exact powerZone_zone h
    · rfl
  | live =>
    dsimp only
    rw [← hs]
    split
    · exact updZone_zone z (fun y => { y with timer := none }) s
    · split
      · exact updZone_zone z (fun y => { y with timer := y.idleTimer }) s
      · rfl
  | _ => rfl

/-- A cleared zone is OFF, and powered when it is wanted (R142). -/
theorem clearFault_zone {z : ZoneId} {s : State} {x : Zone} (h : s.engine ≠ .stopped)
    (hx : x = { s.zones[z] with state := .off, ampen := false, timer := none, falseRun := 0 }) :
    (clearFault z s).zones[z] =
      if x.relay = true ∨ x.page ≠ none ∨ x.cfg.stability = 255 then x.poweredUp else x := by
  have hz : (zoneOff z s).zones[z] = x := by simp only [zoneOff, mark_zones, updZone_zone, hx]
  have he : (zoneOff z s).engine ≠ .stopped := by simpa [zoneOff] using h
  have hw : (x.demand = true ∨ x.alwaysPowered = true)
      ↔ (x.relay = true ∨ x.page ≠ none ∨ x.cfg.stability = 255) := by
    simp [Zone.demand, Zone.alwaysPowered, Option.isSome_iff_ne_none, or_assoc]
  unfold clearFault powerIfWanted
  rw [hz]
  simp only [hw]
  split
  · rw [powerZone_zone he, hz]
  · exact hz

end Sys2Proof.Machine
end

