-- ==== Sys2Proof/Tests/Slice0.lean ====
section
/-! SUPPORT. The model's own tests: what WellFormed refuses, a step of some commands against values the
manual gives, and, for every statement with hypotheses, a state that meets them. Every expected value is
the manual's, by the section named; `meets_` theorems show hypotheses met, clause by clause. -/

namespace Sys2Proof.Tests

set_option Elab.async false

open Sys2Proof.Machine

/-! ## States -/

/-- A part that has started up, with 1 MiB of show memory and the engine STOPPED. -/
def idle : State := { State.reset with phase := .running, memSize := 0x100000 }

/-- The same with the engine LOADED. -/
def on : State := { idle with engine := .loaded }

def withSeq (q : Seq) : State := { on with seq := q }

def standby (tr : Trigger) : Standby := { number := 10, index := 0, trigger := tr, wait := 500 }

def withChannel (c : ChannelRec) : State := { on with channels := on.channels.set 0 c }

def used : ChannelRec :=
  { ChannelRec.reset with
    cfg := { ChannelRec.reset.cfg with used := true, autoMute := true, confirm := 40, hold := 2 } }

def withZone (z : Zone) : State := { on with zones := on.zones.set 0 z, zoneGroups := on.zoneGroups.set 0 1#24 }

def withVoice (v : Voice) : State := { on with voices := on.voices.set 0 v }

def levelRec (owner : Owner) (e : Elem) : FadeRec :=
  { fading := false, owner := owner, content := .level e (.steps (-72)) .steps, upTime := 0,
    downTime := 2000, ownUp := none, ownDown := none, runIndex := none, delayLeft := 0, start := 0,
    time := 0, elapsed := 0, stopMark := none }

def withFade (r : FadeRec) : State := { on with fades := on.fades.set 0 (some r) }

/-! ## WellFormed: each check refuses an ill-formed term -/

theorem test_wf_read_unaligned : Instr.wellFormed (.hostRead (.memory 0x202#22)) = false := by decide
theorem test_wf_register_unaligned : Instr.wellFormed (.hostRead (.register 0x12#22)) = false := by decide
theorem test_wf_write_unaligned : Instr.wellFormed (.hostWrite 0x001#22 0#32) = false := by decide
theorem test_wf_ignored_is_mask :
    Instr.wellFormed (.registerWriteIgnored 0x0C#22 0#32) = false := by decide
theorem test_wf_ignored_is_reset :
    Instr.wellFormed (.registerWriteIgnored 0x04#22 0x10000#32) = false := by decide
theorem test_wf_ignored_both :
    Instr.wellFormed (.registerWriteIgnored 0x04#22 0x30000#32) = true := by decide
theorem test_wf_ignored_unaligned :
    Instr.wellFormed (.registerWriteIgnored 0x11#22 0#32) = false := by decide
theorem test_wf_goTo : Instr.wellFormed (.goTo (2 ^ 32)) = false := by decide
theorem test_wf_setLevel :
    Instr.wellFormed (.setLevel { kind := none, index := 0 } 0#16 (2 ^ 32) none) = false := by decide
theorem test_wf_setLevel_index :
    Instr.wellFormed (.setLevel { kind := none, index := 2 ^ 32 } 0#16 0 none) = false := by decide
theorem test_wf_swapTap : Instr.wellFormed (.swapTap 0 (2 ^ 32) 0) = false := by decide
theorem test_wf_voiceStart : Instr.wellFormed (.voiceStart 0 (2 ^ 32) 0#16 false) = false := by decide
theorem test_wf_voiceStop : Instr.wellFormed (.voiceStop 0 (2 ^ 32)) = false := by decide
theorem test_wf_relay : Instr.wellFormed (.relay (2 ^ 32) none) = false := by decide
theorem test_wf_clear : Instr.wellFormed (.clearZoneFault (2 ^ 32)) = false := by decide
theorem test_wf_pageOpen :
    Instr.wellFormed (.pageOpen 0 { kind := none, index := 0 } (2 ^ 32) 0#16) = false := by decide
theorem test_wf_pageClose : Instr.wellFormed (.pageClose (2 ^ 32)) = false := by decide
theorem test_wf_callNow : Instr.wellFormed (.callNow (2 ^ 32)) = false := by decide
theorem test_wf_setTime : Instr.wellFormed (.setTime 0 0 0 (2 ^ 32)) = false := by decide
theorem test_wf_lock : Instr.wellFormed (.lock (2 ^ 32)) = false := by decide
theorem test_wf_good : Instr.wellFormed (.goTo 65535) = true := by decide

/-- The table gives no bits, so no word spells a command. -/
theorem test_no_word_spells : decodeTableWord 32 0xFFFFFFFF = none := by decide

/-! ## Numbers the manual works out -/

/-- 3.3 and 3.2: a total at the limit is kept, one past it is held and counted. -/
theorem test_saturate : saturate 8388607 = (8388607#24, false) ∧ saturate 8388608 = (8388607#24, true) := by
  decide

/-- R40: S = −1 has M = 63670 and n = 16, so the sample 65536 gives 63670. -/
theorem test_gain_minus_one : gain 65536 (-1) = 63670 := by decide

/-- R38, R39: four elements at +96 with an open gate sum to 384; capped at +48 the gain is 4. -/
theorem test_contribution_capped :
    stepSum [.steps 96, .steps 96, .steps 96, .steps 96, .steps 0] = some 384
      ∧ contribution 5#24 [.steps 96, .steps 96, .steps 96, .steps 96, .steps 0] 48 = 20 := by decide

/-- R39: silence is OFF or a sum below −480. -/
theorem test_contribution_silent :
    contribution 8388607#24 [.off, .steps 96] 48 = 0
      ∧ contribution 8388607#24 [.steps (-480), .steps (-1)] 48 = 0 := by decide

/-- R149: 23:59:59.999 of day 6 is followed by day 0, 00:00:00.000. -/
theorem test_week_wraps :
    TimeOfDay.next { day := 6, hours := 23, minutes := 59, seconds := 59, ms := 999 }
      = { day := 0, hours := 0, minutes := 0, seconds := 0, ms := 0 } := by decide

/-- R191: trigger code 7 is unsound; a run may end at 8192 and not past it. -/
theorem test_cue_bounds :
    cueOfWords 0xE0000001#32 0#32 0#32 0#32 = .unsound
      ∧ cueOfWords 0x1FFF0001#32 0x00100000#32 0#32 0#32
        = .sound { number := 1, trigger := .go, wait := 0, upTime := 0, downTime := 0,
                   first := 8191, count := 1 }
      ∧ cueOfWords 0x1FFF0001#32 0x00200000#32 0#32 0#32 = .unsound := by decide

/-- R191: a CUT of MASTER 3 to −72 with an own up time of 1000 ms. -/
theorem test_move_word :
    moveOfWords 0x04800000#32 0xFFB80003#32 0x800003E8#32 0#32
      = some { delay := 0, content := .level (.master 3) (.steps (-72)) .cut, ownUp := some 1000,
               ownDown := none } := by decide

/-- R191: a level field of −32768 is OFF, and one above +96 is +96. -/
theorem test_level_field : levelOfField 0x8000#16 = .off ∧ levelOfField 97#16 = .steps 96
    ∧ levelOfField 0xFE1F#16 = .steps (-480) := by decide

/-! ## Single steps -/

def outcome (o : Host.Outcome State Fault Refusal) (p : State → Bool) : Bool :=
  match o with
  | .next t => p t
  | _ => false

/-- R190: after start-up RESTARTED stands as the only cause in NOTICE, and the slot states read EMPTY. -/
theorem test_start_up :
    outcome (exec (.startUp .mib1) State.reset) (fun t =>
      noticeRegister t == 0x40#32 && noticeLineLow t && Memory.readWord t.mem 0x5C0 == 0#32) = true := by
  decide +kernel

/-- R187: a write of 1 to RESTARTED releases the line. -/
theorem test_notice_write :
    outcome (exec (.noticeWrite 0x40#32) { idle with notice := { idle.notice with restarted := true } })
      (fun t => noticeRegister t == 0#32 && !noticeLineLow t) = true := by decide +kernel

/-- R177, R191: a write past 1 MiB is OUT_OF_RANGE, a write, with no further faults. -/
theorem test_out_of_range :
    outcome (exec (.hostWrite 0x100004#22 0#32) idle) (fun t =>
      readRegister t 0x10 == 0x100004#32 && readRegister t 0x14 == 0x107#32 && t.port.result.err) = true := by
  decide +kernel

/-- R180: a post of an EMPTY slot joins the arrival queue; a second is refused SLATE_STATE. -/
theorem test_slot_post :
    outcome (exec (.slotPost 3) idle) (fun t =>
      t.slate.arrival == [3] && t.port.view[3] == .posted && t.port.waiting == some (.write 0x2C0 1#32)) = true
    ∧ outcome (exec (.slotPost 3) { idle with port := { idle.port with view := idle.port.view.set 3 .posted } })
        (fun t => t.port.faultCause == .slateState) = true := by decide +kernel

/-- R4: the second absent millisecond falls back and latches CLOCK. -/
theorem test_fallback :
    outcome (exec .wclkFallback { on with
      header := { on.header with source := .wclk }, clock := { on.clock with inUse := .wclk, absentRun := 2 } })
      (fun t => t.clock.inUse == .internal && t.notice.clock) = true := by decide +kernel

/-- R90: a line GO with the standby a cue asks for its firing; with none it is captured. -/
theorem test_line_go :
    outcome (exec .lineGo (withSeq { on.seq with goEdges := 1, standby := some (standby .go) }))
      (fun t => t.seq.firing == some { cause := .lineGo, view := none } && t.arb.reads == [.firing]) = true
    ∧ outcome (exec .lineGo (withSeq { on.seq with goEdges := 1 }))
        (fun t => t.cells[0].state == .filling && t.seq.goEdges == 0) = true := by decide +kernel

/-- R13, R16, R17: the confirm timer's expiry is a loss, which closes the gate and latches INPUT. -/
theorem test_confirm_expiry :
    outcome (exec (.confirmExpiry 0) (withChannel { used with state := .suspect, timer := some 0 }))
      (fun t => t.channels[0].state == .lost && t.notice.input && t.cells[6].state == .filling
        && t.channels[0].gate.value == .off) = true := by decide +kernel

/-- R139: a stability window's end with a sample window of 3 checks for 30 ms. -/
theorem test_checking :
    outcome (exec (.stabilityWindowExpiry 0) (withZone { Zone.reset with
      state := .powering, timer := some 0, cfg := { Zone.reset.cfg with sample := 3 } }))
      (fun t => t.zones[0].state == .checking && t.zones[0].timer == some 30) = true := by decide +kernel

/-- R115, R114: a SET_LEVEL of no time sets the element at once. -/
theorem test_set_level :
    outcome (exec (.setLevel { kind := some .group, index := 2 } 0xFFB8#16 0 (some .steps)) on)
      (fun t => t.level (.group 2) == .steps (-72) && t.fades[0] == none) = true := by decide +kernel

/-- R186: a LOCK of SOFT under HARD is refused LOCKED and the level stays. -/
theorem test_lock :
    outcome (exec (.lock 1) { idle with lock := .hard }) (fun t =>
      t.lock == .hard && (t.slate.lastAnswer.map (·.code)) == some .locked) = true := by decide +kernel

/-- R2: one period of 20.833 microseconds, that of 48 000 Hz, makes WCLK present; periods below 19.5 and
above 22.2 do not. -/
theorem test_wclk_present :
    outcome (exec (.wclkPresenceJudgement [23000, 20833]) idle) (fun t => t.clock.present) = true
    ∧ outcome (exec (.wclkPresenceJudgement [19000, 22222]) idle) (fun t => !t.clock.present) = true := by
  decide +kernel

/-- R189: a port reset empties a POSTED slot in the port's view at once and leaves its state word to a turn
of the port; an access that arrives meanwhile waits. -/
theorem test_port_reset_writes :
    outcome (exec .portReset { idle with port := { idle.port with view := idle.port.view.set 3 .posted } })
      (fun t => t.port.view[3] == .empty && t.port.clears == [3] && t.arb.busy.isNone) = true
    ∧ outcome (exec (.hostRead (.memory 0x800#22)) { idle with port := { idle.port with clears := [3] } })
        (fun t => t.port.held == some (.read 0x800) && t.port.waiting.isNone) = true := by decide +kernel

/-- R175: with RSTL low for a millisecond a read of either window ends with ERR; else the register window's gives
the register, here RESTARTED in NOTICE. -/
theorem test_register_read :
    let s := { idle with notice := { idle.notice with restarted := true } }
    outcome (exec (.hostRead (.register 0x08#22)) s) (fun t =>
      t.port.result == { err := false, data := 0x40#32 }) = true
    ∧ outcome (exec (.hostRead (.register 0x08#22)) { s with rstl := .low1ms }) (fun t => t.port.result.err) = true
    ∧ outcome (exec (.hostRead (.memory 0x800#22)) { s with rstl := .low1ms })
        (fun t => t.port.result.err && t.port.waiting.isNone) = true := by decide +kernel

/-- R1: a tick in a frame that is not the 48th since the last does not move the time of day, and one in the
48th does. -/
theorem test_tick_in_turn :
    outcome (exec (.millisecondTick 0#4 0#24) { idle with clock := { idle.clock with sinceTick := 47 } })
      (fun t => t.tod.ms == 0 && t.clock.sinceTick == 47) = true
    ∧ outcome (exec (.millisecondTick 0#4 0#24) { idle with clock := { idle.clock with sinceTick := 48 } })
        (fun t => t.tod.ms == 1 && t.clock.sinceTick == 0) = true := by decide +kernel


/-! ## Hypotheses met: the queue, the ports, the numbers

One theorem for each statement with hypotheses, its clauses in the statement's order. -/

theorem outcome_next {o : Host.Outcome State Fault Refusal} {p : State → Bool}
    (h : outcome o p = true) : ∃ t, o = .next t ∧ p t = true := by
  cases o <;> simp_all [outcome]

theorem meets_StepRunsTheCommandInFront : State.reset.pending = [] := rfl

theorem meets_CommandsKeepQueueAndMemory :
    (∃ t, exec (.slotPost 3) idle = .next t ∧ true = true) ∧ Instr.writesMemory (.slotPost 3) = false :=
  ⟨outcome_next (p := fun _ => true) (by decide +kernel), rfl⟩

theorem meets_EveryStepKeepsTheInvariant :
    State.Inv { on with pending := [.slotPost 0] }
      ∧ ∃ t, step { on with pending := [.slotPost 0] } = .next t ∧ true = true :=
  ⟨by decide +kernel, outcome_next (p := fun _ => true) (by decide +kernel)⟩

/-- A voice whose burst begins at the last word of 1 MiB, and one a word past it. -/
def fetching (start : Nat) : Voice :=
  { Voice.reset with
    state := .priming, outstanding := some { first := 0, size := 1 }
    sound := { Voice.reset.sound with start := start, count := 300 } }

theorem meets_OnlyAStrayFetchStopsTheModel :
    (withVoice (fetching 0xFFFFC)).FetchesInside ∧ fetchInside (withVoice (fetching 0x100000)) 0 = false
      ∧ exec .memoryGrant (withVoice (fetching 0x100000)) = .fault .outsideMemory := by
  refine ⟨by decide +kernel, by decide +kernel, by rfl⟩

/-- A record of the running cue with this content, its delay run out. -/
def cueRec (c : Content) : FadeRec :=
  { levelRec (.firing { number := 7, serial := 3 }) (.master 39) with content := c, runIndex := some 63 }

theorem only_record (r : FadeRec) (i : RecId) (f : FadeRec) (h : (withFade r).fades[i] = some f) :
    i = 0 ∧ f = r := by
  by_cases hi : i = 0
  · subst hi; exact ⟨rfl, (Option.some.inj h).symm⟩
  · have none_on : ∀ j : RecId, on.fades[j] = none := by decide +kernel
    have : (withFade r).fades[i] = none := by
      have hne : 0 ≠ i.val := fun e => hi (Fin.ext e.symm)
      exact (Vector.getElem_set_ne (by decide) i.isLt hne).trans (none_on i)
    rw [this] at h; cases h

/-- One role carries channel 63, one running cue has one record, zone 0 carries page 3, slot 15 is POSTED. -/
def lawful : State :=
  { on with
    pending := [.slotTake]
    fades := on.fades.set 0 (some (cueRec (.relay 0 true)))
    seq := { on.seq with
      standby := some (standby .go)
      running := [{ id := { number := 7, serial := 3 }, fireTime := .zero, pending := 1, crushed := 0,
                    failed := 0, forced := false, placing := false }] }
    roles := on.roles.set 95 { Role.reset with
      cfg := { Role.reset.cfg with taps := #v[some 0, none, none, some 63] }
      taps := #v[.idle, .idle, .idle, .active] }
    pages := on.pages.set 3 (some
      { state := .opened, opener := .request, source := .channel 0, priority := 0, level := .off,
        zones := 1#24, opened := .zero, limit := some 0 })
    zones := on.zones.set 0 { Zone.reset with page := some 3 }
    slate := { on.slate with arrival := [15] }
    port := { on.port with view := on.port.view.set 15 .posted } }

theorem meets_ResetMeetsTheInvariant :
    lawful.Quiet ∧ lawful.ManualLaws ∧ lawful.Provided ∧ ∃ t, step lawful = .next t ∧ true = true := by
  have only : ∀ (i : RecId) f, lawful.fades[i] = some f → i = 0 ∧ f = cueRec (.relay 0 true) :=
    fun i f h => only_record _ i f h
  refine ⟨by decide +kernel, ⟨⟨?_, ?_⟩, ?_, ⟨by decide +kernel, by decide +kernel, by decide +kernel, ?_⟩,
    ⟨?_, ?_⟩, by decide +kernel⟩, ⟨?_, by decide +kernel, ?_⟩,
    outcome_next (p := fun _ => true) (by decide +kernel)⟩
  · have one : ∀ (r : RoleId) (c : Channel), Role.carries lawful.roles[r] c = true → r = 95 := by
      decide +kernel
    intro r q c hr hq; rw [one r c hr, one q c hq]
  · intro i f hf ho; obtain ⟨-, rfl⟩ := only i f hf; cases ho
  · intro i j f g e hf hg h; obtain ⟨-, rfl⟩ := only i f hf; cases h
  · intro i f id hf ho
    obtain ⟨rfl, rfl⟩ := only i f hf
    cases ho
    exact ⟨by decide +kernel, 63, by decide, rfl, fun j g hg _ _ => (only j g hg).1⟩
  · have h : ∀ (z : ZoneId) (p : PageId), lawful.zones[z].page = some p
        ↔ lawful.pages[p].any (fun g => g.zones.getLsbD z) = true := by decide +kernel
    intro z p; rw [h z p, Option.any_eq_true]
  · have h : ∀ p : PageId, lawful.pages[p].all (fun g => g.zones ≠ 0#24) = true := by decide +kernel
    intro p g hg; have := h p; rw [hg] at this; simpa using this
  · intro i st h; cases h
  · intro job h; cases h

theorem meets_ResetsHoldThePart :
    (State.reset.phase = .fullReset ∧ Instr.side (.sampleFrame false 0#4) = .part)
      ∧ (∀ c : Instr, c = .hostRead (.memory 0x3FFFFC#22) ∨ c = .hostRead (.register 0x3FFFFC#22)
          ∨ c = .fullReset → c.hostAccess = true)
      ∧ (portBusy State.reset = false ∧ portBlocked State.reset = true)
      ∧ portBlocked { on with rstl := .low1ms } = true := by
  refine ⟨⟨rfl, rfl⟩, ?_, ⟨rfl, rfl⟩, rfl⟩
  rintro c (rfl | rfl | rfl) <;> rfl

theorem meets_WrittenWordReadsBack : (3 : Nat) < 4 ∧ ((7 : Nat) < 8 ∨ 8 + 4 ≤ 7) ∧ ((12 : Nat) < 8 ∨ 8 + 4 ≤ 12) := by
  decide

theorem meets_ContributionIsRoundedAndBounded :
    ((-480 : Int) ≤ -480 ∧ (-480 : Int) ≤ 48 ∧ (-480 : Int) < 0)
      ∧ ((-480 : Int) ≤ 48 ∧ (48 : Int) ≤ 48) ∧ ((0 : Int) = 0)
      ∧ (23 : Nat) < 24 ∧ (524287#24 : Sample).toInt.natAbs < 524288 := by decide

theorem meets_FadeKeepsToItsLine :
    ((1999 : Nat) ≤ 2000 ∧ (1999 : Nat) < 2000) ∧ (2000 : Nat) ≤ 2000 ∧ ((0 : Nat) ≤ 2000 ∧ 0 < 2000)
      ∧ ((-480 : Int) ≤ 96) ∧ (27 : Nat) ≤ 27 ∧ ((1973 : Nat) ≤ 1973 ∧ 1973 < 2000) := by decide

def ramping : Gate := { value := .steps 0, ramp := some { start := 0, target := -480, elapsed := 48, frames := 48 } }

/-- The first clause, and with it the one for T = 0, at a gate at rest and at one turned round while it ramps. -/
theorem meets_GateRunsItsRampAndRests :
    ((0 < 48) ∧ (∀ r, Gate.opened.ramp = some r → r.target ≠ -480)
        ∧ Gate.opened.ramp = none ∧ Gate.opened.value ≠ restValue (-480) ∧ (0 : Nat) < 48)
      ∧ (∀ r, ramping.ramp = some r → r.target ≠ 0)
      ∧ (Gate.opened.ramp = none ∧ Gate.opened.value = restValue 0)
      ∧ (∃ r, ramping.ramp = some r ∧ r.target = -480)
      ∧ (let s := withZone { Zone.reset with duck := ramping }
         s.Runs ∧ s.Quiet ∧ (gateOf s (.duck 0)).endDue = true) := by
  refine ⟨⟨by decide, ?_, rfl, by decide, by decide⟩, ?_, ⟨rfl, rfl⟩, ⟨_, rfl, rfl⟩, by decide +kernel⟩
  · intro r h; simp [Gate.opened] at h
  · intro r h; simp [ramping] at h; subst h; decide

theorem meets_TimeOfDayCarries :
    TimeOfDay.Valid { day := 6, hours := 23, minutes := 59, seconds := 59, ms := 999 } := by decide

theorem meets_NoticeShowsItsCausesAndWritesAct : idle.PortFree := by decide +kernel

/-- The register clause also with a write of a port reset still to do; the port held off in each of its ways. -/
theorem meets_HostReadIsAdmittedOrRefused :
    (idle.PortFree ∧ { idle with port := { idle.port with clears := [15] } : State }.PortFree)
      ∧ (portBusy State.reset = false ∧ State.reset.phase = .fullReset)
      ∧ (∀ r, portBusy { idle with rstl := r } = false ∧ { idle with rstl := r : State }.rstl = r)
      ∧ idle.WindowFree ∧ wordAddr 0x0FFFFC#22 < idle.memSize ∧ idle.memSize ≤ wordAddr 0x100000#22 := by
  refine ⟨by decide +kernel, ⟨rfl, rfl⟩, fun _ => ⟨rfl, rfl⟩, by decide +kernel⟩

/-- The engine `e` and lock `l` over a mirror region of one mirror and a lockable region after it. -/
def mapped (e : EngineState) (l : LockLevel) : State :=
  { idle with
    engine := e, lock := l
    regions := (idle.regions.set 0 { base := 0x8000, length := 0x4000, kind := .mirror }).set 1
      { base := 0xC000, length := 0x100, kind := .lockable } }

def heldAt (s : State) (A : Nat) : Prop :=
  A < 0x200 ∨ 0x780 ≤ A ∧ ¬ inRegion s .mirror A = true ∧ inRegion s .lockable A = true

theorem meets_HostWriteIsJudgedByItsAddress :
    idle.WindowFree ∧ idle.memSize ≤ wordAddr 0x100000#22
      ∧ (∀ A, A = 0x8000 ∨ A = 0xBFFC → A < idle.memSize ∧ 0x780 ≤ A
          ∧ inRegion (mapped .loaded .off) .mirror A = true)
      ∧ (∀ e l, (e, l) = (.loading, .off) ∨ (e, l) = (.loaded, .soft) ∨ (e, l) = (.stopped, .off) →
          heldAt (mapped e l) 0x1FC ∧ heldAt (mapped e l) 0xC000 ∧ heldAt (mapped e l) 0xC0FC)
      ∧ (∀ A, A = 0x780 ∨ A = 0x7FFC ∨ A = 0xC100 → 0x780 ≤ A
          ∧ ¬ inRegion (mapped .loaded .hard) .mirror A = true
          ∧ ¬ inRegion (mapped .loaded .hard) .lockable A = true) := by
  refine ⟨by decide +kernel, by decide +kernel, ?_, ?_, ?_⟩
  · rintro A (rfl | rfl) <;> decide +kernel
  · intro e l h
    simp only [Prod.mk.injEq] at h
    obtain ⟨rfl, rfl⟩ | ⟨rfl, rfl⟩ | ⟨rfl, rfl⟩ := h <;>
      exact ⟨.inl (by decide), .inr (by decide +kernel), .inr (by decide +kernel)⟩
  · rintro A (rfl | rfl | rfl) <;> decide +kernel

def viewing (st : SlotState) : State :=
  { idle with port := { idle.port with view := idle.port.view.set 15 st } }

theorem meets_SlotWritesGoByThePortsView :
    (∀ st, (viewing st).WindowFree ∧ slotBase 15 < (viewing st).memSize ∧ (viewing st).port.view[15] = st)
      ∧ (wordAddr 0x5C0#22 = slotBase 15 ∧ (2#32 : Word) ≠ 0#32 ∧ (2#32 : Word) ≠ 1#32)
      ∧ (∀ a, a = 0x5C4#22 ∨ a = 0x5FC#22 → slotBase 15 < wordAddr a ∧ wordAddr a < slotBase 15 + 64
          ∧ wordAddr a < idle.memSize) := by
  refine ⟨?_, by decide, ?_⟩
  · intro st; cases st <;> decide +kernel
  · rintro a (rfl | rfl) <;> decide +kernel

theorem meets_CellReturnEmptiesAFullCell :
    (let s := { idle with cells := idle.cells.set 11 { state := .full, missed := 3 } }
     s.WindowFree ∧ cellBase 11 + 4 * (7 : Fin 8).val < s.memSize ∧ s.cells[(11 : CellId)].state = .full)
      ∧ ¬ ((7 : Fin 8) = 0 ∧ (0#32 : Word) = 0#32 ∧ idle.cells[(11 : CellId)].state = .full) := by
  decide +kernel

theorem meets_RefusedAccessActsOnTheFaultRecord :
    (judgeWrite (mapped .loaded .hard) 0x100 7#32 = .error .locked
        ∧ (mapped .loaded .hard).notice.fault = false)
      ∧ { idle with notice := { idle.notice with fault := true } : State }.notice.fault = true
      ∧ (idle.PortFree ∧ (0x10#32 : Word).getLsbD 4 = true
          ∧ ∃ t, exec (.noticeWrite 0x10#32) idle = .next t ∧ true = true)
      ∧ (Instr.hostAccess (.hostWrite 0#22 0#32) = true ∧ portBlocked State.reset = true
          ∧ ∃ t, exec (.hostWrite 0#22 0#32) State.reset = .next t ∧ true = true) :=
  ⟨by decide +kernel, rfl, ⟨by decide +kernel, rfl, outcome_next (p := fun _ => true) (by decide +kernel)⟩,
    rfl, rfl, outcome_next (p := fun _ => true) (by decide +kernel)⟩

theorem meets_CaptureTakesAnEventByItsCell :
    idle.cells[(0 : CellId)].state = .empty
      ∧ (∀ n, n = 254 ∨ n = 255 →
          { idle with cells := idle.cells.set 0 { state := .full, missed := n } : State }.cells[(0 : CellId)].state
            ≠ .empty) := by
  refine ⟨by decide +kernel, ?_⟩
  rintro n (rfl | rfl) <;> decide +kernel

/-! ## Hypotheses met: the arbiter, the queue, the slate -/

def waiting (a : HostAccess) (n : Nat) (s : State) : State :=
  { s with port := { s.port with waiting := some a }, arb := { s.arb with hostWait := n } }

def firingAsked : State :=
  { on with
    seq := { on.seq with firing := some { cause := .lineGo, view := none }, standby := some (standby .go) }
    arb := { on.arb with reads := [.firing] } }

def slotAsked : State :=
  { on with
    slate := { on.slate with current := some { slot := 15, phase := .reading } }
    arb := { on.arb with reads := [.slot 15] } }

def queued (b : Burst) : State :=
  { on with wq := { on.wq with queue := [b] }, arb := { on.arb with busy := some .write } }

/-- The writes of a port reset to these slots still wait, and with them this access. -/
def clearing (l : List SlotId) (h : Option HostAccess) : State :=
  { on with port := { on.port with clears := l, held := h } }

/-- An urgent fetch whose burst ends at the end of memory; the same voice, its buffer at 128 frames, with
the host passed over once; the writes of a port reset, the last with an access held by it; a host passed
over twice; the reads; the write queue. -/
theorem meets_MemoryGrantServesTheFirstUser :
    (let s := withVoice (fetching 0xFFFFC)
     s.Runs ∧ s.Quiet ∧ s.arb.busy = none ∧ s.voices[(0 : VoiceId)].outstanding = some { first := 0, size := 1 }
       ∧ s.FetchWaits 0 true ∧ 0xFFFFC + 4 * 1 ≤ s.memSize)
      ∧ (let s := waiting (.read 0) 1
           (withVoice { fetching 0xFFFFC with buffer := List.replicate 128 0#24 })
         s.FetchWaits 0 false ∧ (∀ v, ¬ s.FetchWaits v true) ∧ s.arb.hostWait < 2)
      ∧ (∀ h, h = none ∨ h = some (.read 0) →
          ((clearing [14, 15] none).port.clears = [14, 15] ∧ (clearing [15] h).port.clears = [15]
            ∧ (clearing [15] h).port.held = h ∧ (∀ v u, ¬ (clearing [15] h).FetchWaits v u)
            ∧ (clearing [15] h).arb.reads = []))
      ∧ (let s := waiting (.write 0xFFFFC 5#32) 2
           (withVoice { fetching 0xFFFFC with buffer := List.replicate 128 0#24 })
         s.port.clears = [] ∧ s.port.waiting = some (.write 0xFFFFC 5#32)
           ∧ (∀ v, ¬ s.FetchWaits v true) ∧ 2 ≤ s.arb.hostWait)
      ∧ (let s := waiting (.read 0xFFFFC) 0 on
         s.port.clears = [] ∧ (∀ v, ¬ s.FetchWaits v true) ∧ (∀ v, ¬ s.FetchWaits v false)
           ∧ s.arb.reads = [])
      ∧ (firingAsked.arb.reads = [.firing] ∧ (∀ v, ¬ firingAsked.FetchWaits v false)
          ∧ firingAsked.port.waiting = none ∧ firingAsked.port.clears = [])
      ∧ { on with arb := { on.arb with reads := [.record] } : State }.arb.reads = [.record]
      ∧ (slotAsked.arb.reads = [.slot 15] ∧ (∀ v, ¬ slotAsked.FetchWaits v true)
          ∧ slotAsked.slate.current = some { slot := 15, phase := .reading })
      ∧ (let s := { on with wq := { on.wq with queue := [.cellFull 3] } }
         s.wq.queue ≠ [] ∧ s.arb.busy = none ∧ s.arb.reads = [] ∧ s.port.waiting = none
           ∧ s.port.clears = []) := by
  refine ⟨by decide +kernel, by decide +kernel, ?_, by decide +kernel⟩
  rintro h (rfl | rfl) <;> decide +kernel

def arriving (stale : Bool) (n : Nat) : State :=
  { withVoice { fetching 0x8000 with owner := .request, buffer := List.replicate n 0#24 } with
    arb := { on.arb with busy := some (.fetch 0 0x8000 64 stale) } }

/-- Voice 0 of this owner in this state, its resume state PRIMING, its buffer at 192 frames, its start pending or not. -/
def primingFor (o : VoiceOwner) (st : VoiceState) (p : Bool) : State :=
  { arriving false 192 with voices := on.voices.set 0 { fetching 0x8000 with
      owner := o, state := st, resume := .priming, startPending := p, buffer := List.replicate 192 0#24 } }

/-- The ends of priming at a voice of a request, and at a call's with its start pending and not, each PRIMING and
STOPPING; at all 256 frames of a sound of 256, 192 of them already buffered; and one frame short of 256. The last
clause at a voice whose next burst ends at the run's last frame, and at one with none to
fetch. -/
theorem meets_ArrivedBurstFillsItsVoice :
    (∀ st, (arriving st 192).Runs ∧ (arriving st 192).Quiet
        ∧ (arriving st 192).arb.busy = some (.fetch 0 0x8000 64 st))
      ∧ (arriving false 192).voices[(0 : VoiceId)].state = .priming
      ∧ (arriving false 192).voices[(0 : VoiceId)].owner = .request
      ∧ 256 ≤ (arriving false 192).voices[(0 : VoiceId)].buffer.length + 64
      ∧ (∀ o st p, (primingFor o st p).Runs ∧ (primingFor o st p).Quiet
          ∧ (primingFor o st p).arb.busy = some (.fetch 0 0x8000 64 false)
          ∧ (primingFor o st p).voices[(0 : VoiceId)].state = st
          ∧ (primingFor o st p).voices[(0 : VoiceId)].resume = .priming
          ∧ (primingFor o st p).voices[(0 : VoiceId)].owner = o
          ∧ (primingFor o st p).voices[(0 : VoiceId)].startPending = p)
      ∧ (let x := { fetching 0x8000 with sound := { (fetching 0x8000).sound with count := 256 } }
         x.sound.looping = false ∧ x.sound.count ≤ x.playPos + (192 + 64))
      ∧ ¬ (256 ≤ (arriving false 191).voices[(0 : VoiceId)].buffer.length + 64
          ∨ (arriving false 191).voices[(0 : VoiceId)].sound.count
            ≤ (arriving false 191).voices[(0 : VoiceId)].playPos + (191 + 64))
      ∧ (let x := { fetching 0x8000 with outstanding := none, fetchPos := 299 }
         (x.state ≠ .idle ∧ x.outstanding = none ∧ x.buffer.length + 64 ≤ 512 ∧ x.fetchPos < x.sound.count)
           ∧ x.sound.looping = false ∧ (x.sound.start + 4 * x.fetchPos) % 4 = 0)
      ∧ ¬ (300 < ({ fetching 0x8000 with fetchPos := 300 } : Voice).sound.count) := by
  refine ⟨by decide +kernel, by decide +kernel, by decide +kernel, by decide +kernel,
    fun _ _ _ => ⟨rfl, ⟨rfl, rfl⟩, rfl, rfl, rfl, rfl, rfl⟩, ?_⟩
  decide +kernel

/-- A write queue of this many bursts, its writers holding these. -/
def queueOf (n : Nat) (slate capture : List Burst) (turn : Writer) : WriteQueue :=
  { queue := List.replicate n (.cellFull 3), heldSlate := slate, heldCapture := capture, next := turn
    began := false }

/-- Nothing held; one writer holding, at either turn; both, at either turn; a burst that finds 47 and 48
queued. -/
theorem meets_WrittenBurstLeavesTheQueue :
    (∀ b, (queued b).Runs ∧ (queued b).Quiet ∧ (queued b).arb.busy = some .write
        ∧ (queued b).wq.queue = [b] ∧ (queued b).wq.heldSlate = [] ∧ (queued b).wq.heldCapture = [])
      ∧ (∀ sl ca turn,
          let s := { queued (.cellFull 3) with wq := queueOf 48 sl ca turn }
          s.Runs ∧ s.Quiet ∧ s.arb.busy = some .write ∧ s.wq.heldSlate = sl ∧ s.wq.heldCapture = ca
            ∧ s.wq.next = turn ∧ s.wq.queue = .cellFull 3 :: List.replicate 47 (.cellFull 3))
      ∧ ((queueOf 47 [] [] .slate).queue.length < 48 ∧ 48 ≤ (queueOf 48 [] [] .slate).queue.length)
      ∧ (let s := { queued (.cellFull 3) with cells := on.cells.set 3 { state := .filling, missed := 0 } }
         s.cells[(3 : CellId)].state = .filling)
      ∧ ((∀ i st, Burst.cellFull 3 = .slotState i st → st ≠ .done ∧ st ≠ .refused)
          ∧ (queued (.cellFull 3)).cells[(3 : CellId)].state ≠ .filling) := by
  refine ⟨fun b => ⟨rfl, ⟨rfl, rfl⟩, rfl, rfl, rfl, rfl⟩,
    fun _ _ _ => ⟨rfl, ⟨rfl, rfl⟩, rfl, rfl, rfl, rfl, rfl⟩, by decide, by decide +kernel, ?_,
    by decide +kernel⟩
  intro i st h; cases h

theorem meets_HeadSlotIsTaken :
    let s := { on with slate := { on.slate with arrival := [15, 0] } }
    s.Runs ∧ s.Quiet ∧ s.slate.current = none ∧ s.slate.arrival = [15, 0] ∧ slotlessBusy s = false := by
  decide +kernel

/-- A slot read with this kind word and arguments of 1. -/
def ready (k : Word) (s : State) : State :=
  { s with slate := { s.slate with
      current := some { slot := 15, phase := .ready k (Vector.replicate 8 1#32) } } }

theorem meets_DispatchRefusesOrHandsOver :
    (∀ k, (ready k idle).Runs ∧ (ready k idle).Quiet
        ∧ (ready k idle).slate.current
          = some { slot := 15, phase := .ready k (Vector.replicate 8 1#32) })
      ∧ Request.ofWords 0#32 (Vector.replicate 8 1#32) = none
      ∧ Request.ofWords 21#32 (Vector.replicate 8 1#32) = none
      ∧ (0#32 : Word).toNat = 0 ∧ 20 < (21#32 : Word).toNat ∧ 20#32 = wordOf (19 + 1)
      ∧ (Request.ofWords 1#32 (Vector.replicate 8 1#32) = some .loadShow
          ∧ requestReady (ready 1#32 idle) .loadShow = true)
      ∧ (Request.ofWords 20#32 (Vector.replicate 8 1#32) = some (.captureNow 1#32 1#32)
          ∧ requestReady (ready 20#32 idle) (.captureNow 1#32 1#32) = true)
      ∧ (Request.ofWords 2#32 (Vector.replicate 8 1#32) = some .stopShow
          ∧ idle.engine = .stopped ∧ Request.takenStopped .stopShow = false) := by
  refine ⟨fun k => ⟨rfl, ⟨rfl, rfl⟩, rfl⟩, ?_⟩
  decide +kernel

theorem meets_AnswerQueuesResultThenState :
    (ready 1#32 on).slate.current
      = some { slot := 15, phase := .ready 1#32 (Vector.replicate 8 1#32) } := rfl

/-! ## Hypotheses met: loading and the requests -/

/-- A request row acts without a slot, and by a slot that spells it; the five are taken while STOPPED. -/
theorem meets_takes_without_slot :
    on.Takes .stopShow ∧ on.Takes .go ∧ on.Takes (.goTo 65535) ∧ on.Takes .pause ∧ on.Takes .resume
      ∧ on.Takes .completeAll ∧ on.Takes (.swapTap 95 3 0) ∧ on.Takes (.voiceStart 15 1023 0#16 true)
      ∧ on.Takes (.voiceStop 15 0) ∧ on.Takes (.relay 7 (some true)) ∧ on.Takes (.clearZoneFault 7)
      ∧ on.Takes (.pageClose 3) ∧ on.Takes (.callNow 15) ∧ idle.Takes .loadShow
      ∧ idle.Takes (.setTime 6 23 59 59) ∧ idle.Takes (.lock 2) ∧ idle.Takes .unlock
      ∧ idle.Takes (.captureNow 1#32 2#32) := by
  refine ⟨?_, ?_, ?_, ?_, ?_, ?_, ?_, ?_, ?_, ?_, ?_, ?_, ?_, ?_, ?_, ?_, ?_, ?_⟩ <;> decide +kernel

theorem meets_takes_by_slot :
    (ready 3#32 on).Takes .go ∧ (ready 1#32 idle).Takes .loadShow ∧ (ready 4#32 on).Takes (.goTo 1)
      ∧ (ready 16#32 on).Takes (.callNow 1) ∧ (ready 20#32 idle).Takes (.captureNow 1#32 1#32) := by
  decide +kernel

def running : RunEntry :=
  { id := { number := 7, serial := 3 }, fireTime := .zero, pending := 1, crushed := 0, failed := 0,
    forced := false, placing := false }

def aPage (prio : Fin 4) : Page :=
  { state := .opened, opener := .request, source := .channel 0, priority := prio, level := .off,
    zones := 1#24, opened := .zero, limit := some 0 }

def anInst (ph : CallPhase) : CallInst :=
  { phase := ph, patience := 0, page := none, started := .zero, byCallNow := false }

def withPage (p : Page) : State := { on with pages := on.pages.set 3 (some p) }

def withCall (c : Call) : State := { on with calls := on.calls.set 15 c }

theorem meets_LoadIsCheckedBegunOrRefused :
    ({ idle with lock := .hard }.Takes .loadShow ∧ { idle with lock := .hard }.lock ≠ .off)
      ∧ (let s := withSeq { on.seq with running := [running] }
         s.Takes .loadShow ∧ s.lock = .off ∧ s.engine = .loaded ∧ s.seq.running ≠ [])
      ∧ (let s := withVoice (fetching 0x8000)
         s.Takes .loadShow ∧ s.seq.running = [] ∧ ∃ v : VoiceId, s.voices[v].state ≠ .idle)
      ∧ (let s := withPage (aPage 0)
         s.Takes .loadShow ∧ (¬ ∃ v : VoiceId, s.voices[v].state ≠ .idle) ∧ ∃ p : PageId, s.pages[p] ≠ none)
      ∧ (let s := withCall { Call.reset with inst := some (anInst .waitVoice) }
         s.Takes .loadShow ∧ (¬ ∃ v : VoiceId, s.voices[v].state ≠ .idle)
           ∧ (¬ ∃ p : PageId, s.pages[p] ≠ none) ∧ ∃ c : CallId, s.calls[c].inst ≠ none)
      ∧ (idle.Takes .loadShow ∧ idle.lock = .off ∧ idle.engine = .stopped)
      ∧ (on.Takes .loadShow ∧ on.seq.running = [] ∧ (¬ ∃ v : VoiceId, on.voices[v].state ≠ .idle)
          ∧ (¬ ∃ p : PageId, on.pages[p] ≠ none) ∧ ¬ ∃ c : CallId, on.calls[c].inst ≠ none) := by
  refine ⟨?_, ?_, ?_, ?_, ?_, ?_, ?_⟩ <;> decide +kernel

def loading (job : LoadJob) : State := { idle with engine := .loading, load := some job }

theorem meets_LoadIsCheckedBegunOrRefused_end :
    let job : LoadJob :=
      { origin := .loaded, todo := [], fail := some (.move, 8191#32), staging := default }
    (loading job).Runs ∧ (loading job).Quiet ∧ (loading job).load = some job
      ∧ job.fail = some (.move, 8191#32) := ⟨rfl, ⟨rfl, rfl⟩, rfl, rfl⟩

/-- The last case is the load's first table turn, of the directory. -/
theorem meets_LoadIsCheckedBegunOrRefused_turn :
    let job : LoadJob := { origin := .loaded, todo := tableOrder, fail := none, staging := default }
    let s := { loading job with arb := { on.arb with reads := [.table .directory] } }
    s.Runs ∧ s.Quiet ∧ s.arb.busy = none ∧ nextUser s = some (.read (.table .directory))
      ∧ s.arb.reads = [.table .directory] ∧ s.load = some job := by
  intro job s
  have h : nextUser { idle with arb := { on.arb with reads := [.table .directory] } }
      = some (.read (.table .directory)) := by decide +kernel
  exact ⟨rfl, ⟨rfl, rfl⟩, rfl, h, rfl, rfl⟩

/-- A directory whose 13 bases are all this. -/
def shown (base : Nat) : Memory :=
  Memory.writeAll [] ((List.range 13).map fun i => (4 * i, BitVec.ofNat 32 base))

def region0 (b len kind : Nat) : Memory :=
  Memory.writeAll [] [(0, BitVec.ofNat 32 b), (4, BitVec.ofNat 32 len), (8, BitVec.ofNat 32 kind)]

def unusedRegions : Memory := Memory.writeAll [] ((List.range 8).map fun i => (12 * i + 8, 0#32))

/-- The checks whose record layouts are given: a base at 77Ch and bases all at 780h, the lowest that
pass; a region of kind 4, one that meets the slate, and none in use; a cue with trigger code 7; a move of kind 4; and no run
of sends, so that no send lies in two. -/
theorem meets_LoadIsCheckedBegunOrRefused_checks :
    (Memory.readWord (shown 0x77C) 0).toNat < 0x780
      ∧ (∀ i < 13, (Memory.readWord (shown 0x780) (4 * i)).toNat = 0x780)
      ∧ (Memory.readWord (region0 0x8000 4 4) 8).toNat = 4
      ∧ (let m := region0 0x77C 4 1
         (Memory.readWord m 8).toNat = 1 ∧ (Memory.readWord m 0).toNat < 0x780
           ∧ 0 < (Memory.readWord m 4).toNat)
      ∧ (∀ i < 8, (Memory.readWord unusedRegions (12 * i + 8)).toNat = 0)
      ∧ readCue (Memory.writeAll [] [(0, 0xE0000001#32), (4, 0#32), (8, 0#32), (12, 0#32)]) 0 0 = .unsound
      ∧ moveOfWords 0x00400000#32 0#32 0#32 0#32 = none
      ∧ (∀ j : MixId, (default : Show).mixes[j].count = 0) := by
  decide +kernel

/-- The good records at the ends of their ranges: a channel with ramp option 3; a role with taps 0 and 63, initially
tap 3, in group 15; a mix of each kind with hold ramp option 3; a send of mix 39 and source 111, and one of no mix; a
voice in group 15; a zone fed by mix 39 with ramp options 3, and one with no feed; a call of group 7 and voice 15. -/
theorem meets_LoadIsCheckedBegunOrRefused_records :
    ({ (default : RawChannel) with ramp := 3 }.ramp = (3 : Fin 4).val)
      ∧ (let taps : Vector (Option Channel) 4 := #v[some 0, none, none, some 63]
         let r : RawRole := { (default : RawRole) with
           taps := #v[some 0, none, none, some 63], initial := some 3, group := some 15 }
         (∀ k : TapId, r.taps[k] = (taps[k]).map (·.val)) ∧ r.initial = (some (3 : TapId)).map (·.val)
           ∧ r.group = (some (15 : GroupId)).map (·.val))
      ∧ (∀ kind : MixKind, { (default : RawMix) with kind := some kind, holdRamp := 3 }.kind = some kind
          ∧ { (default : RawMix) with kind := some kind, holdRamp := 3 }.holdRamp = (3 : Fin 4).val)
      ∧ (∀ mix ∈ [none, some (39 : MixId)],
          let r : RawSend := { (default : RawSend) with mix := mix.map (·.val), source := 111 }
          r.mix = mix.map (·.val) ∧ r.source = (111 : SourceId).val)
      ∧ ((15 : Nat) ≤ 15)
      ∧ (∀ mix ∈ [none, some (39 : MixId)],
          let r : RawZone := { (default : RawZone) with relayMix := mix.map (·.val), duckRamp := 3, holdRamp := 3 }
          r.relayMix = mix.map (·.val) ∧ r.duckRamp = (3 : Fin 4).val ∧ r.holdRamp = (3 : Fin 4).val)
      ∧ (let r : RawCall := { (default : RawCall) with maskLevel := some .everyWeek, group := 7, voice := 15 }
         r.maskLevel = some .everyWeek ∧ r.group = (7 : Fin 8).val ∧ r.voice = (15 : VoiceId).val) := by
  refine ⟨rfl, by decide, fun _ => ⟨rfl, rfl⟩, by decide, le_refl _, by decide, by decide⟩

/-- Every staged show that has passed, from STOPPED and from LOADED. -/
theorem meets_InstallReplacesTheShow :
    ∀ job : LoadJob, job.fail = none → job.todo = [] →
      (loading job).Runs ∧ (loading job).Quiet ∧ (loading job).load = some job
        ∧ (∀ p : PageId, (loading job).pages[p] = none) ∧ ∀ z : ZoneId, (loading job).zones[z].page = none := by
  intro job _ _
  have h : (∀ p : PageId, on.pages[p] = none) ∧ ∀ z : ZoneId, on.zones[z].page = none := by decide +kernel
  exact ⟨rfl, ⟨rfl, rfl⟩, rfl, h.1, h.2⟩

theorem meets_GoRequestFiresOrIsRefused :
    (let s := withSeq { on.seq with guard := some 0 }; s.Takes .go ∧ s.seq.guard = some 0)
      ∧ (let s := withSeq { on.seq with pause := true }
         s.Takes .go ∧ s.seq.guard = none ∧ s.seq.pause = true)
      ∧ (on.Takes .go ∧ on.seq.guard = none ∧ on.seq.pause = false ∧ on.seq.standby = none)
      ∧ (let s := withSeq { on.seq with standby := some (standby .go) }
         s.Takes .go ∧ s.seq.guard = none ∧ s.seq.pause = false ∧ s.seq.standby ≠ none) := by
  decide +kernel

/-! A cue list: its first record is cue 5, or every record is unused. -/

def cueFive : State :=
  { on with
    mem := Memory.writeAll []
      [(0x8000, 0x00000005#32), (0x8004, 0#32), (0x8008, 0#32), (0x800C, 0#32)]
    tables := { on.tables with cueList := 0x8000 } }

def zerosFrom (a : Nat) : Nat → Memory
  | 0 => []
  | n + 1 => (a, 0#8) :: zerosFrom (a + 1) n

theorem get?_zerosFrom (n a b : Nat) (h : a ≤ b) (h' : b < a + n) :
    Memory.get? (zerosFrom a n) b = some 0#8 := by
  induction n generalizing a with
  | zero => omega
  | succ n ih =>
    simp only [zerosFrom, Memory.get?]
    split
    · rfl
    · exact ih (a + 1) (by omega) (by omega)

theorem readWord_zerosFrom (n b : Nat) (h : b + 3 < n) :
    Memory.readWord (zerosFrom 0 n) b = 0#32 := by
  simp [Memory.readWord, Memory.readByte, get?_zerosFrom n 0 _ (Nat.zero_le _) (show b + 3 < 0 + n by omega),
    get?_zerosFrom n 0 _ (Nat.zero_le _) (show b + 2 < 0 + n by omega),
    get?_zerosFrom n 0 _ (Nat.zero_le _) (show b + 1 < 0 + n by omega),
    get?_zerosFrom n 0 _ (Nat.zero_le _) (show b < 0 + n by omega)]

theorem cueNumbered_zeros (n : Nat) : cueNumbered (zerosFrom 0 8192) 0 n = none := by
  unfold cueNumbered findCue
  rw [List.findSome?_eq_none_iff]
  intro i hi
  have hi : i < 512 := List.mem_range.mp hi
  have : readCue (zerosFrom 0 8192) 0 i = .unused := by
    simp only [readCue]
    rw [readWord_zerosFrom _ _ (by omega)]
    rfl
  rw [this]; rfl

theorem meets_GoToSetsTheStandby :
    (on.Takes (.goTo 0) ∧ on.Takes (.goTo 65536))
      ∧ ({ on with mem := zerosFrom 0 8192 : State }.Takes (.goTo 65535)
          ∧ cueNumbered (zerosFrom 0 8192) on.tables.cueList 65535 = none)
      ∧ (cueFive.Takes (.goTo 5) ∧ cueNumbered cueFive.mem cueFive.tables.cueList 5
          = some (0, { number := 5, trigger := .go, wait := 0, upTime := 0, downTime := 0, first := 0,
                       count := 0 })) :=
  ⟨by decide +kernel, ⟨⟨rfl, ⟨rfl, rfl⟩, rfl, .inl (by decide)⟩, cueNumbered_zeros _⟩,
    by decide +kernel, by decide +kernel⟩

/-- The words of a cue record, at the last number of every field that passes, and one past each. -/
theorem meets_GoToSetsTheStandby_record :
    (let w := 0xDFC0FFFF#32; let v := 0x04000000#32
     w.toNat % 65536 ≠ 0 ∧ w.toNat / 2 ^ 29 ≤ 6 ∧ v.toNat / 2 ^ 20 % 2 ^ 7 ≤ 64
       ∧ w.toNat / 2 ^ 16 % 2 ^ 13 + v.toNat / 2 ^ 20 % 2 ^ 7 = 8192)
      ∧ ¬ 0xE0000001#32 / 0x20000000#32 ≤ 6#32 ∧ ¬ (0x04100000#32).toNat / 2 ^ 20 % 2 ^ 7 ≤ 64
      ∧ ¬ (0x1FC1FFFF#32).toNat / 2 ^ 16 % 2 ^ 13 + 64 ≤ 8192 ∧ (0x00010000#32).toNat % 65536 = 0 := by
  decide

theorem meets_PauseAndResumeSetTheFlag :
    ∀ b, (withSeq { on.seq with pause := b }).Takes .pause
      ∧ (withSeq { on.seq with pause := b }).Takes .resume
      ∧ (withSeq { on.seq with pause := b }).seq.pause = b := by
  decide +kernel

/-- The running cue's one record, with this content. -/
def cueRunning (c : Content) : State :=
  { withFade (cueRec c) with seq := { on.seq with running := [running] } }

/-- The voice sounds with no call, page or waiting instance. -/
def sounding (s : State) : State := { s with voices := s.voices.set 0 (fetching 0x8000) }

/-- Any content, and then each kind's own premises: a fade of MASTER 39, a stop of an IDLE voice and of one
that sounds. -/
theorem meets_CompleteAllEmptiesTheRunningList :
    (on.Takes .completeAll ∧ on.seq.running = [])
      ∧ (∀ c, (cueRunning c).Takes .completeAll ∧ (cueRunning c).seq.running = [running]
          ∧ running.pending = 1 ∧ running.placing = false ∧ (cueRunning c).fades[(0 : RecId)] = some (cueRec c)
          ∧ (cueRec c).owner = .firing running.id ∧ (cueRec c).stopMark = none
          ∧ (cueRec c).runIndex = some 63
          ∧ ∀ (j : RecId) (q : FadeRec), (cueRunning c).fades[j] = some q → q.owner = .firing running.id →
              j = 0)
      ∧ (cueRunning (.level (.master 39) .off .steps)).NotFading (.master 39)
      ∧ (cueRunning (.stop 15 0)).voices[(15 : VoiceId)].state = .idle
      ∧ (let s := sounding (cueRunning (.stop 0 600000))
         s.Takes .completeAll ∧ s.voices[(0 : VoiceId)].state ≠ .idle ∧ s.NotFading (.voice 0)
           ∧ s.VoiceAlone 0)
      ∧ (let s := cueRunning (.play 15 5 .off true)
         s.NotFading (.voice 15) ∧ ∀ c, s.voices[(15 : VoiceId)].owner ≠ .call c) := by
  refine ⟨by decide +kernel, ?_, ?_⟩
  · intro c
    have h : on.Takes .completeAll := by decide +kernel
    exact ⟨h, rfl, rfl, rfl, rfl, rfl, rfl, rfl, fun j q hq _ => (only_record _ j q hq).1⟩
  · refine ⟨?_, ?_, ?_, ?_, ?_⟩ <;> decide +kernel

/-- A fade of GROUP 15 owned by a cue, and one free place, the last. -/
def fading (o : Owner) (e : Elem) : FadeRec :=
  { levelRec o e with fading := true, time := 2000 }

def fullTable : State :=
  { on with fades := Vector.replicate 128 (some (fading .request (.group 0))) }

def onePlace : State := { fullTable with fades := fullTable.fades.set 127 none }

theorem meets_SetLevelCutsOrFades :
    let ref : ElemRef := { kind := some .group, index := 15 }
    (∀ k, on.Takes (.setLevel ref 0x8000#16 0 k) ∧ on.NotFading (.group 15))
      ∧ (ElemRef.elem? { kind := some .group, index := 16 } = none ∧ ElemRef.elem? ref = some (.group 15))
      ∧ (fullTable.Takes (.setLevel ref 0#16 1 (some .steps)) ∧ fullTable.NotFading (.group 15)
          ∧ freePlace fullTable = none)
      ∧ (onePlace.Takes (.setLevel ref 0#16 600001 (some .steps)) ∧ onePlace.NotFading (.group 15)
          ∧ freePlace onePlace = some 127)
      ∧ ∀ o, o = .request ∨ o = .firing running.id →
          let r := fading o (.group 15)
          let s := { withFade r with seq := { on.seq with running := [running] } }
          s.Takes (.setLevel ref 0#16 0 (some .cut)) ∧ s.Takes (.setLevel ref 0#16 1 (some .steps))
            ∧ fadingOf s (.group 15) none = some 0 ∧ s.fades[(0 : RecId)] = some r ∧ r.owner = o
            ∧ r.stopMark = none ∧ fadingOf s (.group 15) (some 0) = none
            ∧ entryOf s running.id = some running ∧ 0 < running.pending ∧ running.placing = false := by
  refine ⟨?_, by decide +kernel, by decide +kernel, by decide +kernel, ?_⟩
  · intro k; rcases k with _ | _ | _ <;> decide +kernel
  · rintro o (rfl | rfl) <;> decide +kernel

/-! ## Hypotheses met: casting, voices, zones, pages, calls, the clock -/

/-- Role 95: tap 3 on channel 63, tap 0 on channel 0, with the taps in these states. -/
def castRole (taps : Vector TapState 4) : Role :=
  { Role.reset with
    cfg := { Role.reset.cfg with taps := #v[some 0, none, none, some 63] }
    taps := taps }

def withRole (taps : Vector TapState 4) : State := { on with roles := on.roles.set 95 (castRole taps) }

/-- A crossfade of role 95 from tap `k` to tap `j`, with the records of either, both or neither. -/
def crossing (k j : TapId) (a b : Bool) (s : State) : State :=
  { s with
    roles := upd s.roles 95 fun x => { x with
      taps := ((Vector.replicate 4 TapState.idle).set k .fadingOut).set j .fadingIn }
    fades := (on.fades.set 126 (if a then some (fading .cast (.tap 95 k)) else none)).set 127
      (if b then some (fading .cast (.tap 95 j)) else none) }

/-- Onto a role with no tap, its tap IDLE or fading out, and onto one with a tap, the table in each state; then
during a crossfade. -/
theorem meets_SwapTapChecksAndSwaps :
    (on.Takes (.swapTap 96 0 0) ∧ on.Takes (.swapTap 95 4 0))
      ∧ (on.Takes (.swapTap 95 3 0) ∧ on.roles[(95 : RoleId)].cfg.taps[(3 : TapId)] = none)
      ∧ (let s := withRole #v[.idle, .idle, .idle, .active]
         s.Takes (.swapTap 95 3 0) ∧ s.roles[(95 : RoleId)].cfg.taps[(3 : TapId)] = some 63
           ∧ Role.active s.roles[(95 : RoleId)] = some 3)
      ∧ (let s := { withRole #v[.active, .idle, .idle, .idle] with
           roles := (withRole #v[.active, .idle, .idle, .idle]).roles.set 0 (castRole #v[.idle, .idle, .idle, .active]) }
         s.Takes (.swapTap 95 3 0) ∧ Role.active s.roles[(95 : RoleId)] ≠ some 3
           ∧ carriedElsewhere s 95 63 = some 0)
      ∧ (∀ f ∈ [on.fades, onePlace.fades, fullTable.fades],
         let s := { withRole #v[.idle, .idle, .idle, .idle] with fades := f }
         s.Takes (.swapTap 95 3 0) ∧ s.Takes (.swapTap 95 3 1) ∧ Role.active s.roles[(95 : RoleId)] = none
           ∧ carriedElsewhere s 95 63 = none ∧ s.CastMoves 95 3)
      ∧ (let s := { withRole #v[.idle, .idle, .idle, .fadingOut] with
           fades := on.fades.set 127 (some (fading .cast (.tap 95 3))) }
         s.Takes (.swapTap 95 3 0) ∧ s.Takes (.swapTap 95 3 1) ∧ Role.active s.roles[(95 : RoleId)] = none
           ∧ carriedElsewhere s 95 63 = none ∧ s.CastMoves 95 3 ∧ fadingOf s (.tap 95 3) none = some 127)
      ∧ (freePlace on = some 0 ∧ freePlace onePlace = some 127 ∧ freePlace fullTable = none)
      ∧ (∀ f ∈ [on.fades, onePlace.fades, fullTable.fades],
         let s := { withRole #v[.active, .idle, .idle, .idle] with fades := f }
         s.Takes (.swapTap 95 3 0) ∧ s.Takes (.swapTap 95 3 1) ∧ Role.active s.roles[(95 : RoleId)] = some 0
           ∧ carriedElsewhere s 95 63 = none ∧ s.CastMoves 95 3 ∧ s.CastMoves 95 0)
      ∧ ∀ a b, let s := crossing 0 3 a b (withRole #v[.idle, .idle, .idle, .idle])
          s.Takes (.swapTap 95 0 0) ∧ s.Takes (.swapTap 95 0 1)
            ∧ Role.active s.roles[(95 : RoleId)] = some 3
            ∧ s.roles[(95 : RoleId)].cfg.taps[(0 : TapId)] = some 0 ∧ carriedElsewhere s 95 0 = none
            ∧ s.CastMoves 95 3 ∧ s.CastMoves 95 0
            ∧ (fadingOf s (.tap 95 3) none).isSome = b
            ∧ (fadingOf s (.tap 95 0) none).isSome = a := by
  simp only [List.mem_cons, List.not_mem_nil, or_false]
  refine ⟨?_, ?_, ?_, ?_, ?_, ?_, ?_, ?_, ?_⟩
  iterate 4 decide +kernel
  · rintro f (rfl | rfl | rfl) <;> decide +kernel
  · decide +kernel
  · decide +kernel
  · rintro f (rfl | rfl | rfl) <;> decide +kernel
  · rintro (_ | _) (_ | _) <;> refine ⟨?_, ?_, ?_, ?_, ?_⟩ <;> decide +kernel

/-- The layout of a sound record is not given (log 8), so that no written record is known to be usable:
its fields, once read, may be. A number past 1023 is unknown whatever memory holds. -/
theorem meets_a_usable_sound :
    judgeRecord 0x100000 5 true { start := 0xFFB50, count := 300, loopStart := some 0, loopEnd := some 300 }
        = .usable { number := 5, start := 0xFFB50, count := 300, loopStart := 0, loopEnd := 300, looping := true }
      ∧ judgeRecord 0x100000 5 true { start := 0x8000, count := 0, loopStart := none, loopEnd := none }
        = .empty := by decide

/-- Call 15 on voice 0, which it owns, with page 3, which it opened, and an instance in this phase. -/
def onAir (ph : CallPhase) (zones : BitVec 24) : State :=
  { on with
    voices := on.voices.set 0 { fetching 0x8000 with owner := .call 15 }
    calls := on.calls.set 15 { Call.reset with
      cfg := { Call.reset.cfg with sound := 5, patience := 1, voice := 0 }
      inst := some { anInst ph with page := some 3 } }
    pages := on.pages.set 3 (some { aPage 3 with opener := .call 15, source := .voice 0, zones := zones })
    zones := on.zones.set 0 { Zone.reset with page := some 3 } }

/-- The CALL cell stands in this state, the write queue with room behind the two bursts of an answer. -/
theorem meets_a_capture_of_a_call :
    on.cells[callCell].state = .empty ∧ on.wq.queue.length + 4 ≤ 46 ∧ on.wq.heldCapture = []
      ∧ ∀ n, n = 254 ∨ n = 255 →
          let s := { on with cells := on.cells.set callCell { state := .full, missed := n } }
          s.cells[callCell].state ≠ .empty ∧ s.cells[callCell].missed ≤ 255 := by
  refine ⟨by decide +kernel, by decide +kernel, by decide +kernel, ?_⟩
  rintro n (rfl | rfl) <;> decide +kernel

/-- A page of a call, the highest in use, and one of the host; zone 0 carried and zone 1 not; voice 0 sounding, a
burst granted to it, and voice 1 IDLE; a crossfade. -/
theorem meets_StopShowStopsEveryUnit :
    (on.Takes .stopShow ∧ (ready 2#32 on).Takes .stopShow ∧ ∀ p : PageId, on.pages[p] = none)
      ∧ (let s := crossing 0 3 true true { onAir .playing 1#24 with
           roles := (withRole #v[.idle, .idle, .idle, .idle]).roles
           pages := (onAir .playing 1#24).pages.set 0 (some { aPage 0 with zones := 4#24 })
           arb := { on.arb with busy := some (.fetch 0 0x8000 64 false) } }
         s.Takes .stopShow ∧ s.voices[(0 : VoiceId)].state ≠ .idle ∧ s.voices[(1 : VoiceId)].state = .idle
           ∧ s.pages[(3 : PageId)] = some
             { aPage 3 with opener := .call 15, source := .voice 0, zones := 1#24 }
           ∧ (∀ q : PageId, 3 < q → s.pages[q] = none)
           ∧ (s.pages[(3 : PageId)].map fun g => g.zones.getLsbD (0 : ZoneId)) = some true
           ∧ (∀ p : PageId, (s.pages[p].map fun g => g.zones.getLsbD (1 : ZoneId)) ≠ some true)
           ∧ s.calls[(15 : CallId)].inst ≠ none
           ∧ s.roles[(95 : RoleId)].taps = #v[.fadingOut, .idle, .idle, .fadingIn]) := by
  refine ⟨?_, ?_⟩ <;> decide +kernel

/-- The last case but one is a call's voice. In the judging of a record, a start one frame inside memory and
one past it. -/
theorem meets_VoiceStartTakesTheVoice :
    on.Takes (.voiceStart 16 0 0#16 false)
      ∧ (on.Takes (.voiceStart 15 1024 0#16 false) ∧ judgeSound on on.mem 1024 false = .unknown)
      ∧ (∀ snd, judgeSound on on.mem 5 false = .usable snd → on.Takes (.voiceStart 15 5 0#16 false)
          ∧ on.NotFading (.voice 15) ∧ ∀ c, on.voices[(15 : VoiceId)].owner ≠ .call c)
      ∧ (∀ ph zs snd, judgeSound (onAir ph zs) (onAir ph zs).mem 5 false = .usable snd →
          (onAir ph zs).Takes (.voiceStart 0 5 0#16 false) ∧ (onAir ph zs).OwnStopOnly 0
            ∧ (onAir ph zs).voices[(0 : VoiceId)].owner = .call 15
            ∧ (onAir ph zs).calls[(15 : CallId)].inst = some { anInst ph with page := some 3 }
            ∧ ((onAir ph zs).pages[(3 : PageId)].map fun g => (g.opener, g.source))
              = some (.call 15, .voice 0))
      ∧ (¬ (1023 < 1023 ∨ 0xFFFFC % 4 ≠ 0 ∨ (0 < 1 ∧ 0x100000 ≤ 0xFFFFC + 4 * (1 - 1)))
          ∧ 0x100000 ≤ 0x100000 + 4 * (1 - 1) ∧ (1023 : Nat) < 1024) := by
  refine ⟨by decide +kernel, ⟨by decide +kernel, ?_⟩, ?_, ?_, by decide⟩
  · simp [judgeSound, judgeRecord]
  · intro _ _; exact ⟨by decide +kernel, by decide +kernel, by decide +kernel⟩
  · intro ph zs _ _
    have h : on.Takes (.voiceStart 0 5 0#16 false) ∧ on.OwnStopOnly 0 := by decide +kernel
    exact ⟨h.1, h.2, rfl, rfl, rfl⟩

/-- Last, a table with no place; a takeover stands in `meets_takeover_of_a_stop_fade`. -/
theorem meets_VoiceStopFadesOrCuts :
    on.Takes (.voiceStop 16 0)
      ∧ (on.Takes (.voiceStop 15 0) ∧ on.voices[(15 : VoiceId)].state = .idle)
      ∧ (let s := withVoice (fetching 0x8000)
         s.Takes (.voiceStop 0 0) ∧ s.voices[(0 : VoiceId)].state ≠ .idle ∧ s.NotFading (.voice 0)
           ∧ s.VoiceAlone 0)
      ∧ (let s := withVoice (fetching 0x8000)
         s.Takes (.voiceStop 0 600001) ∧ freePlace s = some 0)
      ∧ (let s := { withVoice (fetching 0x8000) with fades := fullTable.fades }
         s.Takes (.voiceStop 0 1) ∧ s.voices[(0 : VoiceId)].state ≠ .idle ∧ s.NotFading (.voice 0)
           ∧ s.VoiceAlone 0 ∧ freePlace s = none) := by
  refine ⟨?_, ?_, ?_, ?_, ?_⟩ <;> decide +kernel

theorem meets_RelayAndClearActOnTheGroup :
    (on.Takes (.relay 8 (some true)) ∧ on.Takes (.relay 0 none) ∧ on.Takes (.clearZoneFault 8))
      ∧ (let s := withZone { Zone.reset with cfg := { Zone.reset.cfg with stability := 254 } }
         s.Takes (.relay 0 (some true)) ∧ (0 : ZoneId) ∈ membersOf s 0 ∧ (23 : ZoneId) ∉ membersOf s 0
           ∧ s.zones[(0 : ZoneId)].relay = false ∧ s.zones[(0 : ZoneId)].page = none
           ∧ s.zones[(0 : ZoneId)].state = .off ∧ s.zones[(0 : ZoneId)].cfg.stability ≠ 255)
      ∧ (let z := { Zone.reset with relay := true, cfg := { Zone.reset.cfg with stability := 255 } }
         (withZone z).Takes (.relay 0 (some false)) ∧ (0 : ZoneId) ∈ membersOf (withZone z) 0
           ∧ z.state = .off ∧ z.cfg.stability = 255 ∧ z.relay ≠ false)
      ∧ (∀ b, ∀ pg ∈ [none, some (3 : PageId)], ∀ st,
          let s := withZone { Zone.reset with state := st, relay := !b, page := pg }
          s.Takes (.relay 0 (some b)) ∧ (0 : ZoneId) ∈ membersOf s 0 ∧ s.zones[(0 : ZoneId)].relay ≠ b
            ∧ s.zones[(0 : ZoneId)].page = pg ∧ s.zones[(0 : ZoneId)].state = st
            ∧ s.zones[(0 : ZoneId)].cfg.stability ≠ 255)
      ∧ (∀ b, let s := withZone { Zone.reset with state := .fault, relay := b }
         s.Takes (.clearZoneFault 0)
           ∧ (0 : ZoneId) ∈ (membersOf s 0).filter (fun z => s.zones[z].state == .fault)
           ∧ s.zones[(0 : ZoneId)].relay = b ∧ s.zones[(0 : ZoneId)].page = none
           ∧ s.zones[(0 : ZoneId)].cfg.stability ≠ 255) := by
  refine ⟨by decide +kernel, by decide +kernel, by decide +kernel, ?_, ?_⟩
  · intro b pg hp st
    rcases b <;> rcases st <;> simp only [List.mem_cons, List.not_mem_nil, or_false] at hp <;>
      rcases hp with rfl | rfl <;> decide +kernel
  · rintro (_ | _) <;> decide +kernel

/-- Zones 0, 1 and 2 are group 0. Zones 0 and 1, in these states, carry page 3, of priority 2, opened by the host or
by call 15, which holds these zones; zone 2 is free and OFF. -/
def contested (o : Opener) (ph : CallPhase) (zs : BitVec 24) (a b : ZoneState) : State :=
  { onAir ph zs with
    zoneGroups := on.zoneGroups.set 0 7#24
    zones := (on.zones.set 0 { Zone.reset with state := a, page := some 3 }).set 1
      { Zone.reset with state := b, page := some 3 }
    pages := on.pages.set 3 (some { aPage 2 with opener := o, source := .voice 0, zones := zs }) }

/-- The case before the last two offers to zone 0, that is free, zone 1 in FAULT and zone 2 with a page of the same
priority, and takes nothing from a page; the last preempts. -/
theorem meets_PageOpenOffersThePage :
    let src : SourceRef := { kind := some .channel, index := 63 }
    let bad : SourceRef := { kind := some .voice, index := 16 }
    (on.Takes (.pageOpen 8 src 0 0#16) ∧ on.Takes (.pageOpen 7 bad 0 0#16) ∧ SourceRef.source? bad = none
        ∧ on.Takes (.pageOpen 7 src 4 0#16) ∧ SourceRef.source? src = some (.channel 63))
      ∧ (let s := { on with pages := Vector.replicate 4 (some (aPage 0)) }
         s.Takes (.pageOpen 0 src 3 0#16) ∧ freePage s = none)
      ∧ (let s := withZone { Zone.reset with state := .fault }
         s.Takes (.pageOpen 0 src 3 0#16) ∧ freePage s ≠ none
           ∧ ∀ z ∈ membersOf s 0, s.zones[z].state = .fault)
      ∧ (let s := { withZone { Zone.reset with page := some 3 } with
           pages := on.pages.set 3 (some (aPage 2)) }
         s.Takes (.pageOpen 0 src 2 0#16) ∧ freePage s ≠ none
           ∧ ∀ z ∈ membersOf s 0, s.zones[z].state ≠ .fault ∧ ∃ (p : PageId) (other : Fin 4),
               s.zones[z].page = some p ∧ carriedPriority s z = some other ∧ (2 : Fin 4) ≤ other)
      ∧ (let s := { on with
           zones := (on.zones.set 1 { Zone.reset with state := .fault }).set 2
             { Zone.reset with state := .live, page := some 3 }
           zoneGroups := on.zoneGroups.set 0 7#24
           pages := on.pages.set 3 (some { aPage 3 with zones := 4#24 }) }
         s.Takes (.pageOpen 0 src 3 0#16) ∧ freePage s = some 0 ∧ membersOf s 0 = [0, 1, 2]
           ∧ (s.zones[(0 : ZoneId)].state ≠ .fault ∧ s.zones[(0 : ZoneId)].page = none)
           ∧ s.zones[(1 : ZoneId)].state = .fault
           ∧ (s.zones[(2 : ZoneId)].state ≠ .fault ∧ s.zones[(2 : ZoneId)].page = some 3
               ∧ carriedPriority s 2 = some 3)
           ∧ (∀ z : ZoneId, (1#24).getLsbD z = true ↔ z ∈ membersOf s 0 ∧ s.zones[z].state ≠ .fault
               ∧ s.zones[z].page = none)
           ∧ (∀ (o : PageId) (z : ZoneId), (Vector.replicate 4 0#24)[o].getLsbD z = true
               ↔ (1#24).getLsbD z = true ∧ s.zones[z].page = some o)
           ∧ s.cells[(9 : CellId)].state = .empty ∧ s.wq.queue.length ≤ 46 ∧ s.wq.heldCapture = [])
      ∧ (∀ st, st = .off ∨ st = .live →
          let s := withZone { Zone.reset with state := st }
          s.Takes (.pageOpen 0 src 3 0#16) ∧ freePage s = some 0 ∧ membersOf s 0 = [0]
            ∧ (∀ z : ZoneId, (1#24).getLsbD z = true ↔ z ∈ membersOf s 0 ∧ s.zones[z].state ≠ .fault
                ∧ s.zones[z].page = none)
            ∧ s.zones[(0 : ZoneId)].state = st ∧ s.zones[(0 : ZoneId)].relay = false)
      ∧ ({ on with cells := on.cells.set 9 { state := .full, missed := 255 } : State }.cells[(9 : CellId)].state
          ≠ .empty)
      ∧ (∀ o ∈ [Opener.request, .call 15], ∀ ph ∈ [CallPhase.waitZones, .playing], ∀ zs ∈ [3#24, 11#24],
          ∀ a b, (a, b) ∈ [(ZoneState.off, ZoneState.checking), (.powering, .live), (.live, .live)] →
          let s := contested o ph zs a b
          let gone : Vector (BitVec 24) 4 := #v[0#24, 0#24, 0#24, 3#24]
          s.Takes (.pageOpen 0 src 3 0#16) ∧ freePage s = some 0 ∧ membersOf s 0 = [0, 1, 2]
            ∧ s.pages[(3 : PageId)] = some { aPage 2 with opener := o, source := .voice 0, zones := zs }
            ∧ (∀ z : ZoneId, z = 0 ∨ z = 1 → s.zones[z].state ≠ .fault ∧ s.zones[z].page = some 3
                ∧ zs.getLsbD z = true)
            ∧ (s.zones[(2 : ZoneId)].state ≠ .fault ∧ s.zones[(2 : ZoneId)].page = none)
            ∧ (∀ z : ZoneId, (7#24).getLsbD z = true ↔ z ∈ membersOf s 0)
            ∧ (∀ (n : PageId) (z : ZoneId),
                gone[n].getLsbD z = true ↔ (7#24).getLsbD z = true ∧ s.zones[z].page = some n)
            ∧ s.calls[(15 : CallId)].inst = some { anInst ph with page := some 3 } ∧ ph ≠ .waitVoice
            ∧ s.CallAlone 15 s.calls[(15 : CallId)].cfg.voice (some 3)
            ∧ s.voices[s.calls[(15 : CallId)].cfg.voice].state ≠ .idle
            ∧ (zs &&& ~~~gone[(3 : PageId)] = 0#24 ↔ zs = 3#24)
            ∧ (b = .live → s.zones[(1 : ZoneId)].state = .live)) := by
  simp only [List.mem_cons, Prod.mk.injEq, List.not_mem_nil, or_false]
  refine ⟨?_, ?_, ?_, ?_, ?_, ?_, ?_, ?_⟩
  iterate 5 decide +kernel
  · rintro st (rfl | rfl) <;> decide +kernel
  · decide +kernel
  · rintro o (rfl | rfl) ph (rfl | rfl) zs (rfl | rfl) a b (⟨rfl, rfl⟩ | ⟨rfl, rfl⟩ | ⟨rfl, rfl⟩) <;>
      decide +kernel

theorem meets_PagesCloseByRequestAndLimit :
    (let s := withPage (aPage 3)
     s.Runs ∧ s.Quiet ∧ s.pages[(3 : PageId)] = some (aPage 3) ∧ (aPage 3).opener = .request
       ∧ s.Takes (.pageClose 3) ∧ (aPage 3).limit = some 0 ∧ (aPage 3).zones.getLsbD 0 = true
       ∧ (aPage 3).zones.getLsbD 23 = false)
      ∧ (let z := { Zone.reset with
           state := .live, page := some 3, cfg := { Zone.reset.cfg with idle := 1, stability := 254 } }
         let s := { withPage (aPage 3) with zones := on.zones.set 0 z }
         s.Runs ∧ s.Quiet ∧ s.Takes (.pageClose 3) ∧ s.pages[(3 : PageId)] = some (aPage 3)
           ∧ s.zones[(0 : ZoneId)] = z ∧ z.relay = false ∧ z.cfg.idle ≠ 0 ∧ z.cfg.stability ≠ 255)
      ∧ (∀ ph, ph = .playing ∨ ph = .waitZones →
          let s := onAir ph 1#24
          s.Runs ∧ s.Quiet ∧ s.Takes (.pageClose 3)
            ∧ (s.pages[(3 : PageId)].map fun g => (g.opener, g.limit)) = some (.call 15, some 0)
            ∧ s.calls[(15 : CallId)].inst = some { anInst ph with page := some 3 } ∧ ph ≠ .waitVoice
            ∧ s.voices[s.calls[(15 : CallId)].cfg.voice].state ≠ .idle ∧ s.CallAlone 15 0 (some 3))
      ∧ (on.Takes (.pageClose 4)
          ∧ (on.Takes (.pageClose 3) ∧ ∃ p : PageId, p.val = 3 ∧ on.pages[p] = none)) := by
  refine ⟨by decide +kernel, by decide +kernel, ?_, by decide +kernel⟩
  rintro ph (rfl | rfl) <;>
    exact ⟨rfl, ⟨rfl, rfl⟩, by decide +kernel, by decide +kernel, by decide +kernel, by decide,
      by decide +kernel, by decide +kernel⟩

/-- Call 15, which waits on a busy voice 0 with this sound and patience. -/
def aCall (sound patience : Nat) (i : Option CallInst) : Call :=
  { Call.reset with
    cfg := { Call.reset.cfg with sound := sound, patience := patience, voice := 0 }, inst := i }

def callOn (v : Voice) (c : Call) : State :=
  { on with voices := on.voices.set 0 v, calls := on.calls.set 15 c }

theorem meets_CallsStartWaitAndMiss :
    on.Takes (.callNow 16)
      ∧ (let s := withCall (aCall 0 0 (some (anInst .playing)))
         s.Takes (.callNow 15) ∧ s.calls[(15 : CallId)].inst = some (anInst .playing))
      ∧ (∀ n, n = 0 ∨ n = 1 →
         let s := callOn (fetching 0x8000) (aCall 5 n none)
         ∀ snd, judgeSound s s.mem s.calls[(15 : CallId)].cfg.sound false = .usable snd →
           s.Takes (.callNow 15) ∧ s.calls[(15 : CallId)].inst = none
             ∧ s.voices[s.calls[(15 : CallId)].cfg.voice].state ≠ .idle
             ∧ s.calls[(15 : CallId)].cfg.patience = n
             ∧ s.voices[s.calls[(15 : CallId)].cfg.voice].owner ≠ .call 15)
      ∧ (let s := withCall (aCall 1024 1 none)
         s.Takes (.callNow 15) ∧ s.calls[(15 : CallId)].inst = none
           ∧ judgeSound s s.mem s.calls[(15 : CallId)].cfg.sound false = .unknown
           ∧ s.voices[s.calls[(15 : CallId)].cfg.voice].owner ≠ .call 15) := by
  refine ⟨by decide +kernel, by decide +kernel, ?_, ?_⟩
  · rintro n (rfl | rfl) s _ _ <;>
      exact ⟨by decide +kernel, by decide +kernel, by decide +kernel, by decide +kernel, by decide +kernel⟩
  · refine ⟨by decide +kernel, by decide +kernel, ?_, by decide +kernel⟩
    have h : (withCall (aCall 1024 1 none)).calls[(15 : CallId)].cfg.sound = 1024 := by decide +kernel
    simp only [h, judgeSound, judgeRecord]
    simp

theorem meets_CallsStartWaitAndMiss_patience :
    (let s := callOn Voice.reset (aCall 0 0 (some (anInst .waitVoice)))
     s.Runs ∧ s.Quiet ∧ s.calls[(15 : CallId)].inst = some (anInst .waitVoice)
       ∧ (anInst .waitVoice).patience = 0 ∧ (anInst .waitVoice).page = none
       ∧ s.voices[s.calls[(15 : CallId)].cfg.voice].owner ≠ .call 15)
      ∧ (∀ st, st = .primed ∨ st = .priming →
          let s := callOn { fetching 0x8000 with state := st, owner := .call 15 }
            (aCall 0 0 (some (anInst .waitZones)))
          s.calls[(15 : CallId)].inst = some (anInst .waitZones)
            ∧ s.voices[s.calls[(15 : CallId)].cfg.voice].owner = .call 15
            ∧ s.voices[s.calls[(15 : CallId)].cfg.voice].state = st) := by
  refine ⟨by decide +kernel, ?_⟩
  rintro st (rfl | rfl) <;> decide +kernel

theorem meets_SetTimeSetsTheClock :
    idle.Takes (.setTime 7 0 0 0) ∧ idle.Takes (.setTime 6 24 0 0) ∧ idle.Takes (.setTime 6 23 60 0)
      ∧ idle.Takes (.setTime 6 23 59 60) ∧ idle.Takes (.setTime 6 23 59 59) := by
  decide +kernel

theorem meets_LockLevelIsRaisedAndReleased :
    (∀ l, { idle with lock := l }.Takes (.lock 0) ∧ { idle with lock := l }.Takes (.lock 1)
        ∧ { idle with lock := l }.Takes (.lock 2) ∧ { idle with lock := l }.Takes .unlock)
      ∧ idle.PortFree ∧ (∃ t, exec .fullReset idle = .next t ∧ true = true)
      ∧ (∃ t, exec .portReset idle = .next t ∧ true = true) := by
  refine ⟨?_, by decide +kernel, outcome_next (p := fun _ => true) (by decide +kernel),
    outcome_next (p := fun _ => true) (by decide +kernel)⟩
  intro l; cases l <;> decide +kernel

theorem meets_CaptureNowFillsTheManualCell :
    (idle.Takes (.captureNow 0#32 0#32) ∧ idle.cells[(11 : CellId)].state = .empty)
      ∧ (let s := { idle with cells := idle.cells.set 11 { state := .filling, missed := 255 } }
         s.Takes (.captureNow 0#32 0#32) ∧ s.cells[(11 : CellId)].state ≠ .empty) := by
  decide +kernel

/-! ## Hypotheses met: links, clock source, channels, lines, cues, fades -/

def withRx (r : Receiver) : State := { on with rx := on.rx.set 3 r }

theorem meets_LinkFrameIsJudged :
    (on.Runs ∧ on.rx[(0 : Link)].lockDue = false ∧ on.rx[(0 : Link)].unlockDue = false
        ∧ on.rx[(0 : Link)].locked = false)
      ∧ (let s := withRx { Receiver.reset with locked := true, bad := 3, ref := some 255#8 }
         s.rx[(3 : Link)].lockDue = false ∧ s.rx[(3 : Link)].unlockDue = false
           ∧ s.rx[(3 : Link)].locked = true)
      ∧ ((0x5A3C9600#32).extractLsb' 8 24 = 0x5A3C96#24
          ∧ (0x5A3C9600#32).extractLsb' 0 8 = (255#8 : BitVec 8) + 1#8) := by
  decide +kernel

/-- With its voice IDLE, a call's PLAY is taken: zone 0 in this state, this patience. -/
def callIdle (st : ZoneState) (patience : Nat) : State :=
  { withZone { Zone.reset with state := st } with calls := on.calls.set 15 (aCall 5 patience none) }

/-- A page table with a free entry and one with none, and a patience of 0 and of 1 s. -/
theorem meets_CallsStartWaitAndMiss_idle :
    ∀ snd st n (full : Bool), (st = .off ∨ st = .live ∨ st = .fault) → n = 0 ∨ n = 1 →
      let s := { callIdle st n with pages := if full then Vector.replicate 4 (some (aPage 0)) else on.pages }
      judgeSound s s.mem s.calls[(15 : CallId)].cfg.sound false = .usable snd →
        s.Takes (.callNow 15) ∧ s.calls[(15 : CallId)].inst = none
          ∧ s.calls[(15 : CallId)].cfg.patience = n
          ∧ s.voices[s.calls[(15 : CallId)].cfg.voice].state = .idle ∧ s.NotFading (.voice 0)
          ∧ (∀ d : CallId, s.voices[(0 : VoiceId)].owner ≠ .call d)
          ∧ freePage s = (if full then none else some 0)
          ∧ membersOf s s.calls[(15 : CallId)].cfg.group = [0]
          ∧ (∀ q : PageId, s.pages[q].map (·.source) ≠ some (.voice 0))
          ∧ (∀ d : CallId, Call.waitsFor s.calls[d] 0 = false)
          ∧ (if st = .fault then s.zones[(0 : ZoneId)].state = .fault
            else s.zones[(0 : ZoneId)].state ≠ .fault ∧ s.zones[(0 : ZoneId)].page = none) := by
  rintro snd st n (_ | _) (rfl | rfl | rfl) (rfl | rfl) s - <;> decide +kernel

/-- Role 95 with auto-spare, taps 0 and 1 on these channels, tap 0 ACTIVE; these channels LIVE. -/
def spared (auto : Bool) (a b : Channel) (time : Nat) (x : ChannelRec) : State :=
  { on with
    roles := on.roles.set 95 { Role.reset with
      cfg := { Role.reset.cfg with taps := #v[some a, some b, none, none], autoSpare := auto, spareTime := time }
      taps := #v[.active, .idle, .idle, .idle] }
    channels := (on.channels.set b { used with state := .live }).set a x }

/-- A swap in some time with each of these tables, a cut, and none. -/
def spares : List (Vector (Option FadeRec) 128 × Bool × Nat) :=
  [(on.fades, true, 1), (onePlace.fades, true, 1), (fullTable.fades, true, 1), (on.fades, true, 0),
    (on.fades, false, 0)]

/-- Receiver 3 is LOCKED and its fourth bad frame has come. -/
def unlocking (s : State) : State := { s with rx := s.rx.set 3 { Receiver.reset with locked := true, bad := 4 } }

/-- The channels that the unlock of link 3 takes. -/
def hitBy (s : State) : List Channel :=
  (List.finRange 64).filter fun c => linkOf c == 3 && (s.channels[c].state == .live
    || s.channels[c].state == .suspect || s.channels[c].state == .returning)

/-- No role on a channel of the link, in each state an unlock ends; a role whose partner's channel is on the
same link, 48 and 63 being its first and last; a role whose partner's channel, 0, is LIVE on another, the table
in each state and during a crossfade; a role with no spare. -/
theorem meets_ReceiverLocksAndUnlocks :
    (let s := withRx { Receiver.reset with good := 8 }
     s.Runs ∧ s.Quiet ∧ s.rx[(3 : Link)].locked = false ∧ s.rx[(3 : Link)].good = 8)
      ∧ (∀ st ∈ [ChannelState.live, .suspect, .returning],
         let s := unlocking { on with channels := on.channels.set 63 { used with state := st } }
         s.rx[(3 : Link)].locked = true ∧ s.rx[(3 : Link)].bad = 4 ∧ hitBy s = [63] ∧ linkOf 47 ≠ 3
           ∧ ∀ c ∈ hitBy s, s.NoRoleOn c)
      ∧ (let s := unlocking (spared true 48 63 0 { used with state := .live })
         s.Runs ∧ s.Quiet ∧ hitBy s = [48, 63] ∧ s.engine ≠ .stopped ∧ roleActiveOn s 48 = some 95
           ∧ Role.active s.roles[(95 : RoleId)] = some 0
           ∧ s.roles[(95 : RoleId)].cfg.taps[pairOf 0] = some 63 ∧ linkOf 63 = 3)
      ∧ (∀ f auto time, (f, auto, time) ∈ spares →
          let s := { unlocking (spared auto 63 0 time { used with state := .live }) with fades := f }
          s.Runs ∧ s.Quiet ∧ hitBy s = [63] ∧ roleActiveOn s 63 = some 95
            ∧ Role.active s.roles[(95 : RoleId)] = some 0 ∧ s.roles[(95 : RoleId)].cfg.autoSpare = auto
            ∧ s.roles[(95 : RoleId)].cfg.spareTime = time
            ∧ s.roles[(95 : RoleId)].cfg.taps[pairOf 0] = some 0 ∧ linkOf 0 ≠ 3
            ∧ s.channels[(0 : Channel)].state = .live ∧ carriedElsewhere s 95 0 = none
            ∧ s.CastMoves 95 0 ∧ s.CastMoves 95 (pairOf 0))
      ∧ (∀ a b time, time = 0 ∨ time = 1 →
          let s := crossing (pairOf 0) 0 a b (unlocking (spared true 63 0 time { used with state := .live }))
          s.Runs ∧ s.Quiet ∧ hitBy s = [63] ∧ roleActiveOn s 63 = some 95
            ∧ Role.active s.roles[(95 : RoleId)] = some 0 ∧ s.roles[(95 : RoleId)].cfg.autoSpare = true
            ∧ s.roles[(95 : RoleId)].cfg.spareTime = time
            ∧ s.roles[(95 : RoleId)].cfg.taps[pairOf 0] = some 0 ∧ linkOf 0 ≠ 3
            ∧ s.channels[(0 : Channel)].state = .live ∧ carriedElsewhere s 95 0 = none
            ∧ s.CastMoves 95 0 ∧ s.CastMoves 95 (pairOf 0)
            ∧ (fadingOf s (.tap 95 0) none).isSome = b
            ∧ (fadingOf s (.tap 95 (pairOf 0)) none).isSome = a)
      ∧ (let s := unlocking (spared true 63 0 0 { used with state := .live })
         let s := { s with channels := s.channels.set 0 { used with state := .lost } }
         hitBy s = [63] ∧ roleActiveOn s 63 = some 95 ∧ s.channels[(0 : Channel)].state ≠ .live) := by
  refine ⟨?_, ?_, ?_, ?_, ?_, ?_⟩
  iterate 3 decide +kernel
  · simp only [spares, List.mem_cons, Prod.mk.injEq, List.not_mem_nil, or_false]
    rintro f auto time (⟨rfl, rfl, rfl⟩ | ⟨rfl, rfl, rfl⟩ | ⟨rfl, rfl, rfl⟩ | ⟨rfl, rfl, rfl⟩ |
      ⟨rfl, rfl, rfl⟩) <;> decide +kernel
  · rintro (_ | _) (_ | _) time (rfl | rfl) <;> refine ⟨?_, ?_, ?_, ?_, ?_⟩ <;> decide +kernel
  · decide +kernel

def clocked (src : ClockSource) (absent run : Nat) : State :=
  { on with
    header := { on.header with source := .wclk }
    clock := { on.clock with inUse := src, absentRun := absent, returnRun := run } }

def judged : State := clocked .wclk 1 0

/-- The ends of the range of a good period, and one past each. -/
theorem meets_ClockSourceFallsBackAndReturns :
    ((clocked .wclk 2 0).Runs ∧ (clocked .wclk 2 0).Quiet ∧ (clocked .wclk 2 0).clock.inUse = .wclk
        ∧ (clocked .wclk 2 0).header.source = .wclk ∧ 2 ≤ (clocked .wclk 2 0).clock.absentRun)
      ∧ ((clocked .internal 0 1000).clock.inUse = .internal
          ∧ 1000 ≤ (clocked .internal 0 1000).clock.returnRun)
      ∧ (fallbackDue judged = false ∧ returnDue (clocked .internal 0 999) = false
          ∧ returnDue judged = false ∧ fallbackDue (clocked .internal 0 999) = false)
      ∧ (∀ n, n = 19500 ∨ n = 22200 → ∃ ns ∈ [0, n], 19500 ≤ ns ∧ ns ≤ 22200)
      ∧ ∀ ns ∈ [19499, 22201], ns < 19500 ∨ 22200 < ns := by
  refine ⟨?_, ?_, ?_, ?_, by decide⟩
  iterate 3 decide +kernel
  rintro n (rfl | rfl) <;> decide

def locked : State → State := fun s => { s with rx := Vector.replicate 4 { Receiver.reset with locked := true } }

theorem meets_ChannelComesAndGoesUnreported :
    (let s := withChannel { used with state := .live }
     s.Runs ∧ s.Quiet ∧ s.channels[(0 : Channel)].state = .live
       ∧ s.channels[(0 : Channel)].present = false ∧ 0 < s.channels[(0 : Channel)].cfg.confirm)
      ∧ (let s := withChannel { used with state := .suspect, present := true }
         s.channels[(0 : Channel)].state = .suspect ∧ s.channels[(0 : Channel)].present = true)
      ∧ (let s := locked (withChannel { used with state := .lost, present := true })
         s.Runs ∧ s.Quiet ∧ s.channels[(0 : Channel)].state = .lost ∧ s.rx[linkOf 0].locked = true
           ∧ 0 < s.channels[(0 : Channel)].cfg.hold)
      ∧ (let s := locked (withChannel { used with
           state := .lost, present := true, cfg := { used.cfg with hold := 0 } })
         s.rx[linkOf 0].locked = true ∧ s.channels[(0 : Channel)].cfg.hold = 0)
      ∧ (let s := withChannel { used with state := .returning, timer := some 0 }
         s.channels[(0 : Channel)].state = .returning ∧ s.channels[(0 : Channel)].timer = some 0) := by
  refine ⟨?_, ?_, ?_, ?_, ?_⟩ <;> decide +kernel

/-- Each way of being lost, with no role on the channel; then with a role without auto-spare, with one
whose partner tap's channel is the lost one's own or not LIVE, and with a spare, cut to and faded to, also during a
crossfade. -/
theorem meets_ChannelLossAndBatteryAreReported :
    (let s := withChannel { used with state := .suspect, timer := some 0 }
     s.Runs ∧ s.Quiet ∧ s.NoRoleOn 0 ∧ s.channels[(0 : Channel)].state = .suspect
       ∧ s.channels[(0 : Channel)].timer = some 0)
      ∧ (let s := withChannel { used with state := .live, cfg := { used.cfg with confirm := 0 } }
         s.NoRoleOn 0 ∧ s.channels[(0 : Channel)].state = .live
           ∧ s.channels[(0 : Channel)].present = false ∧ s.channels[(0 : Channel)].cfg.confirm = 0)
      ∧ (let s := withChannel { used with state := .returning, timer := some 20 }
         s.NoRoleOn 0 ∧ s.channels[(0 : Channel)].state = .returning
           ∧ s.channels[(0 : Channel)].present = false)
      ∧ (∀ f auto time, (f, auto, time) ∈ spares →
          let s := { spared auto 0 63 time { used with state := .suspect, timer := some 0 } with fades := f }
          s.Runs ∧ s.Quiet ∧ s.channels[(0 : Channel)].state = .suspect
            ∧ s.channels[(0 : Channel)].timer = some 0 ∧ s.engine ≠ .stopped
            ∧ roleActiveOn s 0 = some 95 ∧ Role.active s.roles[(95 : RoleId)] = some 0
            ∧ s.roles[(95 : RoleId)].cfg.autoSpare = auto ∧ s.roles[(95 : RoleId)].cfg.spareTime = time
            ∧ s.roles[(95 : RoleId)].cfg.taps[pairOf 0] = some 63
            ∧ s.channels[(63 : Channel)].state = .live ∧ carriedElsewhere s 95 63 = none
            ∧ s.CastMoves 95 0 ∧ s.CastMoves 95 (pairOf 0))
      ∧ (∀ a b time, time = 0 ∨ time = 1 →
          let s := crossing (pairOf 0) 0 a b (spared true 0 63 time { used with state := .suspect, timer := some 0 })
          s.Runs ∧ s.Quiet ∧ s.channels[(0 : Channel)].state = .suspect
            ∧ s.channels[(0 : Channel)].timer = some 0 ∧ s.engine ≠ .stopped
            ∧ roleActiveOn s 0 = some 95 ∧ Role.active s.roles[(95 : RoleId)] = some 0
            ∧ s.roles[(95 : RoleId)].cfg.autoSpare = true ∧ s.roles[(95 : RoleId)].cfg.spareTime = time
            ∧ s.roles[(95 : RoleId)].cfg.taps[pairOf 0] = some 63 ∧ (63 : Channel) ≠ 0
            ∧ s.channels[(63 : Channel)].state = .live ∧ carriedElsewhere s 95 63 = none
            ∧ s.CastMoves 95 0 ∧ s.CastMoves 95 (pairOf 0)
            ∧ (fadingOf s (.tap 95 0) none).isSome = b
            ∧ (fadingOf s (.tap 95 (pairOf 0)) none).isSome = a)
      ∧ (let s := spared true 0 0 0 { used with state := .suspect, timer := some 0 }
         roleActiveOn s 0 = some 95 ∧ s.roles[(95 : RoleId)].cfg.taps[pairOf 0] = some 0)
      ∧ (let s := withChannel { used with state := .lost, edge := true }
         s.channels[(0 : Channel)].edge = true ∧ s.channels[(0 : Channel)].state ≠ .unused) := by
  refine ⟨?_, ?_, ?_, ?_, ?_, ?_, ?_⟩
  iterate 3 decide +kernel
  · simp only [spares, List.mem_cons, Prod.mk.injEq, List.not_mem_nil, or_false]
    rintro f auto time (⟨rfl, rfl, rfl⟩ | ⟨rfl, rfl, rfl⟩ | ⟨rfl, rfl, rfl⟩ | ⟨rfl, rfl, rfl⟩ |
      ⟨rfl, rfl, rfl⟩) <;> decide +kernel
  · rintro (_ | _) (_ | _) time (rfl | rfl) <;> refine ⟨?_, ?_, ?_, ?_, ?_⟩ <;> decide +kernel
  iterate 2 decide +kernel

/-- Mix 39, whose mask has line 3, at rest when the frame began, commanded anew by an install or not. -/
theorem meets_AcceptedHoldLineMovesItsGates :
    ∀ b, let s := { on with
           hold := on.hold.set 3 { raw := true, accepted := false, run := 20 }
           mixes := on.mixes.set 39 { Mix.reset with
             cfg := { Mix.reset.cfg with holdMask := 8#4 }, rested := some .off, renewed := b } }
      s.Runs ∧ s.Quiet ∧ s.hold[(3 : LineId)].run = 20
        ∧ s.mixes[(39 : MixId)].cfg.holdMask.getLsbD (3 : LineId) = true
        ∧ s.mixes[(39 : MixId)].renewed = b := by decide +kernel

theorem meets_LinesGuardAndFollowAct :
    (let q := { on.seq with goEdges := 1, trigEdges := on.seq.trigEdges.set 3 1 }
     (0 < q.goEdges ∧ q.firing = none ∧ 0 < q.trigEdges[(3 : LineId)]
        ∧ (withSeq q).Runs ∧ (withSeq q).Quiet ∧ (withSeq q).engine = .loaded ∧ q.guard = none
        ∧ q.pause = false ∧ q.standby = none)
      ∧ ({ withSeq q with engine := .loading }.engine ≠ .loaded)
      ∧ ({ q with guard := some 0 : Seq }.guard ≠ none)
      ∧ ({ q with pause := true : Seq }.pause = true)
      ∧ ({ q with standby := some (standby (.line 3)) : Seq }.standby = some (standby (.line 3))
          ∧ (standby (.line 3)).trigger = .line 3 ∧ (standby (.line 2)).trigger ≠ .line 3))
      ∧ (withSeq { on.seq with guard := some 0 }).seq.guard = some 0
      ∧ (let s := withSeq { on.seq with follow := some 0, standby := some (standby .followStart) }
         s.seq.follow = some 0 ∧ s.seq.pause = false ∧ s.engine = .loaded ∧ s.seq.standby ≠ none
           ∧ s.seq.firing = none) := by
  refine ⟨?_, ?_, ?_⟩ <;> decide +kernel

/-- Show memory in which record 0 of the cue list at 8000h begins with the word `cue`, and its run, from move
0 of the pool at C000h, is these moves, of no own times. -/
def view (cue : Word) (moves : List (Word × Word)) : Memory :=
  Memory.writeAll []
    ([(0x8000, cue), (0x8004, BitVec.ofNat 32 (moves.length <<< 20)), (0x8008, 1000#32), (0x800C, 2000#32)]
      ++ moves.zipIdx.flatMap fun p => [(0xC000 + 16 * p.2, p.1.1), (0xC004 + 16 * p.2, p.1.2),
        (0xC008 + 16 * p.2, 0#32), (0xC00C + 16 * p.2, 0#32)])

/-- A firing for this cause whose reads have brought `m`, at the state `s`. -/
def firingOf (cause : FireCause) (m : Memory) (s : State) : State :=
  { s with
    seq := { s.seq with
      firing := some { cause := cause, view := some m }
      standby := some { number := 5, index := 0, trigger := .go, wait := 0 } }
    clock := { s.clock with tickOpen := true }
    tables := { s.tables with cueList := 0x8000, movePool := 0xC000 } }

def cueNamed (n : Nat) : RunEntry := { running with id := { number := n, serial := n } }

/-- Eight cues run; the oldest owns one record, a delayed level or a relay or a stop. -/
def crowded : State :=
  { withFade { cueRec (.level (.master 39) .off .steps) with owner := .firing (cueNamed 11).id } with
    seq := { on.seq with running := (List.range 8).map fun k => cueNamed (11 + k) } }

/-- A LEVEL of MASTER 39 to −72 after this delay, by a fade or a cut. -/
def masterMove (delay : Nat) (cut : Bool) : Word × Word :=
  (BitVec.ofNat 32 ((if cut then 0x04800000 else 0x04000000) + delay), 0xFFB80027#32)

/-- A move of kind 4, which is malformed. -/
def badMove : Word × Word := (0x00400001#32, 0#32)

/-- In an empty table and running list; with a record unsound at step 2; with eight cues running. -/
theorem meets_FiringPlacesItsMovesAndDerivesStandby :
    (∀ cause m, (firingOf cause m on).Runs ∧ (firingOf cause m on).Quiet
        ∧ (firingOf cause m on).clock.tickOpen = true
        ∧ (firingOf cause m on).seq.firing = some { cause := cause, view := some m }
        ∧ (firingOf cause m on).seq.standby = some { number := 5, index := 0, trigger := .go, wait := 0 }
        ∧ (firingOf cause m on).seq.running = [] ∧ freePlace (firingOf cause m on) = some 0)
      ∧ (readCue (view 0xE0000005#32 []) 0x8000 0).sound? = none
      ∧ ((readCue (view 5#32 []) 0x8000 0).sound?.map fun c => (c.number, c.count)) = some (5, 0)
      ∧ (let s := firingOf .follow (view 5#32 [masterMove 500 false]) crowded
         s.Runs ∧ s.Quiet ∧ s.seq.running = cueNamed 11 :: (List.range 7).map (fun k => cueNamed (12 + k))
           ∧ ((List.range 7).map fun k => cueNamed (12 + k)).length = 7
           ∧ (∀ y ∈ (List.range 7).map (fun k => cueNamed (12 + k)), y.id ≠ (cueNamed 11).id)
           ∧ (cueNamed 11).pending = 1 ∧ (cueNamed 11).placing = false
           ∧ (s.fades[(0 : RecId)].map fun r => (r.owner, r.runIndex, r.stopMark, r.content))
             = some (.firing (cueNamed 11).id, some 63, none, .level (.master 39) .off .steps)
           ∧ s.NotFading (.master 39) ∧ freePlace (setFade 0 none s) = some 0
           ∧ ∀ e ∈ s.seq.running, e.id ≠ { number := 5, serial := s.seq.nextSerial })
      ∧ ∀ (n : RecId) (q : FadeRec), crowded.fades[n] = some q → q.owner = .firing (cueNamed 11).id →
          n = 0 := by
  refine ⟨fun _ m => ⟨rfl, ⟨rfl, rfl⟩, rfl, rfl, rfl, rfl, ?_⟩, ?_, ?_, ?_, ?_⟩
  · show freePlace on = some 0
    decide +kernel
  iterate 3 decide +kernel
  · exact fun n q hq _ => (only_record _ n q hq).1

/-- A run of a delayed move, a malformed one and another delayed move, with seven cues running and the table
empty, with one place and full; and a move without delay, by a fade and by a cut. -/
theorem meets_FiringPlacesItsMovesAndDerivesStandby_runs :
    (let m := view 5#32 [masterMove 1 false, badMove, masterMove 600000 true]
     ((readCue m 0x8000 0).sound?.map fun c => (c.number, c.first, c.count)) = some (5, 0, 3)
       ∧ ((List.range 3).map fun k => (readMove m 0xC000 k).map fun x => (x.delay, x.content))
         = [some (1, .level (.master 39) (.steps (-72)) .steps), none,
            some (600000, .level (.master 39) (.steps (-72)) .cut)]
       ∧ ∀ f ∈ [on.fades, onePlace.fades, fullTable.fades],
           let s := firingOf .goRequest m { on with
             fades := f, seq := { on.seq with running := (List.range 7).map fun k => cueNamed (11 + k) } }
           s.Runs ∧ s.Quiet ∧ s.seq.running.length < 8 ∧ s.NotFading (.master 39)
             ∧ ∀ e ∈ s.seq.running, e.id ≠ { number := 5, serial := s.seq.nextSerial })
      ∧ ∀ cut, (readMove (view 5#32 [masterMove 0 cut]) 0xC000 0).map (fun x => (x.delay, x.content))
          = some (0, .level (.master 39) (.steps (-72)) (if cut then .cut else .steps)) := by
  refine ⟨⟨by decide +kernel, by decide +kernel, ?_⟩, by decide +kernel⟩
  simp only [List.mem_cons, List.not_mem_nil, or_false]
  rintro f (rfl | rfl | rfl) <;> decide +kernel

/-- A cue's record at 0, its delay run out, and FADING at 127 a record of its element with this owner. -/
def overtaking (c : Content) (e : Elem) (o : Owner) : State :=
  { withFade (cueRec c) with
    fades := (withFade (cueRec c)).fades.set 127 (some (fading o e))
    seq := { on.seq with running := [{ running with pending := 2 }, cueNamed 8] } }

/-- Any content, and then each kind's own premises; last, the takeovers. -/
theorem meets_ExpiredDelayActs :
    (∀ c n, n = 1 ∨ n = 2 →
        let x := { running with pending := n }
        let s := { withFade (cueRec c) with seq := { on.seq with running := [x] } }
        s.Runs ∧ s.Quiet ∧ s.fades[(0 : RecId)] = some (cueRec c) ∧ (cueRec c).fading = false
          ∧ (cueRec c).delayLeft = 0 ∧ s.seq.pause = false ∧ (cueRec c).owner = .firing x.id
          ∧ entryOf s x.id = some x ∧ 0 < x.pending ∧ x.placing = false ∧ (cueRec c).stopMark = none)
      ∧ (cueRunning (.level (.master 39) .off .steps)).NotFading (.master 39)
      ∧ (let s := cueRunning (.play 15 1024 .off true)
         s.NotFading (.voice 15) ∧ (∀ c, s.voices[(15 : VoiceId)].owner ≠ .call c)
           ∧ judgeSound s s.mem 1024 true = .unknown)
      ∧ (cueRunning (.stop 15 0)).voices[(15 : VoiceId)].state = .idle
      ∧ (let s := sounding (cueRunning (.stop 0 0))
         s.voices[(0 : VoiceId)].state ≠ .idle ∧ s.NotFading (.voice 0) ∧ s.VoiceAlone 0)
      ∧ (withZone Zone.reset).zoneGroups[(0 : Fin 8)].getLsbD (0 : ZoneId) = true
      ∧ ∀ curve o, o = .request ∨ o = .firing running.id ∨ o = .firing (cueNamed 8).id →
          let s := overtaking (.level (.master 39) .off curve) (.master 39) o
          s.Runs ∧ s.Quiet ∧ fadingOf s (.master 39) (some 0) = some 127
            ∧ (s.fades[(127 : RecId)].map fun r => (r.owner, r.stopMark)) = some (o, none)
            ∧ entryOf s running.id = some { running with pending := 2 }
            ∧ entryOf s (cueNamed 8).id = some (cueNamed 8) ∧ (cueNamed 8).id ≠ running.id
            ∧ 0 < (cueNamed 8).pending ∧ (cueNamed 8).placing = false := by
  refine ⟨?_, by decide +kernel, ⟨by decide +kernel, by decide +kernel, ?_⟩, by decide +kernel,
    by decide +kernel, by decide +kernel, ?_⟩
  · rintro c n (rfl | rfl) <;> exact ⟨rfl, ⟨rfl, rfl⟩, rfl, rfl, rfl, rfl, rfl, rfl, by decide, rfl, rfl⟩
  · simp [judgeSound, judgeRecord]
  · rintro (_ | _) o (rfl | rfl | rfl) <;> decide +kernel

/-- A stop fade of voice 0. -/
def stopFade (o : Owner) : FadeRec :=
  { fading o (.voice 0) with content := .level (.voice 0) .off .steps, stopMark := some 0 }

/-- Voice 0 in this state with this stop record, the stop fade `r` standing at 0. -/
def stopping (r : FadeRec) (st : VoiceState) (stop : Option RecId) : State :=
  { withFade r with
    seq := { on.seq with running := [running] }
    voices := on.voices.set 0 { fetching 0x8000 with
      state := st, resume := .playing, owner := .request, stopRec := stop } }

/-- The takeover of a stop fade, a request's and a cue's, that is or is not its voice's stop record: by
SET_LEVEL and VOICE_STOP, by a cue's LEVEL and STOP record at place 127, and by the move of a firing. -/
theorem meets_takeover_of_a_stop_fade :
    (∀ o stop, (o, stop) ∈ [(Owner.request, some (0 : RecId)), (.request, none),
          (.firing running.id, some 0), (.firing running.id, none)] →
        let s := stopping (stopFade o) .stopping stop
        s.Takes (.setLevel { kind := some .voice, index := 0 } 0#16 0 (some .cut))
          ∧ s.Takes (.setLevel { kind := some .voice, index := 0 } 0#16 600001 (some .steps))
          ∧ fadingOf s (.voice 0) none = some 0 ∧ fadingOf s (.voice 0) (some 0) = none
          ∧ s.fades[(0 : RecId)] = some (stopFade o) ∧ (stopFade o).owner = o
          ∧ (stopFade o).stopMark = some 0 ∧ s.voices[(0 : VoiceId)].stopRec = stop
          ∧ s.voices[(0 : VoiceId)].state = .stopping ∧ entryOf s running.id = some running
          ∧ s.Takes (.voiceStop 0 0) ∧ s.Takes (.voiceStop 0 600001) ∧ s.VoiceAlone 0
          ∧ (s.resumed 0 (stopFade o))[(0 : VoiceId)].state ≠ .idle)
      ∧ (∀ curve o, o = .request ∨ o = .firing (cueNamed 8).id →
          let r := cueRec (.level (.voice 0) (.steps 0) curve)
          let s := stopping (stopFade o) .stopping (some 0)
          let s := { s with
            fades := s.fades.set 127 (some r)
            seq := { s.seq with running := [running, cueNamed 8] } }
          s.Runs ∧ s.Quiet ∧ s.fades[(127 : RecId)] = some r ∧ r.fading = false ∧ r.delayLeft = 0
            ∧ s.seq.pause = false ∧ r.owner = .firing running.id ∧ r.stopMark = none
            ∧ fadingOf s (.voice 0) (some 127) = some 0 ∧ s.fades[(0 : RecId)] = some (stopFade o)
            ∧ entryOf s running.id = some running
            ∧ entryOf s (cueNamed 8).id = some (cueNamed 8) ∧ (cueNamed 8).id ≠ running.id)
      ∧ (∀ time o, time = 0 ∨ time = 600001 →
          o = .request ∨ o = .firing running.id ∨ o = .firing (cueNamed 8).id →
          let r := cueRec (.stop 0 time)
          let s := stopping (stopFade o) .stopping (some 0)
          let x := { running with pending := 2 }
          let s := { s with fades := s.fades.set 127 (some r), seq := { s.seq with running := [x, cueNamed 8] } }
          s.Runs ∧ s.Quiet ∧ s.fades[(127 : RecId)] = some r ∧ r.owner = .firing x.id ∧ entryOf s x.id = some x
            ∧ entryOf s (cueNamed 8).id = some (cueNamed 8) ∧ fadingOf s (.voice 0) (some 127) = some 0
            ∧ s.fades[(0 : RecId)] = some (stopFade o) ∧ s.VoiceAlone 0
            ∧ s.voices[(0 : VoiceId)].state ≠ .idle
            ∧ (s.resumed 0 (stopFade o))[(0 : VoiceId)].state ≠ .idle)
      ∧ ∀ cut : Bool, let m := view 5#32 [(if cut then 0x01800000#32 else 0x01000000#32, 0xFFEC0000#32)]
          let s := firingOf .goRequest m (stopping (stopFade .request) .stopping (some 0))
          s.Runs ∧ s.Quiet ∧ s.seq.running.length < 8 ∧ freePlace s = some 1
            ∧ (readMove m 0xC000 0).map (fun x => (x.delay, x.content))
              = some (0, .level (.voice 0) (.steps (-20)) (if cut then .cut else .steps))
            ∧ fadingOf s (.voice 0) none = some 0
            ∧ s.fades[(0 : RecId)] = some (stopFade .request)
            ∧ ∀ e ∈ s.seq.running, e.id ≠ { number := 5, serial := s.seq.nextSerial } := by
  simp only [List.mem_cons, Prod.mk.injEq, List.not_mem_nil, or_false]
  refine ⟨?_, ?_, ?_, ?_⟩
  · rintro o stop (⟨rfl, rfl⟩ | ⟨rfl, rfl⟩ | ⟨rfl, rfl⟩ | ⟨rfl, rfl⟩) <;> decide +kernel
  · rintro (_ | _) o (rfl | rfl) <;> decide +kernel
  · rintro time o (rfl | rfl) (rfl | rfl | rfl) <;> decide +kernel
  · decide +kernel

/-- A start of voice 0 takes over its stop fade or another fade of its level: by VOICE_START, and by a cue's PLAY,
told to a request, to the cue itself and to another. -/
theorem meets_a_start_takes_a_fade_over :
    (∀ (own : Bool) o, o = .request ∨ o = .firing running.id →
        let s := stopping (stopFade o) .stopping (if own then some 0 else none)
        ∀ snd, judgeSound s s.mem 5 false = .usable snd →
          s.Takes (.voiceStart 0 5 0#16 false) ∧ (∀ c, s.voices[(0 : VoiceId)].owner ≠ .call c)
            ∧ s.OwnStopOnly 0 ∧ fadingOf s (.voice 0) none = some 0 ∧ s.fades[(0 : RecId)] = some (stopFade o)
            ∧ (stopFade o).owner = o ∧ entryOf s running.id = some running ∧ 0 < running.pending
            ∧ running.placing = false)
      ∧ (∀ (stop : Bool) o, o = .request ∨ o = .firing running.id ∨ o = .firing (cueNamed 8).id →
          let old := if stop then stopFade o else fading o (.voice 0)
          let r := cueRec (.play 0 5 .off true)
          let x := { running with pending := 2 }
          let s := { stopping old .stopping (some 0) with
            fades := (withFade old).fades.set 127 (some r), seq := { on.seq with running := [x, cueNamed 8] } }
          ∀ snd, judgeSound s s.mem 5 true = .usable snd →
            s.Runs ∧ s.Quiet ∧ s.fades[(127 : RecId)] = some r ∧ r.fading = false ∧ r.delayLeft = 0
              ∧ s.seq.pause = false ∧ r.owner = .firing x.id ∧ entryOf s x.id = some x ∧ 2 ≤ x.pending
              ∧ x.placing = false ∧ r.stopMark = none ∧ (∀ c, s.voices[(0 : VoiceId)].owner ≠ .call c)
              ∧ s.OwnStopOnly 0 ∧ fadingOf s (.voice 0) none = some 0 ∧ s.fades[(0 : RecId)] = some old
              ∧ old.owner = o ∧ entryOf s (cueNamed 8).id = some (cueNamed 8) ∧ (cueNamed 8).id ≠ x.id
              ∧ 0 < (cueNamed 8).pending ∧ (cueNamed 8).placing = false)
      ∧ ∀ ph, ph = .waitZones ∨ ph = .playing →
          let r := cueRec (.play 0 5 .off true)
          let s := { onAir ph 1#24 with
            fades := on.fades.set 127 (some r), seq := { on.seq with running := [running] } }
          ∀ snd, judgeSound s s.mem 5 true = .usable snd →
            s.Runs ∧ s.Quiet ∧ s.fades[(127 : RecId)] = some r ∧ r.owner = .firing running.id
              ∧ entryOf s running.id = some running ∧ s.OwnStopOnly 0
              ∧ s.voices[(0 : VoiceId)].owner = .call 15
              ∧ s.calls[(15 : CallId)].inst = some { anInst ph with page := some 3 }
              ∧ (s.pages[(3 : PageId)].map (·.opener)) = some (.call 15) := by
  refine ⟨?_, ?_, ?_⟩
  · rintro (_ | _) o (rfl | rfl) s _ _ <;> decide +kernel
  · rintro (_ | _) o (rfl | rfl | rfl) old r x s _ _ <;> decide +kernel
  · rintro ph (rfl | rfl) r s _ _ <;> decide +kernel

def done (o : Owner) (e : Elem) : FadeRec := { fading o e with elapsed := 2000 }

/-- The running cue's one record has become the stop fade of voice 0. -/
theorem meets_CompleteAllEmptiesTheRunningList_stop :
    let r : FadeRec := { cueRec (.level (.voice 0) .off .steps) with fading := true, stopMark := some 0 }
    let s : State := sounding { withFade r with seq := { on.seq with running := [running] } }
    s.Takes .completeAll ∧ s.seq.running = [running] ∧ running.pending = 1 ∧ running.placing = false
      ∧ s.fades[(0 : RecId)] = some r ∧ r.owner = .firing running.id ∧ r.runIndex = some 63
      ∧ (∀ (j : RecId) (q : FadeRec), s.fades[j] = some q → q.owner = .firing running.id → j = 0)
      ∧ s.voices[(0 : VoiceId)].state ≠ .idle ∧ s.VoiceAlone 0 := by
  refine ⟨by decide +kernel, rfl, rfl, rfl, rfl, rfl, rfl, fun j q hq _ => (only_record _ j q hq).1, ?_, ?_⟩ <;>
    decide +kernel

/-- A fade at its end; a stop fade at its end, the voice's stop record or not, its voice sounding or IDLE; and
the takeover of a stop fade by SET_LEVEL. -/
theorem meets_CompletedFadeTellsItsOwner :
    (∀ o e, (withFade (done o e)).Runs ∧ (withFade (done o e)).Quiet
        ∧ (withFade (done o e)).fades[(0 : RecId)] = some (done o e) ∧ (done o e).fading = true
        ∧ (done o e).time ≤ (done o e).elapsed ∧ frozen (withFade (done o e)) (done o e) = false
        ∧ (done o e).content = .level e (.steps (-72)) .steps ∧ (done o e).stopMark = none)
      ∧ (∀ n, n = 1 ∨ n = 2 →
          let x := { running with pending := n }
          let s := { withFade (done (.firing { number := 7, serial := 3 }) (.master 39)) with
            seq := { on.seq with running := [x] } }
          entryOf s { number := 7, serial := 3 } = some x ∧ x.placing = false)
      ∧ (∀ o st stop, o = .request ∨ o = .firing running.id →
          (st, stop) ∈ [(VoiceState.stopping, some (0 : RecId)), (.playing, none), (.idle, none)] →
          let r : FadeRec := { stopFade o with elapsed := 2000 }
          let s := stopping r st stop
          s.Runs ∧ s.Quiet ∧ s.fades[(0 : RecId)] = some r ∧ r.fading = true ∧ r.time ≤ r.elapsed
            ∧ frozen s r = false ∧ r.content = .level (.voice 0) .off .steps ∧ r.stopMark = some 0
            ∧ r.owner = o ∧ entryOf s running.id = some running ∧ 0 < running.pending
            ∧ running.placing = false ∧ s.VoiceAlone 0
            ∧ (s.voices[(0 : VoiceId)].state, s.voices[(0 : VoiceId)].stopRec) = (st, stop))
      ∧ ∀ o k time, o = .request ∨ o = .firing running.id →
          (k, time) ∈ [(Curve.cut, 1), (.steps, 0), (.steps, 1)] →
          let s := stopping (stopFade o) .stopping (some 0)
          s.Takes (.setLevel { kind := some .voice, index := 0 } 0#16 time (some k))
            ∧ fadingOf s (.voice 0) none = some 0 ∧ fadingOf s (.voice 0) (some 0) = none
            ∧ s.voices[(0 : VoiceId)].stopRec = some 0 ∧ s.voices[(0 : VoiceId)].state = .stopping := by
  refine ⟨fun o e => ⟨rfl, ⟨rfl, rfl⟩, rfl, rfl, le_refl _, ?_, rfl, rfl⟩, ?_, ?_, ?_⟩
  · cases o <;> rfl
  · rintro n (rfl | rfl) <;> decide +kernel
  · simp only [List.mem_cons, Prod.mk.injEq, List.not_mem_nil, or_false]
    rintro o st stop (rfl | rfl) (⟨rfl, rfl⟩ | ⟨rfl, rfl⟩ | ⟨rfl, rfl⟩) <;> decide +kernel
  · simp only [List.mem_cons, Prod.mk.injEq, List.not_mem_nil, or_false]
    rintro o k time (rfl | rfl) (⟨rfl, rfl⟩ | ⟨rfl, rfl⟩ | ⟨rfl, rfl⟩) <;> decide +kernel

/-- Call 15's voice, with its page, is stopped at once by the host, at the end of its stop fade, and by a cue. -/
theorem meets_CompletedFadeTellsItsOwner_call :
    ∀ ph, ph = .waitZones ∨ ph = .playing →
      let ended : FadeRec := { stopFade .request with elapsed := 2000 }
      let s := onAir ph 1#24
      let s₁ := { s with
        fades := on.fades.set 127 (some ended)
        voices := upd s.voices 0 fun x => { x with state := .stopping, stopRec := some 127 } }
      let s₂ := { s with
        fades := on.fades.set 127 (some (cueRec (.stop 0 0))), seq := { on.seq with running := [running] } }
      (∀ u ∈ [s, s₁, s₂], u.Runs ∧ u.Quiet ∧ u.CallAlone 15 0 (some 3)
          ∧ u.calls[(15 : CallId)].cfg.voice = 0
          ∧ u.calls[(15 : CallId)].inst = some { anInst ph with page := some 3 } ∧ ph ≠ .waitVoice
          ∧ u.pages[(3 : PageId)] = some
            { aPage 3 with opener := .call 15, source := .voice 0, zones := 1#24 }
          ∧ u.voices[(0 : VoiceId)].state ≠ .idle)
        ∧ (s.Takes (.voiceStop 0 0) ∧ s.NotFading (.voice 0))
        ∧ (s₁.fades[(127 : RecId)] = some ended ∧ ended.fading = true ∧ ended.time ≤ ended.elapsed
            ∧ frozen s₁ ended = false ∧ ended.content = .level (.voice 0) .off .steps
            ∧ ended.stopMark = some 0 ∧ s₁.voices[(0 : VoiceId)].stopRec = some 127)
        ∧ s₂.fades[(127 : RecId)] = some (cueRec (.stop 0 0)) ∧ (cueRec (.stop 0 0)).fading = false
        ∧ (cueRec (.stop 0 0)).delayLeft = 0 ∧ frozen s₂ (cueRec (.stop 0 0)) = false
        ∧ s₂.NotFading (.voice 0) := by
  rintro ph (rfl | rfl) <;> decide +kernel

/-! ## Hypotheses met: playing out, zones, rollover, the mirror, time, resets -/

/-- A voice of no call, and one of a playing call. -/
theorem meets_PlayedOutVoiceEntersIdle :
    (let s := withVoice { fetching 0x8000 with state := .playing, playPos := 300, owner := .request }
     s.Runs ∧ s.Quiet ∧ s.voices[(0 : VoiceId)].state = .playing
       ∧ s.voices[(0 : VoiceId)].sound.looping = false
       ∧ s.voices[(0 : VoiceId)].sound.count ≤ s.voices[(0 : VoiceId)].playPos ∧ s.VoiceAlone 0)
      ∧ (let x := { fetching 0x8000 with state := .playing, playPos := 300, owner := .call 15 }
         let s := { onAir .playing 1#24 with voices := on.voices.set 0 x }
         s.Runs ∧ s.Quiet ∧ s.voices[(0 : VoiceId)].state = .playing
           ∧ s.voices[(0 : VoiceId)].sound.count ≤ s.voices[(0 : VoiceId)].playPos
           ∧ s.CallAlone 15 0 (some 3) ∧ s.calls[(15 : CallId)].inst = some { anInst .playing with page := some 3 }
           ∧ s.pages[(3 : PageId)] = some
             { aPage 3 with opener := .call 15, source := .voice 0, zones := 1#24 }) := by
  constructor <;> decide +kernel

def zoneIn (st : ZoneState) (sample : Nat) (ok : Bool) : State :=
  { withZone { Zone.reset with
      state := st, timer := some 0, falseRun := 100, ampOk := ok
      cfg := { Zone.reset.cfg with sample := sample } } with
    clock := { on.clock with tickOpen := true } }

/-- Zone 0, in this state, its timer at its end, AMP_OK true and its sample time `n`, carries page 3, opened by a
request or by call 15, which is in this phase and whose voice is in this state; zone 1, if the page holds it, is OFF. -/
def lastZone (z : ZoneState) (n : Nat) (o : Opener) (ph : CallPhase) (zones : BitVec 24) (st : VoiceState) : State :=
  { onAir ph zones with
    clock := { on.clock with tickOpen := true }
    zones := on.zones.set 0 { Zone.reset with
      state := z, timer := some 0, ampOk := true, page := some 3, cfg := { Zone.reset.cfg with sample := n } }
    voices := on.voices.set 0 { fetching 0x8000 with owner := .call 15, state := st }
    pages := on.pages.set 3 (some { aPage 3 with opener := o, source := .voice 0, zones := zones }) }

/-- From CHECKING by AMP_OK and from POWERING, where a sample time of 0 and of 255 leads to LIVE and any other to
CHECKING. -/
theorem meets_ZoneRunsItsPowerSequence :
    (∀ st n ok, (zoneIn st n ok).Runs ∧ (zoneIn st n ok).Quiet
        ∧ (zoneIn st n ok).zones[(0 : ZoneId)].page = none ∧ (zoneIn st n ok).zones[(0 : ZoneId)].state = st
        ∧ (zoneIn st n ok).zones[(0 : ZoneId)].timer = some 0
        ∧ (zoneIn st n ok).zones[(0 : ZoneId)].ampOk = ok ∧ (zoneIn st n ok).clock.tickOpen = true
        ∧ (zoneIn st n ok).zones[(0 : ZoneId)].cfg.sample = n
        ∧ 100 ≤ (zoneIn st n ok).zones[(0 : ZoneId)].falseRun)
      ∧ ((254 : Nat) ≠ 0 ∧ (254 : Nat) ≠ 255)
      ∧ (∀ z n o ph zs st, let s := lastZone z n o ph zs st
          s.Runs ∧ s.Quiet ∧ s.zones[(0 : ZoneId)].state = z ∧ s.zones[(0 : ZoneId)].timer = some 0
          ∧ s.zones[(0 : ZoneId)].cfg.sample = n
          ∧ s.clock.tickOpen = true ∧ s.zones[(0 : ZoneId)].ampOk = true
          ∧ s.zones[(0 : ZoneId)].page = some 3
          ∧ s.pages[(3 : PageId)] = some { aPage 3 with opener := o, source := .voice 0, zones := zs }
          ∧ s.calls[(15 : CallId)].inst = some { anInst ph with page := some 3 }
          ∧ s.voices[s.calls[(15 : CallId)].cfg.voice].owner = .call 15
          ∧ s.voices[s.calls[(15 : CallId)].cfg.voice].state = st)
      ∧ (∀ y : ZoneId, y ≠ 0 → (1#24 : BitVec 24).getLsbD y = false)
      ∧ ((3#24 : BitVec 24).getLsbD (1 : ZoneId) = true
          ∧ (lastZone .checking 3 .request .waitZones 3#24 .primed).zones[(1 : ZoneId)].state ≠ .live) :=
  ⟨fun _ _ _ => ⟨rfl, ⟨rfl, rfl⟩, rfl, rfl, rfl, rfl, rfl, rfl, le_refl _⟩, by decide,
    fun _ _ _ _ _ _ => ⟨rfl, ⟨rfl, rfl⟩, rfl, rfl, rfl, rfl, rfl, rfl, rfl, rfl, rfl, rfl⟩, by decide,
    by decide +kernel⟩

/-- Zone 0, whose AMP_OK is false, carries a page of the host or of call 15, which holds it alone or zone 1 too, and
zone 1 is LIVE or not. -/
theorem meets_ZoneRunsItsPowerSequence_page :
    ∀ st ∈ [ZoneState.checking, .live], ∀ zs ∈ [1#24, 3#24], ∀ o ∈ [Opener.request, .call 15],
      ∀ ph ∈ [CallPhase.waitZones, .playing], ∀ b ∈ [ZoneState.live, .powering],
      let s := lastZone st 3 o ph zs .primed
      let y := { Zone.reset with state := b, page := if zs = 3#24 then some 3 else none }
      let s := { s with zones := (upd s.zones 0 fun x => { x with ampOk := false, falseRun := 100 }).set 1 y }
      s.Runs ∧ s.Quiet ∧ s.zones[(0 : ZoneId)].page = some 3
        ∧ s.pages[(3 : PageId)] = some { aPage 3 with opener := o, source := .voice 0, zones := zs }
        ∧ zs.getLsbD (0 : ZoneId) = true ∧ (aPage 3).state = .opened
        ∧ s.zones[(0 : ZoneId)].state = st ∧ s.zones[(0 : ZoneId)].timer = some 0
        ∧ s.zones[(0 : ZoneId)].ampOk = false ∧ s.zones[(0 : ZoneId)].cfg.sample ≠ 255
        ∧ 100 ≤ s.zones[(0 : ZoneId)].falseRun
        ∧ s.calls[(15 : CallId)].inst = some { anInst ph with page := some 3 } ∧ ph ≠ .waitVoice
        ∧ s.CallAlone 15 s.calls[(15 : CallId)].cfg.voice (some 3)
        ∧ s.voices[s.calls[(15 : CallId)].cfg.voice].state ≠ .idle
        ∧ ((List.finRange 24).filter fun y : ZoneId => y != 0 && zs.getLsbD y)
          = (if zs = 3#24 then [1] else [])
        ∧ s.zones[(1 : ZoneId)].state = b := by
  simp only [List.mem_cons, List.not_mem_nil, or_false]
  rintro st (rfl | rfl) zs (rfl | rfl) o (rfl | rfl) ph (rfl | rfl) b (rfl | rfl) <;> decide +kernel

/-- Only call 15 is enabled; it matches every minute at second 0. -/
def ringing (i : Option CallInst) : State :=
  { callOn (fetching 0x8000) { aCall 5 1 i with enabled := true, remaining := 1 } with rollover := true }

theorem meets_RolloverFiresTheMatchingCall :
    ({ on with rollover := true : State }.Runs ∧ { on with rollover := true : State }.rollover = true
        ∧ ∀ c : CallId, ¬ (on.calls[c].enabled = true ∧ on.calls[c].cfg.matchesAt on.tod = true))
      ∧ { idle with rollover := true : State }.engine ≠ .loaded
      ∧ (∀ i, i = none ∨ i = some (anInst .playing) →
          let s := ringing i
          s.Runs ∧ s.Quiet ∧ s.rollover = true ∧ s.engine = .loaded ∧ s.calls[(15 : CallId)].enabled = true
            ∧ s.calls[(15 : CallId)].cfg.matchesAt s.tod = true
            ∧ (∀ d : CallId, d ≠ 15 → ¬ (s.calls[d].enabled = true ∧ s.calls[d].cfg.matchesAt s.tod = true))
            ∧ s.calls[(15 : CallId)].inst = i ∧ s.voices[s.calls[(15 : CallId)].cfg.voice].state ≠ .idle
            ∧ 0 < s.calls[(15 : CallId)].cfg.patience) := by
  refine ⟨by decide +kernel, by decide +kernel, ?_⟩
  rintro i (rfl | rfl) <;> decide +kernel

def mirrored (n : Nat) : State :=
  { on with
    mirror := { on.mirror with
      base := some 0x8000, metersDue := true, levelsDue := true
      areas := on.mirror.areas.set 0 { count := 65535, pending := true, last := none } }
    wq := { on.wq with queue := List.replicate n (.cellFull 3) } }

/-- The premises of a statement do not read the mirror's base but where they name it. -/
theorem meets_a_hand_over (s : State) :
    let t : State := { s with mirror := { s.mirror with base := some 0x8000 } }
    t.mirror.base = some 0x8000 ∧ (∀ r, t.Takes r ↔ s.Takes r) ∧ t.zones = s.zones ∧ t.pages = s.pages :=
  ⟨rfl, fun _ => Iff.rfl, rfl, rfl⟩

/-- Every event ends in some state. -/
theorem an_event_ends (as : List Area) (s : State) : ∃ t, State.EndsAs as s t :=
  ⟨_, s.mirror.dirty, s.mirror.inUseChanged, fun _ h => h, fun h => h, rfl⟩

theorem meets_MirrorOffersAreWholeOrDropped :
    on.mirror.base = none
      ∧ ((mirrored 15).Runs ∧ (mirrored 15).Quiet ∧ (mirrored 15).mirror.base = some 0x8000
          ∧ (mirrored 15).wq.queue.length < 16)
      ∧ (16 ≤ (mirrored 16).wq.queue.length ∧ (mirrored 16).mirror.metersDue = true
          ∧ (mirrored 16).mirror.levelsDue = true ∧ offeredAtTick (mirrored 16) .engine = true)
      ∧ (let s := { mirrored 16 with voices := (withVoice (fetching 0x8000)).voices }
         offeredAtTick s .voices = true)
      ∧ ((mirrored 0).wq.queue = [] ∧ (mirrored 0).mirror.areas[(0 : Fin 11)].pending = true)
      ∧ (on.notes = [] ∧ on.level (.group 0) ≠ .steps 1)
      ∧ (Area.roles ∈ [Area.voices, .roles] ∧ Area.engine ∉ [Area.voices, .roles]
          ∧ ∀ b ∈ [Area.voices, .roles], Area.roles.index ≤ b.index)
      ∧ (offeredAtTick ((mirrored 15).turnAtTick .engine) .engine = true
          ∧ ((mirrored 15).turnAtTick .engine).wq.queue.length < 16)
      ∧ (let s := { mirrored 16 with voices := (withVoice (fetching 0x8000)).voices }
         offeredAtTick (s.turnAtTick .zones) .zones = false
           ∧ offeredAtTick (s.turnAtTick .voices) .voices = true
           ∧ 16 ≤ (s.turnAtTick .voices).wq.queue.length) := by
  refine ⟨?_, ?_, ?_, ?_, ?_, ?_, ?_, ?_, ?_⟩ <;> decide +kernel

/-- Every link has completed a frame in this frame of the sample clock. -/
def linked : State := { on with rx := Vector.replicate 4 { Receiver.reset with completed := true } }

/-- Frame 47 after the last tick ends, the next being the tick's. -/
theorem meets_SampleFrameIsSentAndBegun :
    (linked.Runs ∧ linked.Quiet ∧ linked.clock.sinceTick < 48 ∧ ∀ l : Link, linked.rx[l].completed = true
        ∧ linked.rx[l].lockDue = false ∧ linked.rx[l].unlockDue = false)
      ∧ { linked with clock := { linked.clock with sinceTick := 48 } }.TickIsDue
      ∧ ({ linked with engine := .stopped : State }.engine = .stopped
          ∧ (loading { origin := .stopped, todo := [], fail := none, staging := default }).load.map (·.origin)
            = some .stopped)
      ∧ (let x := { fetching 0x8000 with state := .stopping, resume := .playing, buffer := [5#24] }
         (x.state = .playing ∨ (x.state = .stopping ∧ x.resume = .playing)) ∧ x.buffer = [5#24])
      ∧ ¬ (Voice.reset.state = .playing ∨ (Voice.reset.state = .stopping ∧ Voice.reset.resume = .playing)) := by
  refine ⟨?_, ?_, ?_, ?_, ?_⟩ <;> decide +kernel

/-- Also in a frame in which the peaks were handed over. -/
theorem meets_nothing_due :
    settle linked = linked ∧ linked.mirror.peaksSkip = false
      ∧ (let s := { linked with mirror := { linked.mirror with peaksSkip := true } }
         s.Runs ∧ s.Quiet ∧ settle s = s) := by
  refine ⟨?_, by decide +kernel, by decide +kernel, by decide +kernel, ?_⟩ <;>
    refine settle_same _ ?_ ?_ ?_ (forall_gate ?_ ?_ ?_ ?_ ?_) ?_ ?_ ?_ ?_ <;> decide +kernel

/-- On link 3, LOCKED, no frame has completed and this many bad ones have come. -/
def missing (bad : Nat) : State :=
  { linked with rx := linked.rx.set 3 { Receiver.reset with locked := true, bad := bad } }

/-- The frame on which a link unlocks, and one with a link that misses its second frame. -/
theorem meets_SampleFrameIsSentAndBegun_missing :
    (∀ n, n = 2 ∨ n = 3 → (missing n).Runs ∧ (missing n).Quiet ∧ (missing n).clock.sinceTick < 48
        ∧ settle (missing n) = missing n ∧ (missing n).rx[(3 : Link)].completed = false
        ∧ (missing n).rx[(3 : Link)].locked = true ∧ (missing n).rx[(3 : Link)].bad = n
        ∧ linkOf 63 = 3)
      ∧ ∀ l : Link, (missing 2).rx[l].lockDue = false ∧ (missing 2).rx[l].unlockDue = false
          ∧ ((missing 2).rx[l].completed = false → (missing 2).rx[l].locked = true
            → (missing 2).rx[l].bad ≠ 3) := by
  refine ⟨?_, by decide +kernel⟩
  rintro n (rfl | rfl) <;> refine ⟨by decide +kernel, by decide +kernel, by decide +kernel, ?_,
    by decide +kernel, by decide +kernel, by decide +kernel, by decide⟩ <;>
    refine settle_same _ ?_ ?_ ?_ (forall_gate ?_ ?_ ?_ ?_ ?_) ?_ ?_ ?_ ?_ <;> decide +kernel

/-- A fade of GROUP 15 one tick short of its last tick, a cue's fade under the pause, a delay of 1 ms. -/
def lastButOne : FadeRec := { fading .request (.group 15) with elapsed := 1998 }

def pausedFade : FadeRec := fading (.firing { number := 7, serial := 3 }) (.group 15)

def pausedState : State := { withFade pausedFade with seq := { on.seq with pause := true } }

def oneLeft : FadeRec := { levelRec .request (.group 15) with delayLeft := 1 }

/-- The tick is due. -/
def dueTick (s : State) : State := { s with clock := { s.clock with sinceTick := 48 } }

theorem meets_MillisecondTickMovesEveryTimer :
    (on.Runs ∧ on.clock.sinceTick < 48)
      ∧ (let s := dueTick (withFade lastButOne)
         s.Runs ∧ s.Quiet ∧ s.TickIsDue ∧ s.fades[(0 : RecId)] = some lastButOne
           ∧ frozen s lastButOne = false ∧ lastButOne.fading = true
           ∧ lastButOne.elapsed + 1 < lastButOne.time
           ∧ lastButOne.content = .level (.group 15) (.steps (-72)) .steps
           ∧ ∀ j : RecId, j ≠ 0 → ∀ q, s.fades[j] = some q → q.elem? ≠ some (.group 15))
      ∧ ((dueTick pausedState).TickIsDue ∧ (dueTick pausedState).fades[(0 : RecId)] = some pausedFade
          ∧ frozen (dueTick pausedState) pausedFade = true)
      ∧ ((dueTick (withFade oneLeft)).TickIsDue ∧ (dueTick (withFade oneLeft)).fades[(0 : RecId)] = some oneLeft
          ∧ frozen (dueTick (withFade oneLeft)) oneLeft = false ∧ oneLeft.fading = false) := by
  refine ⟨by decide +kernel, ⟨rfl, ⟨rfl, rfl⟩, rfl, rfl, rfl, rfl, show 1998 + 1 < 2000 by decide, rfl, ?_⟩,
    ⟨rfl, rfl, rfl⟩, ⟨rfl, rfl, rfl, rfl⟩⟩
  intro j hj q hq
  exact absurd (only_record _ j q hq).1 hj

theorem meets_PortResetActsOnTheHostSide :
    (viewing .posted).PortFree ∧ (viewing .posted).port.view[(15 : SlotId)] = .posted
      ∧ { idle with rstl := .low1ms : State }.rstl = .low1ms
      ∧ (clearing [15] none).PortFree ∧ (clearing [15] none).port.clears ≠ [] := by decide +kernel

theorem meets_FullResetAndStartUpBeginAnew :
    idle.PortFree ∧ idle.rstl = .high ∧ idle.port.waiting = none ∧ idle.port.held = none
      ∧ (waiting (.read 0) 1 idle).port.waiting ≠ none
      ∧ (clearing [15] (some (.read 0))).port.held ≠ none
      ∧ { idle with rstl := .low20ms : State }.rstl = .low20ms
      ∧ (State.reset.phase = .fullReset ∧ State.reset.rstl ≠ .low20ms) := by decide +kernel

end Sys2Proof.Tests
end

section
/-! PROOF. R40 and R41: the split of a capped step sum, and the contribution of a sample at it. -/

namespace Sys2Proof.Proofs.Gain

open Sys2Proof.Machine

/-! ## The mantissa and the shift of a step sum (R40) -/

/-- M(m) at the mantissa index of a step sum. -/
def sumMantissa (S : Int) : Int := mantissa (S % 24).toNat

/-- The shift n at the exponent of a step sum. -/
def sumShift (S : Int) : Nat := (15 - S / 24).toNat

theorem gain_eq (x S : Int) :
    gain x S = (x * sumMantissa S + 2 ^ (sumShift S - 1)) / 2 ^ sumShift S := rfl

theorem mantissa_bounds : ∀ m < 24, 32768 ≤ mantissa m ∧ mantissa m < 65536 := by decide

/-- Each mantissa is the nearest integer to 32768 × 2^(m/24): both sides taken to the power 24. -/
theorem mantissa_nearest : ∀ m < 24,
    (2 * mantissa m - 1) ^ 24 < 65536 ^ 24 * 2 ^ m ∧ 65536 ^ 24 * 2 ^ m < (2 * mantissa m + 1) ^ 24 := by
  decide

theorem sumMantissa_bounds (S : Int) : 32768 ≤ sumMantissa S ∧ sumMantissa S < 65536 :=
  mantissa_bounds _ (by omega)

theorem le_sumShift {S : Int} {n : Nat} (h : S < 24 * (16 - n)) : n ≤ sumShift S := by
  unfold sumShift; omega

theorem sumShift_le {S : Int} {n : Nat} (h : 24 * (15 - n) ≤ S) : sumShift S ≤ n := by
  unfold sumShift; omega

/-- Below 0 the gain that a sum stands for is at most 1. -/
theorem sumMantissa_le_of_neg {S : Int} (hneg : S < 0) : sumMantissa S ≤ 1 * 2 ^ sumShift S := by
  have hM := (sumMantissa_bounds S).2
  have hn : 16 ≤ sumShift S := le_sumShift (by omega)
  have hpow : (2 : Int) ^ 16 ≤ 2 ^ sumShift S := pow_le_pow_right₀ (by decide) hn
  omega

/-- Up to the ceiling of +48 the gain is at most 4, and it is 4 at the ceiling alone, where m = 0. -/
theorem sumMantissa_le_of_le_ceiling {S : Int} (hhi : S ≤ 48) :
    sumMantissa S ≤ 4 * 2 ^ sumShift S := by
  obtain rfl | hlt := eq_or_lt_of_le hhi
  · decide
  · have hM := (sumMantissa_bounds S).2
    have hn : 14 ≤ sumShift S := le_sumShift (by omega)
    have hpow : (2 : Int) ^ 14 ≤ 2 ^ sumShift S := pow_le_pow_right₀ (by decide) hn
    omega

/-! ## The rounded quotient (R41) -/

theorem two_pow_sumShift_pos (S : Int) : (0 : Int) < 2 ^ sumShift S := by positivity

theorem mul_gain_le (x S : Int) :
    2 ^ sumShift S * gain x S ≤ x * sumMantissa S + 2 ^ (sumShift S - 1) := by
  rw [gain_eq]
  exact Int.mul_ediv_self_le (two_pow_sumShift_pos S).ne'

theorem lt_mul_gain_add_one (x S : Int) :
    x * sumMantissa S + 2 ^ (sumShift S - 1) < 2 ^ sumShift S * (gain x S + 1) := by
  rw [gain_eq, mul_comm (2 ^ sumShift S)]
  exact Int.lt_ediv_add_one_mul_self _ (two_pow_sumShift_pos S)

/-- A gain of at most the whole number `c` makes a sample at most `c` times as large: rounding to the
nearest integer does not leave the whole number `c * |x|`. -/
theorem natAbs_gain_le {x S : Int} {c : Nat} (hn : 0 < sumShift S)
    (hM : sumMantissa S ≤ c * 2 ^ sumShift S) : (gain x S).natAbs ≤ c * x.natAbs := by
  have hD := two_pow_sumShift_pos S
  have hhalf : (2 : Int) ^ (sumShift S - 1) < 2 ^ sumShift S :=
    pow_lt_pow_right₀ (by decide) (by omega)
  have hhalf_pos : (0 : Int) < 2 ^ (sumShift S - 1) := by positivity
  have hprod : |x * sumMantissa S| ≤ c * |x| * 2 ^ sumShift S := by
    rw [abs_mul, abs_of_nonneg (by linarith [(sumMantissa_bounds S).1] : 0 ≤ sumMantissa S)]
    calc |x| * sumMantissa S ≤ |x| * (c * 2 ^ sumShift S) := mul_le_mul_of_nonneg_left hM (abs_nonneg x)
      _ = c * |x| * 2 ^ sumShift S := by ring
  obtain ⟨hlow, hhigh⟩ := abs_le.mp hprod
  have hupper : gain x S < c * |x| + 1 := by
    rw [gain_eq]
    exact Int.ediv_lt_of_lt_mul hD (by linarith)
  have hlower : -(c * |x|) ≤ gain x S := by
    rw [gain_eq]
    exact Int.le_ediv_of_mul_le hD (by linarith)
  have habs : |gain x S| ≤ c * |x| := abs_le.mpr ⟨hlower, by omega⟩
  rw [Int.abs_eq_natAbs, Int.abs_eq_natAbs] at habs
  exact_mod_cast habs

theorem natAbs_gain_le_of_neg {x S : Int} (hneg : S < 0) : (gain x S).natAbs ≤ x.natAbs := by
  have hn : 0 < sumShift S := le_sumShift (by omega)
  simpa using natAbs_gain_le (c := 1) hn (sumMantissa_le_of_neg hneg)

theorem natAbs_sample_le (x : Sample) : x.toInt.natAbs ≤ 8388608 := by
  have hlo := x.le_toInt
  have hhi := x.toInt_lt
  omega

theorem natAbs_gain_le_largest (x : Sample) {S : Int} (hhi : S ≤ 48) :
    (gain x.toInt S).natAbs ≤ 33554432 := by
  have hn : 0 < sumShift S := le_sumShift (by omega)
  calc (gain x.toInt S).natAbs
      ≤ 4 * x.toInt.natAbs := natAbs_gain_le (c := 4) hn (sumMantissa_le_of_le_ceiling hhi)
    _ ≤ 4 * 8388608 := Nat.mul_le_mul_left 4 (natAbs_sample_le x)
    _ = 33554432 := rfl

/-- M = 2^15 and n = 15. -/
theorem gain_zero (x : Int) : gain x 0 = x := by
  show (x * 32768 + 16384) / 32768 = x
  omega

/-- M = 2^15 and n = 35: the sample is divided by 2^20. -/
theorem gain_floor_of_small {x : Int} (hx : x.natAbs < 524288) : gain x (-480) = 0 := by
  show (x * 32768 + 17179869184) / 34359738368 = 0
  omega

/-! ## The statement -/

/-- Settles O8: the split and the shift by linear arithmetic, the size of the contribution by the bounds
of the mantissa against the divisor, the table and the worked values by evaluation. -/
theorem contributionIsRoundedAndBounded : Obligations.ContributionIsRoundedAndBounded := by
  unfold Obligations.ContributionIsRoundedAndBounded
  refine ⟨fun x S hlo hhi => ?_, by decide, mantissa_nearest, by decide, by decide, by decide,
    by decide, by decide⟩
  refine ⟨by omega, by omega, by omega, le_sumShift (by omega), sumShift_le (by omega), by omega, by omega, by omega,
    mul_gain_le _ S, lt_mul_gain_add_one _ S, ?_, natAbs_gain_le_of_neg,
    natAbs_gain_le_largest x hhi, ?_⟩
  · rintro rfl
    exact gain_zero _
  · rintro rfl
    exact gain_floor_of_small

end Sys2Proof.Proofs.Gain
end

section
/-! PROOF. R170: a CAPTURE_NOW request captures into the MANUAL cell, or is refused BUSY. -/

namespace Sys2Proof.Proofs.Capture

open Sys2Proof.Machine

variable {s : State}

/-! ## An event and an EMPTY cell (R168) -/

/-- An EMPTY cell takes the event: its count of missed events begins again, and the writing of its words and
then of its FULL state joins the write queue. -/
theorem captureEvent_of_empty {c : CellId} (details : List Word) (h : s.cells[c].state = .empty) :
    captureEvent c details s
      = { s with
          cells := s.cells.set c { state := .filling, missed := 0 }
          wq := (s.wq.join .capture (.cellData c s.tod details)).join .capture (.cellFull c) } := by
  unfold captureEvent
  rw [h]
  rfl

/-! ## The owner of CAPTURE_NOW (R170) -/

/-- The answer to a CAPTURE_NOW that captured: the time of day. -/
def capturedAnswer (s : State) : Answer :=
  answer .ok (wordsOf (wordOf s.tod.day) (wordOf s.tod.hours) (wordOf s.tod.minutes)
    (wordOf (s.tod.seconds * 1000 + s.tod.ms)))

/-- The answer to a CAPTURE_NOW that found the cell in use: the events the cell has missed. -/
def inUseAnswer (s : State) : Answer :=
  answer .busy (wordsOf (wordOf s.cells[manualCell].missed) 0#32 0#32 0#32)

theorem captureNowOwner_of_empty (w0 w1 : Word) (h : s.cells[manualCell].state = .empty) :
    captureNowOwner w0 w1 s = (captureEvent manualCell [w0, w1] s, capturedAnswer s) := by
  unfold captureNowOwner
  rw [h]
  rfl

theorem captureNowOwner_of_not_empty (w0 w1 : Word) (h : s.cells[manualCell].state ≠ .empty) :
    captureNowOwner w0 w1 s = (s, inUseAnswer s) := by
  unfold captureNowOwner
  cases hc : s.cells[manualCell].state with
  | empty => exact absurd hc h
  | filling => rfl
  | full => rfl

/-! ## The request -/

theorem exec_captureNow (w0 w1 : Word) (h : s.Runs) :
    exec (.captureNow w0 w1) s = .next (request (.captureNow w0 w1) s) :=
  running_next _ h

theorem ownerOf_captureNow (w0 w1 : Word) : ownerOf (.captureNow w0 w1) s = later (captureNowOwner w0 w1 s) := rfl

/-- A request taken whose owner leaves `u`, but for the stage of the current request, ends as `u` answered,
with no area handed over, when the owner notes and marks nothing that `s` had not. -/
theorem request_answered_unmarked {r : Request} {u : State} {a : Answer} (ht : s.Takes r)
    (ho : ownerOf r (markHanded s) = (markHanded u, some a))
    (hn : u.notes = s.notes) (hm : u.marks = s.marks) : State.Answered [] u a (request r s) := by
  have ⟨_, ⟨hnotes, hmarks⟩, _, _⟩ := ht
  have hunmarked : (markHanded u).marks = [] := hm.trans hmarks
  exact request_answered ht ho rfl (hn.trans hnotes) (fun _ h => h) (fun h => h) (by simp [hunmarked])

/-- Settles O42: by the state in which the request finds the MANUAL cell; the capture joins the write queue
before the answer does. -/
theorem captureNowFillsTheManualCell : Obligations.CaptureNowFillsTheManualCell := by
  unfold Obligations.CaptureNowFillsTheManualCell
  intro s w0 w1 ht
  have ⟨hruns, _⟩ := ht
  refine ⟨_, exec_captureNow w0 w1 hruns, fun hempty => ?_, fun hused => ?_⟩
  · refine request_answered_unmarked ht ?_ rfl rfl
    rw [ownerOf_captureNow, captureNowOwner_of_empty (s := markHanded s) w0 w1 hempty,
      captureEvent_of_empty (s := markHanded s) (c := manualCell) [w0, w1] hempty]
    rfl
  · refine request_answered_unmarked ht ?_ rfl rfl
    rw [ownerOf_captureNow, captureNowOwner_of_not_empty (s := markHanded s) w0 w1 hused]
    rfl

end Sys2Proof.Proofs.Capture
end

section
/-! PROOF. What a step is: each command's operation, by the side it comes from, and what every operation leaves
alone. -/

namespace Sys2Proof.Proofs.Steps

open Sys2Proof.Machine

variable {c : Instr} {s t : State}

/-! ## The operation of each command -/

/-- The turn that a memory grant gives, where its fetch lies inside the installed memory. -/
def grantOp (s : State) : State :=
  if grantDue s then
    match nextUser s with
    | some u => finish (grant u s)
    | none => s
  else s

/-- What a command of the running part does outside a full reset. -/
def partOp : Instr → State → State
  | .linkFrame l w => linkFrame l w
  | .receiverLocked l => lockEvent l
  | .receiverUnlocked l => unlockEvent l
  | .wclkFallback => fallbackEvent
  | .wclkReturn => returnEvent
  | .channelPresentFalse ch => presentFalseEvent ch
  | .channelPresentTrue ch => presentTrueEvent ch
  | .confirmExpiry ch => confirmEvent ch
  | .holdTimerExpiry ch => holdTimerEvent ch
  | .batteryLowEdge ch => batteryEvent ch
  | .gateRampEnd g => rampEndEvent g
  | .holdAccepted l => acceptEvent l
  | .lineGo => lineGoEvent
  | .triggerEdge l => triggerEvent l
  | .guardExpiry => guardEvent
  | .followExpiry => followEvent
  | .cueFiring => firingEvent
  | .delayExpiry i => delayEvent i
  | .fadeComplete i => fadeEvent i
  | .burstArrival v => arrivalEvent v
  | .endOfSound v => soundEndEvent v
  | .stabilityWindowExpiry z => stabilityEvent z
  | .ampOkTrue z => ampOkEvent z
  | .sampleWindowExpiry z => sampleEvent z
  | .ampDrop z => ampDropEvent z
  | .idleTimerExpiry z => idleEvent z
  | .pageLimitExpiry p => limitEvent p
  | .secondRollover => rolloverEvent
  | .patienceExpiry k => patienceEvent k
  | .mirrorTick => mirrorEvent
  | .metersTick => metersEvent
  | .memoryGrant => grantOp
  | .writeBurstWritten => fun s => event (writtenDue s) burstWritten s
  | .slotTake => fun s => event (slotTakeDue s) takeSlot s
  | .requestDispatch => fun s => event (dispatchDue s) dispatch s
  | .loadRefused => fun s => event (refusedDue s) refuseLoad s
  | .install => fun s => event (installDue s) installLoad s
  | .loadShow => request .loadShow
  | .stopShow => request .stopShow
  | .go => request .go
  | .goTo n => request (.goTo n)
  | .pause => request .pause
  | .resume => request .resume
  | .completeAll => request .completeAll
  | .setLevel e x t k => request (.setLevel e x t k)
  | .swapTap r t x => request (.swapTap r t x)
  | .voiceStart v n x l => request (.voiceStart v n x l)
  | .voiceStop v t => request (.voiceStop v t)
  | .relay g on => request (.relay g on)
  | .clearZoneFault g => request (.clearZoneFault g)
  | .pageOpen g src p x => request (.pageOpen g src p x)
  | .pageClose p => request (.pageClose p)
  | .callNow k => request (.callNow k)
  | .setTime d h m n => request (.setTime d h m n)
  | .lock l => request (.lock l)
  | .unlock => request .unlock
  | .captureNow a b => request (.captureNow a b)
  | .sampleFrame go trig => sampleFrame go trig
  | .millisecondTick hold ampOk => millisecondTick hold ampOk
  | .wclkPresenceJudgement ns => judgeWclk ns
  | .frameClockRealignment => realign
  | _ => id

/-- What a host access does once the port takes it. -/
def accessOp : Instr → State → State
  | .cellReturn k w d => arrive (.write (cellBase k + 4 * w.val) d)
  | .hostRead a => readWindow a
  | .hostWrite a d => arrive (.write (wordAddr a) d)
  | .slotPost i => arrive (.write (slotBase i) 1#32)
  | .slotWithdraw i => arrive (.write (slotBase i) 0#32)
  | .slotReturn i => arrive (.write (slotBase i) 0#32)
  | .noticeWrite v => fun s => endAccess false 0#32 (writeNotice v s)
  | .noticeMaskWrite v => fun s => endAccess false 0#32 (writeNoticeMask v s)
  | .registerWriteIgnored _ _ => endAccess false 0#32
  | .portReset => fun s => endAccess false 0#32 (resetPort s)
  | .fullReset => fun s => endAccess false 0#32 (fullResetState s)
  | _ => id

/-- What a level of RSTL or a start-up does. -/
def resetOp : Instr → State → State
  | .rstlHeld1ms => fun s => if s.rstl = .high then rstl1ms s else s
  | .rstlHeld20ms => fun s => if s.rstl = .low1ms then { fullResetState s with rstl := .low20ms } else s
  | .rstlRelease => rstlReleased
  | .startUp size => fun s => if startUpDue s then startUp size s else s
  | _ => id

theorem exec_of_part (h : c.side = .part) (hg : c ≠ .memoryGrant) (s : State) :
    exec c s = running (partOp c) s := by
  cases c with
  | memoryGrant => exact absurd rfl hg
  | hostRead a => cases a <;> exact absurd h (by simp [Instr.side])
  | cellReturn | hostWrite | slotPost | slotWithdraw | slotReturn | noticeWrite | noticeMaskWrite
  | registerWriteIgnored | portReset | fullReset | rstlHeld1ms | rstlHeld20ms | rstlRelease | startUp =>
    exact absurd h (by simp [Instr.side])
  | _ => rfl

theorem exec_of_access (h : c.hostAccess = true) (s : State) :
    exec c s = .next (portAccess (accessOp c) s) := by
  cases c with
  | hostRead | cellReturn | hostWrite | slotPost | slotWithdraw | slotReturn | noticeWrite
  | noticeMaskWrite | registerWriteIgnored | portReset | fullReset => rfl
  | _ => exact absurd h (by simp [Instr.hostAccess, Instr.side])

theorem exec_of_reset (h : c.side = .reset) (s : State) : exec c s = .next (resetOp c s) := by
  cases c with
  | hostRead a => cases a <;> exact absurd h (by simp [Instr.side])
  | rstlHeld1ms | rstlHeld20ms | rstlRelease | startUp => rfl
  | _ => exact absurd h (by simp [Instr.side])

/-- A memory grant stops the model for a fetch outside the installed memory alone (log 28). -/
theorem exec_memoryGrant (s : State) :
    exec .memoryGrant s = running grantOp s
      ∨ exec .memoryGrant s = .fault .outsideMemory ∧ ∃ v, fetchInside s v = false := by
  show execMemoryGrant s = _ ∨ execMemoryGrant s = _ ∧ _
  unfold execMemoryGrant running grantOp
  by_cases hp : s.phase = .running
  · by_cases hd : grantDue s = true
    · rcases hu : nextUser s with _ | u
      · simp [hp, hd]
      · cases u with
        | fetch v => 
          cases hv : fetchInside s v with
          | true => exact .inl (by simp [hp, hd, hv])
          | false => exact .inr ⟨by simp [hp, hd, hv], v, hv⟩
        | host | read | write => simp [hp, hd]
    · simp [hp, hd]
  · simp [hp]

/-- Every command comes from the part, from the host or from the reset lines. -/
theorem side_cases (c : Instr) : c.side = .part ∨ c.hostAccess = true ∨ c.side = .reset := by
  unfold Instr.hostAccess
  cases c.side <;> simp

/-- What a command that answers a next state has done. -/
theorem exec_next_cases (h : exec c s = .next t) :
    (c.side = .part ∧ s.phase = .running ∧ t = partOp c s)
      ∨ (c.side = .part ∧ s.phase = .fullReset ∧ t = s)
      ∨ (c.hostAccess = true ∧ t = portAccess (accessOp c) s)
      ∨ (c.side = .reset ∧ t = resetOp c s) := by
  have part (hc : c.side = .part) (hr : exec c s = running (partOp c) s) :
      (c.side = .part ∧ s.phase = .running ∧ t = partOp c s)
        ∨ (c.side = .part ∧ s.phase = .fullReset ∧ t = s) := by
    rcases running_cases (hr.symm.trans h) with ⟨hp, ht⟩ | ⟨hp, ht⟩
    · exact .inl ⟨hc, hp, ht⟩
    · exact .inr ⟨hc, hp, ht⟩
  rcases side_cases c with hc | hc | hc
  · by_cases hg : c = .memoryGrant
    · subst hg
      rcases exec_memoryGrant s with hr | ⟨hf, _⟩
      · exact (part rfl hr).imp_right .inl
      · rw [hf] at h; cases h
    · exact (part hc (exec_of_part hc hg s)).imp_right .inl
  · rw [exec_of_access hc] at h
    cases h
    exact .inr (.inr (.inl ⟨hc, rfl⟩))
  · rw [exec_of_reset hc] at h
    cases h
    exact .inr (.inr (.inr ⟨hc, rfl⟩))

/-! ## What the operations keep -/

theorem keeps_request (r : Request) : Keeps s (request r s) :=
  keeps_event (fun _ h => keeps_handOver r h) (.refl s)

/-- An operation of the part other than a turn of memory touches neither commands, phase, RSTL nor memory. -/
theorem keeps_partOp (hw : c.writesMemory = false) : Keeps s (partOp c s) := by
  have h := Keeps.refl s
  cases c with
  | linkFrame l w => exact keeps_linkFrame l w h
  | receiverLocked l => exact keeps_lockEvent l h
  | receiverUnlocked l => exact keeps_unlockEvent l h
  | wclkFallback => exact keeps_fallbackEvent h
  | wclkReturn => exact keeps_returnEvent h
  | channelPresentFalse ch => exact keeps_presentFalseEvent ch h
  | channelPresentTrue ch => exact keeps_presentTrueEvent ch h
  | confirmExpiry ch => exact keeps_confirmEvent ch h
  | holdTimerExpiry ch => exact keeps_holdTimerEvent ch h
  | batteryLowEdge ch => exact keeps_batteryEvent ch h
  | gateRampEnd g => exact keeps_rampEndEvent g h
  | holdAccepted l => exact keeps_acceptEvent l h
  | lineGo => exact keeps_lineGoEvent h
  | triggerEdge l => exact keeps_triggerEvent l h
  | guardExpiry => exact keeps_guardEvent h
  | followExpiry => exact keeps_followEvent h
  | cueFiring => exact keeps_firingEvent h
  | delayExpiry i => exact keeps_delayEvent i h
  | fadeComplete i => exact keeps_fadeEvent i h
  | burstArrival v => exact keeps_arrivalEvent v h
  | endOfSound v => exact keeps_soundEndEvent v h
  | stabilityWindowExpiry z => exact keeps_stabilityEvent z h
  | ampOkTrue z => exact keeps_ampOkEvent z h
  | sampleWindowExpiry z => exact keeps_sampleEvent z h
  | ampDrop z => exact keeps_ampDropEvent z h
  | idleTimerExpiry z => exact keeps_idleEvent z h
  | pageLimitExpiry p => exact keeps_limitEvent p h
  | secondRollover => exact keeps_rolloverEvent h
  | patienceExpiry k => exact keeps_patienceEvent k h
  | mirrorTick => exact keeps_mirrorEvent h
  | metersTick => exact keeps_metersEvent h
  | slotTake => exact keeps_event (fun _ => keeps_takeSlot) h
  | requestDispatch => exact keeps_event (fun _ => keeps_dispatch) h
  | loadRefused => exact keeps_event (fun _ => keeps_refuseLoad) h
  | install => exact keeps_event (fun _ => keeps_installLoad) h
  | sampleFrame go trig => exact keeps_sampleFrame go trig h
  | millisecondTick hold ampOk => exact keeps_millisecondTick hold ampOk h
  | wclkPresenceJudgement ns => exact keeps_judgeWclk ns h
  | frameClockRealignment => exact keeps_realign h
  | memoryGrant | writeBurstWritten | startUp => exact absurd hw (by simp [Instr.writesMemory])
  | loadShow | stopShow | go | goTo | pause | resume | completeAll | setLevel | swapTap | voiceStart
  | voiceStop | relay | clearZoneFault | pageOpen | pageClose | callNow | setTime | lock | unlock
  | captureNow => exact keeps_request _
  | _ => exact h

theorem finish_pending (s : State) : (finish s).pending = s.pending := (keeps_finish (.refl s)).pending

theorem finish_mem (s : State) : (finish s).mem = s.mem := (keeps_finish (.refl s)).mem

theorem finish_bounded (h : s.wq.Bounded) : (finish s).wq.Bounded := (keeps_finish (.refl s)).bounded h

/-- Every turn but the host's leaves show memory alone. -/
theorem keeps_grant {u : User} (h : u ≠ .host) : Keeps s (grant u s) := by
  cases u with
  | fetch v => exact keeps_grantFetch v (.refl s)
  | host => exact absurd rfl h
  | read r => exact keeps_engineRead r (.refl s)
  | write => exact keeps_countTurn (keeps_setBusy _ (.refl s))

/-- A turn of memory leaves the queue of commands alone, keeps memory canonical and the write queue bounded. -/
theorem grant_law (u : User) (s : State) :
    (grant u s).pending = s.pending ∧ (Memory.wf s.mem → Memory.wf (grant u s).mem)
      ∧ (s.wq.Bounded → (grant u s).wq.Bounded) := by
  by_cases hu : u = .host
  · subst hu
    obtain ⟨hp, hq, _, _, _⟩ := hostTurn_law s
    exact ⟨hp, wf_hostTurn, fun h => hq ▸ h⟩
  · have k := keeps_grant (s := s) hu
    exact ⟨k.pending, fun h => k.mem ▸ h, k.bounded⟩

theorem burstWritten_law (s : State) :
    (burstWritten s).pending = s.pending ∧ (Memory.wf s.mem → Memory.wf (burstWritten s).mem)
      ∧ (s.wq.Bounded → (burstWritten s).wq.Bounded) := by
  cases hq : s.wq.queue with
  | nil => unfold burstWritten; rw [hq]; exact ⟨rfl, id, id⟩
  | cons b l =>
    obtain ⟨hm, hw, hp, _, _⟩ := burstWritten_cons hq
    exact ⟨hp, fun h => hm ▸ Memory.wf_writeAll _ _ h, fun h => hw ▸ bounded_leaveHead h⟩

/-- An event keeps what its operation and the end of an event keep. -/
theorem event_induct {P : State → Prop} {due : Bool} {op : State → State} (hs : P s)
    (h : P (finish (op s))) : P (event due op s) := by
  unfold event
  split
  · exact h
  · exact hs

/-- What every operation of the part keeps: the queue of commands, memory canonical, the write queue bounded. -/
theorem partOp_law (c : Instr) (s : State) :
    (partOp c s).pending = s.pending ∧ (Memory.wf s.mem → Memory.wf (partOp c s).mem)
      ∧ (s.wq.Bounded → (partOp c s).wq.Bounded) := by
  have finished {op : State → State} (h : (op s).pending = s.pending
      ∧ (Memory.wf s.mem → Memory.wf (op s).mem) ∧ (s.wq.Bounded → (op s).wq.Bounded)) :
      (finish (op s)).pending = s.pending ∧ (Memory.wf s.mem → Memory.wf (finish (op s)).mem)
        ∧ (s.wq.Bounded → (finish (op s)).wq.Bounded) := by
    obtain ⟨hp, hm, hq⟩ := h
    exact ⟨(finish_pending _).trans hp, fun w => (finish_mem _).symm ▸ hm w, fun b => finish_bounded (hq b)⟩
  by_cases hw : c.writesMemory = false
  · have k := keeps_partOp (s := s) hw
    exact ⟨k.pending, fun h => k.mem ▸ h, k.bounded⟩
  · cases c with
    | memoryGrant =>
      show (grantOp s).pending = _ ∧ (_ → Memory.wf (grantOp s).mem) ∧ (_ → (grantOp s).wq.Bounded)
      unfold grantOp
      split
      · split
        · exact finished (grant_law _ s)
        · exact ⟨rfl, id, id⟩
      · exact ⟨rfl, id, id⟩
    | writeBurstWritten =>
      exact event_induct
        (P := fun t => t.pending = s.pending ∧ (Memory.wf s.mem → Memory.wf t.mem)
          ∧ (s.wq.Bounded → t.wq.Bounded))
        ⟨rfl, id, id⟩ (finished (burstWritten_law s))
    | startUp => exact ⟨rfl, id, id⟩
    | _ => exact absurd rfl hw

theorem reset_bounded : State.reset.wq.Bounded := by decide

/-- A host access touches neither the queue of commands nor memory. -/
theorem accessOp_law (c : Instr) (s : State) :
    (accessOp c s).pending = s.pending ∧ (accessOp c s).mem = s.mem
      ∧ (s.wq.Bounded → (accessOp c s).wq.Bounded) := by
  have kept {t : State} (k : Keeps s t) : t.pending = s.pending ∧ t.mem = s.mem
      ∧ (s.wq.Bounded → t.wq.Bounded) := ⟨k.pending, k.mem, k.bounded⟩
  cases c with
  | cellReturn | hostWrite | slotPost | slotWithdraw | slotReturn => exact kept (keeps_arrive _ (.refl s))
  | hostRead a => exact kept (keeps_readWindow a)
  | fullReset => exact ⟨rfl, rfl, fun _ => reset_bounded⟩
  | _ => exact ⟨rfl, rfl, id⟩

theorem portAccess_law (c : Instr) (s : State) :
    (portAccess (accessOp c) s).pending = s.pending ∧ (portAccess (accessOp c) s).mem = s.mem
      ∧ (s.wq.Bounded → (portAccess (accessOp c) s).wq.Bounded) := by
  rcases portAccess_cases (accessOp c) s with ⟨_, h⟩ | ⟨_, _, h⟩ | ⟨_, _, h⟩ <;> rw [h]
  · exact ⟨rfl, rfl, id⟩
  · exact ⟨rfl, rfl, id⟩
  · exact accessOp_law c s

theorem rstl1ms_frame (s : State) :
    (rstl1ms s).pending = s.pending ∧ (rstl1ms s).mem = s.mem ∧ (rstl1ms s).wq = s.wq
      ∧ (rstl1ms s).notes = s.notes ∧ (rstl1ms s).marks = s.marks := by
  unfold rstl1ms
  dsimp only
  split <;> exact ⟨rfl, rfl, rfl, rfl, rfl⟩

theorem rstlReleased_frame (s : State) :
    (rstlReleased s).pending = s.pending ∧ (rstlReleased s).mem = s.mem ∧ (rstlReleased s).wq = s.wq
      ∧ (rstlReleased s).notes = s.notes ∧ (rstlReleased s).marks = s.marks := by
  unfold rstlReleased
  split <;> exact ⟨rfl, rfl, rfl, rfl, rfl⟩

theorem startUp_frame (size : DramSize) (s : State) :
    (startUp size s).pending = s.pending ∧ (startUp size s).mem = Memory.writeAll s.mem startUpWords
      ∧ (startUp size s).wq = s.wq ∧ (startUp size s).notes = s.notes ∧ (startUp size s).marks = s.marks := by
  simp only [startUp, updNotice_pending, updNotice_mem, updNotice_wq, updNotice_notes, updNotice_marks, and_self]

theorem fullResetState_frame (s : State) :
    (fullResetState s).pending = s.pending ∧ (fullResetState s).mem = s.mem
      ∧ (fullResetState s).wq = State.reset.wq ∧ (fullResetState s).Quiet := ⟨rfl, rfl, rfl, rfl, rfl⟩

/-- A level of RSTL leaves the queue of commands alone, and memory but at start-up. -/
theorem resetOp_law (c : Instr) (s : State) :
    (resetOp c s).pending = s.pending ∧ (c.writesMemory = false → (resetOp c s).mem = s.mem)
      ∧ (Memory.wf s.mem → Memory.wf (resetOp c s).mem) ∧ (s.wq.Bounded → (resetOp c s).wq.Bounded) := by
  have same {u : State} (hp : u.pending = s.pending) (hm : u.mem = s.mem) (hq : s.wq.Bounded → u.wq.Bounded) :
      u.pending = s.pending ∧ (c.writesMemory = false → u.mem = s.mem)
        ∧ (Memory.wf s.mem → Memory.wf u.mem) ∧ (s.wq.Bounded → u.wq.Bounded) :=
    ⟨hp, fun _ => hm, fun w => hm ▸ w, hq⟩
  cases c with
  | rstlHeld1ms =>
    obtain ⟨hp, hm, hq, _⟩ := rstl1ms_frame s
    unfold resetOp
    dsimp only
    split
    · exact same hp hm fun b => hq ▸ b
    · exact same rfl rfl id
  | rstlHeld20ms =>
    obtain ⟨hp, hm, hq, _⟩ := fullResetState_frame s
    unfold resetOp
    dsimp only
    split
    · exact same hp hm fun _ => hq ▸ reset_bounded
    · exact same rfl rfl id
  | rstlRelease =>
    obtain ⟨hp, hm, hq, _⟩ := rstlReleased_frame s
    exact same hp hm fun b => hq ▸ b
  | startUp size =>
    obtain ⟨hp, hm, hq, _⟩ := startUp_frame size s
    unfold resetOp
    dsimp only
    split
    · exact ⟨hp, fun h => absurd h (by simp [Instr.writesMemory]), fun w => hm ▸ Memory.wf_writeAll _ _ w,
        fun b => hq ▸ b⟩
    · exact same rfl rfl id
  | _ => exact same rfl rfl id

/-! ## Nothing is left over between steps (log 22, 30) -/

theorem quiet_event {due : Bool} {op : State → State} (h : s.Quiet) : (event due op s).Quiet :=
  event_induct h finish_quiet

theorem quiet_of_eq (h : s.Quiet) (hn : t.notes = s.notes) (hm : t.marks = s.marks) : t.Quiet := by
  obtain ⟨h1, h2⟩ := h
  exact ⟨hn.trans h1, hm.trans h2⟩

theorem quiet_partOp (h : s.Quiet) : (partOp c s).Quiet := by
  cases c with
  | linkFrame l w =>
    exact quiet_of_eq (s := lockEvent l (unlockEvent l s)) (quiet_event (quiet_event h)) rfl rfl
  | memoryGrant =>
    show (grantOp s).Quiet
    unfold grantOp
    split
    · split
      · exact finish_quiet
      · exact h
    · exact h
  | sampleFrame go trig =>
    show (sampleFrame go trig s).Quiet
    unfold sampleFrame
    split
    · exact h
    · exact finish_quiet
  | millisecondTick hold ampOk =>
    show (millisecondTick hold ampOk s).Quiet
    unfold millisecondTick
    split
    · exact finish_quiet
    · exact h
  | wclkPresenceJudgement ns =>
    exact quiet_of_eq (s := settleClock s) (quiet_event (quiet_event h)) rfl rfl
  | frameClockRealignment =>
    show (realign s).Quiet
    unfold realign
    split <;> exact h
  | cellReturn | hostRead | hostWrite | slotPost | slotWithdraw | slotReturn | noticeWrite | noticeMaskWrite
  | registerWriteIgnored | portReset | fullReset | rstlHeld1ms | rstlHeld20ms | rstlRelease | startUp =>
    exact h
  | _ => exact quiet_event h

theorem quiet_arrive {a : HostAccess} (h : s.Quiet) : (arrive a s).Quiet := by
  unfold arrive
  split
  · obtain ⟨hn, hm, _⟩ := admit_notes_marks a s
    exact quiet_of_eq h hn hm
  · exact h

theorem quiet_access (h : s.Quiet) : (portAccess (accessOp c) s).Quiet := by
  rcases portAccess_cases (accessOp c) s with ⟨_, hp⟩ | ⟨_, _, hp⟩ | ⟨_, _, hp⟩ <;> rw [hp]
  · exact h
  · exact h
  · cases c with
    | cellReturn | hostWrite | slotPost | slotWithdraw | slotReturn => exact quiet_arrive h
    | hostRead a =>
      show (readWindow a s).Quiet
      obtain ⟨b, _, hr⟩ | ⟨b, _, hr⟩ := readWindow_cases a s <;> rw [hr]
      · exact quiet_arrive h
      · exact h
    | fullReset => exact ⟨rfl, rfl⟩
    | _ => exact h

theorem quiet_resetOp (h : s.Quiet) : (resetOp c s).Quiet := by
  cases c with
  | rstlHeld1ms =>
    obtain ⟨_, _, _, hn, hm⟩ := rstl1ms_frame s
    unfold resetOp
    dsimp only
    split
    · exact quiet_of_eq h hn hm
    · exact h
  | rstlHeld20ms =>
    obtain ⟨_, _, _, hq⟩ := fullResetState_frame s
    unfold resetOp
    dsimp only
    split
    · exact hq
    · exact h
  | rstlRelease =>
    obtain ⟨_, _, _, hn, hm⟩ := rstlReleased_frame s
    exact quiet_of_eq h hn hm
  | startUp size =>
    obtain ⟨_, _, _, hn, hm⟩ := startUp_frame size s
    unfold resetOp
    dsimp only
    split
    · exact quiet_of_eq h hn hm
    · exact h
  | _ => exact h

/-! ## The statements -/

/-- Settles O1: a step is exec by definition, and no table word spells a command. -/
theorem stepRunsTheCommandInFront : Obligations.StepRunsTheCommandInFront := by
  unfold Obligations.StepRunsTheCommandInFront
  refine ⟨fun c rest s => rfl, fun s h => ?_, fun s nbits w => ⟨rfl, rfl⟩⟩
  unfold step
  rw [h]

/-- Settles O2: by the side the command comes from; a turn of memory, a burst written and start-up keep the
queue of commands, and every other operation keeps memory too. -/
theorem commandsKeepQueueAndMemory : Obligations.CommandsKeepQueueAndMemory := by
  unfold Obligations.CommandsKeepQueueAndMemory
  intro c s t h
  rcases exec_next_cases h with ⟨_, _, rfl⟩ | ⟨_, _, rfl⟩ | ⟨_, rfl⟩ | ⟨_, rfl⟩
  · exact ⟨(partOp_law c s).1, fun hw => (keeps_partOp hw).mem⟩
  · exact ⟨rfl, fun _ => rfl⟩
  · obtain ⟨hp, hm, _⟩ := portAccess_law c s
    exact ⟨hp, fun _ => hm⟩
  · obtain ⟨hp, hm, _⟩ := resetOp_law c s
    exact ⟨hp, hm⟩

theorem inv_exec (hi : s.Inv) (h : exec c s = .next t) : t.Inv := by
  obtain ⟨hm, hb, hq⟩ := hi
  rcases exec_next_cases h with ⟨_, _, rfl⟩ | ⟨_, _, rfl⟩ | ⟨_, rfl⟩ | ⟨_, rfl⟩
  · obtain ⟨_, km, kb⟩ := partOp_law c s
    exact ⟨km hm, kb hb, quiet_partOp hq⟩
  · exact ⟨hm, hb, hq⟩
  · obtain ⟨_, km, kb⟩ := portAccess_law c s
    exact ⟨km ▸ hm, kb hb, quiet_access hq⟩
  · obtain ⟨_, _, km, kb⟩ := resetOp_law c s
    exact ⟨km hm, kb hb, quiet_resetOp hq⟩

/-- Settles O3: a step is an idle one or that of a command, each side of which keeps the invariant. -/
theorem everyStepKeepsTheInvariant : Obligations.EveryStepKeepsTheInvariant := by
  unfold Obligations.EveryStepKeepsTheInvariant
  intro s t hi h
  unfold step at h
  split at h
  · cases h; exact hi
  · next c rest _ => exact inv_exec (s := { s with pending := rest }) hi h

theorem exec_not_refused (c : Instr) (s : State) (r : Refusal) : exec c s ≠ .refused r := by
  have hrun (f : State → State) : running f s ≠ .refused r := by
    unfold running
    split <;> exact nofun
  rcases side_cases c with hc | hc | hc
  · by_cases hg : c = .memoryGrant
    · subst hg
      rcases exec_memoryGrant s with h | ⟨h, _⟩ <;> rw [h]
      · exact hrun _
      · exact nofun
    · rw [exec_of_part hc hg]
      exact hrun _
  · rw [exec_of_access hc]
    exact nofun
  · rw [exec_of_reset hc]
    exact nofun

theorem exec_fault {f : Fault} (h : exec c s = .fault f) :
    c = .memoryGrant ∧ ∃ v, fetchInside s v = false := by
  have hrun (g : State → State) : running g s ≠ .fault f := by
    unfold running
    split <;> exact nofun
  rcases side_cases c with hc | hc | hc
  · by_cases hg : c = .memoryGrant
    · subst hg
      rcases exec_memoryGrant s with hr | ⟨_, hv⟩
      · exact absurd (hr ▸ h) (hrun _)
      · exact ⟨rfl, hv⟩
    · exact absurd (exec_of_part hc hg s ▸ h) (hrun _)
  · rw [exec_of_access hc] at h
    cases h
  · rw [exec_of_reset hc] at h
    cases h

/-- Settles O5: no side refuses a command, and a memory grant alone can stop. -/
theorem onlyAStrayFetchStopsTheModel : Obligations.OnlyAStrayFetchStopsTheModel := by
  unfold Obligations.OnlyAStrayFetchStopsTheModel
  refine ⟨fun c s => ⟨exec_not_refused c s, fun f => exec_fault⟩, fun s hin => ?_⟩
  unfold step
  split
  · exact ⟨s, rfl⟩
  · next c rest _ =>
    cases he : exec c { s with pending := rest } with
    | next t => exact ⟨t, rfl⟩
    | fault f =>
      obtain ⟨_, v, hv⟩ := exec_fault he
      exact absurd ((hin v).symm.trans hv) (by simp)
    | refused r => exact absurd he (exec_not_refused c _ r)

/-- Settles O6: a command of the part is without effect in a full reset, and an access of a port that is held
off ends with ERR. -/
theorem resetsHoldThePart : Obligations.ResetsHoldThePart := by
  unfold Obligations.ResetsHoldThePart
  refine ⟨fun c s hp hc => ?_, fun c s hc hbusy hblocked => ?_⟩
  · by_cases hg : c = .memoryGrant
    · subst hg
      show execMemoryGrant s = _
      simp [execMemoryGrant, hp]
    · rw [exec_of_part hc hg, running_reset _ hp]
  · rw [exec_of_access hc]
    unfold portAccess
    rw [if_neg (by simp [hbusy]), if_pos hblocked]
    rfl

end Sys2Proof.Proofs.Steps
end

section
/-! PROOF. A word of show memory, the fade law, the gates and the time of day. -/

namespace Sys2Proof.Proofs.Basics

open Sys2Proof.Machine

/-! ## A word of show memory -/

/-- The four bytes that a word write leaves, in little-endian order. -/
theorem readByte_writeWord_inside (m : Memory) (a : Nat) (w : Word) {k : Nat} (hk : k < 4) :
    Memory.readByte (Memory.writeWord m a w) (a + k) = w.extractLsb' (8 * k) 8 := by
  simp only [Memory.writeWord, Memory.readByte, Memory.get?_writeByte]
  obtain rfl | rfl | rfl | rfl : k = 0 ∨ k = 1 ∨ k = 2 ∨ k = 3 := by omega
  all_goals simp

theorem append_extractLsb'_bytes (w : Word) :
    (w.extractLsb' 24 8 ++ w.extractLsb' 16 8 ++ w.extractLsb' 8 8 ++ w.extractLsb' 0 8 : BitVec 32) = w := by
  ext i hi
  simp only [BitVec.getElem_append, BitVec.getElem_extractLsb']
  split
  · simp [BitVec.getLsbD_eq_getElem hi]
  · split
    · rw [show 8 + (i - 8) = i by omega, BitVec.getLsbD_eq_getElem hi]
    · split
      · rw [show 16 + (i - 8 - 8) = i by omega, BitVec.getLsbD_eq_getElem hi]
      · rw [show 24 + (i - 8 - 8 - 8) = i by omega, BitVec.getLsbD_eq_getElem hi]

/-- Settles O7: byte by byte, the four bytes put together again being the word. -/
theorem writtenWordReadsBack : Obligations.WrittenWordReadsBack := by
  unfold Obligations.WrittenWordReadsBack
  intro m a w
  refine ⟨?_, fun k => readByte_writeWord_inside m a w, fun b => Memory.readByte_writeWord_other m a b w⟩
  have h0 := readByte_writeWord_inside m a w (k := 0) (by omega)
  have h1 := readByte_writeWord_inside m a w (k := 1) (by omega)
  have h2 := readByte_writeWord_inside m a w (k := 2) (by omega)
  have h3 := readByte_writeWord_inside m a w (k := 3) (by omega)
  rw [Memory.readWord, h1, h2, h3, show Memory.readByte (Memory.writeWord m a w) a = _ from h0]
  exact append_extractLsb'_bytes w

/-! ## The fade law (R51) -/

theorem fadeValue_of_lt {a b : Int} {T e : Nat} (h : e < T) :
    fadeValue a b T e = a + Int.tdiv ((b - a) * e) T := if_pos h

theorem fadeValue_end (a b : Int) (T : Nat) : fadeValue a b T T = b := if_neg (lt_irrefl T)

/-- A rising and a falling fade are mirror images. -/
theorem fadeValue_add_swap (a b : Int) (T e : Nat) : fadeValue a b T e + fadeValue b a T e = a + b := by
  unfold fadeValue
  split
  · have h : (a - b) * (e : Int) = -((b - a) * e) := by ring
    rw [h, Int.neg_tdiv]
    ring
  · ring

/-- A rising fade stays between its start and its line. -/
theorem fadeValue_rising {a b : Int} {T e : Nat} (h : e < T) (hab : a ≤ b) :
    a ≤ fadeValue a b T e ∧ (fadeValue a b T e - a) * T ≤ (b - a) * e := by
  have hn : 0 ≤ (b - a) * (e : Int) := mul_nonneg (by omega) (by omega)
  rw [fadeValue_of_lt h, Int.tdiv_eq_ediv_of_nonneg hn]
  have hlow : 0 ≤ (b - a) * (e : Int) / T := Int.ediv_nonneg hn (Int.natCast_nonneg T)
  refine ⟨by omega, ?_⟩
  rw [add_sub_cancel_left]
  exact Int.ediv_mul_le _ (by omega)

/-- The manual's fade of 72 steps in 2000 ms. -/
theorem fadeValue_72 {e : Nat} (h : e < 2000) : fadeValue 0 72 2000 e = 72 * (e : Int) / 2000 := by
  rw [fadeValue_of_lt h, zero_add, sub_zero, Int.tdiv_eq_ediv_of_nonneg (by omega)]
  rfl

/-- Settles O9: a falling fade is the mirror image of a rising one, which stays below its line as a quotient
cut to a whole number. -/
theorem fadeKeepsToItsLine : Obligations.FadeKeepsToItsLine := by
  unfold Obligations.FadeKeepsToItsLine
  refine ⟨fun a b T e he => ⟨fadeValue_of_lt, ?_, ?_, fadeValue_rising, ?_, fadeValue_add_swap a b T e⟩,
    ?_, ?_, ?_, ?_, ?_⟩
  · rintro rfl
    exact fadeValue_end a b e
  · rintro rfl hT
    simp [fadeValue_of_lt hT]
  · intro hlt hba
    have hmirror := fadeValue_add_swap a b T e
    obtain ⟨hlow, hline⟩ := fadeValue_rising hlt hba
    have hdist : a - fadeValue a b T e = fadeValue b a T e - b := by omega
    exact ⟨by omega, hdist ▸ hline⟩
  · intro e he
    rw [fadeValue_72 (by omega)]
    omega
  · exact fadeValue_72 (by omega)
  · exact fadeValue_72 (by omega)
  · exact fadeValue_72 (by omega)
  · intro e hlo hhi
    rw [fadeValue_72 hhi]
    omega

/-! ## Gates (R54 to R56) -/

/-- A gate that stands or moves elsewhere than the target it is commanded to. -/
abbrev Elsewhere (g : Gate) (b : Int) : Prop :=
  (∀ r, g.ramp = some r → r.target ≠ b) ∧ (g.ramp = none → g.value ≠ restValue b)

theorem command_same {g : Gate} {b : Int} {T : Nat}
    (h : (g.ramp = none ∧ g.value = restValue b) ∨ ∃ r, g.ramp = some r ∧ r.target = b) :
    g.command b T = g := by
  unfold Gate.command
  rcases h with ⟨hr, hv⟩ | ⟨r, hr, ht⟩
  · simp [hr, hv]
  · simp [hr, ht]

theorem command_elsewhere {g : Gate} {b : Int} {T : Nat} (h : Elsewhere g b) :
    g.command b T =
      if T = 0 then { value := restValue b, ramp := none }
      else { value := .steps (g.value.orFloor (-480)),
             ramp := some { start := g.value.orFloor (-480), target := b, elapsed := 0, frames := T } } := by
  obtain ⟨hramp, hrest⟩ := h
  unfold Gate.command
  cases hr : g.ramp with
  | none => simp [hrest hr]
  | some r => simp [hramp r hr]

/-- The gate after `e` frames of a ramp from `a` to `b` over `T` frames. -/
def rampAt (a b : Int) (T e : Nat) : Gate :=
  { value := if e < T then .steps (fadeValue a b T e) else restValue b
    ramp := some { start := a, target := b, elapsed := e, frames := T } }

theorem command_rampAt {g : Gate} {b : Int} {T : Nat} (hT : 0 < T) (h : Elsewhere g b) :
    g.command b T = rampAt (g.value.orFloor (-480)) b T 0 := by
  rw [command_elsewhere h, if_neg (by omega), rampAt, if_pos hT, fadeValue_of_lt hT]
  simp

theorem advance_rampAt {a b : Int} {T e : Nat} (h : e < T) :
    (rampAt a b T e).advance = rampAt a b T (e + 1) := by
  simp [Gate.advance, rampAt, h]

/-- A ramp runs on frame by frame up to its time. -/
theorem iterate_advance_rampAt (a b : Int) {T : Nat} :
    ∀ e ≤ T, Nat.iterate Gate.advance e (rampAt a b T 0) = rampAt a b T e := by
  intro e
  induction e with
  | zero => intro _; rfl
  | succ e ih =>
    intro he
    rw [Function.iterate_succ_apply', ih (by omega), advance_rampAt (by omega)]

theorem endDue_rampAt (a b : Int) (T e : Nat) : (rampAt a b T e).endDue = decide (T ≤ e) := rfl

theorem updGate_notes (id : GateId) (f : Gate → Gate) (s : State) : (updGate id f s).notes = s.notes := by
  cases id <;> rfl

theorem updGate_marks (id : GateId) (f : Gate → Gate) (s : State) : (updGate id f s).marks = s.marks := by
  cases id <;> rfl

theorem updGate_mirror (id : GateId) (f : Gate → Gate) (s : State) : (updGate id f s).mirror = s.mirror := by
  cases id <;> rfl

/-- Settles O10: the command starts a ramp, of which each frame is one step of the fade law. -/
theorem gateRunsItsRampAndRests : Obligations.GateRunsItsRampAndRests := by
  unfold Obligations.GateRunsItsRampAndRests
  refine ⟨fun g b T hT hramp hrest => ?_, fun g b hramp hrest => ?_, fun g b T h => command_same h,
    fun id s hruns hquiet hdue => ?_⟩
  · rw [command_rampAt hT ⟨hramp, hrest⟩]
    refine ⟨fun e he => ?_, ?_, ?_⟩
    · rw [iterate_advance_rampAt _ _ e (by omega), endDue_rampAt]
      exact ⟨if_pos he, decide_eq_false (by omega)⟩
    · rw [iterate_advance_rampAt _ _ T le_rfl]
      exact if_neg (lt_irrefl T)
    · rw [iterate_advance_rampAt _ _ T le_rfl, endDue_rampAt]
      exact decide_eq_true le_rfl
  · rw [command_elsewhere ⟨hramp, hrest⟩, if_pos rfl]
  · obtain ⟨hn, hm⟩ := hquiet
    refine ⟨_, running_next _ hruns, ?_⟩
    rw [rampEndEvent, event_due (due := rampEndDue s id) hdue]
    refine finish_endsAs ?_ ((updGate_notes id _ s).trans hn) ?_ ?_ fun a => ?_
    · cases id <;> rfl
    · rw [gateRampEnd, mark_mirror, updGate_mirror, updGate_mirror]; exact fun _ h => h
    · rw [gateRampEnd, mark_mirror, updGate_mirror, updGate_mirror]; exact fun h => h
    · simp [gateRampEnd, updGate_marks, hm]

/-! ## The time of day (R149) -/

/-- Settles O11: by the field at which the carry stops. -/
theorem timeOfDayCarries : Obligations.TimeOfDayCarries := by
  unfold Obligations.TimeOfDayCarries
  rintro ⟨day, hours, minutes, seconds, ms⟩ ⟨hd, hh, hm, hs, hms⟩
  dsimp only at hd hh hm hs hms
  unfold TimeOfDay.next
  simp only [TimeOfDay.Valid, TimeOfDay.total]
  split
  · dsimp only; omega
  · split
    · dsimp only; omega
    · split
      · dsimp only; omega
      · split
        · dsimp only; omega
        · dsimp only
          split <;> omega

end Sys2Proof.Proofs.Basics
end

section
/-! PROOF. Fields of a word, and what the capture unit makes of an event. -/

namespace Sys2Proof.Proofs.Words

open Sys2Proof.Machine

/-! ## Fields of a word -/

theorem testBit_field (w : Word) (lo len i : Nat) :
    (field w lo len).testBit i = (decide (i < len) && w.getLsbD (lo + i)) := by
  simp [field, Nat.testBit_mod_two_pow, Nat.testBit_shiftRight, BitVec.testBit_toNat]

theorem getLsbD_place (n lo k : Nat) :
    (place n lo).getLsbD k = (decide (k < 32) && (decide (lo ≤ k) && n.testBit (k - lo))) := by
  simp [place, BitVec.getLsbD_ofNat, Nat.testBit_shiftLeft]

theorem testBit_of_lt {n len i : Nat} (h : n < 2 ^ len) (hi : len ≤ i) : n.testBit i = false :=
  Nat.testBit_lt_two_pow (lt_of_lt_of_le h (Nat.pow_le_pow_right (by decide) hi))

theorem field_or (a b : Word) (lo len : Nat) : field (a ||| b) lo len = field a lo len ||| field b lo len := by
  refine Nat.eq_of_testBit_eq fun i => ?_
  simp only [Nat.testBit_or, testBit_field, BitVec.getLsbD_or, Bool.and_or_distrib_left]

/-- A field reads the number put there. -/
theorem field_place {n lo len : Nat} (h : n < 2 ^ len) (hw : lo + len ≤ 32) : field (place n lo) lo len = n := by
  refine Nat.eq_of_testBit_eq fun i => ?_
  rw [testBit_field, getLsbD_place]
  by_cases hi : i < len
  · simp [hi, show lo + i < 32 by omega]
  · simp [hi, testBit_of_lt h (not_lt.mp hi)]

/-- A field reads nothing of a number put elsewhere. -/
theorem field_place_apart {n lo k lo' len : Nat} (h : n < 2 ^ k) (ha : lo + k ≤ lo' ∨ lo' + len ≤ lo) :
    field (place n lo) lo' len = 0 := by
  refine Nat.eq_of_testBit_eq fun i => ?_
  rw [testBit_field, getLsbD_place, Nat.zero_testBit]
  rcases ha with ha | ha
  · simp [testBit_of_lt h (show k ≤ lo' + i - lo by omega)]
  · by_cases hi : i < len
    · simp [show ¬ lo ≤ lo' + i by omega]
    · simp [hi]

/-- A bit above the number put into a word is clear. -/
theorem getLsbD_place_above {n lo k i : Nat} (h : n < 2 ^ k) (hi : lo + k ≤ i) :
    (place n lo).getLsbD i = false := by
  rw [getLsbD_place, testBit_of_lt h (show k ≤ i - lo by omega)]
  simp

theorem getLsbD_place_below {n lo i : Nat} (hi : i < lo) : (place n lo).getLsbD i = false := by
  rw [getLsbD_place]
  simp [show ¬ lo ≤ i by omega]

theorem bitOf_lt (b : Bool) : bitOf b < 2 ^ 1 := by cases b <;> decide

theorem getLsbD_place_bitOf {b : Bool} {lo : Nat} (h : lo < 32) : (place (bitOf b) lo).getLsbD lo = b := by
  rw [getLsbD_place]
  cases b <;> simp [bitOf, h]

/-- A number with its bits given in order, bit 0 first. -/
theorem testBit_foldr_bits (bs : List Bool) (k : Nat) :
    (bs.foldr (fun b n => 2 * n + bitOf b) 0).testBit k = bs.getD k false := by
  induction bs generalizing k with
  | nil => simp
  | cons b bs ih =>
    cases k with
    | zero => cases b <;> simp [bitOf, Nat.testBit_zero]
    | succ k =>
      have hdiv : (2 * bs.foldr (fun b n => 2 * n + bitOf b) 0 + bitOf b) / 2
          = bs.foldr (fun b n => 2 * n + bitOf b) 0 := by
        have := bitOf_lt b
        omega
      simp only [List.foldr_cons, Nat.testBit_succ, hdiv, ih, List.getD_cons_succ]

theorem getLsbD_bitsWord (bs : List Bool) {k : Nat} (h : k < 32) : (bitsWord bs).getLsbD k = bs.getD k false := by
  rw [bitsWord, wordOf, BitVec.getLsbD_ofNat, testBit_foldr_bits, decide_eq_true h, Bool.true_and]

/-! ## The capture unit (R168) -/

theorem captureEvent_missed {s : State} {c : CellId} (ds : List Word) (h : s.cells[c].state ≠ .empty)
    (hm : s.cells[c].missed < 255) :
    captureEvent c ds s = { s with
      cells := s.cells.set c { s.cells[c] with missed := s.cells[c].missed + 1 }
      wq := s.wq.join .capture (.cellMissed c (s.cells[c].missed + 1)) } := by
  unfold captureEvent
  cases hs : s.cells[c].state with
  | empty => exact absurd hs h
  | filling | full => exact if_pos hm

theorem captureEvent_saturated {s : State} {c : CellId} (ds : List Word) (h : s.cells[c].state ≠ .empty)
    (hm : 255 ≤ s.cells[c].missed) : captureEvent c ds s = s := by
  unfold captureEvent
  cases hs : s.cells[c].state with
  | empty => exact absurd hs h
  | filling | full => exact if_neg (by omega)

/-- The time word holds each field at its bits. -/
theorem timeWord_fields {d : TimeOfDay} (h : d.Valid) :
    field d.word 0 10 = d.ms ∧ field d.word 10 6 = d.seconds ∧ field d.word 16 6 = d.minutes
      ∧ field d.word 22 5 = d.hours ∧ field d.word 27 3 = d.day ∧ d.word.getLsbD 31 = false
      ∧ d.word.getLsbD 30 = false := by
  obtain ⟨hd, hh, hm, hs, hms⟩ := h
  have hms : d.ms < 2 ^ 10 := by omega
  have hs : d.seconds < 2 ^ 6 := by omega
  have hm : d.minutes < 2 ^ 6 := by omega
  have hh : d.hours < 2 ^ 5 := by omega
  have hd : d.day < 2 ^ 3 := by omega
  simp only [TimeOfDay.word, field_or, BitVec.getLsbD_or]
  refine ⟨?_, ?_, ?_, ?_, ?_, ?_, ?_⟩
  · rw [field_place hms (by omega), field_place_apart hs (by omega), field_place_apart hm (by omega),
      field_place_apart hh (by omega), field_place_apart hd (by omega)]
    simp
  · rw [field_place hs (by omega), field_place_apart hms (by omega), field_place_apart hm (by omega),
      field_place_apart hh (by omega), field_place_apart hd (by omega)]
    simp
  · rw [field_place hm (by omega), field_place_apart hms (by omega), field_place_apart hs (by omega),
      field_place_apart hh (by omega), field_place_apart hd (by omega)]
    simp
  · rw [field_place hh (by omega), field_place_apart hms (by omega), field_place_apart hs (by omega),
      field_place_apart hm (by omega), field_place_apart hd (by omega)]
    simp
  · rw [field_place hd (by omega), field_place_apart hms (by omega), field_place_apart hs (by omega),
      field_place_apart hm (by omega), field_place_apart hh (by omega)]
    simp
  all_goals
    rw [getLsbD_place_above hms (by omega), getLsbD_place_above hs (by omega), getLsbD_place_above hm (by omega),
      getLsbD_place_above hh (by omega), getLsbD_place_above hd (by omega)]
    rfl

/-- Settles O18: by the state of the cell; a field reads the number put there and nothing of the others. -/
theorem captureTakesAnEventByItsCell : Obligations.CaptureTakesAnEventByItsCell := by
  unfold Obligations.CaptureTakesAnEventByItsCell
  refine ⟨fun s c ds => ⟨Capture.captureEvent_of_empty ds, captureEvent_missed ds, captureEvent_saturated ds⟩,
    fun d => timeWord_fields, ⟨rfl, fun k => rfl, rfl⟩, fun w n lo len => ⟨?_, ?_, ?_⟩⟩
  · rw [field, Nat.shiftRight_eq_div_pow]
  · rw [place, Nat.shiftLeft_eq]
  · rw [placeCode, place, field, Nat.shiftLeft_eq, Nat.shiftRight_zero]

end Sys2Proof.Proofs.Words
end

section
/-! PROOF. The host port: how an access is judged, what it acts on, the registers, and the port reset. -/

namespace Sys2Proof.Proofs.Port

open Sys2Proof.Machine Sys2Proof.Proofs.Words Sys2Proof.Proofs.Steps

variable {s : State} {c : Instr}

/-! ## An access that the port takes -/

theorem exec_access_free (hc : c.hostAccess = true) (h : s.PortFree) : exec c s = .next (accessOp c s) := by
  obtain ⟨hbusy, hblocked⟩ := h
  rw [exec_of_access hc, portAccess_free hbusy hblocked]

theorem exec_access_blocked (hc : c.hostAccess = true) (hbusy : portBusy s = false)
    (hblocked : portBlocked s = true) : exec c s = .next (endAccess true 0#32 s) := by
  rw [exec_of_access hc, portAccess, if_neg (by simp [hbusy]), if_pos hblocked]

/-- An access of the memory window is judged at once when the window is free. -/
theorem exec_admitted {a : HostAccess} (hc : c.hostAccess = true) (ha : accessOp c = arrive a)
    (h : s.WindowFree) : exec c s = .next (admitAccess a s) := by
  obtain ⟨hfree, hclears⟩ := h
  rw [exec_access_free hc hfree, ha, arrive_free hclears]

theorem exec_admitted_write {A : Nat} {d : Word} (hc : c.hostAccess = true)
    (ha : accessOp c = arrive (.write A d)) (h : s.WindowFree) : exec c s = .next (hostWrite A d s) :=
  exec_admitted hc ha h

/-- While a port reset has writes to do an access of the memory window is held (R189; log 37). -/
theorem exec_held {a : HostAccess} (hc : c.hostAccess = true) (ha : accessOp c = arrive a) (h : s.PortFree)
    (hclears : s.port.clears ≠ []) :
    exec c s = .next { s with port := { s.port with held := some a } } := by
  rw [exec_access_free hc h, ha, arrive, if_neg hclears]

theorem portBlocked_of (h : s.phase = .fullReset ∨ s.rstl = .low1ms ∨ s.rstl = .low20ms) :
    portBlocked s = true := by
  unfold portBlocked
  rcases h with h | h | h <;> simp [h]

/-! ## Judging a write (R176) -/

theorem hostWrite_error {A : Nat} {d : Word} {e : FaultCause} (h : judgeWrite s A d = .error e) :
    hostWrite A d s = refuseAccess A e true s := by
  unfold hostWrite
  rw [h]

theorem hostWrite_ok {A : Nat} {d : Word} {e : WriteEffect} (h : judgeWrite s A d = .ok e) :
    hostWrite A d s = beginWait (.write A d) (applyEffect e s) := by
  unfold hostWrite
  rw [h]

theorem judgeWrite_outside {A : Nat} (d : Word) (h : s.memSize ≤ A) :
    judgeWrite s A d = .error .outOfRange := if_pos h

theorem judgeWrite_slot {A : Nat} {i : SlotId} (d : Word) (hs : A < s.memSize) (h : 0x200 ≤ A ∧ A < 0x600)
    (hi : slotAt A = i) : judgeWrite s A d = judgeSlot s.port.view[i] i (A % 64 == 0) d := by
  subst hi
  rw [judgeWrite, if_neg (by omega), if_pos h]

theorem judgeWrite_cell {A : Nat} {k : CellId} (d : Word) (hs : A < s.memSize) (h : 0x600 ≤ A ∧ A < 0x780)
    (hk : cellAt A = k) : judgeWrite s A d = judgeCell s.cells[k].state k (A % 32 == 0) d := by
  subst hk
  rw [judgeWrite, if_neg (by omega), if_neg (by omega), if_pos h]

theorem judgeWrite_mirror {A : Nat} (d : Word) (hs : A < s.memSize) (h : 0x780 ≤ A)
    (hm : inRegion s .mirror A = true) : judgeWrite s A d = .error .regionReadonly := by
  rw [judgeWrite, if_neg (by omega), if_neg (by omega), if_neg (by omega), if_pos ⟨h, hm⟩]

/-- The directory and the LOCKABLE regions go by the engine and the lock. -/
theorem judgeWrite_held {A : Nat} (d : Word) (hs : A < s.memSize)
    (h : A < 0x200 ∨ 0x780 ≤ A ∧ ¬ inRegion s .mirror A = true ∧ inRegion s .lockable A = true) :
    judgeWrite s A d = if s.engine = .loading then .error .loadHeld
      else if s.lock ≠ .off then .error .locked else .ok .none := by
  have hmirror : ¬ (0x780 ≤ A ∧ inRegion s .mirror A = true) := by
    rcases h with h | ⟨_, hm, _⟩
    · omega
    · exact fun hc => hm hc.2
  have hin : A < 0x200 ∨ inRegion s .lockable A = true := h.imp_right fun h => h.2.2
  rw [judgeWrite, if_neg (by omega), if_neg (by omega), if_neg (by omega), if_neg hmirror, if_pos hin]

theorem judgeWrite_open {A : Nat} (d : Word) (hs : A < s.memSize) (h : 0x780 ≤ A)
    (hm : ¬ inRegion s .mirror A = true) (hl : ¬ inRegion s .lockable A = true) :
    judgeWrite s A d = .ok .none := by
  rw [judgeWrite, if_neg (by omega), if_neg (by omega), if_neg (by omega), if_neg fun hc => hm hc.2,
    if_neg (by rintro (hc | hc) <;> [omega; exact hl hc])]

theorem exec_hostWrite (h : s.WindowFree) (a : BitVec 22) (d : Word) :
    exec (.hostWrite a d) s = .next (hostWrite (wordAddr a) d s) := exec_admitted_write rfl rfl h

/-- Settles O14: by the entry of the table that fits. -/
theorem hostWriteIsJudgedByItsAddress : Obligations.HostWriteIsJudgedByItsAddress := by
  unfold Obligations.HostWriteIsJudgedByItsAddress
  intro s a d hfree
  dsimp only
  rw [exec_hostWrite hfree]
  refine ⟨fun hs => ?_, fun hs h hm => ?_, fun hs hheld he => ?_, fun hs hheld he hl => ?_,
    fun hs hheld he hl => ?_, fun hs h hm hl => ?_⟩
  · rw [hostWrite_error (judgeWrite_outside d hs)]
  · rw [hostWrite_error (judgeWrite_mirror d hs h hm)]
  · rw [hostWrite_error ((judgeWrite_held d hs hheld).trans (if_pos he))]
  · rw [hostWrite_error ((judgeWrite_held d hs hheld).trans ((if_neg he).trans (if_pos hl)))]
  · rw [hostWrite_ok ((judgeWrite_held d hs hheld).trans ((if_neg he).trans (if_neg (not_not_intro hl))))]
    rfl
  · rw [hostWrite_ok (judgeWrite_open d hs h hm hl)]
    rfl

/-! ## Slots (R180) -/

theorem slotBase_range (i : SlotId) : 0x200 ≤ slotBase i ∧ slotBase i + 64 ≤ 0x600 := by
  unfold slotBase
  omega

theorem slotAt_of_mem {A : Nat} {i : SlotId} (hlo : slotBase i ≤ A) (hhi : A < slotBase i + 64) :
    slotAt A = i := by
  unfold slotBase at hlo hhi
  refine Fin.ext ?_
  show (A - 0x200) / 64 % 16 = i.val
  omega

/-- A write of a slot's state word is judged by the port's view of the slot. -/
theorem judgeWrite_stateWord {i : SlotId} (d : Word) (hs : slotBase i < s.memSize) :
    judgeWrite s (slotBase i) d = judgeSlot s.port.view[i] i true d := by
  obtain ⟨hlo, hhi⟩ := slotBase_range i
  have hat : slotAt (slotBase i) = i := slotAt_of_mem (Nat.le_refl (slotBase i)) (by omega)
  have hword : slotBase i % 64 = 0 := by unfold slotBase; omega
  rw [judgeWrite_slot d hs ⟨hlo, by omega⟩ hat, hword]
  rfl

theorem judgeWrite_otherWord {A : Nat} {i : SlotId} (d : Word) (hlo : slotBase i < A)
    (hhi : A < slotBase i + 64) (hs : A < s.memSize) : judgeWrite s A d = judgeOther s.port.view[i] := by
  obtain ⟨hmin, hmax⟩ := slotBase_range i
  have hword : A % 64 ≠ 0 := by unfold slotBase at hlo hhi; omega
  rw [judgeWrite_slot d hs ⟨by omega, by omega⟩ (slotAt_of_mem (le_of_lt hlo) hhi), beq_false_of_ne hword]
  rfl

theorem judgePost_of_ne {i : SlotId} {v : SlotState} (h : v ≠ .empty) : judgePost i v = .error .slateState := by
  cases v with
  | empty => exact absurd rfl h
  | _ => rfl

theorem exec_slotPost (h : s.WindowFree) (i : SlotId) :
    exec (.slotPost i) s = .next (hostWrite (slotBase i) 1#32 s) := exec_admitted_write rfl rfl h

theorem exec_slotEmptied (h : s.WindowFree) {i : SlotId} (hc : c = .slotWithdraw i ∨ c = .slotReturn i) :
    exec c s = .next (hostWrite (slotBase i) 0#32 s) := by
  rcases hc with rfl | rfl <;> exact exec_admitted_write rfl rfl h

/-- Settles O15: the state word by what is written to it and the port's view, another word by the view alone. -/
theorem slotWritesGoByThePortsView : Obligations.SlotWritesGoByThePortsView := by
  unfold Obligations.SlotWritesGoByThePortsView
  intro s i hfree hs
  dsimp only
  have judge (d : Word) := judgeWrite_stateWord (i := i) d hs
  refine ⟨fun hv => ?_, fun hv => ?_, fun c hc => ⟨fun hv => ?_, fun hv => ?_, fun hv => ?_⟩,
    fun a ha => ?_, fun a d hlo hhi hsize => ?_⟩
  · rw [exec_slotPost hfree, hostWrite_ok ((judge _).trans (by rw [hv]; rfl))]
    rfl
  · rw [exec_slotPost hfree, hostWrite_error (e := .slateState) ((judge 1#32).trans (judgePost_of_ne hv))]
  · rw [exec_slotEmptied hfree hc, hostWrite_ok ((judge _).trans (by rw [hv]; rfl))]
    rfl
  · rw [exec_slotEmptied hfree hc,
      hostWrite_ok ((judge _).trans (show _ = Except.ok (WriteEffect.giveBack i) by
        rcases hv with hv | hv <;> rw [hv] <;> rfl))]
    rfl
  · rw [exec_slotEmptied hfree hc,
      hostWrite_error (e := .slateState) ((judge _).trans (by rcases hv with hv | hv <;> rw [hv] <;> rfl))]
  · refine ⟨?_, ?_, fun d h0 h1 => ?_⟩
    · rw [exec_hostWrite hfree, exec_slotPost hfree, ha]
    · rw [exec_hostWrite hfree, exec_slotEmptied hfree (.inl rfl), ha]
    · have hother : judgeSlot s.port.view[i] i true d = .error .slateState := by
        rw [judgeSlot, if_neg (by decide), if_neg h1, if_neg h0]
      rw [exec_hostWrite hfree, ha, hostWrite_error ((judge d).trans hother)]
  · rw [exec_hostWrite hfree]
    refine ⟨fun hv => ?_, fun hp ht => ?_⟩
    · rw [hostWrite_error (e := .slateBusySlot) ((judgeWrite_otherWord d hlo hhi hsize).trans
        (by rcases hv with hv | hv <;> rw [hv] <;> rfl))]
    · have hok : judgeOther s.port.view[i] = .ok .none := by
        cases hv : s.port.view[i] with
        | posted => exact absurd hv hp
        | taken => exact absurd hv ht
        | _ => rfl
      rw [hostWrite_ok ((judgeWrite_otherWord d hlo hhi hsize).trans hok)]
      rfl

/-! ## Cells (R169) -/

theorem judgeWrite_cellWord {k : CellId} {w : Fin 8} (d : Word) (hs : cellBase k + 4 * w.val < s.memSize) :
    judgeWrite s (cellBase k + 4 * w.val) d = judgeCell s.cells[k].state k (w == 0) d := by
  have hat : cellAt (cellBase k + 4 * w.val) = k := by
    refine Fin.ext ?_
    show (cellBase k + 4 * w.val - 0x600) / 32 % 12 = k.val
    unfold cellBase
    omega
  have hword : ((cellBase k + 4 * w.val) % 32 == 0) = (w == 0) := by
    rw [Bool.eq_iff_iff, beq_iff_eq, beq_iff_eq, Fin.ext_iff]
    unfold cellBase
    show _ ↔ w.val = 0
    omega
  rw [judgeWrite_cell d hs (by unfold cellBase; omega) hat, hword]

/-- Settles O16: a FULL cell alone takes EMPTY in its state word. -/
theorem cellReturnEmptiesAFullCell : Obligations.CellReturnEmptiesAFullCell := by
  unfold Obligations.CellReturnEmptiesAFullCell
  intro s k w d hfree hs
  have hrow : exec (.cellReturn k w d) s = .next (hostWrite (cellBase k + 4 * w.val) d s) :=
    exec_admitted_write rfl rfl hfree
  have judge := judgeWrite_cellWord (k := k) (w := w) d hs
  refine ⟨fun a ha => ?_, fun hw hd hfull => ?_, fun hnot => ?_⟩
  · rw [exec_hostWrite hfree, hrow, ha]
  · subst hw hd
    rw [hrow, hostWrite_ok (judge.trans (if_pos ⟨rfl, rfl, hfull⟩))]
    rfl
  · rw [hrow, hostWrite_error (judge.trans (if_neg fun ⟨hw, hd, hf⟩ => hnot ⟨beq_iff_eq.mp hw, hd, hf⟩))]

/-! ## Reads, and the fault record (R175, R177) -/

/-- Settles O13: by the window the read names and by what holds the port off. -/
theorem hostReadIsAdmittedOrRefused : Obligations.HostReadIsAdmittedOrRefused := by
  unfold Obligations.HostReadIsAdmittedOrRefused
  refine ⟨fun s a hfree => exec_access_free rfl hfree, fun s a hbusy hoff => ?_,
    fun s a hfree => ⟨fun hin => ?_, fun hout => ?_⟩⟩
  · exact exec_access_blocked (by cases a <;> rfl) hbusy (portBlocked_of hoff)
  · rw [exec_admitted (a := .read (wordAddr a)) rfl rfl hfree]
    exact congrArg _ (if_neg (by omega))
  · rw [exec_admitted (a := .read (wordAddr a)) rfl rfl hfree]
    exact congrArg _ (if_pos hout)

theorem refuseAccess_fresh (h : s.notice.fault = false) (addr : Nat) (cause : FaultCause) (wr : Bool) :
    refuseAccess addr cause wr s = { s with
      notice := { s.notice with fault := true }
      port := { s.port with
        faultAddr := BitVec.ofNat 22 addr, faultCause := cause, faultWrite := wr, further := 0
        result := { err := true, data := 0#32 } } } := by
  unfold refuseAccess Port.recordFault
  rw [h]
  rfl

theorem refuseAccess_further (h : s.notice.fault = true) (addr : Nat) (cause : FaultCause) (wr : Bool) :
    refuseAccess addr cause wr s = { s with
      port := { s.port with
        further := min (s.port.further + 1) 255, result := { err := true, data := 0#32 } } } := by
  have hn : { s.notice with fault := true } = s.notice := by rw [← h]
  unfold refuseAccess Port.recordFault
  rw [h]
  show { s with notice := { s.notice with fault := true }, port := _ } = _
  rw [hn]
  rfl

/-- The fault record is clear. -/
abbrev FaultClear (s : State) : Prop :=
  s.notice.fault = false ∧ s.port.faultAddr = 0#22 ∧ s.port.faultCause = .none
    ∧ s.port.faultWrite = false ∧ s.port.further = 0

theorem writeNotice_clears {v : Word} (h : v.getLsbD 4 = true) : FaultClear (writeNotice v s) := by
  have hport : (writeNotice v s).port = s.port.clearFault := if_pos h
  have hfault : (writeNotice v s).notice.fault = false := by
    show (s.notice.fault && !v.getLsbD 4) = false
    rw [h, Bool.not_true, Bool.and_false]
  refine ⟨hfault, ?_, ?_, ?_, ?_⟩ <;> rw [hport] <;> rfl

/-- The fault record as it stands. -/
abbrev SameFault (s t : State) : Prop :=
  t.notice.fault = s.notice.fault ∧ t.port.faultAddr = s.port.faultAddr
    ∧ t.port.faultCause = s.port.faultCause ∧ t.port.faultWrite = s.port.faultWrite
    ∧ t.port.further = s.port.further

/-- Settles O17: a fault is recorded when no fault stands and counted otherwise; a blocked port records none. -/
theorem refusedAccessActsOnTheFaultRecord : Obligations.RefusedAccessActsOnTheFaultRecord := by
  unfold Obligations.RefusedAccessActsOnTheFaultRecord
  refine ⟨fun s addr d cause e => ⟨hostWrite_error, fun h wr => refuseAccess_fresh h addr cause wr,
      fun h wr => refuseAccess_further h addr cause wr⟩, fun c s t hfree hc h => ?_,
    fun c s t hc hblocked h => ?_⟩
  · have hacc : c.hostAccess = true := by rcases hc with rfl | rfl | ⟨v, _, rfl⟩ <;> rfl
    rw [exec_access_free hacc hfree] at h
    cases h
    rcases hc with rfl | rfl | ⟨v, hv, rfl⟩
    · exact ⟨rfl, rfl, rfl, rfl, rfl⟩
    · exact ⟨rfl, rfl, rfl, rfl, rfl⟩
    · exact writeNotice_clears hv
  · rw [exec_of_access hc] at h
    cases h
    show SameFault s (portAccess (accessOp c) s)
    rcases portAccess_cases (accessOp c) s with ⟨_, hp⟩ | ⟨_, _, hp⟩ | ⟨_, hfree, _⟩
    · rw [hp]; exact ⟨rfl, rfl, rfl, rfl, rfl⟩
    · rw [hp]; exact ⟨rfl, rfl, rfl, rfl, rfl⟩
    · exact absurd (hfree.symm.trans hblocked) (by decide)

/-! ## Notices and registers (R187, R191) -/

theorem anyAnswered_iff (s : State) :
    anyAnswered s = true ↔ ∃ i : SlotId, s.port.view[i] = .done ∨ s.port.view[i] = .refused := by
  simp [anyAnswered]

theorem anyUnmaskedFull_iff (s : State) : anyUnmaskedFull s = true
    ↔ ∃ c : CellId, s.cells[c].state = .full ∧ s.header.captureMasks.getLsbD c = false := by
  simp [anyUnmaskedFull]

theorem noticeLineLow_iff (s : State) : noticeLineLow s = true
    ↔ ∃ k < 7, (noticeRegister s).getLsbD k = true ∧ s.notice.mask.getLsbD k = true := by
  rw [noticeLineLow, bne_iff_ne, ne_eq, BitVec.eq_of_getLsbD_eq_iff]
  simp only [BitVec.getLsbD_and, BitVec.getLsbD_extractLsb', BitVec.getLsbD_zero, Bool.and_eq_false_imp]
  push Not
  exact ⟨fun ⟨k, hk, hn, hm⟩ => ⟨k, hk, by simpa [hk] using hn, by simpa using hm⟩, fun ⟨k, hk, hn, hm⟩ => ⟨k, hk, by simpa [hk] using hn, by simpa using hm⟩⟩

theorem writeNotice_eq (v : Word) (s : State) :
    endAccess false 0#32 (writeNotice v s) = { s with
      notice := { s.notice with
        input := s.notice.input && !v.getLsbD 2
        zone := s.notice.zone && !v.getLsbD 3
        fault := s.notice.fault && !v.getLsbD 4
        clock := s.notice.clock && !v.getLsbD 5
        restarted := s.notice.restarted && !v.getLsbD 6 }
      port := { s.port with
        faultAddr := if v.getLsbD 4 then 0#22 else s.port.faultAddr
        faultCause := if v.getLsbD 4 then .none else s.port.faultCause
        faultWrite := if v.getLsbD 4 then false else s.port.faultWrite
        further := if v.getLsbD 4 then 0 else s.port.further
        result := { err := false, data := 0#32 } } } := by
  unfold writeNotice Notice.clear
  cases v.getLsbD 4 <;> rfl

theorem noticeRegister_bits (s : State) :
    let n := noticeRegister s
    n.getLsbD 0 = anyAnswered s ∧ n.getLsbD 1 = anyUnmaskedFull s ∧ n.getLsbD 2 = s.notice.input
      ∧ n.getLsbD 3 = s.notice.zone ∧ n.getLsbD 4 = s.notice.fault ∧ n.getLsbD 5 = s.notice.clock
      ∧ n.getLsbD 6 = s.notice.restarted :=
  ⟨getLsbD_bitsWord _ (by decide), getLsbD_bitsWord _ (by decide), getLsbD_bitsWord _ (by decide),
    getLsbD_bitsWord _ (by decide), getLsbD_bitsWord _ (by decide), getLsbD_bitsWord _ (by decide),
    getLsbD_bitsWord _ (by decide)⟩

theorem engineCode_lt (e : EngineState) : engineCode e < 2 ^ 2 := by cases e <;> decide

theorem lockCode_lt (l : LockLevel) : lockCode l < 2 ^ 2 := by cases l <;> decide

theorem faultCode_lt (f : FaultCause) : faultCode f < 2 ^ 4 := by cases f <;> decide

theorem engineRegister_fields (s : State) :
    field (engineRegister s) 0 2 = engineCode s.engine ∧ field (engineRegister s) 4 2 = lockCode s.lock
      ∧ (engineRegister s).getLsbD 8 = (s.clock.inUse == .wclk) ∧ field (engineRegister s) 16 2 = 0 := by
  have he := engineCode_lt s.engine
  have hl := lockCode_lt s.lock
  have hb := bitOf_lt (s.clock.inUse == .wclk)
  unfold engineRegister
  refine ⟨?_, ?_, ?_, ?_⟩
  · rw [field_or, field_or, field_place he (by omega), field_place_apart hl (by omega),
      field_place_apart hb (by omega)]
    simp
  · rw [field_or, field_or, field_place hl (by omega), field_place_apart he (by omega),
      field_place_apart hb (by omega)]
    simp
  · rw [BitVec.getLsbD_or, BitVec.getLsbD_or, getLsbD_place_bitOf (by omega),
      getLsbD_place_above he (by omega), getLsbD_place_above hl (by omega)]
    rfl
  · rw [field_or, field_or, field_place_apart he (by omega), field_place_apart hl (by omega),
      field_place_apart hb (by omega)]
    rfl

theorem faultInfoRegister_fields (s : State) :
    field (faultInfoRegister s) 0 4 = faultCode s.port.faultCause
      ∧ (faultInfoRegister s).getLsbD 8 = s.port.faultWrite
      ∧ (s.port.further ≤ 255 → field (faultInfoRegister s) 16 8 = s.port.further) := by
  have hc := faultCode_lt s.port.faultCause
  have hb := bitOf_lt s.port.faultWrite
  unfold faultInfoRegister
  refine ⟨?_, ?_, fun hf => ?_⟩
  · have hlow : field (place s.port.further 16) 0 4 = 0 := by
      refine Nat.eq_of_testBit_eq fun i => ?_
      rw [testBit_field, Nat.zero_testBit]
      by_cases hi : i < 4
      · rw [getLsbD_place_below (by omega), Bool.and_false]
      · simp [hi]
    rw [field_or, field_or, field_place hc (by omega), field_place_apart hb (by omega), hlow]
    simp
  · rw [BitVec.getLsbD_or, BitVec.getLsbD_or, getLsbD_place_bitOf (by omega),
      getLsbD_place_above hc (by omega), getLsbD_place_below (by omega)]
    simp
  · have hf : s.port.further < 2 ^ 8 := by omega
    rw [field_or, field_or, field_place hf (by omega), field_place_apart hc (by omega),
      field_place_apart hb (by omega)]
    simp

/-- A bit of LINES is that of the one line that is put there. -/
theorem linesRegister_bits (s : State) :
    (linesRegister s).getLsbD 0 = s.seq.goLevel.getD false
      ∧ (∀ k : LineId, (linesRegister s).getLsbD (1 + k.val) = (s.seq.trigLevel.getD 0#4).getLsbD k.val)
      ∧ (∀ k : LineId, (linesRegister s).getLsbD (5 + k.val) = s.hold[k].raw)
      ∧ (linesRegister s).getLsbD 9 = s.clock.present := by
  have hbit (b : Bool) {lo i : Nat} (h : lo < 32) : (place (bitOf b) lo).getLsbD i = (decide (i = lo) && b) := by
    by_cases hi : i = lo
    · rw [hi, getLsbD_place_bitOf h]; simp
    · rcases lt_or_gt_of_ne hi with hlt | hgt
      · rw [getLsbD_place_below hlt]; simp [hi]
      · rw [getLsbD_place_above (bitOf_lt b) hgt]; simp [hi]
  have htrig (i : Nat) : (place (s.seq.trigLevel.getD 0#4).toNat 1).getLsbD i
      = (decide (i < 32) && (decide (1 ≤ i) && (s.seq.trigLevel.getD 0#4).getLsbD (i - 1))) := by
    rw [getLsbD_place, BitVec.testBit_toNat]
  unfold linesRegister
  simp only [BitVec.getLsbD_or, htrig, hbit _ (show 0 < 32 by decide), hbit _ (show 5 < 32 by decide),
    hbit _ (show 6 < 32 by decide), hbit _ (show 7 < 32 by decide), hbit _ (show 8 < 32 by decide),
    hbit _ (show 9 < 32 by decide)]
  refine ⟨by simp, fun k => ?_, fun k => ?_, by simp⟩
  · fin_cases k <;> simp
  · fin_cases k <;> simp

theorem readRegister_unassigned {o : Nat} (h : o ∉ [0x00, 0x04, 0x08, 0x0C, 0x10, 0x14, 0x18]) :
    readRegister s o = 0#32 := by
  simp only [List.mem_cons, List.not_mem_nil, or_false, not_or] at h
  obtain ⟨h0, h1, h2, h3, h4, h5, h6⟩ := h
  unfold readRegister
  split <;> first | contradiction | rfl

/-- Settles O12: bit by bit of each register; the writes by definition. -/
theorem noticeShowsItsCausesAndWritesAct : Obligations.NoticeShowsItsCausesAndWritesAct := by
  unfold Obligations.NoticeShowsItsCausesAndWritesAct
  refine ⟨fun s => ?_, fun s v hfree => ⟨?_, ?_, fun o => ?_⟩, fun s => ?_⟩
  · obtain ⟨h0, h1, h2, h3, h4, h5, h6⟩ := noticeRegister_bits s
    exact ⟨h0 ▸ anyAnswered_iff s, h1 ▸ anyUnmaskedFull_iff s, h2, h3, h4, h5, h6, noticeLineLow_iff s⟩
  · rw [exec_access_free rfl hfree]
    exact congrArg _ (writeNotice_eq v s)
  · rw [exec_access_free rfl hfree]
    rfl
  · rw [exec_access_free rfl hfree]
    rfl
  · obtain ⟨he, hl, hw, hcmd⟩ := engineRegister_fields s
    obtain ⟨hc, hwr, hf⟩ := faultInfoRegister_fields s
    obtain ⟨hgo, htrig, hhold, hpresent⟩ := linesRegister_bits s
    refine ⟨rfl, he.trans ?_, hl.trans ?_, ?_, hcmd, rfl, ?_, ?_, hc.trans ?_, hwr, hf, fun b hb => ?_,
      fun w hb k => ?_, hhold, hpresent, fun o => readRegister_unassigned⟩
    · cases s.engine <;> rfl
    · cases s.lock <;> rfl
    · exact hw ▸ beq_iff_eq
    · show (s.notice.mask.setWidth 32).extractLsb' 0 7 = _
      ext i hi
      simp [show i < 32 by omega, BitVec.getLsbD_eq_getElem hi]
    · show (s.port.faultAddr.setWidth 32).extractLsb' 0 22 = _
      ext i hi
      simp [show i < 32 by omega, BitVec.getLsbD_eq_getElem hi]
    · cases s.port.faultCause <;> rfl
    · exact hgo.trans (by rw [hb]; rfl)
    · exact (htrig k).trans (by rw [hb]; rfl)

/-! ## Resets and start-up (R188 to R190) -/

theorem resetPort_eq (s : State) : resetPort s = { s with
    slate := { s.slate with arrival := [] }
    port := { s.port with
      view := mapVec (fun v => if v = .posted then .empty else v) s.port.view
      clears := s.port.clears ++ (List.finRange 16).filter fun i => s.port.view[i] == .posted
      faultAddr := 0#22, faultCause := .none, faultWrite := false, further := 0 }
    arb := { s.arb with hostWait := if s.port.clears = [] then 0 else s.arb.hostWait }
    notice := { s.notice with
      input := false, zone := false, fault := false, clock := false, mask := 0x7F#7 } } := rfl

/-- Settles O59: a port reset by its own equation, and an access held while it has writes to do. -/
theorem portResetActsOnTheHostSide : Obligations.PortResetActsOnTheHostSide := by
  unfold Obligations.PortResetActsOnTheHostSide
  refine ⟨fun s => ⟨fun hfree => ?_, fun hlow => ?_⟩, fun s hfree hclears a d i c w => ?_⟩
  · rw [exec_access_free rfl hfree]
    rfl
  · show Host.Outcome.next (rstlReleased s) = _
    rw [rstlReleased, hlow]
    rfl
  · exact ⟨exec_held rfl rfl hfree hclears, exec_held rfl rfl hfree hclears, exec_held rfl rfl hfree hclears,
      exec_held rfl rfl hfree hclears, exec_held rfl rfl hfree hclears, exec_held rfl rfl hfree hclears⟩

/-- A byte after words of 0 have been written: 0 inside one of them, and as before elsewhere. -/
theorem readByte_writeAll_zero {ws : List (Nat × Word)} (hz : ∀ w ∈ ws, w.2 = 0#32) (m : Memory) (b : Nat) :
    Memory.readByte (Memory.writeAll m ws) b
      = if ∃ w ∈ ws, w.1 ≤ b ∧ b < w.1 + 4 then 0#8 else Memory.readByte m b := by
  induction ws generalizing m with
  | nil => simp [Memory.writeAll]
  | cons w ws ih =>
    have hw : w.2 = 0#32 := hz w (by simp)
    have hcons : Memory.writeAll m (w :: ws) = Memory.writeAll (Memory.writeWord m w.1 w.2) ws := rfl
    rw [hcons, ih fun x hx => hz x (by simp [hx])]
    by_cases hin : w.1 ≤ b ∧ b < w.1 + 4
    · have hbyte := Basics.readByte_writeWord_inside m w.1 w.2 (k := b - w.1) (by omega)
      rw [hw, show w.1 + (b - w.1) = b by omega, show (0#32).extractLsb' (8 * (b - w.1)) 8 = 0#8 by ext i hi; simp] at hbyte
      rw [hw, hbyte, ite_self, if_pos ⟨w, List.mem_cons_self, hin⟩]
    · have hbyte := Memory.readByte_writeWord_other m w.1 b w.2 (by omega)
      simp only [List.exists_mem_cons_iff, hin, false_or, hbyte]

/-- A word that has been written 0 reads 0. -/
theorem readWord_writeAll_zero {ws : List (Nat × Word)} (hz : ∀ w ∈ ws, w.2 = 0#32) (m : Memory) {w : Nat × Word}
    (hw : w ∈ ws) : Memory.readWord (Memory.writeAll m ws) w.1 = 0#32 := by
  have hbyte (k : Nat) (hk : k < 4) : Memory.readByte (Memory.writeAll m ws) (w.1 + k) = 0#8 := by
    rw [readByte_writeAll_zero hz, if_pos ⟨w, hw, by omega⟩]
  rw [Memory.readWord, hbyte 3 (by omega), hbyte 2 (by omega), hbyte 1 (by omega),
    show Memory.readByte _ w.1 = 0#8 from hbyte 0 (by omega)]
  rfl

theorem mem_startUpWords_slot (i : SlotId) : (slotBase i, 0#32) ∈ startUpWords :=
  List.mem_append_left _ (List.mem_map_of_mem (List.mem_finRange i))

theorem mem_startUpWords_cell (c : CellId) : (cellBase c, 0#32) ∈ startUpWords :=
  List.mem_append_right _ (List.mem_map_of_mem (List.mem_finRange c))

/-- Start-up writes the state words of slots and cells alone, each EMPTY. -/
theorem startUpWords_cases {w : Nat × Word} (h : w ∈ startUpWords) :
    (∃ i : SlotId, w = (slotBase i, 0#32)) ∨ ∃ c : CellId, w = (cellBase c, 0#32) := by
  unfold startUpWords at h
  rcases List.mem_append.mp h with h | h
  · obtain ⟨i, _, rfl⟩ := List.mem_map.mp h
    exact .inl ⟨i, rfl⟩
  · obtain ⟨c, _, rfl⟩ := List.mem_map.mp h
    exact .inr ⟨c, rfl⟩

theorem startUpWords_zero : ∀ w ∈ startUpWords, w.2 = 0#32 := by
  intro w h
  rcases startUpWords_cases h with ⟨_, rfl⟩ | ⟨_, rfl⟩ <;> rfl

theorem startUp_eq (size : DramSize) (s : State) : startUp size s = { s with
    phase := .running
    memSize := DramSize.bytes size
    mem := Memory.writeAll s.mem startUpWords
    notice := { s.notice with restarted := true } } := by
  unfold startUp
  generalize Memory.writeAll s.mem startUpWords = m
  rfl

theorem reset_level (e : Elem) : State.reset.level e = .off := by
  cases e <;> simp [State.level, Levels.get, State.reset, Levels.reset]

/-- Settles O60: the reset state block by block; start-up writes words of 0 and nothing else. -/
theorem fullResetAndStartUpBeginAnew : Obligations.FullResetAndStartUpBeginAnew := by
  unfold Obligations.FullResetAndStartUpBeginAnew
  refine ⟨?_, fun s => ⟨fun hfree => ?_, fun hlow => ?_, fun hlow => ?_, fun hhigh hw hh => ?_, fun hhigh hw => ?_⟩,
    fun s size hphase hrstl => ?_⟩
  · refine ⟨?_, ?_, ?_, ?_, reset_level, ?_, ?_, ?_, ?_, ?_, rfl, ?_, ?_, rfl, ?_, ?_, ?_, ?_, ?_, rfl, ?_, rfl, rfl,
      rfl, ?_, ?_, ?_, ?_, rfl, rfl, rfl, rfl, rfl, rfl⟩
    all_goals simp [State.reset, Header.reset, Receiver.reset, ChannelRec.reset, Gate.opened, Role.reset, Mix.reset, Send.reset, Seq.reset,
      Voice.reset, Zone.reset, Region.unused, TimeOfDay.zero, Call.reset, Mirror.reset]
  · rw [exec_access_free rfl hfree]
    rfl
  · exact congrArg _ (if_pos hlow)
  · show Host.Outcome.next (rstlReleased s) = _
    rw [rstlReleased, hlow]
  · have hbusy : portBusy s = false := by rw [portBusy, hw, hh]; rfl
    refine congrArg _ ((if_pos hhigh).trans ?_)
    exact if_neg (by rw [show portBusy { s with rstl := .low1ms } = false from hbusy]; decide)
  · have hbusy : portBusy s = true := by
      rw [portBusy, Bool.or_eq_true, Option.isSome_iff_ne_none, Option.isSome_iff_ne_none]; exact hw
    exact congrArg _ ((if_pos hhigh).trans (if_pos hbusy))
  · have hdue : startUpDue s = true := by
      rw [startUpDue, hphase]
      simpa using hrstl
    have hexec : exec (.startUp size) s = .next (startUp size s) := congrArg _ (if_pos hdue)
    rw [startUp_eq] at hexec
    refine ⟨Memory.writeAll s.mem startUpWords, hexec,
      fun i => readWord_writeAll_zero (w := (slotBase i, 0#32)) startUpWords_zero s.mem (mem_startUpWords_slot i),
      fun c => readWord_writeAll_zero (w := (cellBase c, 0#32)) startUpWords_zero s.mem
        (mem_startUpWords_cell c), fun a hi hc => ?_⟩
    rw [readByte_writeAll_zero startUpWords_zero, if_neg]
    rintro ⟨w, hw, hin⟩
    rcases startUpWords_cases hw with ⟨i, rfl⟩ | ⟨c, rfl⟩
    · have := hi i
      omega
    · have := hc c
      omega

end Sys2Proof.Proofs.Port
end

section
/-! PROOF. The turns of the memory arbiter, the bursts that arrive and those that are written (R124, R125, R178,
R179). -/

namespace Sys2Proof.Proofs.Turns

open Sys2Proof.Machine Sys2Proof.Proofs.Steps

variable {s u v : State}

/-! ## The end of an event that marks nothing -/

/-- An event that has given no notice and marked nothing ends as it stands. -/
theorem finish_unmarked (hn : u.notes = []) (hm : u.marks = []) :
    finish u = { u with wq := { u.wq with began := false } } := by
  unfold finish
  rw [drain_nil hn, flushMarks_nil hm, ← hn]

theorem endsAs_unmarked (hn : u.notes = []) (hm : u.marks = []) : State.EndsAs [] u (finish u) :=
  finish_endsAs rfl hn (fun _ h => h) (fun h => h) (by simp [hm])

/-- An event whose state is `u` but for the areas it has marked. -/
theorem endsAs_marked {as : List Area} (h : v = { u with marks := v.marks }) (hn : u.notes = [])
    (ha : ∀ a, a ∈ v.marks ↔ a ∈ as) : State.EndsAs as u (finish v) := by
  have hm : v.mirror = u.mirror := by rw [h]
  refine finish_endsAs ?_ hn (fun b hb => ?_) (fun hb => ?_) ha
  · rw [hm]; exact h
  · rw [hm]; exact hb
  · rw [hm]; exact hb

/-! ## Who is granted a turn (R178) -/

theorem fetchWaiting_none {urgent : Bool} (h : ∀ v, ¬ s.FetchWaits v urgent) : fetchWaiting s urgent = none := by
  unfold fetchWaiting
  rw [Option.map_eq_none_iff, List.find?_eq_none]
  intro v _ hv
  rw [Bool.and_eq_true, beq_iff_eq] at hv
  exact h v hv

theorem fetchWaiting_some {urgent : Bool} {v : VoiceId} (h : s.FetchWaits v urgent)
    (hlow : ∀ w < v, ¬ s.FetchWaits w urgent) : fetchWaiting s urgent = some (.fetch v) := by
  unfold fetchWaiting
  have hfind : (List.finRange 16).find? (fun v =>
      s.voices[v].outstanding.isSome && s.voices[v].urgent == urgent) = some v := by
    rw [List.find?_eq_some_iff_getElem]
    refine ⟨by rw [Bool.and_eq_true, beq_iff_eq]; exact h, v.val, by simp, by simp, fun j hj => ?_⟩
    have hlow := hlow ⟨j, by omega⟩ hj
    rw [List.getElem_finRange, Bool.not_eq_true', ← Bool.not_eq_true, Bool.and_eq_true, beq_iff_eq]
    exact hlow
  rw [hfind]
  rfl

theorem hostWaits_iff : hostWaits s = true ↔ s.port.waiting ≠ none ∨ s.port.clears ≠ [] := by
  simp [hostWaits, Option.isSome_iff_ne_none]

theorem nextUser_eq : nextUser s = (fetchWaiting s true).or ((hostPast s).or ((fetchWaiting s false).or
    ((readWaiting s).or ((hostWaiting s).or (writeWaiting s))))) := rfl

theorem hostPast_none (h : ¬ (s.port.waiting ≠ none ∨ s.port.clears ≠ []) ∨ s.arb.hostWait < 2) :
    hostPast s = none := by
  unfold hostPast hostWaiting
  rcases h with h | h
  · rw [if_neg (mt hostWaits_iff.mp h), ite_self]
  · rw [if_neg (by omega)]

theorem nextUser_urgent {v : VoiceId} (h : fetchWaiting s true = some (.fetch v)) :
    nextUser s = some (.fetch v) := by rw [nextUser_eq, h]; rfl

theorem nextUser_fetch {v : VoiceId} (hu : fetchWaiting s true = none) (hp : hostPast s = none)
    (h : fetchWaiting s false = some (.fetch v)) : nextUser s = some (.fetch v) := by
  rw [nextUser_eq, hu, hp, h]; rfl

theorem nextUser_host (hw : hostWaits s = true) (hu : fetchWaiting s true = none)
    (hfirst : 2 ≤ s.arb.hostWait ∨ (fetchWaiting s false = none ∧ s.arb.reads = [])) :
    nextUser s = some .host := by
  have hwait : hostWaiting s = some .host := if_pos hw
  rw [nextUser_eq, hu]
  by_cases h2 : 2 ≤ s.arb.hostWait
  · rw [hostPast, if_pos h2, hwait]; rfl
  · obtain ⟨hf, hr⟩ := hfirst.resolve_left h2
    rw [hostPast, if_neg h2, hf, readWaiting, hr, hwait]; rfl

theorem nextUser_read {r : EngineRead} {l : List EngineRead} (hr : s.arb.reads = r :: l)
    (hu : fetchWaiting s true = none) (hp : hostPast s = none) (hf : fetchWaiting s false = none) :
    nextUser s = some (.read r) := by
  rw [nextUser_eq, hu, hp, hf, readWaiting, hr]; rfl

theorem nextUser_write (hq : s.wq.queue ≠ []) (hu : fetchWaiting s true = none)
    (hf : fetchWaiting s false = none) (hr : s.arb.reads = [])
    (hw : ¬ (s.port.waiting ≠ none ∨ s.port.clears ≠ [])) : nextUser s = some .write := by
  rw [nextUser_eq, hu, hostPast_none (.inl hw), hf, readWaiting, hr, hostWaiting,
    if_neg (mt hostWaits_iff.mp hw), writeWaiting, if_neg hq]; rfl

theorem exec_grant {x : User} (hruns : s.Runs) (hbusy : s.arb.busy = none) (hx : nextUser s = some x)
    (hin : ∀ v, x = .fetch v → fetchInside s v = true) :
    exec .memoryGrant s = .next (finish (grant x s)) := by
  have hdue : grantDue s = true := by rw [grantDue, hbusy, hx]; rfl
  show execMemoryGrant s = _
  unfold execMemoryGrant
  rw [if_pos ⟨hruns, hdue⟩, hx]
  cases x with
  | fetch v => exact if_pos (hin v rfl)
  | host | read | write => rfl

/-! ## What a turn does -/

/-- Turns granted to others are counted up to two while the host waits. -/
theorem countTurn_eq (s : State) : countTurn s = { s with arb := { s.arb with
    hostWait := if s.port.waiting.isSome || !s.port.clears.isEmpty then min (s.arb.hostWait + 1) 2
      else s.arb.hostWait } } := by
  unfold countTurn hostWaits
  split <;> rfl

theorem grantFetch_eq {v : VoiceId} {f : Fetch} (h : s.voices[v].outstanding = some f) :
    grantFetch v s = countTurn (setBusy (some (.fetch v (fetchAddr s.voices[v] f) f.size false)) s) := by
  unfold grantFetch
  rw [h]

theorem fetchInside_of {v : VoiceId} {f : Fetch} (h : s.voices[v].outstanding = some f)
    (hin : fetchAddr s.voices[v] f + 4 * f.size ≤ s.memSize) : fetchInside s v = true := by
  unfold fetchInside
  rw [h]
  exact decide_eq_true hin

theorem hostTurn_clears {i : SlotId} {l : List SlotId} (h : s.port.clears = i :: l) :
    hostTurn s = clearTurn i l s := by
  unfold hostTurn
  rw [h]

theorem hostTurn_access {a : HostAccess} (h : s.port.clears = []) (hw : s.port.waiting = some a) :
    hostTurn s = accessTurn a s := by
  unfold hostTurn
  rw [h, hw]

/-- Show memory and the port once the state word of a slot has been written EMPTY. -/
def slotCleared (i : SlotId) (l : List SlotId) (s : State) : State := { s with
  mem := Memory.writeWord s.mem (slotBase i) 0#32
  port := { s.port with clears := l }
  arb := { s.arb with hostWait := 0 } }

theorem clearTurn_alone {i : SlotId} {l : List SlotId} (h : l ≠ [] ∨ s.port.held = none) :
    clearTurn i l s = slotCleared i l s := by
  unfold clearTurn
  dsimp only
  split
  · next a ha =>
    rcases h with h | h
    · exact absurd rfl h
    · exact absurd (h.symm.trans ha) (by simp)
  · rfl

theorem clearTurn_admits {i : SlotId} {a : HostAccess} (h : s.port.held = some a) :
    clearTurn i [] s = admitAccess a { slotCleared i [] s with
      port := { (slotCleared i [] s).port with held := none } } := by
  unfold clearTurn
  dsimp only
  rw [h]
  rfl

/-! ## An engine read -/

/-- An engine read takes its place in the queue of reads, and may ask for another. -/
theorem engineRead_reads (r : EngineRead) (hn : s.notes = []) :
    (engineRead r s).arb.reads.take s.arb.reads.tail.length = s.arb.reads.tail
      ∧ (engineRead r s).notes = [] := by
  have hcount (x : State) : (countTurn x).arb.reads = x.arb.reads ∧ (countTurn x).notes = x.notes := by
    rw [countTurn_eq]; exact ⟨rfl, rfl⟩
  obtain ⟨hr, hc⟩ := hcount { s with arb := { s.arb with reads := s.arb.reads.tail } }
  replace hc := hc.trans hn
  generalize hx : countTurn { s with arb := { s.arb with reads := s.arb.reads.tail } } = x at hr hc
  have hsame {y : State} (h1 : y.arb.reads = x.arb.reads) (h2 : y.notes = x.notes) :
      y.arb.reads.take s.arb.reads.tail.length = s.arb.reads.tail ∧ y.notes = [] := by
    rw [h1, hr]
    exact ⟨List.take_length, h2.trans hc⟩
  unfold engineRead
  dsimp only
  rw [hx]
  cases r with
  | slot i =>
    unfold slotRead
    dsimp only
    split
    · split <;> exact hsame rfl rfl
    · exact hsame rfl rfl
  | firing => exact hsame rfl rfl
  | record => exact hsame rfl rfl
  | table k =>
    unfold loadTable
    dsimp only
    split
    · exact hsame rfl rfl
    · split
      · refine ⟨?_, hc⟩
        show (x.arb.reads ++ [_]).take _ = _
        rw [hr]
        exact List.take_left
      · exact hsame rfl rfl

/-- Settles O19: the order of the users by the queue they stand in, and each turn by its own equation. -/
theorem memoryGrantServesTheFirstUser : Obligations.MemoryGrantServesTheFirstUser := by
  unfold Obligations.MemoryGrantServesTheFirstUser
  refine ⟨fun x => decide_eq_true_iff, fun s hruns hquiet hbusy => ?_⟩
  have ⟨hn, hm⟩ := hquiet
  dsimp only
  refine ⟨fun v f urgent ho hw hlow hother hin => ?_, fun i l hc hu hfirst => ?_, fun a d hc hw hu hfirst => ?_,
    fun a hc hw hu hfirst => ?_, fun r l hr hu hf hother => ?_, fun hq hu hf hr hw => ?_⟩
  · have hnext : nextUser s = some (.fetch v) := by
      cases urgent with
      | true => exact nextUser_urgent (fetchWaiting_some hw hlow)
      | false =>
        obtain ⟨hu, hp⟩ := hother rfl
        exact nextUser_fetch (fetchWaiting_none hu) (hostPast_none hp) (fetchWaiting_some hw hlow)
    refine ⟨_, exec_grant hruns hbusy hnext fun w hvw => ?_, ?_⟩
    · cases hvw
      exact fetchInside_of ho hin
    · show State.EndsAs [] _ (finish (grantFetch v s))
      rw [grantFetch_eq ho, countTurn_eq]
      exact endsAs_unmarked hn hm
  · have hnext := nextUser_host (hostWaits_iff.mpr (.inr (by simp [hc]))) (fetchWaiting_none hu)
      (hfirst.imp_right fun h => ⟨fetchWaiting_none h.1, h.2⟩)
    refine ⟨_, exec_grant hruns hbusy hnext (by simp), fun h => ?_, fun a hl ha => ?_⟩
    · show State.EndsAs [] _ (finish (hostTurn s))
      rw [hostTurn_clears hc, clearTurn_alone h]
      exact endsAs_unmarked hn hm
    · subst hl
      show State.EndsAs [] _ (finish (hostTurn s))
      rw [hostTurn_clears hc, clearTurn_admits ha]
      obtain ⟨h1, h2, _⟩ := admit_notes_marks a { slotCleared i [] s with
        port := { (slotCleared i [] s).port with held := none } }
      exact endsAs_unmarked (h1.trans hn) (h2.trans hm)
  · have hnext := nextUser_host (hostWaits_iff.mpr (.inl (by simp [hw]))) (fetchWaiting_none hu)
      (hfirst.imp_right fun h => ⟨fetchWaiting_none h.1, h.2⟩)
    refine ⟨_, exec_grant hruns hbusy hnext (by simp), ?_⟩
    show State.EndsAs [] _ (finish (hostTurn s))
    rw [hostTurn_access hc hw]
    exact endsAs_unmarked hn hm
  · have hnext := nextUser_host (hostWaits_iff.mpr (.inl (by simp [hw]))) (fetchWaiting_none hu)
      (hfirst.imp_right fun h => ⟨fetchWaiting_none h.1, h.2⟩)
    refine ⟨_, exec_grant hruns hbusy hnext (by simp), ?_⟩
    show State.EndsAs [] _ (finish (hostTurn s))
    rw [hostTurn_access hc hw]
    exact endsAs_unmarked hn hm
  · have hnext := nextUser_read hr (fetchWaiting_none hu) (hostPast_none hother) (fetchWaiting_none hf)
    obtain ⟨hreads, hnotes⟩ := engineRead_reads r hn
    rw [hr] at hreads
    have hcounted (w : EngineRead → State → State) : w r (countTurn { s with arb := { s.arb with reads := s.arb.reads.tail } })
      = w r { s with arb := { s.arb with
          reads := l
          hostWait := if s.port.waiting.isSome || !s.port.clears.isEmpty then min (s.arb.hostWait + 1) 2
            else s.arb.hostWait } } := by
      rw [countTurn_eq, hr]; rfl
    refine ⟨_, exec_grant hruns hbusy hnext (by simp), ?_, ?_, ?_, ?_, ?_⟩
    · show ((finish (engineRead r s)).arb.reads).take l.length = l
      obtain ⟨q, m, hfin⟩ := finish_eq hnotes
      rw [hfin]
      exact hreads
    · exact (finish_mem _).trans (keeps_engineRead r (.refl s)).mem
    · rintro rfl
      show State.EndsAs [] _ (finish (firingRead _))
      rw [hcounted fun _ => firingRead]
      exact endsAs_unmarked hn hm
    · rintro rfl
      show State.EndsAs [] _ (finish (countTurn _))
      rw [hcounted fun _ x => x]
      exact endsAs_unmarked hn hm
    · rintro i rfl hcur
      show State.EndsAs [] _ (finish (slotRead i _))
      rw [hcounted fun _ => slotRead i]
      unfold slotRead
      dsimp only
      rw [hcur]
      dsimp only
      rw [if_pos rfl]
      exact endsAs_unmarked hn hm
  · refine ⟨_, exec_grant hruns hbusy
      (nextUser_write hq (fetchWaiting_none hu) (fetchWaiting_none hf) hr hw) (by simp), ?_⟩
    show State.EndsAs [] _ (finish (countTurn (setBusy (some .write) s)))
    have hstill : hostWaits (setBusy (some .write) s) = false := by
      rw [← Bool.not_eq_true]; exact mt hostWaits_iff.mp hw
    rw [countTurn, if_neg (by rw [hstill]; decide)]
    exact endsAs_unmarked hn hm

/-! ## A burst arrives (R123 to R125) -/

theorem updVoice_updVoice (v : VoiceId) (f g : Voice → Voice) (s : State) :
    updVoice v g (updVoice v f s) = { s with voices := s.voices.set v (g (f s.voices[v])) } := by
  simp [updVoice, upd]

theorem primed_iff (x : Voice) : x.primed = true ↔
    (x.state = .priming ∨ (x.state = .stopping ∧ x.resume = .priming))
      ∧ (256 ≤ x.buffer.length
        ∨ (x.sound.looping = false ∧ x.sound.count ≤ x.playPos + x.buffer.length)) := by
  simp [Voice.primed, Voice.isPriming]

/-- The state a voice takes at the end of its priming. -/
theorem afterPriming_eq (x : Voice) : x.afterPriming = match x.owner, x.startPending with
    | .call _, false => .primed
    | _, _ => .playing := by
  unfold Voice.afterPriming
  cases x.owner <;> cases x.startPending <;> rfl

theorem request_state (x : Voice) : x.request.state = x.state := by
  unfold Voice.request
  split <;> rfl

/-- A voice with the samples of its burst in its buffer. -/
def filledVoice (x : Voice) (samples : List Sample) : Voice :=
  { x with buffer := x.buffer ++ samples, outstanding := none }

theorem takeBurst_eq (v : VoiceId) (samples : List Sample) (s : State) :
    takeBurst v samples s = updVoice v Voice.request (primingStep v (updVoice v (filledVoice · samples) s)) := rfl

/-- A burst that leaves the priming as it is joins the buffer alone. -/
theorem takeBurst_unprimed {v : VoiceId} {samples : List Sample}
    (h : (filledVoice s.voices[v] samples).primed = false) :
    takeBurst v samples s
      = { s with voices := s.voices.set v (filledVoice s.voices[v] samples).request } := by
  have h' : (updVoice v (filledVoice · samples) s).voices[v].primed = false := by
    rw [updVoice_voices, upd_get_self]; exact h
  rw [takeBurst_eq, primingStep, if_neg (by rw [h']; exact Bool.false_ne_true), updVoice_updVoice]

theorem takeBurst_primed {v : VoiceId} {samples : List Sample}
    (h : (filledVoice s.voices[v] samples).primed = true) :
    takeBurst v samples s = mark .voices
      { s with voices := s.voices.set v (filledVoice s.voices[v] samples).endPriming.request } := by
  have h' : (updVoice v (filledVoice · samples) s).voices[v].primed = true := by
    rw [updVoice_voices, upd_get_self]; exact h
  rw [takeBurst_eq, primingStep, if_pos h']
  show mark .voices (updVoice v Voice.request (updVoice v Voice.endPriming _)) = _
  rw [updVoice_updVoice, updVoice_voices, upd_get_self]
  simp [updVoice, upd]

theorem burstArrives_eq {v : VoiceId} {a n : Nat} {stale : Bool} (h : s.arb.busy = some (.fetch v a n stale)) :
    burstArrives v s = if stale then setBusy none s else takeBurst v (burstSamples s.mem a n) (setBusy none s) := by
  unfold burstArrives
  rw [h]
  rfl

theorem exec_burstArrival {v : VoiceId} {a n : Nat} {stale : Bool} (hruns : s.Runs)
    (h : s.arb.busy = some (.fetch v a n stale)) :
    exec (.burstArrival v) s = .next (finish (burstArrives v s)) := by
  have hdue : arrivalDue s v = true := by
    unfold arrivalDue
    rw [h]
    exact beq_self_eq_true v
  exact (running_next _ hruns).trans (congrArg _ (event_due hdue))

/-- The burst of a voice that asks is as large as its block, its run and 64 frames allow (R124). -/
theorem request_asks {x : Voice} (h : x.state ≠ .idle ∧ x.outstanding = none ∧ x.buffer.length + 64 ≤ 512
    ∧ (x.sound.looping = true ∨ x.fetchPos < x.sound.count)) :
    x.request = { x with
      outstanding := some { first := x.fetchPos, size := x.burstSize }, fetchPos := x.pastBurst } := by
  have hframe : x.hasFrame = true := by simpa [Voice.hasFrame] using h.2.2.2
  unfold Voice.request
  rw [if_pos ⟨h.1, h.2.1, h.2.2.1, hframe⟩]

theorem request_idle {x : Voice} (h : ¬ (x.state ≠ .idle ∧ x.outstanding = none ∧ x.buffer.length + 64 ≤ 512
    ∧ (x.sound.looping = true ∨ x.fetchPos < x.sound.count))) : x.request = x := by
  unfold Voice.request
  rw [if_neg fun ⟨h1, h2, h3, h4⟩ => h ⟨h1, h2, h3, by simpa [Voice.hasFrame] using h4⟩]

/-- The size of a burst: 64 frames, or up to the end of its block or of its run. -/
theorem burstSize_law {x : Voice} (ha : (x.sound.start + 4 * x.fetchPos) % 4 = 0) (hr : x.fetchPos < x.runEnd) :
    let addr := x.sound.start + 4 * x.fetchPos
    1 ≤ x.burstSize ∧ x.burstSize ≤ 64 ∧ x.fetchPos + x.burstSize ≤ x.runEnd
      ∧ addr / 256 = (addr + 4 * x.burstSize - 1) / 256
      ∧ (x.burstSize = 64 ∨ x.fetchPos + x.burstSize = x.runEnd ∨ (addr + 4 * x.burstSize) % 256 = 0) := by
  unfold Voice.burstSize
  dsimp only
  omega

/-- Settles O20: by whether the burst is stale and whether its samples end the priming. -/
theorem arrivedBurstFillsItsVoice : Obligations.ArrivedBurstFillsItsVoice := by
  unfold Obligations.ArrivedBurstFillsItsVoice
  refine ⟨fun s v a n stale hruns hquiet hbusy => ?_, fun x => ⟨request_idle, fun hasks ha hr => ?_⟩⟩
  · have ⟨hn, hm⟩ := hquiet
    intro x primes enough after became
    have hx : x = filledVoice s.voices[v] (burstSamples s.mem a n) := rfl
    have hafter : after = x.afterPriming := (afterPriming_eq x).symm
    have hends (hst : stale = false) (hp : x.primed = true) :
        State.EndsAs [.voices] (became x.endPriming) (finish (burstArrives v s)) := by
      rw [burstArrives_eq hbusy, if_neg (by simp [hst]), takeBurst_primed (s := setBusy none s) (samples := burstSamples s.mem a n) hp]
      exact endsAs_marked rfl hn (by simp [hm])
    refine ⟨_, exec_burstArrival hruns hbusy, fun hst => ?_, fun hst hs he => ?_, fun hst hs hre he => ?_,
      fun hst hnot => ?_, fun hst hs ho hlen => ?_⟩
    · rw [burstArrives_eq hbusy, if_pos hst]
      exact endsAs_unmarked hn hm
    · have hend := hends hst ((primed_iff x).mpr ⟨.inl hs, he⟩)
      rwa [Voice.endPriming, if_neg (by simp [hs]), ← hafter] at hend
    · have hend := hends hst ((primed_iff x).mpr ⟨.inr ⟨hs, hre⟩, he⟩)
      rwa [Voice.endPriming, if_pos hs, ← hafter] at hend
    · have hp : x.primed = false := by rw [← Bool.not_eq_true]; exact mt (primed_iff x).mp hnot
      rw [burstArrives_eq hbusy, if_neg (by simp [hst]), 
        takeBurst_unprimed (s := setBusy none s) (samples := burstSamples s.mem a n) hp]
      exact endsAs_unmarked hn hm
    · have hlen' : 256 ≤ x.buffer.length := by simpa [hx, filledVoice, burstSamples] using hlen
      have hplay : x.afterPriming = .playing := by
        unfold Voice.afterPriming
        rw [show x.owner = .request from ho]
      obtain ⟨l, m, ht, _⟩ := EndsAs.law (hends hst ((primed_iff x).mpr ⟨.inl hs, .inl hlen'⟩))
      rw [ht]
      show (s.voices.set v x.endPriming.request)[v].state = _
      simp only [Fin.getElem_fin, Vector.getElem_set_self]
      rw [request_state, Voice.endPriming, if_neg (by simp [show x.state = .priming from hs])]
      exact hplay
  · refine ⟨x.burstSize, ?_⟩
    obtain ⟨h1, h2, h3, h4, h5⟩ := burstSize_law ha hr
    exact ⟨h1, h2, h3, h4, h5, request_asks hasks⟩

/-! ## A burst is written (R179) -/

theorem leaveHead_of_entering_none {q : WriteQueue} (hs : q.heldSlate = []) (hc : q.heldCapture = []) :
    q.leaveHead = { q with queue := q.queue.tail } := by
  have he : q.entering = none := by
    unfold WriteQueue.entering
    cases q.next <;> simp [WriteQueue.held, Writer.other, hs, hc]
  unfold WriteQueue.leaveHead
  rw [he]

theorem leaveHead_slate {q : WriteQueue} {x : Burst} {m : List Burst} (hs : q.heldSlate = x :: m)
    (h : q.heldCapture = [] ∨ q.next = .slate) :
    q.leaveHead = { q with queue := q.queue.tail ++ [x], heldSlate := m, next := .capture } := by
  have he : q.entering = some .slate := by
    unfold WriteQueue.entering
    cases hn : q.next <;> simp_all [WriteQueue.held, Writer.other]
  unfold WriteQueue.leaveHead
  rw [he]
  simp [WriteQueue.held, WriteQueue.setHeld, hs, Writer.other]

theorem leaveHead_capture {q : WriteQueue} {x : Burst} {m : List Burst} (hc : q.heldCapture = x :: m)
    (h : q.heldSlate = [] ∨ q.next = .capture) :
    q.leaveHead = { q with queue := q.queue.tail ++ [x], heldCapture := m, next := .slate } := by
  have he : q.entering = some .capture := by
    unfold WriteQueue.entering
    cases hn : q.next <;> simp_all [WriteQueue.held, Writer.other]
  unfold WriteQueue.leaveHead
  rw [he]
  simp [WriteQueue.held, WriteQueue.setHeld, hc, Writer.other]

theorem join_held {q : WriteQueue} {w : Writer} (b : Burst) (h : q.held w ≠ []) :
    q.join w b = q.setHeld w (q.held w ++ [b]) := if_pos h

theorem join_queued {q : WriteQueue} {w : Writer} (b : Burst) (h : q.held w = []) (hq : q.queue.length < 48) :
    q.join w b = { q with queue := q.queue ++ [b] } :=
  (if_neg (not_not_intro h)).trans (if_pos hq)

theorem join_full {q : WriteQueue} {w : Writer} (b : Burst) (h : q.held w = []) (hq : 48 ≤ q.queue.length) :
    q.join w b = { (q.setHeld w [b]) with
      next := if q.held w.other = [] then w else if q.began then .slate else w.other
      began := true } :=
  (if_neg (not_not_intro h)).trans (if_neg (by omega))

/-- The state once the head burst is in memory and has left the queue, before anyone is told. -/
def headWritten (b : Burst) (s : State) : State := { s with
  mem := Memory.writeAll s.mem b.words
  mirror := showBurst s.mirror b
  wq := s.wq.leaveHead
  arb := { s.arb with busy := none } }

theorem burstWritten_eq {b : Burst} {l : List Burst} (h : s.wq.queue = b :: l) :
    burstWritten s = burstTold b (headWritten b s) := by
  unfold burstWritten
  rw [h]
  rfl

theorem burstTold_answered {i : SlotId} {st : SlotState} (h : st = .done ∨ st = .refused) (s : State) :
    burstTold (.slotState i st) s = slotAnswered i st s := by
  rcases h with rfl | rfl <;> rfl

/-- The current request ends with the final state of its slot. -/
theorem slotAnswered_eq (i : SlotId) (st : SlotState) (s : State) : slotAnswered i st s = { s with
    port := { s.port with view := s.port.view.set i st }
    slate := { s.slate with current := s.slate.current.filter fun c => c.slot != i } } := by
  unfold slotAnswered
  cases hc : s.slate.current with
  | none => rfl
  | some c => by_cases hi : c.slot = i <;> simp [hi, setView, Option.filter]

theorem burstTold_nobody {b : Burst} (h : ∀ i st, b = .slotState i st → st ≠ .done ∧ st ≠ .refused)
    (hc : ∀ c : CellId, b = .cellFull c → s.cells[c].state ≠ .filling) : burstTold b s = s := by
  unfold burstTold
  split
  · exact absurd rfl (h _ _ rfl).1
  · exact absurd rfl (h _ _ rfl).2
  · exact if_neg (hc _ rfl)
  · rfl

theorem exec_writeBurstWritten {b : Burst} {l : List Burst} (hruns : s.Runs) (hquiet : s.Quiet)
    (hbusy : s.arb.busy = some .write) (hq : s.wq.queue = b :: l) :
    exec .writeBurstWritten s = .next { burstTold b (headWritten b s) with
      wq := { s.wq.leaveHead with began := false } } := by
  obtain ⟨hn, hm⟩ := hquiet
  have hdue : writtenDue s = true := by rw [writtenDue, hbusy]; rfl
  obtain ⟨_, hw, _, hn', hm'⟩ := burstWritten_cons hq
  refine (running_next _ hruns).trans (congrArg _ ((event_due hdue).trans ?_))
  rw [finish_unmarked (hn'.trans hn) (hm'.trans hm), hw, burstWritten_eq hq]

/-- Settles O21: by who is told of the burst, and by which writer holds bursts. -/
theorem writtenBurstLeavesTheQueue : Obligations.WrittenBurstLeavesTheQueue := by
  unfold Obligations.WrittenBurstLeavesTheQueue
  refine ⟨fun s b l hruns hquiet hbusy hq => ?_, fun q b => ?_, fun c d ws n => ⟨?_, rfl, rfl⟩⟩
  · have hexec := exec_writeBurstWritten hruns hquiet hbusy hq
    dsimp only
    refine ⟨fun hs hc => ?_, fun x m hs h => ?_, fun x m hc h => ?_, fun i st hb hst => ?_, fun c hb hc => ?_,
      fun hb hc => ?_⟩
    · rw [leaveHead_of_entering_none hs hc, hq]; rfl
    · rw [leaveHead_slate hs h, hq]; rfl
    · rw [leaveHead_capture hc h, hq]; rfl
    · subst hb
      rw [hexec, burstTold_answered hst, slotAnswered_eq]
      rfl
    · subst hb
      have htold : burstTold (.cellFull c) (headWritten (.cellFull c) s)
          = setCell c { s.cells[c] with state := .full } (headWritten (.cellFull c) s) := if_pos hc
      rw [hexec, htold]
      rfl
    · rw [hexec, burstTold_nobody (s := headWritten b s) hb hc]
      rfl
  · refine ⟨join_held (w := .slate) b, join_held (w := .capture) b, join_queued (w := .slate) b,
      join_queued (w := .capture) b, fun h hq => ?_, fun h hq => ?_⟩
    · rw [join_full (w := .slate) b h hq]
      simp only [WriteQueue.held, WriteQueue.setHeld, Writer.other]
      congr 1
      by_cases hc : q.heldCapture = [] <;> simp [hc]
    · rw [join_full (w := .capture) b h hq]
      simp only [WriteQueue.held, WriteQueue.setHeld, Writer.other, ite_self]
  · simp only [Burst.words, wordsFrom, cellBase]
    congr 2
    refine List.ext_getElem (by simp) fun i h1 h2 => ?_
    simp only [List.length_map, List.length_zip, List.length_range, min_self] at h1
    simp [List.getD_eq_getElem, h1]

end Sys2Proof.Proofs.Turns
end

section
/-! PROOF. How an event ends: what it has marked and noted for the mirror writer is carried along, one rule for
each operation of the state (R172, R173), the notices between blocks are worked off (log 22), and an answer is
given (R181). -/

namespace Sys2Proof.Proofs.Ends

open Sys2Proof.Machine Sys2Proof.Proofs.Turns

variable {s u v w : State} {as : List Area}

/-! ## Changes of one entry of a vector -/

theorem set_self {α : Type} {n : Nat} (v : Vector α n) (i : Fin n) : v.set i v[i] = v := by simp

theorem upd_of_eq {α : Type} {n : Nat} {v : Vector α n} {i : Fin n} {f : α → α} (h : f v[i] = v[i]) :
    upd v i f = v := by
  rw [upd, h, set_self]

theorem upd_upd {α : Type} {n : Nat} (v : Vector α n) (i : Fin n) (f g : α → α) :
    upd (upd v i f) i g = upd v i fun x => g (f x) := by
  simp [upd]

theorem set_upd {α : Type} {n : Nat} (v : Vector α n) (i : Fin n) (x : α) (g : α → α) :
    upd (v.set i x) i g = v.set i (g x) := by
  simp [upd]

/-! ## One change for each index -/

theorem foldl_upd_get {α : Type} {n : Nat} (g : Fin n → α → α) (l : List (Fin n)) (hl : l.Nodup) (v : Vector α n)
    (j : Fin n) : (l.foldl (fun v i => upd v i (g i)) v)[j] = if j ∈ l then g j v[j] else v[j] := by
  induction l generalizing v with
  | nil => rfl
  | cons i l ih =>
    obtain ⟨hi, hl⟩ := List.nodup_cons.mp hl
    rw [List.foldl_cons, ih hl]
    by_cases hj : j = i
    · subst hj
      rw [if_neg hi, if_pos List.mem_cons_self, upd_get_self]
    · rw [upd_get_ne v i j (g i) (fun h => hj h.symm)]
      simp [hj]

/-- Steps that each change their own entry of one vector change every entry. -/
theorem forEach_upd {α σ : Type} {n : Nat} (g : Fin n → α → α) (L : Vector α n → σ) {step : Fin n → σ → σ}
    (h : ∀ i v, step i (L v) = L (upd v i (g i))) (v : Vector α n) :
    forEach n step (L v) = L (tabulate fun i => g i v[i]) := by
  have hfold : ∀ (l : List (Fin n)) (v : Vector α n),
      l.foldl (fun s i => step i s) (L v) = L (l.foldl (fun v i => upd v i (g i)) v) := by
    intro l
    induction l with
    | nil => exact fun _ => rfl
    | cons i l ih => exact fun v => by rw [List.foldl_cons, List.foldl_cons, h, ih]
  refine (hfold _ v).trans (congrArg L (Vector.ext fun j hj => ?_))
  have := foldl_upd_get g (List.finRange n) (List.nodup_finRange n) v ⟨j, hj⟩
  rw [if_pos (List.mem_finRange _)] at this
  rw [tabulate_get]
  exact this

/-! ## States that differ in what is marked and noted -/

/-- `v` is `u` with the areas of `as` marked, and with changes noted for the ticks, none being forgotten. -/
def Reaches (as : List Area) (u v : State) : Prop :=
  v = { u.noted v.mirror.dirty v.mirror.inUseChanged with marks := v.marks }
    ∧ (∀ b : Fin 25, u.mirror.dirty[b] = true → v.mirror.dirty[b] = true)
    ∧ (u.mirror.inUseChanged = true → v.mirror.inUseChanged = true)
    ∧ ∀ a, a ∈ v.marks ↔ a ∈ as

/-- `f` neither reads nor changes what is marked and noted. -/
def Plain (f : State → State) : Prop :=
  ∀ (u : State) (d : Vector Bool 25) (i : Bool) (ms : List Area),
    f { u.noted d i with marks := ms } = { (f u).noted d i with marks := ms }

theorem Reaches.refl (hm : s.marks = []) : Reaches [] s s :=
  ⟨rfl, fun _ h => h, fun h => h, by simp [hm]⟩

/-- What `Reaches` says, with the noted changes and the marks as values of their own. -/
theorem reaches_iff : Reaches as u v ↔ ∃ (d : Vector Bool 25) (i : Bool) (ms : List Area),
    v = { u.noted d i with marks := ms } ∧ (∀ b : Fin 25, u.mirror.dirty[b] = true → d[b] = true)
      ∧ (u.mirror.inUseChanged = true → i = true) ∧ ∀ a, a ∈ ms ↔ a ∈ as := by
  constructor
  · rintro ⟨h, hd, hi, ha⟩
    exact ⟨_, _, _, h, hd, hi, ha⟩
  · rintro ⟨d, i, ms, rfl, hd, hi, ha⟩
    exact ⟨rfl, hd, hi, ha⟩

theorem Reaches.congr {bs : List Area} (h : Reaches as u v) (hu : u = w) (ha : ∀ a, a ∈ as ↔ a ∈ bs) :
    Reaches bs w v := by
  subst hu
  exact ⟨h.1, h.2.1, h.2.2.1, fun a => (h.2.2.2 a).trans (ha a)⟩

theorem Reaches.plain {f : State → State} (hf : Plain f) (h : Reaches as u v) : Reaches as (f u) (f v) := by
  obtain ⟨d, i, ms, rfl, hd, hi, ha⟩ := reaches_iff.mp h
  have hm : (f u).mirror = { (f u).mirror with dirty := u.mirror.dirty, inUseChanged := u.mirror.inUseChanged } :=
    congrArg State.mirror (hf u u.mirror.dirty u.mirror.inUseChanged u.marks)
  refine reaches_iff.mpr ⟨d, i, ms, hf u d i ms, ?_, ?_, ha⟩
  · rw [hm]; exact hd
  · rw [hm]; exact hi

theorem Plain.comp {f g : State → State} (hg : Plain g) (hf : Plain f) : Plain fun s => g (f s) := by
  intro u d i ms
  show g (f _) = _
  rw [hf, hg]

theorem Reaches.area (a : Area) (h : Reaches as u v) : Reaches (a :: as) u (mark a v) := by
  obtain ⟨d, i, ms, rfl, hd, hi, ha⟩ := reaches_iff.mp h
  refine reaches_iff.mpr ⟨d, i, _, rfl, hd, hi, fun b => ?_⟩
  show (b ∈ if a ∈ ms then ms else ms ++ [a]) ↔ _
  split
  · next hin => rw [List.mem_cons, ha b]; exact ⟨.inr, fun hb => hb.elim (· ▸ (ha a).mp hin) id⟩
  · rw [List.mem_append, List.mem_singleton, List.mem_cons, ha b, or_comm]

theorem Reaches.area_of_mem {a : Area} (h : Reaches as u v) (ha : a ∈ as) : Reaches as u (Machine.mark a v) :=
  (h.area a).congr rfl fun b => by rw [List.mem_cons]; exact ⟨fun hb => hb.elim (· ▸ ha) id, .inr⟩

/-- What has been noted for the ticks may be forgotten on the side that names the event's outcome. -/
theorem Reaches.forget {d : Vector Bool 25} {i : Bool} (h : Reaches as (u.noted d i) v)
    (hd : ∀ b : Fin 25, u.mirror.dirty[b] = true → d[b] = true) (hi : u.mirror.inUseChanged = true → i = true) :
    Reaches as u v := by
  obtain ⟨h, hd', hi', ha⟩ := h
  exact ⟨h, fun b hb => hd' b (hd b hb), fun hb => hi' (hi hb), ha⟩

/-- The blocks of levels that have changed once a level has been written. -/
def dirtied (s : State) (e : Elem) (x : Level) (d : Vector Bool 25) : Vector Bool 25 :=
  if s.level e = x then d else d.set e.block true

theorem dirtied_mono (s : State) (e : Elem) (x : Level) {d d' : Vector Bool 25}
    (h : ∀ b : Fin 25, d[b] = true → d'[b] = true) (b : Fin 25) (hb : (dirtied s e x d)[b] = true) :
    (dirtied s e x d')[b] = true := by
  unfold dirtied at *
  split at hb
  · next hx => rw [if_pos hx]; exact h b hb
  · next hx =>
    rw [if_neg hx]
    by_cases hbe : e.block = b
    · subst hbe; simp
    · have hne : (e.block : Nat) ≠ b := fun he => hbe (Fin.ext he)
      rw [Fin.getElem_fin, Vector.getElem_set_ne _ _ hne] at hb ⊢
      exact h b hb

theorem le_dirtied (s : State) (e : Elem) (x : Level) (d : Vector Bool 25) (b : Fin 25) (h : d[b] = true) :
    (dirtied s e x d)[b] = true := by
  unfold dirtied
  split
  · exact h
  · by_cases hbe : e.block = b
    · subst hbe; simp
    · have hne : (e.block : Nat) ≠ b := fun he => hbe (Fin.ext he)
      rw [Fin.getElem_fin, Vector.getElem_set_ne _ _ hne]
      exact h

theorem setElem_eq (e : Elem) (x : Level) (s : State) :
    setElem e x s = State.noted { s with levels := s.levels.put e x } (dirtied s e x s.mirror.dirty)
      s.mirror.inUseChanged := by
  unfold setElem dirtied State.noted
  split <;> rfl

theorem Reaches.elem_noted (e : Elem) (x : Level) (h : Reaches as u v) :
    Reaches as (setElem e x u) (setElem e x v) := by
  obtain ⟨d, i, ms, rfl, hd, hi, ha⟩ := reaches_iff.mp h
  rw [setElem_eq, setElem_eq]
  exact reaches_iff.mpr ⟨dirtied u e x d, i, ms, rfl, dirtied_mono u e x hd, hi, ha⟩

theorem Reaches.elem (e : Elem) (x : Level) (h : Reaches as u v) :
    Reaches as { u with levels := u.levels.put e x } (setElem e x v) := by
  have h := h.elem_noted e x
  rw [setElem_eq e x u] at h
  exact h.forget (le_dirtied u e x _) id

theorem Reaches.inUse (c : Bool) (h : Reaches as u v) : Reaches as u (noteInUse c v) := by
  obtain ⟨d, i, ms, rfl, hd, hi, ha⟩ := reaches_iff.mp h
  exact reaches_iff.mpr ⟨d, i || c, ms, rfl, hd, fun h => by simp [hi h], ha⟩

theorem Reaches.fade (i : RecId) (r : Option FadeRec) (h : Reaches as u v) :
    Reaches as { u with fades := u.fades.set i r } (setFade i r v) :=
  (h.plain (f := fun s => { s with fades := s.fades.set i r }) fun _ _ _ _ => rfl).inUse _

theorem Reaches.fade_noted (i : RecId) (r : Option FadeRec) (h : Reaches as u v) :
    Reaches as (Machine.setFade i r u) (Machine.setFade i r v) := by
  obtain ⟨d, c, ms, rfl, hd, hi, ha⟩ := reaches_iff.mp h
  exact reaches_iff.mpr ⟨d, c || (u.fades[i].isSome != r.isSome), ms, rfl, hd,
    fun hc => Bool.or_eq_true_iff.mpr ((Bool.or_eq_true_iff.mp hc).imp hi id), ha⟩

/-- The cells and the write queue once an event has been handed over for a cell (R168). -/
def capturing (c : CellId) (ds : List Word) (cells : Vector Cell 12) (tod : TimeOfDay) (q : WriteQueue) :
    Vector Cell 12 × WriteQueue :=
  if cells[c].state = .empty then
    (cells.set c { state := .filling, missed := 0 },
      (q.join .capture (.cellData c tod ds)).join .capture (.cellFull c))
  else if cells[c].missed < 255 then
    (cells.set c { cells[c] with missed := cells[c].missed + 1 },
      q.join .capture (.cellMissed c (cells[c].missed + 1)))
  else (cells, q)

theorem captureEvent_eq (c : CellId) (ds : List Word) (s : State) :
    captureEvent c ds s = { s with
      cells := (capturing c ds s.cells s.tod s.wq).1, wq := (capturing c ds s.cells s.tod s.wq).2 } := by
  unfold captureEvent capturing
  cases s.cells[c].state with
  | empty => rfl
  | filling | full =>
    simp only [reduceCtorEq, if_false]
    split <;> rfl

theorem plain_captureEvent (c : CellId) (ds : List Word) : Plain (captureEvent c ds) := by
  intro u d i ms
  rw [captureEvent_eq, captureEvent_eq]
  rfl

theorem captureEvent_notes (c : CellId) (ds : List Word) (s : State) : (captureEvent c ds s).notes = s.notes := by
  rw [captureEvent_eq]

/-! ## Working the notices off (log 22) -/

/-- The notices of `v` are worked off by `n` steps that lead to `w`. -/
def Works (n : Nat) (v w : State) : Prop := ∀ k, drainN (k + n) v = drainN k w

theorem Works.refl : Works 0 v v := fun _ => rfl

theorem Works.step {x : Note} {l : List Note} {n : Nat} (h : v.notes = x :: l)
    (hw : Works n (handleNote x { v with notes := l }) w) : Works (n + 1) v w := fun k => by
  show drainN ((k + n) + 1) v = _
  rw [drainN, h]
  exact hw k

theorem Works.drain {n : Nat} (h : Works n v w) (hn : n ≤ 256) (hw : w.notes = []) : drain v = w := by
  unfold Machine.drain
  rw [show 256 = (256 - n) + n by omega, h, drainN_nil _ hw]

/-- One notice whose handling gives none. -/
theorem drain_note {x : Note} (h : v.notes = [x]) (hw : (handleNote x { v with notes := [] }).notes = []) :
    drain v = handleNote x { v with notes := [] } :=
  (Works.refl.step h).drain (by decide) hw

theorem finish_of_drain (h : drain v = w) (hw : w.notes = []) : finish v = finish w := by
  unfold finish
  rw [h, drain_nil hw]

/-! ## The end of an event -/

theorem Reaches.endsAs (h : Reaches as u v) (hn : u.notes = []) : State.EndsAs as u (finish v) :=
  finish_endsAs h.1 hn h.2.1 h.2.2.1 h.2.2.2

theorem Reaches.endsAs_drained (hd : drain v = w) (h : Reaches as u w) (hn : u.notes = []) :
    State.EndsAs as u (finish v) := by
  rw [finish_of_drain hd (by rw [h.1]; exact hn)]
  exact h.endsAs hn

/-- An event of the running part that is due, with what its operation has reached. -/
theorem Reaches.event_endsAs {due : Bool} {op : State → State} (hd : due = true) (h : Reaches as u (op s))
    (hn : u.notes = []) : State.EndsAs as u (event due op s) := by
  rw [event_due hd]
  exact h.endsAs hn

/-! ## Answers (R181) -/

/-- The slate once its current request has been answered. -/
def answeredSlate (a : Answer) (q : Slate) : Slate :=
  { q with current := q.current.map fun c => { c with phase := .answered }, lastAnswer := some a }

/-- The write queue once the bursts of an answer have joined it. -/
def answeredQueue (a : Answer) (cur : Option Current) (q : WriteQueue) : WriteQueue :=
  match cur with
  | none => q
  | some c => (q.join .slate (.slotResult c.slot a.code a.words)).join .slate (.slotState c.slot (answerState a.code))

/-- `v` with the answer to the request that stands in `s`. -/
def answered (a : Answer) (s v : State) : State :=
  { v with
    slate := answeredSlate a s.slate, freeCount := s.freeCount + 1
    wq := answeredQueue a s.slate.current v.wq }

theorem finishRequest_eq (a : Answer) (s : State) : finishRequest a s = answered a s s := by
  unfold answered answeredSlate answeredQueue
  cases hc : s.slate.current with
  | none => rw [finishRequest_none hc]; rfl
  | some cur => rw [finishRequest_some hc]; rfl

/-- The answer to a request that its owner has had. -/
theorem finishRequest_handed {a : Answer} (hs : v.slate = (markHanded s).slate) (hf : v.freeCount = s.freeCount) :
    finishRequest a v = answered a s v := by
  rw [finishRequest_eq]
  unfold answered answeredSlate answeredQueue
  rw [hs, hf]
  unfold markHanded
  cases s.slate.current <;> rfl

theorem plain_answered (a : Answer) (s : State) : Plain (answered a s) := fun _ _ _ _ => rfl

/-- A request row whose owner answers at once. -/
theorem request_eq {r : Request} {a : Answer} (ht : s.Takes r) (ho : ownerOf r (markHanded s) = (v, some a))
    (hs : v.slate = (markHanded s).slate) (hf : v.freeCount = s.freeCount) :
    request r s = finish (answered a s v) := by
  obtain ⟨hr, _, hd, he⟩ := ht
  unfold request handOver
  rw [event_due hd, if_neg (by rcases he with he | he <;> simp [he]), ho]
  exact congrArg finish (finishRequest_handed hs hf)

theorem answered_iff {a : Answer} {t : State} (hs : u.slate = s.slate) (hf : u.freeCount = s.freeCount) :
    State.Answered as u a t ↔ State.EndsAs as (answered a s u) t := by
  unfold State.Answered
  rw [finishRequest_eq]
  unfold answered
  rw [hs, hf]

/-- A request row whose owner answers at once and gives no notice. -/
theorem Reaches.answered {r : Request} {a : Answer} (ht : s.Takes r)
    (ho : ownerOf r (markHanded s) = (v, some a))
    (h : Reaches as { u with slate := (markHanded s).slate } v)
    (hs : u.slate = s.slate) (hf : u.freeCount = s.freeCount) (hn : u.notes = []) :
    State.Answered as u a (request r s) := by
  have hv : v.slate = (markHanded s).slate ∧ v.freeCount = s.freeCount := by
    rw [h.1]; exact ⟨rfl, hf⟩
  rw [request_eq ht ho hv.1 hv.2, answered_iff hs hf]
  exact (h.plain (plain_answered a s)).endsAs hn

/-- A request row whose owner answers at once and whose notices have been worked off after the answer. -/
theorem Reaches.answered_drained {r : Request} {a : Answer} (ht : s.Takes r)
    (ho : ownerOf r (markHanded s) = (v, some a)) (hs : v.slate = (markHanded s).slate)
    (hf : v.freeCount = s.freeCount) (hd : drain (Ends.answered a s v) = w)
    (h : Reaches as (Ends.answered a s u) w) (hus : u.slate = s.slate) (huf : u.freeCount = s.freeCount)
    (hn : u.notes = []) : State.Answered as u a (request r s) := by
  rw [request_eq ht ho hs hf, answered_iff hus huf]
  exact h.endsAs_drained hd hn

/-- The row of a request while the part runs. -/
theorem exec_command {r : Request} (h : s.Runs) : exec r.command s = .next (request r s) := by
  cases r with
  | _ => exact running_next _ h

/-- A request row whose owner answers and leaves all else as it was. -/
theorem answered_same {r : Request} {a : Answer} (ht : s.Takes r)
    (ho : ownerOf r (markHanded s) = (markHanded s, some a)) : s.Answered [] a (request r s) := by
  obtain ⟨hn, hm⟩ := ht.2.1
  exact Reaches.answered ht ho (Reaches.refl (s := markHanded s) hm) rfl rfl hn

end Sys2Proof.Proofs.Ends
end

section
/-! PROOF. The request slate unit: taking a slot, the dispatch of its request and its answer (R181), and the
requests that set the standby, the pause flag, the time of day and the lock. -/

namespace Sys2Proof.Proofs.Slate

open Sys2Proof.Machine Sys2Proof.Proofs.Turns Sys2Proof.Proofs.Ends Sys2Proof.Proofs.Words

variable {s : State}

/-! ## Taking a slot -/

/-- Settles O22. -/
theorem headSlotIsTaken : Obligations.HeadSlotIsTaken := by
  unfold Obligations.HeadSlotIsTaken
  intro s i l hruns ⟨hn, hm⟩ hcur harr hbusy
  have hdue : slotTakeDue s = true := by simp [slotTakeDue, hcur, harr, hbusy]
  refine ⟨_, running_next _ hruns, ?_⟩
  rw [event_due hdue]
  unfold takeSlot
  rw [harr]
  exact endsAs_unmarked hn hm

/-! ## The catalogue and the dispatch -/

theorem ofWords_none_iff (k : Word) (a : Vector Word 8) :
    Request.ofWords k a = none ↔ k.toNat = 0 ∨ 20 < k.toNat := by
  unfold Request.ofWords
  split
  case h_21 => refine iff_of_true rfl ?_; simp only [imp_false] at *; omega
  all_goals
    next hk => simp only [hk, reduceCtorEq, false_iff]; decide

theorem takenStopped_ofWords {k : Word} {a : Vector Word 8} {r : Request} (h : Request.ofWords k a = some r) :
    r.takenStopped = true ↔ k.toNat ∈ [1, 17, 18, 19, 20] := by
  unfold Request.ofWords at h
  split at h
  case h_21 => nomatch h
  all_goals
    next hk => cases h; rw [hk]; simp [Request.takenStopped]

theorem readyWords_of {i : SlotId} {k : Word} {a : Vector Word 8}
    (h : s.slate.current = some { slot := i, phase := .ready k a }) : readyWords s = some (k, a) := by
  unfold readyWords
  rw [h]

/-- A request row refused while the engine is STOPPED. -/
theorem request_stopped {r : Request} (hq : s.Quiet) (hd : requestDue r s = true) (he : s.engine = .stopped)
    (ht : r.takenStopped = false) : s.Answered [] (refuse .notLoaded) (request r s) := by
  unfold request handOver
  rw [event_due hd, if_pos ⟨he, ht⟩]
  exact endsAs_unmarked ((finishRequest_notes _ s).trans hq.1) (by rw [finishRequest_eq]; exact hq.2)

theorem dispatch_unknown {i : SlotId} {k : Word} {a : Vector Word 8}
    (h : s.slate.current = some { slot := i, phase := .ready k a }) (hk : Request.ofWords k a = none) :
    dispatchDue s = true
      ∧ dispatch s = finishRequest (answer .badKind (wordsOf k (rest s 1) (rest s 2) (rest s 3))) s := by
  unfold dispatchDue dispatch
  rw [readyWords_of h]
  dsimp only
  rw [hk]
  exact ⟨rfl, rfl⟩

theorem dispatch_known {i : SlotId} {k : Word} {a : Vector Word 8} {r : Request}
    (h : s.slate.current = some { slot := i, phase := .ready k a }) (hk : Request.ofWords k a = some r) :
    dispatchDue s = requestReady s r ∧ requestDue r s = requestReady s r ∧ dispatch s = handOver r s := by
  unfold dispatchDue requestDue dispatch
  rw [readyWords_of h, h]
  dsimp only
  rw [hk]
  exact ⟨rfl, by simp, rfl⟩

/-- Settles O23. -/
theorem dispatchRefusesOrHandsOver : Obligations.DispatchRefusesOrHandsOver := by
  unfold Obligations.DispatchRefusesOrHandsOver
  refine ⟨ofWords_none_iff, fun a => rfl, fun k a r h => takenStopped_ofWords h, fun s i k a hruns hq hcur => ?_⟩
  have hexec : exec .requestDispatch s = .next (event (dispatchDue s) dispatch s) := running_next _ hruns
  refine ⟨fun hkind => ?_, fun r hkind hready => ?_⟩
  · obtain ⟨hdue, hd⟩ := dispatch_unknown hcur hkind
    refine ⟨_, hexec, ?_⟩
    rw [event_due hdue, hd]
    exact endsAs_unmarked ((finishRequest_notes _ s).trans hq.1) (by rw [finishRequest_eq]; exact hq.2)
  · obtain ⟨hdue, hrow, hd⟩ := dispatch_known hcur hkind
    rw [hready] at hdue hrow
    refine ⟨?_, fun he ht => ⟨_, exec_command hruns, request_stopped hq hrow he ht⟩⟩
    rw [hexec, exec_command hruns, request, event_due hdue, event_due hrow, hd]

theorem toList_four {α : Type} (v : Vector α 4) : v.toList = [v[0], v[1], v[2], v[3]] :=
  List.ext_getElem (by simp) fun i h _ => by
    have h4 : i < 4 := by simpa using h
    interval_cases i <;> simp

/-- Settles O24. -/
theorem answerQueuesResultThenState : Obligations.AnswerQueuesResultThenState := by
  unfold Obligations.AnswerQueuesResultThenState
  refine ⟨rfl, fun s a cur hcur => ?_⟩
  have hst : answerState a.code = if a.code = .ok then .done else .refused := by
    cases a.code <;> rfl
  refine ⟨?_, ?_, ?_⟩
  · rw [finishRequest_some hcur, hst]
  · simp only [Burst.words, toList_four]; rfl
  · by_cases hok : a.code = .ok
    · simp only [if_pos hok, Burst.words]; rfl
    · simp only [if_neg hok, Burst.words]; rfl

/-! ## GO -/

/-- Settles O28, by the guard, the pause flag and the standby. -/
theorem goRequestFiresOrIsRefused : Obligations.GoRequestFiresOrIsRefused := by
  unfold Obligations.GoRequestFiresOrIsRefused
  intro s ht
  have hword : standbyWord s = (s.seq.standby.map fun x => wordOf x.number).getD (Config.code .noCue) := by
    unfold standbyWord
    cases s.seq.standby <;> rfl
  have howner : ownerOf .go (markHanded s) = goOwner (markHanded s) := rfl
  refine ⟨_, exec_command (r := .go) ht.1, fun g hg => ?_, fun hg hp => ?_, fun hg hp hs => ?_, fun hg hp hs => ?_⟩
  · rw [← hword]
    refine answered_same ht ?_
    rw [howner, goOwner, show (markHanded s).seq.guard = some g from hg]
    rfl
  · rw [← hword]
    refine answered_same ht ?_
    rw [howner, goOwner, show (markHanded s).seq.guard = none from hg]
    exact if_pos hp
  · refine answered_same ht ?_
    rw [howner, goOwner, show (markHanded s).seq.guard = none from hg]
    dsimp only
    rw [if_neg (by rw [show (markHanded s).seq.pause = false from hp]; exact Bool.false_ne_true),
      show (markHanded s).seq.standby = none from hs]
    rfl
  · obtain ⟨hruns, ⟨hn, hm⟩, hd, he⟩ := ht
    obtain ⟨st, hst⟩ := Option.ne_none_iff_exists'.mp hs
    have hfire : goOwner (markHanded s) = (askFiring .goRequest (markHanded s), none) := by
      rw [goOwner, show (markHanded s).seq.guard = none from hg]
      dsimp only
      rw [if_neg (by rw [show (markHanded s).seq.pause = false from hp]; exact Bool.false_ne_true),
        show (markHanded s).seq.standby = some st from hst]
    unfold request handOver
    rw [event_due hd, if_neg (by rcases he with he | he <;> simp [he]), howner, hfire]
    exact endsAs_unmarked hn hm

/-! ## The cue list (R78, R81, R191) -/

theorem findSome?_range_eq_some {β : Type} {n : Nat} {f : Nat → Option β} {b : β} :
    (List.range n).findSome? f = some b ↔ ∃ i < n, f i = some b ∧ ∀ j < i, f j = none := by
  induction n with
  | zero => simp
  | succ n ih =>
    rw [List.range_succ, List.findSome?_append, Option.or_eq_some_iff, ih, List.findSome?_eq_none_iff]
    simp only [List.mem_range, List.findSome?_singleton]
    constructor
    · rintro (⟨i, hi, hb, hlow⟩ | ⟨hlow, hb⟩)
      · exact ⟨i, by omega, hb, hlow⟩
      · exact ⟨n, by omega, hb, hlow⟩
    · rintro ⟨i, hi, hb, hlow⟩
      by_cases hin : i = n
      · subst hin
        exact .inr ⟨hlow, hb⟩
      · exact .inl ⟨i, by omega, hb, hlow⟩

/-- The record at an index of the cue list, where it is sound and `p` accepts it. -/
def acceptedCue (m : Memory) (base : Nat) (p : CueRec → Bool) (i : Nat) : Option (Nat × CueRec) :=
  match (readCue m base i).sound? with
  | some c => if p c then some (i, c) else none
  | none => none

theorem findCue_eq (m : Memory) (base : Nat) (p : CueRec → Bool) :
    findCue m base p = (List.range 512).findSome? (acceptedCue m base p) := rfl

theorem acceptedCue_eq_some {m : Memory} {base i j : Nat} {p : CueRec → Bool} {c : CueRec} :
    acceptedCue m base p j = some (i, c) ↔ j = i ∧ readCue m base j = .sound c ∧ p c = true := by
  unfold acceptedCue
  cases hr : readCue m base j with
  | unused | unsound => simp [CueRead.sound?]
  | sound d =>
    simp only [CueRead.sound?, CueRead.sound.injEq]
    split
    · next hp =>
      simp only [Option.some_inj, Prod.mk.injEq]
      exact ⟨fun ⟨h1, h2⟩ => ⟨h1, h2, h2 ▸ hp⟩, fun ⟨h1, h2, _⟩ => ⟨h1, h2⟩⟩
    · next hp => exact ⟨nofun, fun ⟨_, h2, h3⟩ => absurd (h2 ▸ h3) hp⟩

theorem acceptedCue_eq_none {m : Memory} {base j : Nat} {p : CueRec → Bool} :
    acceptedCue m base p j = none ↔ ∀ d, readCue m base j = .sound d → ¬ p d = true := by
  rw [Option.eq_none_iff_forall_ne_some]
  exact ⟨fun h d hd hp => h (j, d) (acceptedCue_eq_some.mpr ⟨rfl, hd, hp⟩),
    fun h x hx => have ⟨_, hd, hp⟩ := acceptedCue_eq_some.mp hx; h x.2 hd hp⟩

/-- The searches find the first sound record that is accepted (R81). -/
theorem findCue_eq_some {m : Memory} {base i : Nat} {p : CueRec → Bool} {c : CueRec} :
    findCue m base p = some (i, c) ↔ i < 512 ∧ readCue m base i = .sound c ∧ p c = true
      ∧ ∀ j < i, ∀ d, readCue m base j = .sound d → ¬ p d = true := by
  rw [findCue_eq, findSome?_range_eq_some]
  simp only [acceptedCue_eq_some, acceptedCue_eq_none]
  constructor
  · rintro ⟨_, hi, ⟨rfl, hr, hp⟩, hlow⟩
    exact ⟨hi, hr, hp, hlow⟩
  · rintro ⟨hi, hr, hp, hlow⟩
    exact ⟨i, hi, ⟨rfl, hr, hp⟩, hlow⟩

theorem field_eq (w : Word) (lo len : Nat) : field w lo len = w.toNat / 2 ^ lo % 2 ^ len := by
  rw [field, Nat.shiftRight_eq_div_pow]

theorem triggerOf_of_le {k : Nat} (h : k ≤ 6) : triggerOf k = some (if k = 0 then .go else if k = 1 then .followStart
    else if k = 2 then .followComplete else .line (Fin.ofNat 4 (k - 3))) := by
  interval_cases k <;> rfl

theorem triggerOf_of_lt {k : Nat} (h : 6 < k) : triggerOf k = none := by
  unfold triggerOf
  split
  case h_8 => rfl
  all_goals omega

/-- The fields of a cue record, as numbers. -/
theorem readCue_fields (m : Memory) (base i : Nat) :
    let word (k : Nat) : Nat := (Memory.readWord m (base + 16 * i + 4 * k)).toNat
    let number := word 0 % 65536
    let code := word 0 / 2 ^ 29
    let first := word 0 / 2 ^ 16 % 2 ^ 13
    let count := word 1 / 2 ^ 20 % 2 ^ 7
    readCue m base i = if number = 0 then .unused else match triggerOf code with
      | none => .unsound
      | some t => if count ≤ 64 ∧ first + count ≤ 8192 then
          .sound { number := number, trigger := t, wait := min (word 1 % 2 ^ 20) 600000,
                   upTime := min (word 2 % 2 ^ 20) 600000, downTime := min (word 3 % 2 ^ 20) 600000,
                   first := first, count := count }
        else .unsound := by
  have hcode (w : Word) : w.toNat / 2 ^ 29 % 2 ^ 3 = w.toNat / 2 ^ 29 := by
    have := w.isLt
    omega
  unfold readCue cueOfWords clampTime
  simp only [field_eq, hcode, Nat.pow_zero, Nat.div_one, Nat.mul_zero, Nat.add_zero, Nat.mul_one]
  rfl

/-- The sequencer once GO_TO has found a cue. -/
def goneTo (f : Nat × CueRec) (s : State) : State :=
  updSeq (fun q => { q with standby := some (standbyOf f), parent := none, follow := none }) (askRead .record s)

theorem goToOwner_missing {n : Nat} (hlo : 0 < n) (hhi : n ≤ 65535) (h : cueNumbered s.mem s.tables.cueList n = none) :
    goToOwner n s = (askRead .record s, refuse .noCue) := by
  rw [goToOwner, if_neg (by omega)]
  dsimp only
  rw [show cueNumbered (askRead .record s).mem (askRead .record s).tables.cueList n = _ from h]

theorem goToOwner_found {n : Nat} {f : Nat × CueRec} (hlo : 0 < n) (hhi : n ≤ 65535)
    (h : cueNumbered s.mem s.tables.cueList n = some f) :
    goToOwner n s = (mark .cue (goneTo f s), answer .ok (wordsOf (wordOf f.2.number) (wordOf f.1)
      (wordOf (triggerCode f.2.trigger)) (rest s 3))) := by
  rw [goToOwner, if_neg (by omega)]
  dsimp only
  rw [show cueNumbered (askRead .record s).mem (askRead .record s).tables.cueList n = _ from h]
  rfl

/-- Settles O29. -/
theorem goToSetsTheStandby : Obligations.GoToSetsTheStandby := by
  unfold Obligations.GoToSetsTheStandby
  refine ⟨fun s n ht => ?_, fun m base n i c => ?_, fun m base i => ?_⟩
  · obtain ⟨hn, hm⟩ := ht.2.1
    have howner : ownerOf (.goTo n) (markHanded s) = later (goToOwner n (markHanded s)) := rfl
    refine ⟨_, exec_command (r := .goTo n) ht.1, fun hbad => ?_, fun hlo hhi hnone => ?_, fun i c hlo hhi hsome => ?_⟩
    · refine answered_same ht ?_
      rw [howner, goToOwner, if_pos hbad]
      rfl
    · refine Reaches.answered ht ?_ (Reaches.refl (s := askRead .record (markHanded s)) hm) rfl rfl hn
      rw [howner, goToOwner_missing (s := markHanded s) hlo hhi hnone]
      rfl
    · have hcode : triggerCode c.trigger = match c.trigger with
          | .go => 0 | .followStart => 1 | .followComplete => 2 | .line l => 3 + l.val := by
        cases c.trigger <;> rfl
      refine Reaches.answered ht ?_ ((Reaches.refl (s := goneTo (i, c) (markHanded s)) hm).area .cue) rfl rfl hn
      rw [howner, goToOwner_found (s := markHanded s) hlo hhi hsome]
      dsimp only [later, answer]
      rw [hcode]
      rfl
  · simp only [firstCue, cueNumbered, nextAfter, findCue_eq_some, beq_iff_eq, decide_eq_true_eq, not_true_eq_false]
    exact ⟨trivial, trivial, trivial⟩
  · rw [readCue_fields]
    refine ⟨fun h0 => if_pos h0, fun h0 hs => ?_, fun h0 hs => ?_⟩
    · rw [if_neg h0]
      by_cases hk : (Memory.readWord m (base + 16 * i + 4 * 0)).toNat / 2 ^ 29 ≤ 6
      · rw [triggerOf_of_le hk]
        exact if_neg fun h => hs ⟨hk, h⟩
      · rw [triggerOf_of_lt (Nat.lt_of_not_le hk)]
    · rw [if_neg h0, triggerOf_of_le hs.1]
      exact if_pos hs.2

/-! ## PAUSE, RESUME, SET_TIME, LOCK and UNLOCK -/

theorem pauseWords_eq (s : State) :
    pauseWords s = wordsOf (if s.seq.pause then 1#32 else 0#32) (rest s 1) (rest s 2) (rest s 3) := by
  unfold pauseWords
  cases s.seq.pause <;> rfl

/-- Settles O30. -/
theorem pauseAndResumeSetTheFlag : Obligations.PauseAndResumeSetTheFlag := by
  unfold Obligations.PauseAndResumeSetTheFlag
  intro s
  dsimp only
  rw [← pauseWords_eq]
  refine ⟨fun ht => ⟨_, exec_command (r := .pause) ht.1, fun hp => ?_, fun hp => ?_⟩,
    fun ht => ⟨_, exec_command (r := .resume) ht.1, fun hp => ?_, fun hp => ?_⟩⟩
  · refine answered_same ht ?_
    show later (pauseOwner (markHanded s)) = _
    rw [pauseOwner, if_pos (show (markHanded s).seq.pause = true from hp)]
    rfl
  · obtain ⟨hn, hm⟩ := ht.2.1
    refine Reaches.answered ht ?_ ((Reaches.refl (s := updSeq (fun q => { q with pause := true })
      { markHanded s with fades := mapVec (·.map FadeRec.oneShort) s.fades }) hm).area .cue) rfl rfl hn
    show later (pauseOwner (markHanded s)) = _
    rw [pauseOwner, if_neg (by rw [show (markHanded s).seq.pause = false from hp]; exact Bool.false_ne_true)]
    rfl
  · refine answered_same ht ?_
    show later (resumeOwner (markHanded s)) = _
    rw [resumeOwner, if_neg (by rw [show (markHanded s).seq.pause = false from hp]; exact Bool.false_ne_true)]
    rfl
  · obtain ⟨hn, hm⟩ := ht.2.1
    refine Reaches.answered ht ?_ ((Reaches.refl (s := updSeq (fun q => { q with pause := false }) (markHanded s))
      hm).area .cue) rfl rfl hn
    show later (resumeOwner (markHanded s)) = _
    rw [resumeOwner, if_pos (show (markHanded s).seq.pause = true from hp)]
    rfl

/-- Settles O40. -/
theorem setTimeSetsTheClock : Obligations.SetTimeSetsTheClock := by
  unfold Obligations.SetTimeSetsTheClock
  intro s day hours minutes seconds ht
  have howner : ownerOf (.setTime day hours minutes seconds) (markHanded s)
      = later (setTimeOwner day hours minutes seconds (markHanded s)) := rfl
  refine ⟨_, exec_command (r := .setTime day hours minutes seconds) ht.1, fun hd => answered_same ht ?_,
    fun hd hh => answered_same ht ?_, fun hd hh hmi => answered_same ht ?_, fun hd hh hmi hs => answered_same ht ?_,
    fun hd hh hmi hs => ?_⟩
  · rw [howner, setTimeOwner, if_pos hd]; rfl
  · rw [howner, setTimeOwner, if_neg (by omega), if_pos hh]; rfl
  · rw [howner, setTimeOwner, if_neg (by omega), if_neg (by omega), if_pos hmi]; rfl
  · rw [howner, setTimeOwner, if_neg (by omega), if_neg (by omega), if_neg (by omega), if_pos hs]; rfl
  · obtain ⟨hn, hm⟩ := ht.2.1
    refine Reaches.answered ht ?_ ((Reaches.refl (s := { markHanded s with
      tod := { day := day, hours := hours, minutes := minutes, seconds := seconds, ms := 0 }
      rollover := false }) hm).area .pages) rfl rfl hn
    rw [howner, setTimeOwner, if_neg (by omega), if_neg (by omega), if_neg (by omega), if_neg (by omega)]
    rfl

/-- A change of the lock level hands the engine area over where it changes anything. -/
theorem reaches_setLock (l : LockLevel) (hm : s.marks = []) :
    Reaches (if s.lock = l then [] else [.engine]) { s with lock := l } (setLock l s) := by
  unfold setLock
  split
  · next h => rw [← h]; exact Reaches.refl hm
  · exact (Reaches.refl (s := { s with lock := l }) hm).area .engine

/-- Settles O41. -/
theorem lockLevelIsRaisedAndReleased : Obligations.LockLevelIsRaisedAndReleased := by
  unfold Obligations.LockLevelIsRaisedAndReleased
  refine ⟨fun s => ⟨fun n ht => ?_, fun ht => ?_⟩, fun s t hfree => ⟨fun h => ?_, fun h => ?_⟩⟩
  · obtain ⟨hn, hm⟩ := ht.2.1
    have howner : ownerOf (.lock n) (markHanded s) = later (lockOwner n (markHanded s)) := rfl
    refine ⟨_, exec_command (r := .lock n) ht.1, fun h1 h2 => answered_same ht ?_,
      fun h1 hl => answered_same ht ?_, fun h1 hl => ?_, fun h2 => ?_⟩
    · rw [howner, lockOwner]
      · rfl
      · exact h1
      · exact h2
    · subst h1
      rw [howner, lockOwner, if_pos (show (markHanded s).lock = .hard from hl)]
      rfl
    · subst h1
      refine Reaches.answered ht ?_ (reaches_setLock (s := markHanded s) .soft hm) rfl rfl hn
      rw [howner, lockOwner, if_neg (show ¬ (markHanded s).lock = .hard from hl)]
      rfl
    · subst h2
      exact Reaches.answered ht rfl (reaches_setLock (s := markHanded s) .hard hm) rfl rfl hn
  · obtain ⟨hn, hm⟩ := ht.2.1
    have howner : ownerOf .unlock (markHanded s) = later (unlockOwner (markHanded s)) := rfl
    refine ⟨_, exec_command (r := .unlock) ht.1, fun hl => ?_, fun hl => answered_same ht ?_⟩
    · refine Reaches.answered ht (v := setLock .off (markHanded s)) ?_
        (reaches_setLock (s := markHanded s) .off hm) rfl rfl hn
      rw [howner, unlockOwner]
      split
      · next h => rw [setLock, if_pos h]; rfl
      · rfl
      · next h => exact absurd h hl
    · rw [howner, unlockOwner, show (markHanded s).lock = .hard from hl]
      rfl
  · rw [Port.exec_access_free rfl hfree] at h
    cases h
    rfl
  · rw [Port.exec_access_free rfl hfree] at h
    cases h
    rfl

end Sys2Proof.Proofs.Slate
end

section
/-! PROOF. Link frames, the clock source and the channels' transitions (R2 to R9, R13, R14). -/

namespace Sys2Proof.Proofs.Links

open Sys2Proof.Machine Sys2Proof.Proofs.Turns Sys2Proof.Proofs.Ends

variable {s : State}

/-! ## A link frame (R7 to R9) -/

theorem goodFrame_iff {ref : Option (BitVec 8)} {w : Vector Word 18} :
    goodFrame ref w = true ↔ w[0].extractLsb' 8 24 = 0x5A3C96#24
      ∧ ∃ c, ref = some c ∧ w[0].extractLsb' 0 8 = c + 1#8 := by
  unfold goodFrame syncWord frameCount
  cases ref <;> simp

/-- Settles O43, by the judgement of the frame and the receiver's state. -/
theorem linkFrameIsJudged : Obligations.LinkFrameIsJudged := by
  unfold Obligations.LinkFrameIsJudged
  intro s l w hruns hlock hunlock
  have hexec : exec (.linkFrame l w) s = .next { s with rx := s.rx.set l (s.rx[l].take w) } := by
    refine (running_next _ hruns).trans ?_
    unfold linkFrame lockEvent unlockEvent
    rw [event_idle (s := s) hunlock, event_idle hlock]
    rfl
  refine ⟨_, hexec, ?_⟩
  have hsync : syncWord w = true ↔ w[0].extractLsb' 8 24 = 0x5A3C96#24 := by simp [syncWord]
  have hslots (k : Fin 16) : (frameOfWords w).slots[k] = (w[k.val + 1]'(by omega)).extractLsb' 8 24 := by
    simp [frameOfWords]
  rw [← goodFrame_iff, ← hsync]
  unfold Receiver.take Receiver.countGood Receiver.countBad
  refine ⟨?_, rfl, fun h => if_pos h, fun h => if_neg h, fun h => ?_, fun h => ?_, fun hl h => ?_, fun hl h => ?_,
    fun hl h => ?_, fun hl h => ?_⟩
  · split <;> split <;> rfl
  · rw [if_pos h]
    exact ⟨rfl, hslots⟩
  · rw [if_neg h]
    split <;> rfl
  · rw [if_pos h, if_pos hl]
    dsimp only
    rw [if_pos hl]
    exact ⟨rfl, rfl, rfl, hslots⟩
  · rw [if_neg h, if_pos hl]
    exact ⟨rfl, rfl, rfl⟩
  · rw [if_pos h, if_neg (ne_true_of_eq_false hl)]
    dsimp only
    rw [if_neg (ne_true_of_eq_false hl)]
    exact ⟨rfl, rfl, rfl⟩
  · rw [if_neg h, if_neg (ne_true_of_eq_false hl)]
    exact ⟨rfl, rfl, rfl⟩

/-! ## The clock source (R2 to R5) -/

/-- Settles O45. -/
theorem clockSourceFallsBackAndReturns : Obligations.ClockSourceFallsBackAndReturns := by
  unfold Obligations.ClockSourceFallsBackAndReturns
  intro s hruns ⟨hn, hm⟩
  refine ⟨fun hu hh hr => ⟨_, running_next _ hruns, ?_⟩, fun hu hh hr => ⟨_, running_next _ hruns, ?_⟩,
    fun hf hr periods => ⟨fun hgood => ?_, fun hbad => ?_⟩, fun hu => ?_⟩
  · have hdue : fallbackDue s = true := by simp [fallbackDue, hu, hh, hr]
    unfold fallbackEvent
    rw [event_due hdue]
    exact ((Reaches.refl (s := updNotice (fun n => { n with clock := true })
      { s with clock := { s.clock with inUse := .internal, coasting := false } }) hm).area .engine).endsAs hn
  · have hdue : returnDue s = true := by simp [returnDue, hu, hh, hr]
    unfold returnEvent
    rw [event_due hdue]
    exact ((Reaches.refl (s := { s with clock := { s.clock with inUse := .wclk, coasting := true } }) hm).area
      .engine).endsAs hn
  · have hp : periods.any goodPeriod = true := by simpa [goodPeriod] using hgood
    refine (running_next _ hruns).trans ?_
    unfold judgeWclk settleClock fallbackEvent returnEvent Clock.judge
    rw [event_idle (s := s) hf, event_idle hr, hp]
    simp
  · have hp : periods.any goodPeriod = false := by
      simp only [List.any_eq_false, goodPeriod, Bool.and_eq_true, decide_eq_true_eq]
      intro ns hns
      have := hbad ns hns
      omega
    refine (running_next _ hruns).trans ?_
    unfold judgeWclk settleClock fallbackEvent returnEvent Clock.judge
    rw [event_idle (s := s) hf, event_idle hr, hp]
    simp
  · refine (running_next _ hruns).trans ?_
    rw [realign, if_pos hu]

/-! ## Channels (R13, R14, R16) -/

theorem setChannelState_eq (c : Channel) (st : ChannelState) (timer : Option Nat) (s : State) :
    setChannelState c st timer s
      = mark .channels { s with channels := s.channels.set c { s.channels[c] with state := st, timer := timer } } := rfl

/-- The supervision gate of a channel once it has been commanded at an entry to LOST or to LIVE. -/
def supervised (s : State) (x : ChannelRec) (isOpen : Bool) : Gate :=
  if x.cfg.autoMute then x.gate.command (if isOpen then 0 else -480) (rampFrames s x.cfg.ramp) else x.gate

theorem superviseGate_eq (c : Channel) (isOpen : Bool) (s : State) :
    superviseGate c isOpen s
      = updChannel c (fun x => { x with gate := supervised s s.channels[c] isOpen }) s := by
  unfold superviseGate supervised
  split
  · rfl
  · rw [updChannel, upd_of_eq rfl]

/-- A channel that enters LOST or LIVE with its gate commanded. -/
theorem enterState_eq (c : Channel) (st : ChannelState) (isOpen : Bool) (s : State) :
    superviseGate c isOpen (setChannelState c st none s) = mark .channels { s with
      channels := s.channels.set c { s.channels[c] with
        state := st, timer := none, gate := supervised s s.channels[c] isOpen } } := by
  rw [superviseGate_eq, setChannelState_eq]
  simp [updChannel, upd, Machine.mark, supervised, rampFrames]

/-- Settles O46, by the channel's state. -/
theorem channelComesAndGoesUnreported : Obligations.ChannelComesAndGoesUnreported := by
  unfold Obligations.ChannelComesAndGoesUnreported
  intro s c hruns ⟨hn, hm⟩
  have hends (st : ChannelState) (timer : Option Nat) (g : Gate) : State.EndsAs [.channels] { s with
      channels := s.channels.set c { s.channels[c] with state := st, timer := timer, gate := g } }
      (finish (mark .channels { s with
        channels := s.channels.set c { s.channels[c] with state := st, timer := timer, gate := g } })) :=
    ((Reaches.refl (s := { s with channels := s.channels.set c { s.channels[c] with state := st, timer := timer, gate := g } })
      hm).area .channels).endsAs hn
  refine ⟨fun hs hp hc => ⟨_, running_next _ hruns, ?_⟩, fun hs hp => ⟨_, running_next _ hruns, ?_⟩,
    fun hs hp hl hh => ⟨_, running_next _ hruns, ?_⟩, fun hs hp hl hh => ⟨_, running_next _ hruns, ?_⟩,
    fun hs ht => ⟨_, running_next _ hruns, ?_⟩⟩
  · have hdue : presentFalseDue s c = true := by rw [presentFalseDue, hs, hp]; rfl
    have hop : presentFalse c s = setChannelState c .suspect (some (framesOf s.channels[c].cfg.confirm)) s := by
      rw [presentFalse, if_neg (by rw [hs]; decide), if_neg (by omega)]
    rw [presentFalseEvent, event_due hdue, hop]
    exact hends _ _ _
  · have hdue : presentTrueDue s c = true := by rw [presentTrueDue, hs, hp]; rfl
    have hop : presentTrue c s = setChannelState c .live none s := if_pos hs
    rw [presentTrueEvent, event_due hdue, hop]
    exact hends _ _ _
  · have hdue : presentTrueDue s c = true := by rw [presentTrueDue, hs, hp, hl]; rfl
    have hop : presentTrue c s = setChannelState c .returning (some (framesOf (10 * s.channels[c].cfg.hold))) s := by
      rw [presentTrue, if_neg (by rw [hs]; decide), if_neg (by omega)]
    rw [presentTrueEvent, event_due hdue, hop]
    exact hends _ _ _
  · have hdue : presentTrueDue s c = true := by rw [presentTrueDue, hs, hp, hl]; rfl
    have hop : presentTrue c s = enterLive c s := by
      rw [presentTrue, if_neg (by rw [hs]; decide), if_pos hh]
    rw [presentTrueEvent, event_due hdue, hop, enterLive, enterState_eq]
    exact hends _ _ _
  · have hdue : holdDue s c = true := by rw [holdDue, hs, ht]; rfl
    rw [holdTimerEvent, event_due hdue, enterLive, enterState_eq]
    exact hends _ _ _

end Sys2Proof.Proofs.Links
end

section
/-! PROOF. The GO line and the trigger lines, the guard and the follow (R88 to R92, R97). -/

namespace Sys2Proof.Proofs.Edges

open Sys2Proof.Machine Sys2Proof.Proofs.Turns Sys2Proof.Proofs.Ends

variable {s : State}

/-! ## The outcome of an edge (R90, R92) -/

theorem lineOutcome_notReady (k : Option LineId) (he : s.engine ≠ .loaded) : lineOutcome s k = .notReady :=
  if_pos he

theorem lineOutcome_paused (k : Option LineId) (he : s.engine = .loaded) (hp : s.seq.pause = true) :
    lineOutcome s k = .paused := by
  rw [lineOutcome, if_neg (not_not_intro he), if_pos hp]

theorem lineOutcome_ended (k : Option LineId) (he : s.engine = .loaded) (hp : s.seq.pause = false)
    (hs : s.seq.standby = none) : lineOutcome s k = .ended := by
  rw [lineOutcome, if_neg (not_not_intro he), if_neg (ne_true_of_eq_false hp), hs]

theorem lineOutcome_standby {st : Standby} (k : Option LineId) (he : s.engine = .loaded) (hp : s.seq.pause = false)
    (hs : s.seq.standby = some st) : lineOutcome s k = match k with
      | none => .fired
      | some t => if st.trigger = .line t then .fired else .notStandby := by
  rw [lineOutcome, if_neg (not_not_intro he), if_neg (ne_true_of_eq_false hp), hs] <;> cases k <;> rfl

/-! ## What an edge leads to -/

/-- The state once an edge of the GO line has been taken. -/
def goTaken (s : State) : State := { s with seq := { s.seq with goEdges := s.seq.goEdges - 1 } }

/-- The state once an edge of a trigger line has been taken. -/
def trigTaken (k : LineId) (s : State) : State :=
  { s with seq := { s.seq with trigEdges := upd s.seq.trigEdges k (· - 1) } }

theorem lineGo_guarded (hg : s.seq.guard ≠ none) :
    lineGo s = updSeq (fun q => { q with guarded := sat16 q.guarded }) (goTaken s) :=
  if_pos (Option.isSome_iff_ne_none.mpr hg)

theorem lineGo_fired (hg : s.seq.guard = none) (ho : lineOutcome s none = .fired) :
    lineGo s = askFiring .lineGo (goTaken s) := by
  unfold lineGo
  refine (if_neg (by show ¬ s.seq.guard.isSome = true; rw [hg]; decide)).trans ?_
  show (match lineOutcome (goTaken s) none with
    | .fired => askFiring .lineGo (goTaken s)
    | o => captureLine none o none (goTaken s)) = _
  rw [show lineOutcome (goTaken s) none = .fired from ho]

theorem lineGo_captured {o : LineOutcome} (hg : s.seq.guard = none) (ho : lineOutcome s none = o)
    (hf : o ≠ .fired) : lineGo s = captureLine none o none (goTaken s) := by
  unfold lineGo
  refine (if_neg (by show ¬ s.seq.guard.isSome = true; rw [hg]; decide)).trans ?_
  show (match lineOutcome (goTaken s) none with
    | .fired => askFiring .lineGo (goTaken s)
    | o => captureLine none o none (goTaken s)) = _
  rw [show lineOutcome (goTaken s) none = o from ho]
  cases o with
  | fired => exact absurd rfl hf
  | _ => rfl

theorem triggerEdge_fired {k : LineId} (ho : lineOutcome s (some k) = .fired) :
    triggerEdge k s = askFiring (.trigger k) (trigTaken k s) := by
  show (match lineOutcome (trigTaken k s) (some k) with
    | .fired => askFiring (.trigger k) (trigTaken k s)
    | o => captureLine (some k) o none (trigTaken k s)) = _
  rw [show lineOutcome (trigTaken k s) (some k) = .fired from ho]

theorem triggerEdge_captured {k : LineId} {o : LineOutcome} (ho : lineOutcome s (some k) = o) (hf : o ≠ .fired) :
    triggerEdge k s = captureLine (some k) o none (trigTaken k s) := by
  show (match lineOutcome (trigTaken k s) (some k) with
    | .fired => askFiring (.trigger k) (trigTaken k s)
    | o => captureLine (some k) o none (trigTaken k s)) = _
  rw [show lineOutcome (trigTaken k s) (some k) = o from ho]
  cases o with
  | fired => exact absurd rfl hf
  | _ => rfl

/-- The details of an edge that fires nothing, in the terms of R97. -/
theorem lineDetails_unfired (s : State) (k : Option LineId) (o : LineOutcome) :
    lineDetails s k o none = [placeCode (Config.code (.lineOutcome o)) 0 8 ||| place (k.elim 0 (·.val)) 8, 0#32, 0#32,
      wordOf ((s.seq.standby.map (·.number)).getD 0), match s.engine with
        | .stopped => 0#32
        | .loading => 1#32
        | .loaded => 2#32] := by
  unfold lineDetails standbyNumber
  cases s.engine <;> rfl

/-- Settles O49: each outcome of an edge by its own equation. -/
theorem linesGuardAndFollowAct : Obligations.LinesGuardAndFollowAct := by
  unfold Obligations.LinesGuardAndFollowAct
  intro s hruns ⟨hn, hm⟩
  have hreach (u : State) (hu : u.marks = s.marks) : Reaches [] u u := Reaches.refl (hu.trans hm)
  have hgo {o : LineOutcome} (hd : lineGoDue s = true) (hg : s.seq.guard = none) (ho : lineOutcome s none = o)
      (hf : o ≠ .fired) : State.EndsAs [] (captureEvent goCell (lineDetails s none o none) (goTaken s))
        (lineGoEvent s) := by
    refine Reaches.event_endsAs hd ?_ ((captureEvent_notes _ _ _).trans hn)
    rw [lineGo_captured hg ho hf]
    exact (hreach (goTaken s) rfl).plain (plain_captureEvent _ _)
  have htrig {k : LineId} {o : LineOutcome} (hd : triggerDue s k = true) (ho : lineOutcome s (some k) = o)
      (hf : o ≠ .fired) : State.EndsAs [] (captureEvent (triggerCell k) (lineDetails s (some k) o none) (trigTaken k s))
        (triggerEvent k s) := by
    refine Reaches.event_endsAs hd ?_ ((captureEvent_notes _ _ _).trans hn)
    rw [triggerEdge_captured ho hf]
    exact (hreach (trigTaken k s) rfl).plain (plain_captureEvent _ _)
  simp only [lineDetails_unfired] at hgo htrig
  refine ⟨fun hedge hfire => ?_, fun k hedge hfire => ?_, fun hg => ?_, fun hf hp he hs hfire => ?_⟩
  · have hdue : lineGoDue s = true := by rw [lineGoDue, hfire, decide_eq_true hedge]; rfl
    refine ⟨_, running_next _ hruns, fun hg => ?_, fun hg he => hgo hdue hg (lineOutcome_notReady _ he) nofun,
      fun hg he hp => hgo hdue hg (lineOutcome_paused _ he hp) nofun,
      fun hg he hp hs => hgo hdue hg (lineOutcome_ended _ he hp hs) nofun, fun hg he hp hs => ?_⟩
    · refine Reaches.event_endsAs hdue ?_ hn
      rw [lineGo_guarded hg]
      exact hreach _ rfl
    · obtain ⟨st, hst⟩ := Option.ne_none_iff_exists'.mp hs
      refine Reaches.event_endsAs hdue ?_ hn
      rw [lineGo_fired hg (lineOutcome_standby none he hp hst)]
      exact hreach _ rfl
  · have hdue : triggerDue s k = true := by rw [triggerDue, hfire, decide_eq_true hedge]; rfl
    refine ⟨_, running_next _ hruns, fun he => htrig hdue (lineOutcome_notReady _ he) nofun,
      fun he hp => htrig hdue (lineOutcome_paused _ he hp) nofun,
      fun he hp hs => htrig hdue (lineOutcome_ended _ he hp hs) nofun,
      fun st he hp hs => ⟨fun hk => ?_, fun hk => ?_⟩⟩
    · refine Reaches.event_endsAs hdue ?_ hn
      rw [triggerEdge_fired ((lineOutcome_standby (some k) he hp hs).trans (if_pos hk))]
      exact hreach _ rfl
    · exact htrig hdue ((lineOutcome_standby (some k) he hp hs).trans (if_neg hk)) nofun
  · have hdue : guardDue s = true := by rw [guardDue, hg]; rfl
    exact ⟨_, running_next _ hruns, Reaches.event_endsAs hdue (hreach (guardEnds s) rfl) hn⟩
  · obtain ⟨st, hst⟩ := Option.ne_none_iff_exists'.mp hs
    have hdue : followDue s = true := by rw [followDue, hf, hp, he, hst, hfire]; rfl
    exact ⟨_, running_next _ hruns, Reaches.event_endsAs hdue (hreach (followExpires s) rfl) hn⟩

end Sys2Proof.Proofs.Edges
end

section
/-! PROOF. An accepted hold line (R69 to R76, R145). -/

namespace Sys2Proof.Proofs.Holds

open Sys2Proof.Machine Sys2Proof.Proofs.Turns Sys2Proof.Proofs.Ends

variable {s : State}

/-! ## One mix, one zone -/

/-- A mix whose hold state has been derived and its gate commanded. -/
def heldMix (s : State) (x : Mix) : Mix :=
  { x with held := heldBy s x.cfg.holdMask }.command (if heldBy s x.cfg.holdMask then -480 else 0)
    (rampFrames s x.cfg.holdRamp)

/-- A zone whose hold state has been derived and its hold gates commanded, for the priority of its page. -/
def heldZone (s : State) (x : Zone) (prio : Option (Fin 4)) : Zone :=
  { x with
    held := heldBy s x.cfg.holdMask
    relayHold := x.relayHold.command (if heldBy s x.cfg.holdMask then -480 else 0) (rampFrames s x.cfg.holdRamp)
    pageHold := x.pageHold.command (if pageHoldClosed (heldBy s x.cfg.holdMask) prio then -480 else 0)
      (rampFrames s x.cfg.holdRamp) }

theorem mixHold_eq (m : MixId) (s : State) : mixHold m s = updMix m (heldMix s) s := rfl

theorem zoneHold_eq (z : ZoneId) (s : State) :
    zoneHold z s = { s with zones := s.zones.set z (heldZone s s.zones[z] (carriedPriority s z)) } := by
  unfold zoneHold commandGate updGate
  simp only [updZone, upd_upd]
  simp only [upd, carriedPriority, Fin.getElem_fin, Vector.getElem_set_self]
  rfl

/-- What `Mix.command` makes of a mix that has just been installed or not. -/
theorem Mix.command_eq (x : Mix) (h : Bool) (target : Int) (T : Nat) :
    { x with held := h }.command target T = { x with
      held := h
      gate := if x.gate.endDue = true ∧ x.gate.target = target then x.gate
        else Gate.command (if x.renewed then (x.rested.map fun v => Gate.mk v none).getD x.gate else x.gate)
          target T } := by
  have horigin : Mix.origin { x with held := h }
      = if x.renewed then (x.rested.map fun v => Gate.mk v none).getD x.gate else x.gate := by
    unfold Mix.origin
    cases x.rested <;> cases x.renewed <;> rfl
  unfold Mix.command
  rw [horigin]
  split <;> rfl

/-! ## Every mix, every zone -/

/-- A mix as an accepted change of the line leaves it. -/
def lineMix (s : State) (l : LineId) (x : Mix) : Mix := if x.cfg.holdMask.getLsbD l then heldMix s x else x

/-- A zone as an accepted change of the line leaves it. -/
def lineZone (s : State) (l : LineId) (x : Zone) : Zone :=
  if x.cfg.holdMask.getLsbD l then heldZone s x (x.page.bind fun p => s.pages[p].map (·.priority)) else x

theorem mixStep_eq (l : LineId) (m : MixId) (s : State) :
    (if s.mixes[m].cfg.holdMask.getLsbD l then mixHold m s else s) = updMix m (lineMix s l) s := by
  unfold updMix
  split
  · next hm => rw [mixHold_eq, updMix, upd, upd, lineMix, if_pos hm]
  · next hm => rw [upd_of_eq (f := lineMix s l) (if_neg hm)]

theorem zoneStep_eq (l : LineId) (z : ZoneId) (s : State) :
    (if s.zones[z].cfg.holdMask.getLsbD l then zoneHold z s else s) = updZone z (lineZone s l) s := by
  unfold updZone
  split
  · next hz => rw [zoneHold_eq, upd, lineZone, if_pos hz]; rfl
  · next hz => rw [upd_of_eq (f := lineZone s l) (if_neg hz)]

theorem forEach_mixHold (l : LineId) (s : State) :
    forEach 40 (fun m s => if s.mixes[m].cfg.holdMask.getLsbD l then mixHold m s else s) s
      = { s with mixes := tabulate fun m => lineMix s l s.mixes[m] } := by
  simp only [mixStep_eq]
  exact forEach_upd (σ := State) (fun _ => lineMix s l) (fun v => { s with mixes := v })
    (step := fun m s => updMix m (lineMix s l) s) (fun m v => rfl) s.mixes

theorem forEach_zoneHold (l : LineId) (s : State) :
    forEach 24 (fun z s => if s.zones[z].cfg.holdMask.getLsbD l then zoneHold z s else s) s
      = { s with zones := tabulate fun z => lineZone s l s.zones[z] } := by
  simp only [zoneStep_eq]
  exact forEach_upd (σ := State) (fun _ => lineZone s l) (fun v => { s with zones := v })
    (step := fun z s => updZone z (lineZone s l) s) (fun z v => rfl) s.zones

/-- The state once the accepted line has moved the gates. -/
def lineAccepted (l : LineId) (s : State) : State :=
  let u := { s with hold := upd s.hold l fun h => { h with accepted := h.raw, run := 0 } }
  { u with
    mixes := tabulate fun m => lineMix u l s.mixes[m]
    zones := tabulate fun z => lineZone u l s.zones[z] }

theorem acceptHold_eq (l : LineId) (s : State) : acceptHold l s = mark .zones (mark .mixes
    (captureEvent holdCell (holdDetails (lineAccepted l s) l) (lineAccepted l s))) := by
  unfold acceptHold
  dsimp only
  rw [forEach_mixHold, forEach_zoneHold]
  rfl

theorem holdDetails_accepted (l : LineId) (s : State) :
    holdDetails (lineAccepted l s) l = [place l.val 0 ||| place (bitOf s.hold[l].raw) 8, acceptedBits (lineAccepted l s),
      wordOf (mixesHeld (lineAccepted l s))] := by
  unfold holdDetails
  rw [show (lineAccepted l s).hold[l].accepted = s.hold[l].raw from
    congrArg HoldLine.accepted (upd_get_self s.hold l fun h => { h with accepted := h.raw, run := 0 })]

/-- Settles O48. -/
theorem acceptedHoldLineMovesItsGates : Obligations.AcceptedHoldLineMovesItsGates := by
  unfold Obligations.AcceptedHoldLineMovesItsGates
  intro s l hruns ⟨hn, hm⟩ hrun
  have hdue : acceptDue s l = true := by rw [acceptDue, hrun]; rfl
  dsimp only
  refine ⟨_, running_next _ hruns, Reaches.event_endsAs hdue ?_ ((captureEvent_notes _ _ _).trans hn)⟩
  rw [acceptHold_eq, holdDetails_accepted]
  have hu := (((Reaches.refl (s := lineAccepted l s) hm).plain (plain_captureEvent holdCell
    [place l.val 0 ||| place (bitOf s.hold[l].raw) 8, acceptedBits (lineAccepted l s),
      wordOf (mixesHeld (lineAccepted l s))])).area .mixes).area .zones
  refine hu.congr ?_ (by simp [or_comm])
  have hmix (x : Mix) (h : Bool) (r : Nat) : { x with held := h }.command (if h then -480 else 0) r = _ :=
    Mix.command_eq x h _ r
  unfold lineAccepted lineMix heldMix
  simp only [hmix]
  rfl

end Sys2Proof.Proofs.Holds
end

section
/-! PROOF. The rules of the fade table: which record moves an element, what its owner is told as it leaves, cuts,
takeovers and the beginning of a fade (R87, R103 to R109, R130). Each rule says what an event has then reached. -/

namespace Sys2Proof.Proofs.Ends

open Sys2Proof.Machine Sys2Proof.Proofs.Turns

variable {s t u v w : State} {as : List Area}

/-! ## The level store -/

theorem get_put_same (l : Levels) (e : Elem) (x : Level) : (l.put e x).get e = x := by
  cases e <;> simp [Levels.put, Levels.get, upd]

theorem put_put (l : Levels) (e : Elem) (x y : Level) : (l.put e x).put e y = l.put e y := by
  cases e <;> simp [Levels.put, upd]

theorem clampTime_eq_zero {time : Nat} : clampTime time = 0 ↔ time = 0 := by
  unfold clampTime
  omega

theorem Reaches.same_level (h : Reaches as u v) (e : Elem) : v.level e = u.level e := by
  rw [h.1]
  rfl

/-! ## The record that moves an element (R109) -/

/-- The place holds a FADING record of the element. -/
def movesAt (f : Option FadeRec) (e : Elem) : Bool :=
  match f with
  | some r => r.fading && r.elem? == some e
  | none => false

theorem fadingOf_eq (s : State) (e : Elem) (x : Option RecId) :
    fadingOf s e x = (List.finRange 128).find? fun i => some i != x && movesAt s.fades[i] e := rfl

theorem movesAt_of_fadingOf {e : Elem} {x : Option RecId} {i : RecId} (h : fadingOf s e x = some i) :
    some i ≠ x ∧ movesAt s.fades[i] e = true := by
  rw [fadingOf_eq] at h
  have := List.find?_some h
  simpa using this

/-- The record that moves an element is a LEVEL record of it. -/
theorem fadingOf_some {e : Elem} {x : Option RecId} {i : RecId} (h : fadingOf s e x = some i) :
    ∃ r target curve, s.fades[i] = some r ∧ r.fading = true ∧ r.content = .level e target curve := by
  have h := (movesAt_of_fadingOf h).2
  unfold movesAt at h
  split at h
  · next r hr =>
    obtain ⟨hf, he⟩ := Bool.and_eq_true_iff.mp h
    rw [beq_iff_eq] at he
    unfold FadeRec.elem? at he
    split at he
    · next hc => cases he; exact ⟨r, _, _, hr, hf, hc⟩
    · nomatch he
  · nomatch h

theorem fadingOf_congr {e : Elem} {x : Option RecId}
    (h : ∀ i : RecId, some i ≠ x → movesAt t.fades[i] e = movesAt s.fades[i] e) :
    fadingOf t e x = fadingOf s e x := by
  rw [fadingOf_eq, fadingOf_eq]
  refine congrArg (fun p => (List.finRange 128).find? p) (funext fun i => ?_)
  by_cases hi : some i = x
  · simp [hi]
  · rw [h i hi]

/-- A change at a place whose records, the old and the new, do not move the element. -/
theorem fadingOf_set {e : Elem} {x : Option RecId} {i : RecId} {r : Option FadeRec} (ht : t.fades = s.fades.set i r)
    (h : some i = x ∨ (movesAt s.fades[i] e = false ∧ movesAt r e = false)) : fadingOf t e x = fadingOf s e x := by
  refine fadingOf_congr fun j hj => ?_
  by_cases hij : j = i
  · subst hij
    obtain ⟨h1, h2⟩ := h.resolve_left hj
    rw [h1, ht, Fin.getElem_fin, Vector.getElem_set_self, h2]
  · rw [ht, Fin.getElem_fin, Vector.getElem_set_ne _ _ (fun h => hij (Fin.ext h.symm)), Fin.getElem_fin]

theorem fadingOf_none_iff {e : Elem} : s.NotFading e ↔ ∀ i : RecId, movesAt s.fades[i] e = false := by
  show fadingOf s e none = none ↔ _
  rw [fadingOf_eq, List.find?_eq_none]
  simp

theorem fadingOf_except {e : Elem} (h : s.NotFading e) (x : Option RecId) : fadingOf s e x = none := by
  rw [fadingOf_eq, List.find?_eq_none]
  have h := fadingOf_none_iff.mp h
  simp only [Fin.getElem_fin] at h
  simp [h]

theorem placeFor_none {e : Elem} (h : s.NotFading e) : placeFor s e = freePlace s := by
  unfold placeFor
  rw [h]

theorem placeFor_some {e : Elem} {i : RecId} (h : fadingOf s e none = some i) : placeFor s e = some i := by
  unfold placeFor
  rw [h]

theorem freePlace_some {i : RecId} (h : freePlace s = some i) : s.fades[i] = none := by
  have := List.find?_some h
  simpa using this

/-! ## What an owner is told (R87, R103) -/

theorem entryOf_updEntry {id : FiringId} {f : RunEntry → RunEntry} (hf : ∀ e, (f e).id = e.id) (s : State) :
    entryOf (updEntry id f s) id = (entryOf s id).map f := by
  unfold entryOf updEntry updSeq
  dsimp only
  induction s.seq.running with
  | nil => rfl
  | cons e l ih =>
    by_cases he : e.id = id
    · simp [he, hf]
    · simp [he, ih]

theorem entryOf_id {id : FiringId} {y : RunEntry} (h : entryOf s id = some y) : y.id = id := by
  simpa using List.find?_some h

/-- The other cues are not touched where one of their number is changed. -/
theorem filter_updEntry (id : FiringId) {f : RunEntry → RunEntry} (hf : ∀ e, (f e).id = e.id) (l : List RunEntry) :
    (l.map fun e => if e.id = id then f e else e).filter (fun x => x.id ≠ id) = l.filter fun x => x.id ≠ id := by
  induction l with
  | nil => rfl
  | cons e l ih =>
    by_cases he : e.id = id
    · simpa [he, hf] using ih
    · simpa [he] using ih

theorem completeIfDone_pending {id : FiringId} {y : RunEntry} (h : entryOf s id = some y) (hp : y.pending ≠ 0) :
    completeIfDone id s = s := by
  unfold completeIfDone
  rw [h]
  exact if_neg fun hc => hp hc.1

theorem completeIfDone_done {id : FiringId} {y : RunEntry} (h : entryOf s id = some y) (hp : y.pending = 0)
    (hpl : y.placing = false) : completeIfDone id s = completeCue y s := by
  unfold completeIfDone
  rw [h]
  exact if_pos ⟨hp, hpl⟩

/-- The follow that a completion arms, in the terms of R87. -/
theorem armedBy_eq (q : Seq) (id : FiringId) :
    armedBy q id = if q.parent = some id ∧ q.standby.map (·.trigger) = some .followComplete
      then q.standby.map (·.wait) else q.follow := by
  unfold armedBy
  cases q.standby with
  | none => simp
  | some st => simp [and_comm]

/-- A cue's pending count after a record of it has left the table. -/
def onePendingLess (e : RunEntry) : RunEntry := { e with pending := e.pending - 1 }

theorem told_of_pending {y : RunEntry} (hp : 2 ≤ y.pending) :
    { s with seq := s.seq.told y } = updEntry y.id onePendingLess s := by
  rw [Seq.told, if_pos hp]
  rfl

theorem told_of_done {y : RunEntry} (hp : ¬ 2 ≤ y.pending) :
    { s with seq := s.seq.told y } = updSeq (fun q => { q with
      running := q.running.filter fun x => x.id ≠ y.id
      last := some { id := y.id, crushed := y.crushed, failed := y.failed, forced := y.forced }
      follow := armedBy q y.id }) (updEntry y.id onePendingLess s) := by
  rw [Seq.told, if_neg hp, ← armedBy_eq]
  unfold updEntry updSeq
  dsimp only
  rw [filter_updEntry y.id (f := onePendingLess) fun _ => rfl]
  rfl

/-- The owner of a record that leaves the table is told: its pending count falls, and at 0 it completes. -/
theorem Reaches.tellCue {y : RunEntry} (h : Reaches as u v) (he : entryOf u y.id = some y) (hp : 0 < y.pending)
    (hpl : y.placing = false) : Reaches (.cue :: as) { u with seq := u.seq.told y } (cueTold y.id v) := by
  have hv : entryOf v y.id = some y := by rw [h.1]; exact he
  have hle : Reaches (.cue :: as) (updEntry y.id onePendingLess u)
      (mark .cue (updEntry y.id onePendingLess v)) :=
    (h.plain (f := updEntry y.id onePendingLess) fun _ _ _ _ => rfl).area .cue
  have hentry : entryOf (mark .cue (updEntry y.id onePendingLess v)) y.id = some (onePendingLess y) := by
    refine (entryOf_updEntry (f := onePendingLess) (fun _ => rfl) v).trans ?_
    rw [hv]
    rfl
  have hdef : cueTold y.id v = completeIfDone y.id (mark .cue (updEntry y.id onePendingLess v)) := rfl
  rw [hdef]
  by_cases h2 : 2 ≤ y.pending
  · have hne : (onePendingLess y).pending ≠ 0 := by show y.pending - 1 ≠ 0; omega
    rw [completeIfDone_pending hentry hne, told_of_pending h2]
    exact hle
  · have hz : (onePendingLess y).pending = 0 := by show y.pending - 1 = 0; omega
    rw [completeIfDone_done hentry hz hpl, told_of_done h2]
    exact (hle.plain (f := updSeq _) fun _ _ _ _ => rfl).area_of_mem List.mem_cons_self

/-! ## Leaving the table (R103) -/

/-- What the sequencer is once the owner of the record `old` has been told that it was taken over. -/
inductive Tells (s : State) (old : FadeRec) : Seq → Prop
  | request (h : old.owner = .request) : Tells s old s.seq
  | cast (h : old.owner = .cast) : Tells s old s.seq
  | cue (y : RunEntry) (ho : old.owner = .firing y.id) (he : entryOf s y.id = some y) (hp : 0 < y.pending)
      (hpl : y.placing = false) : Tells s old (s.seq.told y)

theorem Tells.congr {old : FadeRec} {q : Seq} (h : Tells s old q) (hs : t.seq = s.seq) : Tells t old q := by
  have hentry (id : FiringId) : entryOf t id = entryOf s id := by unfold entryOf; rw [hs]
  cases h with
  | request ho => rw [← hs]; exact .request ho
  | cast ho => rw [← hs]; exact .cast ho
  | cue y ho he hp hpl => rw [← hs]; exact .cue y ho ((hentry _).trans he) hp hpl

/-- The areas that the telling of an owner hands over. -/
def cueAreas (old : FadeRec) : List Area :=
  match old.owner with
  | .firing _ => [.cue]
  | _ => []

theorem Reaches.ownerTold_takenOver {old : FadeRec} {q : Seq} (h : Reaches as u v) (ht : Tells u old q) :
    Reaches (cueAreas old ++ as) { u with seq := q } (ownerTold old .takenOver v) := by
  unfold ownerTold cueAreas
  cases ht with
  | request ho => rw [ho]; exact h
  | cast ho => rw [ho]; exact h
  | cue y ho he hp hpl => rw [ho]; exact Reaches.tellCue h he hp hpl

/-- The areas that the telling of a voice of a taken-over stop hands over. -/
def resumeAreas (s : State) (i : RecId) (old : FadeRec) : List Area :=
  match old.stopMark with
  | some v => if s.voices[v].stopRec = some i then [.voices] else []
  | none => []

theorem takeoverAreas_eq (s : State) (i : RecId) (old : FadeRec) :
    s.takeoverAreas i old = cueAreas old ++ resumeAreas s i old := rfl

theorem Reaches.stopTold_takenOver {old : FadeRec} {i : RecId} (h : Reaches as u v) :
    Reaches (resumeAreas u i old ++ as) { u with voices := u.resumed i old } (stopTold i old .takenOver v) := by
  unfold stopTold resumeAreas State.resumed
  cases old.stopMark with
  | none => exact h
  | some x =>
    unfold stopTakenOver
    have hv : v.voices = u.voices := by rw [h.1]; rfl
    rw [hv]
    by_cases hs : u.voices[x].stopRec = some i
    · simp only [if_pos hs]
      exact (h.plain (f := updVoice x _) fun _ _ _ _ => rfl).area .voices
    · simp only [if_neg hs]
      exact h

/-- A record is taken over: its place is free, its owner is told, and the voice of a stop resumes (R103, R109). -/
theorem Reaches.leaveTable_takenOver {old : FadeRec} {i : RecId} {q : Seq} (h : Reaches as u v)
    (hold : u.fades[i] = some old) (ht : Tells u old q) :
    Reaches (u.takeoverAreas i old ++ as) { u with
      fades := u.fades.set i none, takenOver := min (u.takenOver + 1) 65535, seq := q
      voices := u.resumed i old } (leaveTable i .takenOver v) := by
  have hv : v.fades[i] = some old := by rw [h.1]; exact hold
  unfold leaveTable
  rw [hv]
  have h1 := (h.fade i none).plain (f := fun s => { s with takenOver := sat16 s.takenOver }) fun _ _ _ _ => rfl
  have h2 := Reaches.ownerTold_takenOver h1 (old := old) (q := q) (ht.congr rfl)
  refine (Reaches.stopTold_takenOver (old := old) (i := i) h2).congr rfl fun a => ?_
  rw [takeoverAreas_eq]
  simp only [List.mem_append]
  show (a ∈ resumeAreas u i old ∨ _) ↔ _
  tauto

theorem takeOver_of_none {e : Elem} {x : Option RecId} (h : fadingOf s e x = none) : takeOver e x s = s := by
  unfold takeOver
  rw [h]

theorem takeOver_of_some {e : Elem} {x : Option RecId} {i : RecId} (h : fadingOf s e x = some i) :
    takeOver e x s = leaveTable i .takenOver s := by
  unfold takeOver
  rw [h]

theorem Reaches.same_fadingOf (h : Reaches as u v) (e : Elem) (x : Option RecId) : fadingOf v e x = fadingOf u e x := by
  rw [h.1]
  rfl

/-- No record moves the element: nothing is taken over. -/
theorem Reaches.takeOver_none {e : Elem} {x : Option RecId} (h : Reaches as u v) (hf : fadingOf u e x = none) :
    Reaches as u (takeOver e x v) := by
  rw [takeOver_of_none ((h.same_fadingOf e x).trans hf)]
  exact h

/-- The state once the record `old` at place `i` has been taken over. -/
def overtaken (s : State) (i : RecId) (old : FadeRec) (q : Seq) : State := { s with
  fades := s.fades.set i none, takenOver := min (s.takenOver + 1) 65535, seq := q, voices := s.resumed i old }

theorem Reaches.takeOver_some {e : Elem} {x : Option RecId} {old : FadeRec} {i : RecId} {q : Seq}
    (h : Reaches as u v) (hf : fadingOf u e x = some i) (hold : u.fades[i] = some old) (ht : Tells u old q) :
    Reaches (u.takeoverAreas i old ++ as) (overtaken u i old q) (takeOver e x v) := by
  rw [takeOver_of_some ((h.same_fadingOf e x).trans hf)]
  exact h.leaveTable_takenOver hold ht

/-! ## Cuts (R108) -/

theorem Reaches.cut_none {e : Elem} (x : Level) (h : Reaches as u v) (hf : u.NotFading e) :
    Reaches as { u with levels := u.levels.put e x } (cut e x v) :=
  (h.takeOver_none hf).elem e x

theorem Reaches.cut_some {e : Elem} (x : Level) {old : FadeRec} {i : RecId} {q : Seq}
    (h : Reaches as u v) (hf : fadingOf u e none = some i) (hold : u.fades[i] = some old) (ht : Tells u old q) :
    Reaches (u.takeoverAreas i old ++ as) { overtaken u i old q with levels := u.levels.put e x } (cut e x v) :=
  (h.takeOver_some hf hold ht).elem e x

/-! ## The beginning of a fade (R104, R107) -/

/-- A LEVEL record that begins to fade: its element starts at its level, and another record of it is taken over. -/
theorem startFade_steps {i : RecId} {r : FadeRec} {e : Elem} {target : Level} {curve : Curve} {a : Int} {T : Nat}
    (ha : (s.level e).orFloor e.floor = a) (hT : r.chosenTime a (target.orFloor e.floor) = T)
    (hc : ¬ (curve = .cut ∨ T = 0)) : startFade i r e target curve s
      = setFade i (some { r with fading := true, delayLeft := 0, start := a, time := T, elapsed := 0 })
          (takeOver e (some i) (setElem e (.steps a) s)) := by
  subst ha hT
  exact if_neg hc

theorem startFade_cut {i : RecId} {r : FadeRec} {e : Elem} {target : Level} {curve : Curve} {a : Int} {T : Nat}
    (ha : (s.level e).orFloor e.floor = a) (hT : r.chosenTime a (target.orFloor e.floor) = T)
    (hc : curve = .cut ∨ T = 0) : startFade i r e target curve s = cutBy i e target s := by
  subst ha hT
  exact if_pos hc

/-- A record that a request or a swap places has one time. -/
theorem chosenTime_levelRec (owner : Owner) (e : Elem) (x : Level) (time : Nat) (m : Option VoiceId) (a b : Int) :
    (levelRec owner e x time m).chosenTime a b = clampTime time := by
  unfold FadeRec.chosenTime
  split <;> rfl

theorem begun_eq (owner : Owner) (e : Elem) (x : Level) (a : Int) (time : Nat) (m : Option VoiceId) :
    { levelRec owner e x time m with fading := true, delayLeft := 0, start := a, time := clampTime time, elapsed := 0 }
      = FadeRec.begun owner e x a time m := rfl

/-- What a request's or a swap's fade puts in its place once any record of the element has been taken over. -/
theorem Reaches.placed {owner : Owner} {e : Elem} {x : Level} {time : Nat} {m : Option VoiceId} {i : RecId}
    (h : Reaches as u v) (hf : fadingOf u e (some i) = none) (ht : time ≠ 0) :
    Reaches as { u with
      levels := u.levels.put e (.steps ((u.level e).orFloor e.floor))
      fades := u.fades.set i (some (.begun owner e x ((u.level e).orFloor e.floor) time m)) }
      (startFade i (levelRec owner e x time m) e x .steps (setFade i (some (levelRec owner e x time m)) v)) := by
  have hc : clampTime time ≠ 0 := by unfold clampTime; omega
  have hlevel : (setFade i (some (levelRec owner e x time m)) v).level e = u.level e := by
    show v.level e = _; rw [h.1]; rfl
  rw [startFade_steps (congrArg (Level.orFloor e.floor) hlevel) (chosenTime_levelRec ..) (by simpa using hc), begun_eq]
  have h1 := ((h.fade i (some (levelRec owner e x time m))).elem e
    (.steps ((u.level e).orFloor e.floor)))
  have hf' : fadingOf { u with
      fades := u.fades.set i (some (levelRec owner e x time m))
      levels := u.levels.put e (.steps ((u.level e).orFloor e.floor)) } e (some i) = none :=
    (fadingOf_set rfl (.inl rfl)).trans hf
  refine ((h1.takeOver_none hf').fade i _).congr ?_ fun a => Iff.rfl
  simp only [Vector.set_set]

/-- A fade in a free place, no record moving its element. -/
theorem Reaches.placeFade_none {owner : Owner} {e : Elem} {x : Level} {time : Nat} {m : Option VoiceId} {i : RecId}
    (h : Reaches as u v) (hf : u.NotFading e) (ht : time ≠ 0) :
    Reaches as { u with
      levels := u.levels.put e (.steps ((u.level e).orFloor e.floor))
      fades := u.fades.set i (some (.begun owner e x ((u.level e).orFloor e.floor) time m)) }
      (placeFade i (levelRec owner e x time m) e x v) := by
  exact (h.takeOver_none hf).placed (fadingOf_except hf _) ht

/-- A fade in the place of the record that moves its element, which is taken over. -/
theorem Reaches.placeFade_some {owner : Owner} {e : Elem} {x : Level} {time : Nat} {m : Option VoiceId} {i : RecId}
    {old : FadeRec} {q : Seq} (h : Reaches as u v) (hf : fadingOf u e none = some i)
    (hexc : fadingOf u e (some i) = none) (hold : u.fades[i] = some old) (htell : Tells u old q) (ht : time ≠ 0) :
    Reaches (u.takeoverAreas i old ++ as) { overtaken u i old q with
      levels := u.levels.put e (.steps ((u.level e).orFloor e.floor))
      fades := u.fades.set i (some (.begun owner e x ((u.level e).orFloor e.floor) time m)) }
      (placeFade i (levelRec owner e x time m) e x v) := by
  have hf' : fadingOf (overtaken u i old q) e (some i) = none := (fadingOf_set rfl (.inl rfl)).trans hexc
  refine ((h.takeOver_some hf hold htell).placed hf' ht).congr ?_ fun a => Iff.rfl
  simp only [overtaken, Vector.set_set]
  rfl

end Sys2Proof.Proofs.Ends
end

section
/-! PROOF. SET_LEVEL (R114, R115): a cut, a fade, a report of FULL, or a takeover. -/

namespace Sys2Proof.Proofs.SetLevels

open Sys2Proof.Machine Sys2Proof.Proofs.Turns Sys2Proof.Proofs.Ends

variable {s u v : State} {as : List Area}

theorem levelOfField_eq (x : BitVec 16) :
    levelOfField x = if x.toInt = -32768 then .off else .steps (max (-480) (min 96 x.toInt)) := by
  have hx : x = 0x8000#16 ↔ x.toInt = -32768 := by
    rw [← BitVec.toInt_inj]
    rfl
  unfold levelOfField clampSteps
  simp only [hx]

/-! ## The owner that the answer names -/

theorem fadeOwner_none {e : Elem} (h : s.NotFading e) : fadeOwner s e = none := by
  unfold fadeOwner
  rw [h]
  rfl

theorem fadeOwner_some {e : Elem} {i : RecId} {old : FadeRec} (h : fadingOf s e none = some i)
    (hold : s.fades[i] = some old) : fadeOwner s e = some old.owner := by
  unfold fadeOwner
  rw [h]
  exact congrArg (Option.map (·.owner)) hold

/-! ## What a SET_LEVEL makes of the state -/

theorem setLevel_cut {e : Elem} {x : Level} {time : Nat} {k : Curve} (h : k = .cut ∨ time = 0) (s : State) :
    setLevel e x time k s = (cut e x s, answer .ok (setLevelWords .set ((cut e x s).level e) (fadeOwner s e))) :=
  if_pos h

theorem setLevel_fade {e : Elem} {x : Level} {time : Nat} {k : Curve} {i : RecId} (h : ¬ (k = .cut ∨ time = 0))
    (hi : placeFor s e = some i) : setLevel e x time k s
      = (placeFade i (levelRec .request e x time none) e x s, answer .ok (setLevelWords .fading
          ((placeFade i (levelRec .request e x time none) e x s).level e) (fadeOwner s e))) := by
  unfold setLevel
  rw [if_neg h, hi]

theorem setLevel_full {e : Elem} {x : Level} {time : Nat} {k : Curve} (h : ¬ (k = .cut ∨ time = 0))
    (hi : placeFor s e = none) : setLevel e x time k s
      = (cut e x s, answer .ok (setLevelWords .full ((cut e x s).level e) (fadeOwner s e))) := by
  unfold setLevel
  rw [if_neg h, hi]

section

variable {ref : ElemRef} {x : BitVec 16} {time : Nat} {k : Curve} {e : Elem}

theorem ownerOf_setLevel (he : ElemRef.elem? ref = some e) : ownerOf (.setLevel ref x time (some k)) s
    = later (setLevel e (levelOfField x) (clampTime time) k s) := by
  show later (setLevelOwner ref x time (some k) s) = _
  unfold setLevelOwner
  rw [he]

/-- A SET_LEVEL made as a cut: what the cut reaches, and the answer. -/
theorem answered_cut (ht : s.Takes (.setLevel ref x time (some k))) (he : ElemRef.elem? ref = some e)
    (hc : k = .cut ∨ time = 0)
    (h : Reaches as { u with slate := (markHanded s).slate, levels := s.levels.put e (levelOfField x) }
      (cut e (levelOfField x) (markHanded s)))
    (hs : u.slate = s.slate) (hf : u.freeCount = s.freeCount) (hn : u.notes = []) :
    State.Answered as { u with levels := s.levels.put e (levelOfField x) }
      { code := .ok, words := setLevelWords .set (levelOfField x) (fadeOwner s e) }
      (request (.setLevel ref x time (some k)) s) := by
  refine Reaches.answered ht ?_ h hs hf hn
  rw [ownerOf_setLevel he, setLevel_cut (hc.imp id clampTime_eq_zero.mpr), h.same_level e]
  show later (_, answer .ok (setLevelWords .set ((s.levels.put e _).get e) _)) = _
  rw [get_put_same]
  rfl

/-- A SET_LEVEL reported FULL. -/
theorem answered_full (ht : s.Takes (.setLevel ref x time (some .steps))) (he : ElemRef.elem? ref = some e)
    (hc : 0 < time) (hp : placeFor s e = none)
    (h : Reaches as { u with slate := (markHanded s).slate, levels := s.levels.put e (levelOfField x) }
      (cut e (levelOfField x) (markHanded s)))
    (hs : u.slate = s.slate) (hf : u.freeCount = s.freeCount) (hn : u.notes = []) :
    State.Answered as { u with levels := s.levels.put e (levelOfField x) }
      { code := .ok, words := setLevelWords .full (levelOfField x) (fadeOwner s e) }
      (request (.setLevel ref x time (some .steps)) s) := by
  have hc' : ¬ (Curve.steps = .cut ∨ clampTime time = 0) :=
    not_or.mpr ⟨nofun, mt clampTime_eq_zero.mp (by omega)⟩
  refine Reaches.answered ht ?_ h hs hf hn
  rw [ownerOf_setLevel he, setLevel_full hc' (s := markHanded s) hp, h.same_level e]
  show later (_, answer .ok (setLevelWords .full ((s.levels.put e _).get e) _)) = _
  rw [get_put_same]
  rfl

/-- A SET_LEVEL made as a fade. -/
theorem answered_fade {i : RecId} {a : Int} (ht : s.Takes (.setLevel ref x time (some .steps)))
    (he : ElemRef.elem? ref = some e) (hc : 0 < time) (hp : placeFor s e = some i)
    (h : Reaches as { u with slate := (markHanded s).slate, levels := s.levels.put e (.steps a) }
      (placeFade i (levelRec .request e (levelOfField x) (clampTime time) none) e (levelOfField x) (markHanded s)))
    (hs : u.slate = s.slate) (hf : u.freeCount = s.freeCount) (hn : u.notes = []) :
    State.Answered as { u with levels := s.levels.put e (.steps a) }
      { code := .ok, words := setLevelWords .fading (.steps a) (fadeOwner s e) }
      (request (.setLevel ref x time (some .steps)) s) := by
  have hc' : ¬ (Curve.steps = .cut ∨ clampTime time = 0) :=
    not_or.mpr ⟨nofun, mt clampTime_eq_zero.mp (by omega)⟩
  refine Reaches.answered ht ?_ h hs hf hn
  rw [ownerOf_setLevel he, setLevel_fade hc' (s := markHanded s) hp, h.same_level e]
  show later (_, answer .ok (setLevelWords .fading ((s.levels.put e _).get e) _)) = _
  rw [get_put_same]
  rfl

end

/-- Settles O32. -/
theorem setLevelCutsOrFades : Obligations.SetLevelCutsOrFades := by
  unfold Obligations.SetLevelCutsOrFades
  refine ⟨levelOfField_eq, fun s ref x time k ht => ?_⟩
  obtain ⟨hn, hm⟩ := ht.2.1
  have hrefl : Reaches [] (markHanded s) (markHanded s) := Reaches.refl hm
  refine ⟨_, exec_command (r := .setLevel ref x time k) ht.1, fun hbad => answered_same ht ?_, fun e he => ?_⟩
  · show later (setLevelOwner ref x time k (markHanded s)) = _
    unfold setLevelOwner
    rcases hbad with hb | hb
    · rw [hb]; rfl
    · rw [hb]
      cases ElemRef.elem? ref <;> rfl
  · have htime {n : Nat} (h : 0 < n) : clampTime n ≠ 0 := mt clampTime_eq_zero.mp (by omega)
    have hcuts (h : k = some .cut ∨ (k = some .steps ∧ time = 0)) :
        ∃ k', k = some k' ∧ (k' = .cut ∨ time = 0) := by
      rcases h with h | ⟨h, h0⟩
      · exact ⟨_, h, .inl rfl⟩
      · exact ⟨_, h, .inr h0⟩
    have hnone (hnf : s.NotFading e) : fadeOwner s e = none := fadeOwner_none hnf
    refine ⟨fun hnf hc => ?_, fun hnf ⟨hk, h0⟩ hfree => ?_, fun i hnf ⟨hk, h0⟩ hfree => ?_, fun i old hf hold => ?_⟩
    · have hcut := hrefl.cut_none (e := e) (levelOfField x) hnf
      obtain ⟨k', rfl, hc'⟩ := hcuts hc
      have := answered_cut (u := s) ht he hc' hcut rfl rfl hn
      rwa [hnone hnf] at this
    · subst hk
      have := answered_full (u := s) ht he h0 ((placeFor_none hnf).trans hfree)
        (hrefl.cut_none (e := e) (levelOfField x) hnf) rfl rfl hn
      rwa [hnone hnf] at this
    · subst hk
      have := answered_fade (u := { s with fades := _ }) ht he h0 ((placeFor_none hnf).trans hfree)
        (hrefl.placeFade_none (i := i) hnf (htime h0)) rfl rfl hn
      rwa [hnone hnf] at this
    · have howner : fadeOwner s e = some old.owner := fadeOwner_some hf hold
      have hreplaced {q : Seq} (htell : Tells s old q) :
          (k = some .cut ∨ (k = some .steps ∧ time = 0) → State.Answered (s.takeoverAreas i old) { s with
              seq := q, takenOver := min (s.takenOver + 1) 65535, voices := s.resumed i old
              levels := s.levels.put e (levelOfField x), fades := s.fades.set i none }
            { code := .ok, words := setLevelWords .set (levelOfField x) (some old.owner) }
            (request (.setLevel ref x time k) s))
          ∧ (k = some .steps ∧ 0 < time → fadingOf s e (some i) = none →
            State.Answered (s.takeoverAreas i old) { s with
              seq := q, takenOver := min (s.takenOver + 1) 65535, voices := s.resumed i old
              levels := s.levels.put e (.steps ((s.level e).orFloor e.floor))
              fades := s.fades.set i (some (.begun .request e (levelOfField x) ((s.level e).orFloor e.floor)
                (min time 600000) none)) }
            { code := .ok, words := setLevelWords .fading (.steps ((s.level e).orFloor e.floor)) (some old.owner) }
            (request (.setLevel ref x time k) s)) := by
        have htell' : Tells (markHanded s) old q := htell.congr rfl
        rw [← howner]
        refine ⟨fun hc => ?_, fun ⟨hk, h0⟩ hexc => ?_⟩
        · obtain ⟨k', rfl, hc'⟩ := hcuts hc
          have hcut := (hrefl.cut_some (levelOfField x) hf hold htell').congr rfl
            (bs := s.takeoverAreas i old) (by simp; exact fun _ => Iff.rfl)
          exact answered_cut (u := overtaken s i old q) ht he hc' hcut rfl rfl hn
        · subst hk
          have hfade := (hrefl.placeFade_some (owner := .request) (x := levelOfField x) (time := clampTime time)
            (m := none) hf hexc hold htell' (htime h0)).congr rfl
            (bs := s.takeoverAreas i old) (by simp; exact fun _ => Iff.rfl)
          exact answered_fade (u := { overtaken s i old q with fades := _ }) ht he h0 (placeFor_some hf) hfade
            rfl rfl hn
      refine ⟨fun ho => ?_, fun y ho hy hp hpl => ?_⟩
      · have := hreplaced (.request ho)
        rw [ho] at this
        exact this
      · have := hreplaced (.cue y ho hy hp hpl)
        rw [ho] at this
        exact this

end Sys2Proof.Proofs.SetLevels
end

section
/-! PROOF. The fades of a swap and SWAP_TAP (R28 to R31). -/

namespace Sys2Proof.Proofs.Ends

open Sys2Proof.Machine

variable {s u v : State} {as : List Area}

/-! ## A fade of a swap -/

/-- The roles with a tap in this state. -/
def tapSet (roles : Vector Role 96) (r : RoleId) (k : TapId) (x : TapState) : Vector Role 96 :=
  upd roles r fun y => { y with taps := y.taps.set k x }

theorem tapSet_tapSet (roles : Vector Role 96) (r : RoleId) (k : TapId) (x y : TapState) :
    tapSet (tapSet roles r k x) r k y = tapSet roles r k y := by
  simp only [tapSet, upd_upd, Vector.set_set]

theorem setTap_eq (r : RoleId) (k : TapId) (x : TapState) (s : State) :
    setTap r k x s = mark .roles { s with roles := tapSet s.roles r k x } := rfl

/-- The record that moves a tap in a crossfade is a CAST record, whose takeover nobody hears of. -/
theorem CastMoves.takeOver {r : RoleId} {k : TapId} {i : RecId} (hm : s.CastMoves r k)
    (hf : fadingOf s (.tap r k) none = some i) : ∃ old, s.fades[i] = some old ∧ Tells s old s.seq
      ∧ s.takeoverAreas i old = [] ∧ overtaken s i old s.seq
        = { s with fades := s.fades.set i none, takenOver := min (s.takenOver + 1) 65535 } := by
  obtain ⟨h, _⟩ := hm i hf
  obtain ⟨old, hold, hp⟩ := Option.map_eq_some_iff.mp h
  obtain ⟨ho, hs⟩ := Prod.mk.inj hp
  refine ⟨old, hold, .cast ho, ?_, ?_⟩
  · unfold State.takeoverAreas
    rw [ho, hs]
    rfl
  · unfold overtaken State.resumed
    rw [hs]

/-- A swap's fade made at once leaves its tap at rest. -/
theorem Reaches.castEnd {r : RoleId} {k : TapId} {target : Level} (h : Reaches as u v) (hr : .roles ∈ as)
    (ht : target = .off ∨ target = .steps 0) : Reaches as { u with
      roles := tapSet u.roles r k (if target = .off then .idle else .active)
      levels := u.levels.put (.tap r k) target } (castEnd r k target v) := by
  unfold Machine.castEnd
  rcases ht with rfl | rfl
  · exact ((h.elem (.tap r k) .off).plain (f := fun s => { s with roles := tapSet s.roles r k .idle })
      fun _ _ _ _ => rfl).area_of_mem hr
  · exact ((h.elem (.tap r k) (.steps 0)).plain (f := fun s => { s with roles := tapSet s.roles r k .active })
      fun _ _ _ _ => rfl).area_of_mem hr

theorem tapFaded_none {r : RoleId} {k : TapId} {target : Level} {time : Nat}
    (hf : fadingOf s (.tap r k) none = none) (hp : time = 0 ∨ freePlace s = none) :
    s.tapFaded r k target time = { s with
      roles := tapSet s.roles r k (if target = .off then .idle else .active)
      levels := s.levels.put (.tap r k) target } := by
  have hplace : (if time = 0 then none else (none : Option RecId).or (freePlace s)) = none := by
    split
    · rfl
    · next h => rw [Option.none_or, hp.resolve_left h]
  unfold State.tapFaded
  rw [hf]
  dsimp only
  rw [hplace]
  rfl

theorem tapFaded_cut {r : RoleId} {k : TapId} {target : Level} {i : RecId}
    (hf : fadingOf s (.tap r k) none = some i) : s.tapFaded r k target 0 = { s with
      roles := tapSet s.roles r k (if target = .off then .idle else .active)
      levels := s.levels.put (.tap r k) target
      takenOver := min (s.takenOver + 1) 65535
      fades := s.fades.set i none } := by
  unfold State.tapFaded
  rw [hf]
  rfl

theorem tapFaded_free {r : RoleId} {k : TapId} {target : Level} {time : Nat} {i : RecId}
    (hf : fadingOf s (.tap r k) none = none) (ht : time ≠ 0) (hp : freePlace s = some i) :
    s.tapFaded r k target time = { s with
      roles := tapSet s.roles r k (if target = .off then .fadingOut else .fadingIn)
      levels := s.levels.put (.tap r k) (.steps ((s.level (.tap r k)).orFloor (-96)))
      fades := s.fades.set i (some (.begun .cast (.tap r k) target ((s.level (.tap r k)).orFloor (-96)) time none)) } := by
  unfold State.tapFaded
  rw [hf]
  dsimp only
  rw [if_neg ht, Option.none_or, hp]
  rfl

theorem tapFaded_some {r : RoleId} {k : TapId} {target : Level} {time : Nat} {i : RecId}
    (hf : fadingOf s (.tap r k) none = some i) (ht : time ≠ 0) : s.tapFaded r k target time = { s with
      roles := tapSet s.roles r k (if target = .off then .fadingOut else .fadingIn)
      levels := s.levels.put (.tap r k) (.steps ((s.level (.tap r k)).orFloor (-96)))
      takenOver := min (s.takenOver + 1) 65535
      fades := s.fades.set i (some (.begun .cast (.tap r k) target ((s.level (.tap r k)).orFloor (-96)) time none)) } := by
  unfold State.tapFaded
  rw [hf]
  dsimp only
  rw [if_neg ht]
  rfl

/-- A fade of a swap changes the roles, the levels and the fade table alone, and looks at nothing of the slate. -/
theorem tapFaded_frame (s : State) (r : RoleId) (k : TapId) (target : Level) (time : Nat) :
    ∃ (A : Vector Role 96) (B : Levels) (C : Nat) (D : Vector (Option FadeRec) 128), ∀ q : Slate,
      State.tapFaded { s with slate := q } r k target time
        = { s with slate := q, roles := A, levels := B, takenOver := C, fades := D } := by
  refine ⟨(s.tapFaded r k target time).roles, (s.tapFaded r k target time).levels,
    (s.tapFaded r k target time).takenOver, (s.tapFaded r k target time).fades, fun q => ?_⟩
  cases hf : fadingOf s (.tap r k) none with
  | none =>
    by_cases h0 : time = 0
    · rw [tapFaded_none (s := { s with slate := q }) hf (.inl h0), tapFaded_none hf (.inl h0)]
    · cases hp : freePlace s with
      | none => rw [tapFaded_none (s := { s with slate := q }) hf (.inr hp), tapFaded_none hf (.inr hp)]
      | some i => rw [tapFaded_free (s := { s with slate := q }) hf h0 hp, tapFaded_free hf h0 hp]; rfl
  | some i =>
    by_cases h0 : time = 0
    · subst h0
      rw [tapFaded_cut (s := { s with slate := q }) hf, tapFaded_cut hf]
    · rw [tapFaded_some (s := { s with slate := q }) hf h0, tapFaded_some hf h0]; rfl

theorem tapFaded_handed (s : State) (r : RoleId) (k : TapId) (target : Level) (time : Nat) (q : Slate) :
    State.tapFaded { s with slate := q } r k target time = { s.tapFaded r k target time with slate := q } := by
  obtain ⟨A, B, C, D, h⟩ := tapFaded_frame s r k target time
  rw [h q, h s.slate]

theorem tapFaded_keeps (s : State) (r : RoleId) (k : TapId) (target : Level) (time : Nat) :
    (s.tapFaded r k target time).slate = s.slate ∧ (s.tapFaded r k target time).freeCount = s.freeCount
      ∧ (s.tapFaded r k target time).notes = s.notes := by
  obtain ⟨A, B, C, D, h⟩ := tapFaded_frame s r k target time
  have h := h s.slate
  rw [h]
  exact ⟨rfl, rfl, rfl⟩

/-- A fade of a swap, its tap already standing in the state of the fade. -/
theorem Reaches.castFade {r : RoleId} {k : TapId} {target : Level} {time : Nat} (h : Reaches as u v)
    (hm : u.CastMoves r k) (ht : target = .off ∨ target = .steps 0) :
    Reaches (.roles :: as) (u.tapFaded r k target time)
      (castFade r k target time (setTap r k (if target = .off then .fadingOut else .fadingIn) v)) := by
  have h1 := (h.plain (f := fun s => { s with
    roles := tapSet s.roles r k (if target = .off then .fadingOut else .fadingIn) }) fun _ _ _ _ => rfl).area .roles
  rw [← setTap_eq] at h1
  generalize setTap r k (if target = .off then .fadingOut else .fadingIn) v = v' at h1
  have hmem {bs : List Area} : Area.roles ∈ Area.roles :: bs := List.mem_cons_self
  unfold Machine.castFade
  cases hf : fadingOf u (.tap r k) none with
  | none =>
    have hnf : State.NotFading { u with
      roles := tapSet u.roles r k (if target = .off then .fadingOut else .fadingIn) } (.tap r k) := hf
    have hplace : placeFor v' (.tap r k) = freePlace u := by
      rw [placeFor_none (by rw [State.NotFading, h1.same_fadingOf]; exact hf), h1.1]; rfl
    have hend := (h1.cut_none target hnf).castEnd (r := r) (k := k) hmem ht
    simp only [tapSet_tapSet, put_put] at hend
    by_cases h0 : time = 0
    · rw [if_pos h0, tapFaded_none hf (.inl h0)]
      exact hend
    · rw [if_neg h0, hplace]
      cases hp : freePlace u with
      | none => rw [tapFaded_none hf (.inr hp)]; exact hend
      | some i => rw [tapFaded_free hf h0 hp]; exact h1.placeFade_none hnf h0
  | some i =>
    have hf' : fadingOf { u with
      roles := tapSet u.roles r k (if target = .off then .fadingOut else .fadingIn) } (.tap r k) none = some i := hf
    have hplace : placeFor v' (.tap r k) = some i := placeFor_some ((h1.same_fadingOf _ _).trans hf')
    obtain ⟨old, hold, htell, hareas, hover⟩ := CastMoves.takeOver (s := { u with
      roles := tapSet u.roles r k (if target = .off then .fadingOut else .fadingIn) }) hm hf'
    by_cases h0 : time = 0
    · rw [if_pos h0, h0, tapFaded_cut hf]
      have hcut := h1.cut_some target hf' hold htell
      rw [hareas, hover] at hcut
      have hend := hcut.castEnd (r := r) (k := k) hmem ht
      simp only [tapSet_tapSet, put_put] at hend
      exact hend
    · rw [if_neg h0, hplace, tapFaded_some hf h0]
      have hfade := h1.placeFade_some (owner := .cast) (x := target) (m := none) hf' (hm i hf).2 hold htell h0
      rw [hareas, hover] at hfade
      exact hfade

/-! ## A swap of two taps -/

theorem movesAt_of_ne {f : Option FadeRec} {e e' : Elem} (h : movesAt f e = true) (hne : e ≠ e') :
    movesAt f e' = false := by
  unfold movesAt at *
  split at h
  · next r =>
    obtain ⟨_, he⟩ := Bool.and_eq_true_iff.mp h
    rw [beq_iff_eq] at he
    rw [Bool.and_eq_false_iff]
    exact .inr (beq_eq_false_iff_ne.mpr fun h' => hne (Option.some_inj.mp (he.symm.trans h')))
  · nomatch h

/-- A fade of one tap changes the fade table at no place that moves another element. -/
theorem tapFaded_fades (s : State) (r : RoleId) (k : TapId) (target : Level) (time : Nat) {e : Elem}
    (hne : .tap r k ≠ e) : (s.tapFaded r k target time).fades = s.fades ∨ ∃ (i : RecId) (f : Option FadeRec),
      (s.tapFaded r k target time).fades = s.fades.set i f ∧ movesAt s.fades[i] e = false ∧ movesAt f e = false := by
  have hbegun (a : Int) : movesAt (some (FadeRec.begun .cast (.tap r k) target a time none)) e = false :=
    movesAt_of_ne (e := .tap r k) (by simp [movesAt, FadeRec.begun, FadeRec.elem?]) hne
  cases hf : fadingOf s (.tap r k) none with
  | none =>
    by_cases h0 : time = 0
    · rw [tapFaded_none hf (.inl h0)]; exact .inl rfl
    · cases hp : freePlace s with
      | none => rw [tapFaded_none hf (.inr hp)]; exact .inl rfl
      | some i =>
        rw [tapFaded_free hf h0 hp]
        exact .inr ⟨i, _, rfl, by rw [freePlace_some hp]; rfl, hbegun _⟩
  | some i =>
    have hi := movesAt_of_ne (movesAt_of_fadingOf hf).2 hne
    by_cases h0 : time = 0
    · subst h0
      rw [tapFaded_cut hf]
      exact .inr ⟨i, none, rfl, hi, rfl⟩
    · rw [tapFaded_some hf h0]
      exact .inr ⟨i, _, rfl, hi, hbegun _⟩

theorem CastMoves.tapFaded {r : RoleId} {k o : TapId} (target : Level) (time : Nat) (hm : s.CastMoves r k)
    (hne : o ≠ k) : (s.tapFaded r o target time).CastMoves r k := by
  have he : Elem.tap r o ≠ .tap r k := fun h => hne (Elem.tap.inj h).2
  rcases tapFaded_fades s r o target time he with h | ⟨i, f, h, h1, h2⟩
  · have hsame (x : Option RecId) : fadingOf (s.tapFaded r o target time) (.tap r k) x = fadingOf s (.tap r k) x := by
      rw [fadingOf_eq, h]; rfl
    intro j hj
    rw [hsame] at hj ⊢
    rw [h]
    exact hm j hj
  · have hsame (x : Option RecId) : fadingOf (s.tapFaded r o target time) (.tap r k) x = fadingOf s (.tap r k) x :=
      fadingOf_set h (.inr ⟨h1, h2⟩)
    intro j hj
    rw [hsame] at hj ⊢
    have hji : (i : Nat) ≠ j := fun hij => by
      obtain rfl := Fin.ext hij
      exact Bool.false_ne_true (h1.symm.trans (movesAt_of_fadingOf hj).2)
    rw [h, Fin.getElem_fin, Vector.getElem_set_ne _ _ hji]
    exact hm j hj

theorem Reaches.active (h : Reaches as u v) (r : RoleId) : v.roles[r].active = u.roles[r].active := by
  rw [h.1]; rfl

theorem Reaches.swapTo_none {r : RoleId} {k : TapId} {time : Nat} (h : Reaches as u v)
    (ho : u.roles[r].active = none) (hk : u.CastMoves r k) :
    Reaches (.roles :: as) (u.tapFaded r k (.steps 0) time) (swapTo r k time v) := by
  unfold swapTo
  rw [h.active, ho]
  exact h.castFade hk (.inr rfl)

theorem Reaches.swapTo_some {r : RoleId} {k o : TapId} {time : Nat} (h : Reaches as u v)
    (ho : u.roles[r].active = some o) (hne : o ≠ k) (hmo : u.CastMoves r o) (hk : u.CastMoves r k) :
    Reaches (.roles :: as) ((u.tapFaded r o .off time).tapFaded r k (.steps 0) time) (swapTo r k time v) := by
  unfold swapTo
  rw [h.active, ho]
  have h1 := h.castFade (time := time) hmo (.inl rfl)
  exact ((h1.castFade (time := time) (CastMoves.tapFaded .off time hk hne) (.inr rfl))).congr rfl fun a => by simp

/-! ## SWAP_TAP (R28) -/

theorem fin?_val {n : Nat} (i : Fin n) : fin? n i.val = some i := dif_pos i.isLt

theorem fin?_none {n i : Nat} (h : n ≤ i) : fin? n i = none := dif_neg (Nat.not_lt.mpr h)

theorem swapTapOwner_of {r : RoleId} {k : TapId} {c : Channel} {time : Nat} (hc : s.roles[r].cfg.taps[k] = some c) :
    swapTapOwner r.val k.val time s =
      if s.roles[r].active = some k then
        (s, answer .ok (wordsOf (wordOf k) (channelStateWord s c) (Config.code .noTap) (rest s 3)))
      else
        match carriedElsewhere s r c with
        | some q => (s, answer .conflict (wordsOf (wordOf q) (channelStateWord s c) (rest s 2) (rest s 3)))
        | none =>
          (swapTo r k (clampTime time) s,
            answer .ok (wordsOf (wordOf k) (channelStateWord s c)
              ((s.roles[r].active).elim (Config.code .noTap) fun o => wordOf o.val) (rest s 3))) := by
  unfold swapTapOwner
  rw [fin?_val, fin?_val]
  dsimp only
  rw [hc] <;> rfl

/-- Settles O33. -/
theorem swapTapChecksAndSwaps : Obligations.SwapTapChecksAndSwaps := by
  unfold Obligations.SwapTapChecksAndSwaps
  intro s role tap time ht
  obtain ⟨hn, hm⟩ := ht.2.1
  have hrefl : Reaches [] (markHanded s) (markHanded s) := Reaches.refl hm
  refine ⟨_, exec_command (r := .swapTap role tap time) ht.1, fun hbad => answered_same ht ?_,
    fun r k hr hk => ?_⟩
  · show later (swapTapOwner role tap time (markHanded s)) = _
    unfold swapTapOwner
    rcases hbad with hb | hb
    · rw [fin?_none hb]; rfl
    · rw [fin?_none hb]
      cases fin? 96 role <;> rfl
  · subst hr hk
    refine ⟨fun hnone => answered_same ht ?_, fun c hc => ?_⟩
    · show later (swapTapOwner r.val k.val time (markHanded s)) = _
      unfold swapTapOwner
      rw [fin?_val, fin?_val]
      dsimp only
      rw [show (markHanded s).roles[r].cfg.taps[k] = none from hnone]
      rfl
    · have howner : ownerOf (.swapTap r.val k.val time) (markHanded s) = later _ :=
        congrArg later (swapTapOwner_of (s := markHanded s) (time := time) hc)
      have hword (o : Option TapId) : (o.map fun o => wordOf o.val).getD (Config.code .noTap)
          = o.elim (Config.code .noTap) fun o => wordOf o.val := by cases o <;> rfl
      rw [hword]
      refine ⟨fun ho => answered_same ht ?_, fun q ho hq => answered_same ht ?_, fun ho hq hmk => ?_,
        fun o ho hne hq hmo hmk => ?_⟩
      · rw [howner, if_pos (show (markHanded s).roles[r].active = some k from ho)]
        rfl
      · rw [howner, if_neg (show ¬ (markHanded s).roles[r].active = some k from ho),
          show carriedElsewhere (markHanded s) r c = some q from hq]
        rfl
      · have hne : ¬ (markHanded s).roles[r].active = some k := by
          rw [show (markHanded s).roles[r].active = none from ho]; nofun
        have h := hrefl.swapTo_none (time := clampTime time) ho hmk
        rw [show markHanded s = { s with slate := (markHanded s).slate } from rfl, tapFaded_handed] at h
        obtain ⟨hs, hf, hnotes⟩ := tapFaded_keeps s r k (.steps 0) (clampTime time)
        refine Reaches.answered ht ?_ h hs hf (hnotes.trans hn)
        rw [howner, if_neg hne, show carriedElsewhere (markHanded s) r c = none from hq]
        rfl
      · have hne' : ¬ (markHanded s).roles[r].active = some k := by
          rw [show (markHanded s).roles[r].active = some o from ho]
          exact fun h => hne (Option.some_inj.mp h)
        have h := hrefl.swapTo_some (time := clampTime time) ho hne hmo hmk
        rw [show markHanded s = { s with slate := (markHanded s).slate } from rfl,
          tapFaded_handed s, tapFaded_handed (s.tapFaded r o .off (clampTime time))] at h
        obtain ⟨hs, hf, hnotes⟩ := tapFaded_keeps s r o .off (clampTime time)
        obtain ⟨hs', hf', hnotes'⟩ := tapFaded_keeps (s.tapFaded r o .off (clampTime time)) r k (.steps 0)
          (clampTime time)
        refine Reaches.answered ht ?_ h (hs'.trans hs) (hf'.trans hf) (hnotes'.trans (hnotes.trans hn))
        rw [howner, if_neg hne', show carriedElsewhere (markHanded s) r c = none from hq]
        rfl

end Sys2Proof.Proofs.Ends
end

section
/-! PROOF. Entries of a channel to LOST, low batteries and automatic spares (R13 to R18, R33). -/

namespace Sys2Proof.Proofs.Ends

open Sys2Proof.Machine

variable {s u v : State} {as : List Area}

/-! ## The automatic spare (R33) -/

theorem spareFailover_none {c : Channel} (h : s.NoRoleOn c) : spareFailover c s = s := by
  unfold spareFailover
  split
  · rfl
  · next he => rw [h.resolve_left he]

theorem spareFailover_of {c : Channel} {r : RoleId} {k : TapId} (he : s.engine ≠ .stopped)
    (hr : roleActiveOn s c = some r) (hk : s.roles[r].active = some k) : spareFailover c s =
      if s.roles[r].cfg.autoSpare then
        if spareAvailable s r k then swapTo r (pairOf k) s.roles[r].cfg.spareTime s
        else mark .roles (updRole r (fun x => { x with unavailable := sat16 x.unavailable }) s)
      else s := by
  unfold spareFailover
  rw [if_neg he, hr]
  dsimp only
  rw [hk]

theorem pairOf_ne (k : TapId) : k ≠ pairOf k := by
  revert k
  decide

theorem spareAvailable_iff {r : RoleId} {k : TapId} : spareAvailable s r k = true
    ↔ ∃ d, s.roles[r].cfg.taps[pairOf k] = some d ∧ s.channels[d].state = .live ∧ carriedElsewhere s r d = none := by
  unfold spareAvailable
  cases s.roles[r].cfg.taps[pairOf k] <;> simp

theorem Reaches.spareFailover_none {c : Channel} (h : Reaches as u v) (hc : u.NoRoleOn c) :
    Reaches as u (spareFailover c v) := by
  rw [Ends.spareFailover_none (by rw [h.1]; exact hc)]
  exact h

section

variable {c : Channel} {r : RoleId} {k : TapId} (h : Reaches as u v) (he : u.engine ≠ .stopped)
  (hr : roleActiveOn u c = some r) (hk : u.roles[r].active = some k)

include h he hr hk

theorem Reaches.spareFailover_of : spareFailover c v = if u.roles[r].cfg.autoSpare then
      if spareAvailable u r k then swapTo r (pairOf k) u.roles[r].cfg.spareTime v
      else mark .roles (updRole r (fun x => { x with unavailable := sat16 x.unavailable }) v)
    else v := by
  rw [Ends.spareFailover_of (s := v) (by rw [h.1]; exact he) (by rw [h.1]; exact hr) (by rw [h.1]; exact hk), h.1]
  rfl

theorem Reaches.spareFailover_manual (ha : u.roles[r].cfg.autoSpare = false) : Reaches as u (spareFailover c v) := by
  rw [h.spareFailover_of he hr hk, if_neg (ne_true_of_eq_false ha)]
  exact h

theorem Reaches.spareFailover_unavailable (ha : u.roles[r].cfg.autoSpare = true)
    (hs : spareAvailable u r k = false) : Reaches (.roles :: as) { u with
      roles := upd u.roles r fun x => { x with unavailable := min (x.unavailable + 1) 65535 } }
      (spareFailover c v) := by
  rw [h.spareFailover_of he hr hk, if_pos ha, if_neg (ne_true_of_eq_false hs)]
  exact (h.plain (f := updRole r _) fun _ _ _ _ => rfl).area .roles

theorem Reaches.spareFailover_swap (ha : u.roles[r].cfg.autoSpare = true) (hs : spareAvailable u r k = true)
    (hmk : u.CastMoves r k) (hmp : u.CastMoves r (pairOf k)) : Reaches (.roles :: as)
      ((u.tapFaded r k .off u.roles[r].cfg.spareTime).tapFaded r (pairOf k) (.steps 0) u.roles[r].cfg.spareTime)
      (spareFailover c v) := by
  rw [h.spareFailover_of he hr hk, if_pos ha, if_pos hs]
  exact h.swapTo_some hk (pairOf_ne k) hmk hmp

end

/-! ## Entries to LOST (R16, R17) -/

/-- The state once the entry of a channel to LOST stands and has been handed to the INPUT cell. -/
def lostReported (c : Channel) (cause : LossCause) (s : State) : State :=
  captureEvent inputCell (inputDetails false c s.channels[c].state (some cause)) { s with
    channels := s.channels.set c { s.channels[c] with
      state := .lost, timer := none, gate := Links.supervised s s.channels[c] false }
    notice := { s.notice with
      input := s.notice.input || !(s.channels[c].cfg.lossMask || s.header.inputMask) } }

theorem enterLost_eq (c : Channel) (cause : LossCause) (s : State) : enterLost c cause s
    = spareFailover c (captureEvent inputCell (inputDetails false c s.channels[c].state (some cause))
        (mark .channels { s with
          channels := s.channels.set c { s.channels[c] with
            state := .lost, timer := none, gate := Links.supervised s s.channels[c] false }
          notice := { s.notice with
            input := s.notice.input || !(s.channels[c].cfg.lossMask || s.header.inputMask) } })) := by
  unfold enterLost reportLost standLost
  rw [Links.enterState_eq]
  simp [latchInput, updNotice, mark]

theorem reaches_lostReported (c : Channel) (cause : LossCause) (hm : s.marks = []) :
    Reaches [.channels] (lostReported c cause s)
      (captureEvent inputCell (inputDetails false c s.channels[c].state (some cause))
        (mark .channels { s with
          channels := s.channels.set c { s.channels[c] with
            state := .lost, timer := none, gate := Links.supervised s s.channels[c] false }
          notice := { s.notice with
            input := s.notice.input || !(s.channels[c].cfg.lossMask || s.header.inputMask) } })) :=
  Reaches.plain (plain_captureEvent _ _) ((Reaches.refl (s := { s with
    channels := s.channels.set c { s.channels[c] with
      state := .lost, timer := none, gate := Links.supervised s s.channels[c] false }
    notice := { s.notice with
      input := s.notice.input || !(s.channels[c].cfg.lossMask || s.header.inputMask) } }) hm).area .channels)

/-- What an entry to LOST ends in, by what the channel's role has for it. -/
theorem enterLost_endsAs {op : State → State} {due : Bool} {c : Channel} {cause : LossCause} (hq : s.Quiet)
    (hd : due = true) (hop : op s = enterLost c cause s) :
    (s.NoRoleOn c → (lostReported c cause s).EndsAs [.channels] (event due op s))
    ∧ ∀ (r : RoleId) (k : TapId), s.engine ≠ .stopped → roleActiveOn s c = some r →
        Role.active s.roles[r] = some k →
        (s.roles[r].cfg.autoSpare = false → (lostReported c cause s).EndsAs [.channels] (event due op s))
        ∧ (s.roles[r].cfg.autoSpare = true → ¬ (∃ d, s.roles[r].cfg.taps[pairOf k] = some d ∧ d ≠ c
              ∧ s.channels[d].state = .live ∧ carriedElsewhere s r d = none) →
            State.EndsAs [.channels, .roles] { lostReported c cause s with
              roles := upd s.roles r fun y => { y with unavailable := min (y.unavailable + 1) 65535 } }
              (event due op s))
        ∧ (s.roles[r].cfg.autoSpare = true → (∃ d, s.roles[r].cfg.taps[pairOf k] = some d ∧ d ≠ c
              ∧ s.channels[d].state = .live ∧ carriedElsewhere s r d = none) →
            s.CastMoves r k → s.CastMoves r (pairOf k) → State.EndsAs [.channels, .roles]
              (((lostReported c cause s).tapFaded r k .off s.roles[r].cfg.spareTime).tapFaded r (pairOf k) (.steps 0)
                s.roles[r].cfg.spareTime) (event due op s)) := by
  obtain ⟨hn, hm⟩ := hq
  have hreach := reaches_lostReported c cause hm
  have hspare (r : RoleId) (k : TapId) : spareAvailable (lostReported c cause s) r k = true
      ↔ ∃ d, s.roles[r].cfg.taps[pairOf k] = some d ∧ d ≠ c ∧ s.channels[d].state = .live
        ∧ carriedElsewhere s r d = none := by
    rw [spareAvailable_iff, lostReported, captureEvent_eq]
    refine exists_congr fun d => and_congr_right fun _ => ?_
    by_cases hdc : d = c
    · subst hdc
      simp
    · have hne : (c : Nat) ≠ d := fun h => hdc (Fin.ext h.symm)
      rw [Fin.getElem_fin, Vector.getElem_set_ne _ _ hne]
      exact ⟨fun h => ⟨hdc, h⟩, fun h => h.2⟩
  rw [event_due hd, hop, enterLost_eq]
  unfold lostReported at *
  rw [captureEvent_eq] at *
  refine ⟨fun hno => (hreach.spareFailover_none hno).endsAs hn, fun r k he hr hk =>
    ⟨fun ha => (hreach.spareFailover_manual he hr hk ha).endsAs hn, fun ha hs => ?_, fun ha hs hmk hmp => ?_⟩⟩
  · have hs := Bool.eq_false_iff.mpr (mt (hspare r k).mp hs)
    exact ((hreach.spareFailover_unavailable he hr hk ha hs).congr rfl (by simp [or_comm])).endsAs hn
  · have hend := hreach.spareFailover_swap he hr hk ha ((hspare r k).mpr hs) hmk hmp
    refine (hend.congr rfl (by simp [or_comm])).endsAs ?_
    obtain ⟨_, _, h1⟩ := tapFaded_keeps { s with
      channels := s.channels.set c { s.channels[c] with
        state := .lost, timer := none, gate := Links.supervised s s.channels[c] false }
      notice := { s.notice with
        input := s.notice.input || !(s.channels[c].cfg.lossMask || s.header.inputMask) }
      cells := _, wq := _ } r k .off s.roles[r].cfg.spareTime
    obtain ⟨_, _, h2⟩ := tapFaded_keeps (State.tapFaded _ r k .off s.roles[r].cfg.spareTime) r (pairOf k) (.steps 0)
      s.roles[r].cfg.spareTime
    exact h2.trans (h1.trans hn)

/-- Settles O47: each way into LOST by the law of the entry. -/
theorem channelLossAndBatteryAreReported : Obligations.ChannelLossAndBatteryAreReported := by
  unfold Obligations.ChannelLossAndBatteryAreReported
  intro s c hruns hq
  refine ⟨fun i cause hi => ?_, fun hedge hs => ?_⟩
  · rcases hi with ⟨rfl, hs, ht, rfl⟩ | ⟨rfl, hs, hp, hc, rfl⟩ | ⟨rfl, hs, hp, rfl⟩
    · have hdue : confirmDue s c = true := by rw [confirmDue, hs, ht]; rfl
      exact ⟨_, running_next _ hruns, enterLost_endsAs hq hdue rfl⟩
    · have hdue : presentFalseDue s c = true := by rw [presentFalseDue, hs, hp]; rfl
      have hop : presentFalse c s = enterLost c .confirm s := by
        rw [presentFalse, if_neg (by rw [hs]; decide), if_pos hc]
      exact ⟨_, running_next _ hruns, enterLost_endsAs hq hdue hop⟩
    · have hdue : presentFalseDue s c = true := by rw [presentFalseDue, hs, hp]; rfl
      exact ⟨_, running_next _ hruns, enterLost_endsAs hq hdue (if_pos hs)⟩
  · have hdue : batteryDue s c = true := by
      rw [batteryDue, hedge, Bool.true_and, bne_iff_ne]; exact hs
    obtain ⟨hn, hm⟩ := hq
    refine ⟨_, running_next _ hruns, Reaches.event_endsAs hdue ?_ ((captureEvent_notes _ _ _).trans hn)⟩
    have hop : batteryEdge c s = captureEvent inputCell (inputDetails true c s.channels[c].state none) { s with
        channels := s.channels.set c { s.channels[c] with edge := false }
        notice := { s.notice with
          input := s.notice.input || !(s.channels[c].cfg.batteryMask || s.header.inputMask) } } := by
      simp [batteryEdge, latchInput, updNotice, updChannel, upd]
    rw [hop]
    exact Reaches.plain (plain_captureEvent _ _) (Reaches.refl hm)

end Sys2Proof.Proofs.Ends
end

section
/-! PROOF. The lock and the unlock of a receiver, with the losses that an unlock brings and the spares that the cast
block finds for them (R9, R15, R33). The fades of a swap and the reports of the losses touch separate parts of the
state, so that all reports may be made before the swaps. -/

namespace Sys2Proof.Proofs.Ends

open Sys2Proof.Machine

variable {s u v : State} {as : List Area}

/-! ## The fade engine stands apart from roles, notices, cells and write queue -/

/-- The part of the state that fades and their takeovers change. -/
structure FadePart where
  levels : Levels
  seq : Seq
  fades : Vector (Option FadeRec) 128
  takenOver : Nat
  voices : Vector Voice 16
  mirror : Mirror
  marks : List Area

def fadePartOf (u : State) : FadePart :=
  ⟨u.levels, u.seq, u.fades, u.takenOver, u.voices, u.mirror, u.marks⟩

def withFades (u : State) (p : FadePart) : State := { u with
  levels := p.levels, seq := p.seq, fades := p.fades, takenOver := p.takenOver, voices := p.voices
  mirror := p.mirror, marks := p.marks }

/-- The state with other notices, cells, write queue and roles. -/
def withReports (u : State) (n : Notice) (c : Vector Cell 12) (q : WriteQueue) (roles : Vector Role 96) : State :=
  { u with notice := n, cells := c, wq := q, roles := roles }

/-- `f` changes what fades change, and looks at neither roles, notices, cells nor write queue. -/
def Apart (f : State → State) : Prop :=
  ∀ u, ∃ p, ∀ n c q roles, f (withReports u n c q roles) = withFades (withReports u n c q roles) p

theorem Apart.self {f : State → State} (hf : Apart f) (u : State) : ∃ p, f u = withFades u p := by
  obtain ⟨p, h⟩ := hf u
  exact ⟨p, h u.notice u.cells u.wq u.roles⟩

theorem Apart.comp {f g : State → State} (hg : Apart g) (hf : Apart f) : Apart fun u => g (f u) := by
  intro u
  obtain ⟨p, hp⟩ := hf u
  obtain ⟨p', hp'⟩ := hg (withFades u p)
  refine ⟨p', fun n c q roles => ?_⟩
  show g (f _) = _
  rw [hp]
  exact hp' n c q roles

theorem apart_id : Apart fun u => u := fun u => ⟨fadePartOf u, fun _ _ _ _ => rfl⟩

/-- A choice by something that stands apart. -/
theorem Apart.ite {f g : State → State} {C : State → Prop} [∀ u, Decidable (C u)] (hf : Apart f) (hg : Apart g)
    (hC : ∀ u n c q roles, C (withReports u n c q roles) ↔ C u) : Apart fun u => if C u then f u else g u := by
  intro u
  by_cases h : C u
  · obtain ⟨p, hp⟩ := hf u
    exact ⟨p, fun n c q roles => (if_pos ((hC ..).mpr h)).trans (hp n c q roles)⟩
  · obtain ⟨p, hp⟩ := hg u
    exact ⟨p, fun n c q roles => (if_neg (mt (hC ..).mp h)).trans (hp n c q roles)⟩

/-- A choice by a value that stands apart. -/
theorem Apart.option {α : Type} {F f : State → State} {g : α → State → State} {o : State → Option α} (hf : Apart f)
    (hg : ∀ a, Apart (g a)) (hnone : ∀ u, o u = none → F u = f u) (hsome : ∀ u a, o u = some a → F u = g a u)
    (ho : ∀ u n c q roles, o (withReports u n c q roles) = o u) : Apart F := by
  intro u
  cases h : o u with
  | none =>
    obtain ⟨p, hp⟩ := hf u
    exact ⟨p, fun n c q roles => (hnone _ ((ho ..).trans h)).trans (hp n c q roles)⟩
  | some a =>
    obtain ⟨p, hp⟩ := hg a u
    exact ⟨p, fun n c q roles => (hsome _ a ((ho ..).trans h)).trans (hp n c q roles)⟩

theorem apart_mark (a : Area) : Apart (mark a) := fun u => ⟨fadePartOf (mark a u), fun _ _ _ _ => rfl⟩

theorem apart_setElem (e : Elem) (x : Level) : Apart (setElem e x) :=
  fun u => ⟨fadePartOf (setElem e x u), fun _ _ _ _ => rfl⟩

theorem apart_setFade (i : RecId) (r : Option FadeRec) : Apart (setFade i r) :=
  fun u => ⟨fadePartOf (setFade i r u), fun _ _ _ _ => rfl⟩

theorem apart_updSeq (f : Seq → Seq) : Apart (updSeq f) := fun u => ⟨fadePartOf (updSeq f u), fun _ _ _ _ => rfl⟩

theorem apart_updVoice (v : VoiceId) (f : Voice → Voice) : Apart (updVoice v f) :=
  fun u => ⟨fadePartOf (updVoice v f u), fun _ _ _ _ => rfl⟩

theorem apart_completeCue (e : RunEntry) : Apart (completeCue e) :=
  fun u => ⟨fadePartOf (completeCue e u), fun _ _ _ _ => rfl⟩

theorem apart_completeIfDone (id : FiringId) : Apart (completeIfDone id) :=
  Apart.option (o := fun u => entryOf u id)
    (g := fun e u => if e.pending = 0 ∧ e.placing = false then completeCue e u else u) apart_id
    (fun e => Apart.ite (C := fun _ => e.pending = 0 ∧ e.placing = false) (apart_completeCue e) apart_id
      fun _ _ _ _ _ => Iff.rfl)
    (fun u h => by unfold completeIfDone; rw [h]) (fun u e h => by unfold completeIfDone; rw [h])
    fun _ _ _ _ _ => rfl

theorem apart_cueTold (id : FiringId) : Apart (cueTold id) :=
  (apart_completeIfDone id).comp ((apart_mark .cue).comp (apart_updSeq _))

theorem apart_stopTakenOver (v : VoiceId) (i : RecId) : Apart (stopTakenOver v i) :=
  Apart.ite (C := fun u => u.voices[v].stopRec = some i) ((apart_mark .voices).comp (apart_updVoice v _)) apart_id
    fun _ _ _ _ _ => Iff.rfl

theorem apart_ownerTold (r : FadeRec) : Apart (ownerTold r .takenOver) := by
  unfold ownerTold
  cases r.owner with
  | request => exact apart_id
  | cast => exact apart_id
  | firing id => exact apart_cueTold id

theorem apart_stopTold (i : RecId) (r : FadeRec) : Apart (stopTold i r .takenOver) := by
  unfold stopTold
  cases r.stopMark with
  | none => exact apart_id
  | some v => exact apart_stopTakenOver v i

/-- One takeover more has been counted. -/
def countTakeover (u : State) : State := { u with takenOver := sat16 u.takenOver }

theorem leaveTable_of_some {i : RecId} {r : FadeRec} (h : s.fades[i] = some r) : leaveTable i .takenOver s
    = stopTold i r .takenOver (ownerTold r .takenOver (countTakeover (setFade i none s))) := by
  unfold leaveTable
  rw [h]
  rfl

theorem leaveTable_of_none {i : RecId} (how : Leave) (h : s.fades[i] = none) : leaveTable i how s = s := by
  unfold leaveTable
  rw [h]

theorem apart_leaveTable (i : RecId) : Apart (leaveTable i .takenOver) :=
  Apart.option (o := fun u => u.fades[i]) apart_id (fun r => (apart_stopTold i r).comp ((apart_ownerTold r).comp
    (Apart.comp (g := countTakeover) (fun u => ⟨fadePartOf (countTakeover u), fun _ _ _ _ => rfl⟩)
      (apart_setFade i none)))) (fun _ h => leaveTable_of_none _ h) (fun _ _ h => leaveTable_of_some h)
    fun _ _ _ _ _ => rfl

theorem apart_takeOver (e : Elem) (x : Option RecId) : Apart (takeOver e x) :=
  Apart.option (o := fun u => fadingOf u e x) apart_id (fun i => apart_leaveTable i) (fun _ h => takeOver_of_none h)
    (fun _ _ h => takeOver_of_some h) fun _ _ _ _ _ => rfl

theorem apart_cut (e : Elem) (x : Level) : Apart (cut e x) := (apart_setElem e x).comp (apart_takeOver e none)

theorem apart_placeFade (i : RecId) (owner : Owner) (e : Elem) (x : Level) {time : Nat} (m : Option VoiceId)
    (ht : time ≠ 0) : Apart (placeFade i (levelRec owner e x time m) e x) := by
  have hc : ¬ (Curve.steps = .cut ∨ clampTime time = 0) := not_or.mpr ⟨nofun, mt clampTime_eq_zero.mp ht⟩
  have hstart : Apart (startFade i (levelRec owner e x time m) e x .steps) := by
    intro u
    obtain ⟨p, hp⟩ := ((apart_setFade i (some (.begun owner e x ((u.level e).orFloor e.floor) time m))).comp
      ((apart_takeOver e (some i)).comp (apart_setElem e (.steps ((u.level e).orFloor e.floor))))) u
    refine ⟨p, fun n c q roles => ?_⟩
    refine (startFade_steps (s := withReports u n c q roles) (a := (u.level e).orFloor e.floor) rfl (chosenTime_levelRec ..) hc).trans ?_
    exact hp n c q roles
  exact hstart.comp ((apart_setFade i _).comp (apart_takeOver e none))

/-! ## The fades of a swap, and what they make of the roles -/

/-- `f` sets one tap to `y` and else changes what fades change. -/
def SetsTap (r : RoleId) (k : TapId) (y : TapState) (f : State → State) : Prop :=
  ∀ u, ∃ p, ∀ n c q roles,
    f (withReports u n c q roles) = withFades (withReports u n c q (tapSet roles r k y)) p

theorem SetsTap.after {r : RoleId} {k : TapId} {y : TapState} {f g : State → State} (hg : SetsTap r k y g)
    (hf : Apart f) : SetsTap r k y fun u => g (f u) := by
  intro u
  obtain ⟨p, hp⟩ := hf u
  obtain ⟨p', hp'⟩ := hg (withFades u p)
  refine ⟨p', fun n c q roles => ?_⟩
  show g (f _) = _
  rw [hp]
  exact hp' n c q roles

theorem Apart.after {r : RoleId} {k : TapId} {y : TapState} {f g : State → State} (hg : Apart g)
    (hf : SetsTap r k y f) : SetsTap r k y fun u => g (f u) := by
  intro u
  obtain ⟨p, hp⟩ := hf u
  obtain ⟨p', hp'⟩ := hg (withFades u p)
  refine ⟨p', fun n c q roles => ?_⟩
  show g (f _) = _
  rw [hp]
  exact hp' n c q _

theorem SetsTap.comp {r : RoleId} {k : TapId} {x y : TapState} {f g : State → State} (hg : SetsTap r k y g)
    (hf : SetsTap r k x f) : SetsTap r k y fun u => g (f u) := by
  intro u
  obtain ⟨p, hp⟩ := hf u
  obtain ⟨p', hp'⟩ := hg (withFades u p)
  refine ⟨p', fun n c q roles => ?_⟩
  show g (f _) = _
  rw [hp, ← tapSet_tapSet roles r k x y]
  exact hp' n c q _

theorem setsTap_setTap (r : RoleId) (k : TapId) (y : TapState) : SetsTap r k y (setTap r k y) :=
  fun u => ⟨fadePartOf (mark .roles u), fun _ _ _ _ => rfl⟩

theorem castEnd_off (r : RoleId) (k : TapId) (s : State) :
    castEnd r k .off s = setTap r k .idle (setElem (.tap r k) .off s) := rfl

theorem castEnd_on (r : RoleId) (k : TapId) {x : Level} (hx : x ≠ .off) (s : State) :
    castEnd r k x s = setTap r k .active (setElem (.tap r k) (.steps 0) s) := if_neg hx

theorem setsTap_castEnd (r : RoleId) (k : TapId) (x : Level) :
    ∃ y, (TapState.isActive y = true ↔ x ≠ .off) ∧ SetsTap r k y (castEnd r k x) := by
  by_cases hx : x = .off
  · subst hx
    exact ⟨.idle, by simp [TapState.isActive], (setsTap_setTap r k .idle).after (apart_setElem _ _)⟩
  · refine ⟨.active, by simp [TapState.isActive, hx], ?_⟩
    rw [show castEnd r k x = fun s => setTap r k .active (setElem (.tap r k) (.steps 0) s) from
      funext (castEnd_on r k hx)]
    exact (setsTap_setTap r k .active).after (apart_setElem _ _)

/-- A fade of a swap leaves its tap in a state that is active where the tap is faded in. -/
theorem castFade_sets (r : RoleId) (k : TapId) (x : Level) (time : Nat) {st : TapState}
    (hst : st.isActive = true ↔ x ≠ .off) (u : State) : ∃ (p : FadePart) (y : TapState),
      (y.isActive = true ↔ x ≠ .off) ∧ ∀ n c q roles, castFade r k x time (setTap r k st (withReports u n c q roles))
        = withFades (withReports u n c q (tapSet roles r k y)) p := by
  obtain ⟨z, hz, hend⟩ := setsTap_castEnd r k x
  obtain ⟨p, hp⟩ := (hend.after (apart_cut (.tap r k) x)).comp (setsTap_setTap r k st) u
  by_cases h0 : time = 0
  · exact ⟨p, z, hz, fun n c q roles => (if_pos h0).trans (hp n c q roles)⟩
  · cases hpl : placeFor u (.tap r k) with
    | none =>
      refine ⟨p, z, hz, fun n c q roles => ?_⟩
      unfold castFade
      rw [if_neg h0, show placeFor (setTap r k st (withReports u n c q roles)) (.tap r k) = none from hpl]
      exact hp n c q roles
    | some i =>
      obtain ⟨p', hp'⟩ := (apart_placeFade i .cast (.tap r k) x none h0).after (setsTap_setTap r k st) u
      refine ⟨p', st, hst, fun n c q roles => ?_⟩
      unfold castFade
      rw [if_neg h0, show placeFor (setTap r k st (withReports u n c q roles)) (.tap r k) = some i from hpl]
      exact hp' n c q roles

/-- A swap between the taps of a role. -/
theorem swapTo_sets {r : RoleId} {o : TapId} (k : TapId) (time : Nat) (u : State) (ho : u.roles[r].active = some o) :
    ∃ (p : FadePart) (x y : TapState), x.isActive = false ∧ y.isActive = true
      ∧ ∀ n c q, swapTo r k time (withReports u n c q u.roles)
        = withFades (withReports u n c q (tapSet (tapSet u.roles r o x) r k y)) p := by
  obtain ⟨p, x, hx, hp⟩ := castFade_sets r o .off time (st := .fadingOut) (by simp [TapState.isActive]) u
  obtain ⟨p', y, hy, hp'⟩ := castFade_sets r k (.steps 0) time (st := .fadingIn) (by simp [TapState.isActive])
    (withFades u p)
  refine ⟨p', x, y, Bool.eq_false_iff.mpr fun h => hx.mp h rfl, hy.mpr nofun, fun n c q => ?_⟩
  unfold swapTo
  rw [show (withReports u n c q u.roles).roles[r].active = some o from ho]
  dsimp only
  rw [hp]
  exact hp' n c q _

theorem active_swapped {x : Role} {k : TapId} (h : x.active = some k) {y z : TapState} (hy : y.isActive = false)
    (hz : z.isActive = true) : Role.active { x with taps := (x.taps.set k y).set (pairOf k) z } = some (pairOf k) := by
  revert h
  unfold Role.active
  fin_cases k
  · simp [List.finRange_succ, List.find?_cons, pairOf, hy, hz]
  · simp [List.finRange_succ, List.find?_cons, pairOf, hy, hz]
  · cases h0 : x.taps[0].isActive <;> cases h1 : x.taps[1].isActive <;>
      simp [List.finRange_succ, List.find?_cons, pairOf, hy, hz, h0, h1]
  · cases h0 : x.taps[0].isActive <;> cases h1 : x.taps[1].isActive <;>
      simp [List.finRange_succ, List.find?_cons, pairOf, hy, hz, h0, h1]

/-! ## What a spare changes of the roles (R33) -/

/-- The channel of the active tap of a role. -/
def activeChannel (x : Role) : Option Channel := x.active.bind fun k => x.cfg.taps[k]

theorem roleActiveOn_eq (s : State) (c : Channel) :
    roleActiveOn s c = (List.finRange 96).find? fun q => activeChannel s.roles[q] == some c := by
  unfold roleActiveOn activeChannel
  refine congrArg (fun p => (List.finRange 96).find? p) (funext fun q => ?_)
  cases s.roles[q].active <;> rfl

theorem activeChannel_of_roleActiveOn {c : Channel} {q : RoleId} (h : roleActiveOn s c = some q) :
    activeChannel s.roles[q] = some c := by
  rw [roleActiveOn_eq] at h
  simpa using List.find?_some h

/-- How the roles stand after the spare of a lost channel: the role of the channel alone may have changed, and it is
now on a LIVE channel if its active tap has moved. -/
structure Spared (u : State) (c : Channel) (roles : Vector Role 96) : Prop where
  kept : ∀ q : RoleId, roleActiveOn u c ≠ some q → roles[q] = u.roles[q]
  moved : ∀ (q : RoleId) (d : Channel), activeChannel roles[q] = some d →
    activeChannel u.roles[q] = some d ∨ u.channels[d].state = .live

theorem spareFailover_spares (c : Channel) (u : State) : ∃ (p : FadePart) (roles : Vector Role 96),
    Spared u c roles ∧ ∀ n e q, spareFailover c (withReports u n e q u.roles)
      = withFades (withReports u n e q roles) p := by
  have hsame : Spared u c u.roles := ⟨fun _ _ => rfl, fun _ _ h => .inl h⟩
  by_cases hno : u.NoRoleOn c
  · exact ⟨fadePartOf u, u.roles, hsame, fun n e q => spareFailover_none hno⟩
  obtain ⟨he, hr⟩ := not_or.mp hno
  obtain ⟨r, hr⟩ := Option.ne_none_iff_exists'.mp hr
  have hc := activeChannel_of_roleActiveOn hr
  obtain ⟨k, hk, hkc⟩ := Option.bind_eq_some_iff.mp hc
  have hof (n : Notice) (e : Vector Cell 12) (q : WriteQueue) :=
    spareFailover_of (s := withReports u n e q u.roles) (c := c) (r := r) (k := k) he hr hk
  have hset (x : Role) (q : RoleId) (hq : roleActiveOn u c ≠ some q) : (u.roles.set r x)[q] = u.roles[q] := by
    have hne : (r : Nat) ≠ q := fun h => hq (Fin.ext h ▸ hr)
    rw [Fin.getElem_fin, Vector.getElem_set_ne _ _ hne, Fin.getElem_fin]
  by_cases ha : u.roles[r].cfg.autoSpare = true
  · by_cases hs : spareAvailable u r k = true
    · obtain ⟨p, x, y, hx, hy, hp⟩ := swapTo_sets (pairOf k) u.roles[r].cfg.spareTime u hk
      refine ⟨p, _, ?_, fun n e q => (hof n e q).trans ((if_pos ha).trans ((if_pos hs).trans (hp n e q)))⟩
      have hroles : tapSet (tapSet u.roles r k x) r (pairOf k) y
          = u.roles.set r { u.roles[r] with taps := (u.roles[r].taps.set k x).set (pairOf k) y } := by
        rw [tapSet, tapSet, upd_upd]; rfl
      rw [hroles]
      refine ⟨hset _, fun q d hd => ?_⟩
      by_cases hq : roleActiveOn u c = some q
      · obtain rfl := Option.some_inj.mp (hr.symm.trans hq)
        rw [Fin.getElem_fin, Vector.getElem_set_self, activeChannel,
          active_swapped hk hx hy] at hd
        obtain ⟨d', hd', hlive, _⟩ := spareAvailable_iff.mp hs
        obtain rfl := Option.some_inj.mp (hd'.symm.trans hd)
        exact .inr hlive
      · rw [hset _ q hq] at hd
        exact .inl hd
    · refine ⟨fadePartOf (mark .roles u), u.roles.set r { u.roles[r] with
        unavailable := sat16 u.roles[r].unavailable }, ?_, fun n e q =>
          (hof n e q).trans ((if_pos ha).trans (if_neg hs))⟩
      refine ⟨hset _, fun q d hd => .inl ?_⟩
      by_cases hq : roleActiveOn u c = some q
      · obtain rfl := Option.some_inj.mp (hr.symm.trans hq)
        rw [Fin.getElem_fin, Vector.getElem_set_self] at hd
        exact hd
      · rw [hset _ q hq] at hd
        exact hd
  · exact ⟨fadePartOf u, u.roles, hsame, fun n e q => (hof n e q).trans (if_neg ha)⟩

/-! ## The reports of an unlock, made before its spares -/

/-- An entry to LOST with its link is handed to the INPUT notice and the INPUT cell. -/
def report (c : Channel) (prior : ChannelState) (s : State) : State :=
  captureEvent inputCell (inputDetails false c prior (some .link)) (latchInput s.channels[c].cfg.lossMask s)

theorem reportLost_eq (c : Channel) (prior : ChannelState) (s : State) :
    reportLost c prior .link s = spareFailover c (report c prior s) := rfl

theorem report_withReports (c : Channel) (prior : ChannelState) (u : State) : ∃ n e q, report c prior u
      = withReports u n e q u.roles
    ∧ ∀ roles p, report c prior (withFades (withReports u u.notice u.cells u.wq roles) p)
      = withFades (withReports u n e q roles) p := by
  unfold report
  simp only [captureEvent_eq]
  exact ⟨_, _, _, rfl, fun _ _ => rfl⟩

theorem report_spareFailover (b c : Channel) (prior : ChannelState) (u : State) :
    report c prior (spareFailover b u) = spareFailover b (report c prior u) := by
  obtain ⟨p, roles, _, hp⟩ := spareFailover_spares b u
  obtain ⟨n, e, q, h, hr⟩ := report_withReports c prior u
  rw [show spareFailover b u = _ from hp u.notice u.cells u.wq, hr, h, hp]

section

variable (prior : Channel → ChannelState)

def reports (l : List Channel) (u : State) : State := l.foldl (fun u c => report c (prior c) u) u

def spares (l : List Channel) (u : State) : State := l.foldl (fun u c => spareFailover c u) u

theorem reports_spareFailover (b : Channel) (l : List Channel) (u : State) :
    reports prior l (spareFailover b u) = spareFailover b (reports prior l u) := by
  induction l generalizing u with
  | nil => rfl
  | cons c l ih => exact (congrArg (reports prior l) (report_spareFailover b c (prior c) u)).trans (ih _)

theorem foldl_reportLost (l : List Channel) (u : State) :
    l.foldl (fun u c => reportLost c (prior c) .link u) u = spares l (reports prior l u) := by
  induction l generalizing u with
  | nil => rfl
  | cons c l ih =>
    rw [List.foldl_cons, ih, reportLost_eq, reports_spareFailover]
    rfl

/-- The INPUT notice once the losses of the channels have been reported. -/
def latched (l : List Channel) (u : State) : State :=
  { u with notice := { u.notice with
      input := u.notice.input || l.any fun c => !(u.channels[c].cfg.lossMask || u.header.inputMask) } }

/-- The INPUT cell once the losses of the channels have been handed to it. -/
def lossesCaptured (l : List Channel) (u : State) : State :=
  l.foldl (fun u c => captureEvent inputCell (inputDetails false c (prior c) (some .link)) u) u

theorem latched_report (c : Channel) (l : List Channel) (u : State) :
    latched l (report c (prior c) u)
      = captureEvent inputCell (inputDetails false c (prior c) (some .link)) (latched (c :: l) u) := by
  unfold report latched latchInput updNotice
  simp only [captureEvent_eq, List.any_cons, Bool.or_assoc]

theorem reports_eq (l : List Channel) (u : State) : reports prior l u = lossesCaptured prior l (latched l u) := by
  induction l generalizing u with
  | nil => simp [reports, lossesCaptured, latched]
  | cons c l ih =>
    refine (ih (report c (prior c) u)).trans ?_
    rw [latched_report]
    rfl

theorem plain_lossesCaptured (l : List Channel) : Plain (lossesCaptured prior l) := by
  induction l with
  | nil => exact fun _ _ _ _ => rfl
  | cons c l ih => exact ih.comp (plain_captureEvent _ _)

/-- The captures change the cells and the write queue alone. -/
theorem lossesCaptured_eq (l : List Channel) (u : State) : ∃ e q,
    lossesCaptured prior l u = { u with cells := e, wq := q } := by
  induction l generalizing u with
  | nil => exact ⟨_, _, rfl⟩
  | cons c l ih =>
    obtain ⟨e, q, h⟩ := ih (captureEvent inputCell (inputDetails false c (prior c) (some .link)) u)
    exact ⟨e, q, h.trans (by rw [captureEvent_eq])⟩

end

/-! ## What the spares of several lost channels come to -/

theorem spareFailover_withFades (c : Channel) (u : State) : ∃ (p : FadePart) (roles : Vector Role 96),
    Spared u c roles ∧ spareFailover c u = withFades { u with roles := roles } p := by
  obtain ⟨p, roles, hs, hp⟩ := spareFailover_spares c u
  exact ⟨p, roles, hs, hp u.notice u.cells u.wq⟩

theorem spares_withFades (l : List Channel) (u : State) : ∃ (p : FadePart) (roles : Vector Role 96),
    spares l u = withFades { u with roles := roles } p := by
  induction l generalizing u with
  | nil => exact ⟨fadePartOf u, u.roles, rfl⟩
  | cons c l ih =>
    obtain ⟨p, roles, _, h⟩ := spareFailover_withFades c u
    obtain ⟨p', roles', h'⟩ := ih (spareFailover c u)
    refine ⟨p', roles', h'.trans ?_⟩
    rw [h]
    rfl

/-- The spare of one lost channel leaves the role of another as it is. -/
theorem spareFailover_keeps {b c : Channel} {r : RoleId} (h : activeChannel u.roles[r] = some c) (hb : b ≠ c) :
    (spareFailover b u).roles[r] = u.roles[r] := by
  obtain ⟨p, roles, hs, heq⟩ := spareFailover_withFades b u
  rw [heq]
  exact hs.kept r fun hr => hb (Option.some_inj.mp ((activeChannel_of_roleActiveOn hr).symm.trans h))

/-- The spare of one lost channel puts no role on another, and takes none off it. -/
theorem spareFailover_roleActiveOn {b c : Channel} (hc : u.channels[c].state ≠ .live) (hb : b ≠ c) :
    roleActiveOn (spareFailover b u) c = roleActiveOn u c := by
  obtain ⟨p, roles, hs, heq⟩ := spareFailover_withFades b u
  rw [roleActiveOn_eq, roleActiveOn_eq, heq]
  refine congrArg (fun f => (List.finRange 96).find? f) (funext fun q => ?_)
  have hq : activeChannel roles[q] = some c ↔ activeChannel u.roles[q] = some c :=
    ⟨fun h => (hs.moved q c h).resolve_right hc, fun h => by
      rw [hs.kept q fun hr => hb (Option.some_inj.mp ((activeChannel_of_roleActiveOn hr).symm.trans h))]
      exact h⟩
  exact Bool.eq_iff_iff.mpr ((beq_iff_eq.trans hq).trans beq_iff_eq.symm)

/-- What no spare changes. -/
theorem spareFailover_same (c : Channel) (u : State) : (spareFailover c u).channels = u.channels
    ∧ (spareFailover c u).engine = u.engine := by
  obtain ⟨p, roles, _, heq⟩ := spareFailover_withFades c u
  rw [heq]
  exact ⟨rfl, rfl⟩

theorem spares_keeps {c : Channel} {r : RoleId} (l : List Channel) (hl : c ∉ l)
    (h : activeChannel u.roles[r] = some c) : (spares l u).roles[r] = u.roles[r] := by
  induction l generalizing u with
  | nil => rfl
  | cons b l ih =>
    obtain ⟨hb, hl⟩ := not_or.mp (mt List.mem_cons.mpr hl)
    have hk := spareFailover_keeps h (Ne.symm hb)
    exact (ih hl (by rw [hk]; exact h)).trans hk

theorem spares_roleActiveOn {c : Channel} (l : List Channel) (hl : c ∉ l) (h : u.channels[c].state ≠ .live) :
    roleActiveOn (spares l u) c = roleActiveOn u c ∧ (spares l u).channels = u.channels
      ∧ (spares l u).engine = u.engine := by
  induction l generalizing u with
  | nil => exact ⟨rfl, rfl, rfl⟩
  | cons b l ih =>
    obtain ⟨hb, hl⟩ := not_or.mp (mt List.mem_cons.mpr hl)
    obtain ⟨hch, hen⟩ := spareFailover_same b u
    obtain ⟨hr, hch', hen'⟩ := ih (u := spareFailover b u) hl (by rw [hch]; exact h)
    exact ⟨hr.trans (spareFailover_roleActiveOn h (Ne.symm hb)), hch'.trans hch, hen'.trans hen⟩

/-- No role stands on any of the channels: nothing happens. -/
theorem spares_none {l : List Channel} (h : ∀ c ∈ l, u.NoRoleOn c) : spares l u = u := by
  induction l with
  | nil => rfl
  | cons b l ih =>
    show spares l (spareFailover b u) = u
    rw [spareFailover_none (h b List.mem_cons_self)]
    exact ih fun c hc => h c (List.mem_cons_of_mem b hc)

/-- A role stands on one of the channels alone. -/
theorem spares_one {l : List Channel} {c : Channel} (hl : l.Nodup) (hc : c ∈ l)
    (hlost : ∀ b ∈ l, u.channels[b].state ≠ .live) (h : ∀ b ∈ l, b ≠ c → u.NoRoleOn b) :
    spares l u = spareFailover c u := by
  obtain ⟨l₁, l₂, rfl⟩ := List.append_of_mem hc
  obtain ⟨_, h₂, hd⟩ := List.nodup_append.mp hl
  have hne₁ (b) (hb : b ∈ l₁) : b ≠ c := hd b hb c List.mem_cons_self
  have hne₂ (b) (hb : b ∈ l₂) : b ≠ c := fun hbc => (List.nodup_cons.mp h₂).1 (hbc ▸ hb)
  have hmem₂ {b} (hb : b ∈ l₂) : b ∈ l₁ ++ c :: l₂ := List.mem_append_right _ (List.mem_cons_of_mem c hb)
  have h₁ : spares l₁ u = u := spares_none fun b hb => h b (List.mem_append_left _ hb) (hne₁ b hb)
  unfold spares at *
  rw [List.foldl_append, h₁, List.foldl_cons]
  refine spares_none fun b hb => ?_
  have hno := h b (hmem₂ hb) (hne₂ b hb)
  exact hno.imp (fun he => (spareFailover_same c u).2.trans he) fun hr =>
    (spareFailover_roleActiveOn (hlost b (hmem₂ hb)) (hne₂ b hb).symm).trans hr

/-- A role with auto-spare whose partner channel is not LIVE counts a spare unavailable, whatever else is lost. -/
theorem spares_unavailable {l : List Channel} {c : Channel} {r : RoleId} {k : TapId} (hl : l.Nodup) (hc : c ∈ l)
    (hlost : u.channels[c].state ≠ .live) (he : u.engine ≠ .stopped) (hr : roleActiveOn u c = some r)
    (hk : u.roles[r].active = some k) (ha : u.roles[r].cfg.autoSpare = true)
    (hd : ∃ d, u.roles[r].cfg.taps[pairOf k] = some d ∧ u.channels[d].state ≠ .live) :
    (spares l u).roles[r] = { u.roles[r] with unavailable := min (u.roles[r].unavailable + 1) 65535 } := by
  obtain ⟨l₁, l₂, rfl⟩ := List.append_of_mem hc
  obtain ⟨_, h₂, hdis⟩ := List.nodup_append.mp hl
  have hc₁ : c ∉ l₁ := fun h => hdis c h c List.mem_cons_self rfl
  have hc₂ : c ∉ l₂ := (List.nodup_cons.mp h₂).1
  have hact := activeChannel_of_roleActiveOn hr
  have hrole := spares_keeps l₁ hc₁ hact
  obtain ⟨hr₁, hch, hen⟩ := spares_roleActiveOn l₁ hc₁ hlost
  have hno : ¬ spareAvailable (spares l₁ u) r k = true := fun hs => by
    obtain ⟨d, hdt, hdl, _⟩ := spareAvailable_iff.mp hs
    obtain ⟨d', hdt', hdl'⟩ := hd
    rw [hrole, hdt'] at hdt
    obtain rfl := Option.some_inj.mp hdt
    exact hdl' (hch ▸ hdl)
  have hmid : (spareFailover c (spares l₁ u)).roles[r]
      = { u.roles[r] with unavailable := min (u.roles[r].unavailable + 1) 65535 } := by
    rw [spareFailover_of (hen ▸ he) (hr₁.trans hr) (by rw [hrole]; exact hk), if_pos (by rw [hrole]; exact ha),
      if_neg hno]
    show (upd (spares l₁ u).roles r _)[r] = _
    rw [upd_get_self]
    dsimp only
    rw [hrole]
    rfl
  have hend := spares_keeps (u := spareFailover c (spares l₁ u)) l₂ hc₂ (r := r) (by rw [hmid]; exact hact)
  have happ : spares (l₁ ++ c :: l₂) u = spares l₂ (spareFailover c (spares l₁ u)) := by
    unfold spares
    rw [List.foldl_append, List.foldl_cons]
  rw [happ, hend, hmid]

/-! ## The unlock -/

/-- A channel that an unlock of its link loses. -/
def standsLost (s : State) (x : ChannelRec) : ChannelRec :=
  { x with state := .lost, timer := none, gate := Links.supervised s x false }

/-- The channels that an unlock loses. -/
def lostChannels (s : State) (l : Link) : List Channel := (List.finRange 64).filter (lostWithLink s l)

/-- The state once the lost channels of an unlocked link stand lost. -/
def unlocked (s : State) (l : Link) : State := { s with
  rx := s.rx.set l { s.rx[l] with locked := false, good := 0, bad := 0, presented := .silent }
  channels := tabulate fun c => if c ∈ lostChannels s l then standsLost s s.channels[c] else s.channels[c] }

theorem mem_lostChannels {l : Link} {c : Channel} : c ∈ lostChannels s l ↔ linkOf c = l
    ∧ (s.channels[c].state = .live ∨ s.channels[c].state = .suspect ∨ s.channels[c].state = .returning) := by
  simp [lostChannels, lostWithLink, or_assoc]

theorem unlocked_live_iff {l : Link} {c : Channel} : (unlocked s l).channels[c].state = .live
    ↔ linkOf c ≠ l ∧ s.channels[c].state = .live := by
  have hget : (unlocked s l).channels[c]
      = if c ∈ lostChannels s l then standsLost s s.channels[c] else s.channels[c] := tabulate_get _ _ _
  rw [hget]
  split
  · next h => exact ⟨nofun, fun hl => absurd (mem_lostChannels.mp h).1 hl.1⟩
  · next h => exact ⟨fun hl => ⟨fun hlk => h (mem_lostChannels.mpr ⟨hlk, .inl hl⟩), hl⟩, And.right⟩

theorem foldl_filter_if {α σ : Type} (p : α → Bool) (f : σ → α → σ) (l : List α) (u : σ) :
    l.foldl (fun u c => if p c = true then f u c else u) u = (l.filter p).foldl f u :=
  (List.foldl_filter ..).symm

theorem unlockReceiver_eq (l : Link) (hm : s.marks = []) : unlockReceiver l s
    = spares (lostChannels s l) (reports (fun c => s.channels[c].state) (lostChannels s l)
        (mark .channels (unlocked s l))) := by
  let L (ch : Vector ChannelRec 64) : State := { s with
    rx := s.rx.set l { s.rx[l] with locked := false, good := 0, bad := 0, presented := .silent }
    channels := ch, marks := [.channels] }
  have hstart : mark .channels (updRx l Receiver.unlock s) = L s.channels := by simp [L, mark, updRx, upd, hm, Receiver.unlock]
  have hafter : forEach (σ := State) 64 (fun c u => if lostWithLink (L s.channels) l c = true then standLost c u else u)
      (L s.channels) = mark .channels (unlocked s l) := by
    refine (forEach_upd (fun c x => if lostWithLink s l c = true then standsLost s x else x) L (fun c ch => ?_) _).trans ?_
    · show (if lostWithLink s l c = true then _ else _) = _
      split
      · rw [standLost, Links.enterState_eq]
        simp [L, mark, upd, standsLost, Links.supervised, rampFrames]
      · rw [upd_of_eq rfl]
    · simp [L, unlocked, mark, hm, lostChannels]
  unfold unlockReceiver
  rw [hstart]
  unfold linkLoss
  dsimp only
  rw [hafter, ← foldl_reportLost, lostChannels, ← foldl_filter_if]
  rfl

theorem unlocked_cfg (l : Link) (c : Channel) : (unlocked s l).channels[c].cfg = s.channels[c].cfg := by
  have hget : (unlocked s l).channels[c]
      = if c ∈ lostChannels s l then standsLost s s.channels[c] else s.channels[c] := tabulate_get _ _ _
  rw [hget]
  split <;> rfl

/-- The state once all losses of an unlock have been reported. -/
def lossesReported (s : State) (l : Link) : State :=
  lossesCaptured (fun c => s.channels[c].state) (lostChannels s l) { unlocked s l with
    notice := { s.notice with input := s.notice.input
      || (lostChannels s l).any fun c => !(s.channels[c].cfg.lossMask || s.header.inputMask) } }

theorem latched_unlocked (l : Link) : latched (lostChannels s l) (unlocked s l) = { unlocked s l with
    notice := { s.notice with input := s.notice.input
      || (lostChannels s l).any fun c => !(s.channels[c].cfg.lossMask || s.header.inputMask) } } := by
  unfold latched
  simp only [unlocked_cfg]
  rfl

theorem reaches_lossesReported (l : Link) (hm : s.marks = []) : Reaches [.channels] (lossesReported s l)
    (reports (fun c => s.channels[c].state) (lostChannels s l) (mark .channels (unlocked s l))) := by
  rw [reports_eq]
  have h := ((Reaches.refl (s := unlocked s l) hm).area .channels).plain (f := latched (lostChannels s l))
    fun _ _ _ _ => rfl
  rw [latched_unlocked] at h
  exact h.plain (plain_lossesCaptured _ _)

theorem lossesReported_eq (s : State) (l : Link) : ∃ n e q,
    lossesReported s l = { unlocked s l with notice := n, cells := e, wq := q } := by
  obtain ⟨e, q, h⟩ := lossesCaptured_eq (fun c => s.channels[c].state) (lostChannels s l) { unlocked s l with
    notice := { s.notice with input := s.notice.input
      || (lostChannels s l).any fun c => !(s.channels[c].cfg.lossMask || s.header.inputMask) } }
  exact ⟨_, e, q, h⟩

theorem lostChannels_nodup (s : State) (l : Link) : (lostChannels s l).Nodup := (List.nodup_finRange 64).filter _

/-- What an event that ends with the spares leaves alone, and the roles as the spares leave them. -/
theorem spares_finish (h : Reaches as u v) (hn : u.notes = []) (l : List Channel) : ∃ A B C D E F q m,
    finish (spares l v) = { u with
      roles := (spares l v).roles, levels := A, seq := B, fades := C, takenOver := D, voices := E
      notes := F, wq := q, mirror := m, marks := [] } := by
  obtain ⟨p, roles, hs⟩ := spares_withFades l v
  have hnotes : (spares l v).notes = [] := by
    rw [hs]
    show v.notes = []
    rw [h.1]
    exact hn
  obtain ⟨q, m, hf⟩ := finish_eq hnotes
  rw [hf, hs, h.1]
  exact ⟨p.levels, p.seq, p.fades, p.takenOver, p.voices, _, q, m, rfl⟩

/-- Settles O44: the losses are all reported before the spares, and those of a link stand in for none of it. -/
theorem receiverLocksAndUnlocks : Obligations.ReceiverLocksAndUnlocks := by
  unfold Obligations.ReceiverLocksAndUnlocks
  intro s l hruns ⟨hn, hm⟩
  refine ⟨fun hl hg => ⟨_, running_next _ hruns, ?_⟩, fun hl hb => ?_⟩
  · have hdue : s.rx[l].lockDue = true := by rw [Receiver.lockDue, hl, hg]; rfl
    exact Reaches.event_endsAs hdue (((Reaches.refl hm).plain (f := updRx l Receiver.lock) fun _ _ _ _ => rfl).area .channels) hn
  have hdue : s.rx[l].unlockDue = true := by rw [Receiver.unlockDue, hl, hb]; rfl
  intro hits lost u
  have hhits : hits = lostChannels s l := rfl
  have hu : u = lossesReported s l := rfl
  clear_value u hits
  subst hu hhits
  obtain ⟨n, e, q, hu⟩ := lossesReported_eq s l
  have hun : (lossesReported s l).notes = [] := by rw [hu]; exact hn
  have hreach := reaches_lossesReported l hm
  have hop := unlockReceiver_eq l hm
  generalize reports (fun c => s.channels[c].state) (lostChannels s l) (mark .channels (unlocked s l)) = w at *
  obtain ⟨A, B, C, D, E, F, q', m, hfin⟩ := spares_finish hreach hun (lostChannels s l)
  have hroles : (lossesReported s l).roles = s.roles := by rw [hu]; rfl
  have hchan : (lossesReported s l).channels = (unlocked s l).channels := by rw [hu]
  have hengine : (lossesReported s l).engine = s.engine := by rw [hu]; rfl
  have hwroles : w.roles = s.roles := by rw [hreach.1]; exact hroles
  have hwchan : w.channels = (unlocked s l).channels := by rw [hreach.1]; exact hchan
  have hwengine : w.engine = s.engine := by rw [hreach.1]; exact hengine
  have hwon (c : Channel) : roleActiveOn w c = roleActiveOn s c := by unfold roleActiveOn; rw [hwroles]
  have hnorole {c : Channel} (h : s.NoRoleOn c) : w.NoRoleOn c := by rwa [State.NoRoleOn, hwengine, hwon]
  have hlost (c : Channel) (hc : c ∈ lostChannels s l) : w.channels[c].state ≠ .live := by
    rw [hwchan]
    exact fun h => (unlocked_live_iff.mp h).1 (mem_lostChannels.mp hc).1
  refine ⟨finish (spares (lostChannels s l) w), ?_, ?_⟩
  · rw [← hop]
    exact (running_next _ hruns).trans (congrArg _ (event_due hdue))
  rw [hfin]
  refine ⟨rfl, rfl, rfl, rfl, by rw [hu]; rfl, by rw [hu]; rfl, by rw [hu]; rfl, ?_, ?_⟩
  · intro hno
    rw [← hfin, spares_none fun c hc => hnorole (hno c hc)]
    exact hreach.endsAs hun
  intro c hc r k he hr hk auto time spare
  refine ⟨fun ha hd => ?_, fun hno => ?_⟩
  · have hd' : ∃ d, w.roles[r].cfg.taps[pairOf k] = some d ∧ w.channels[d].state ≠ .live := by
      obtain ⟨d, hdt, hdl⟩ := hd
      rw [hwroles, hwchan]
      exact ⟨d, hdt, fun h => (unlocked_live_iff.mp h).1 hdl⟩
    have h := spares_unavailable (r := r) (k := k) (lostChannels_nodup s l) hc (hlost c hc) (by rw [hwengine]; exact he)
      ((hwon c).trans hr) (by rw [hwroles]; exact hk) (by rw [hwroles]; exact ha) hd'
    rw [hwroles] at h
    exact h
  · rw [← hfin, spares_one (lostChannels_nodup s l) hc hlost fun b hb hbc => hnorole (hno b hb hbc)]
    have he' : (lossesReported s l).engine ≠ .stopped := by rw [hengine]; exact he
    have hr' : roleActiveOn (lossesReported s l) c = some r := by
      unfold roleActiveOn
      rw [hroles]
      exact hr
    have hk' : (lossesReported s l).roles[r].active = some k := by rw [hroles]; exact hk
    have hauto : (lossesReported s l).roles[r].cfg.autoSpare = auto := by rw [hroles]
    have htime : (lossesReported s l).roles[r].cfg.spareTime = time := by rw [hroles]
    have hspare : spareAvailable (lossesReported s l) r k = true ↔ spare := by
      have hcar (d : Channel) : carriedElsewhere (lossesReported s l) r d = carriedElsewhere s r d := by
        unfold carriedElsewhere
        rw [hroles]
      rw [spareAvailable_iff, hroles, hchan]
      simp only [unlocked_live_iff, hcar, and_assoc, spare]
    refine ⟨fun ha => ?_, fun ha hs => ?_, fun ha hs hmk hmp => ?_⟩
    · exact (hreach.spareFailover_manual he' hr' hk' (hauto.trans ha)).endsAs hun
    · have h := hreach.spareFailover_unavailable he' hr' hk' (hauto.trans ha)
        (Bool.eq_false_iff.mpr (mt hspare.mp hs))
      rw [hroles] at h
      exact (h.congr rfl (by simp [or_comm])).endsAs hun
    · have hcm {k : TapId} (h : s.CastMoves r k) : (lossesReported s l).CastMoves r k := by
        rw [hu]
        exact h
      have h := hreach.spareFailover_swap he' hr' hk' (hauto.trans ha) (hspare.mpr hs) (hcm hmk) (hcm hmp)
      rw [htime] at h
      obtain ⟨_, _, h1⟩ := tapFaded_keeps (lossesReported s l) r k .off time
      obtain ⟨_, _, h2⟩ := tapFaded_keeps ((lossesReported s l).tapFaded r k .off time) r (pairOf k) (.steps 0) time
      exact (h.congr rfl (by simp [or_comm])).endsAs (h2.trans (h1.trans hun))

end Sys2Proof.Proofs.Ends
end

section
/-! PROOF. What the voice player does to a voice, and VOICE_STOP (R128 to R130). -/

namespace Sys2Proof.Proofs.Ends

open Sys2Proof.Machine

variable {s u v : State} {as : List Area}

/-! ## An entry to IDLE (R121, R126, R130) -/

/-- The state once a voice has entered IDLE, before anyone else has heard of it. -/
def idledAt (x : VoiceId) (s : State) : State :=
  { s with voices := s.voices.set x s.voices[x].idled, arb := (staleBurst x s).arb }

theorem enterIdle_eq (x : VoiceId) (s : State) : enterIdle x s
    = mark .voices { idledAt x s with notes := s.notes ++ [.voiceIdle x s.voices[x].owner] } := by
  unfold enterIdle flushVoice updVoice staleBurst Machine.tell idledAt staleBurst
  dsimp only
  rw [upd_upd]
  rfl

theorem Reaches.enterIdle (x : VoiceId) (h : Reaches as u v) : Reaches (.voices :: as)
    { idledAt x u with notes := u.notes ++ [.voiceIdle x u.voices[x].owner] } (enterIdle x v) := by
  rw [enterIdle_eq]
  exact (h.plain (f := fun s => { idledAt x s with notes := s.notes ++ [.voiceIdle x s.voices[x].owner] })
    fun _ _ _ _ => rfl).area .voices

theorem closeIfFrom_ne {x : VoiceId} {p : PageId} (h : s.pages[p].map (·.source) ≠ some (.voice x)) :
    closeIfFrom x p s = s := if_neg h

theorem reoffer_ne {x : VoiceId} {c : CallId} (h : s.calls[c].waitsFor x = false) : reoffer x c s = s :=
  if_neg fun hc => Bool.false_ne_true (h.symm.trans hc.1)

/-- Nobody hears of the entry to IDLE of a voice that stands alone. -/
theorem voiceIdleNote_alone {x : VoiceId} {o : VoiceOwner} (ho : ∀ c, o ≠ .call c)
    (hp : ∀ p : PageId, s.pages[p].map (·.source) ≠ some (.voice x))
    (hc : ∀ c : CallId, Call.waitsFor s.calls[c] x = false) : voiceIdleNote x o s = s := by
  have hpages : forEach 4 (closeIfFrom x) s = s := forEach_same fun p => closeIfFrom_ne (hp p)
  have howner : o.call? = none := by
    cases o with
    | call c => exact absurd rfl (ho c)
    | none | cue _ | request => rfl
  unfold voiceIdleNote
  rw [hpages, howner]
  exact forEach_same fun c => reoffer_ne (hc c)

theorem notes_self (h : s.notes = []) : { s with notes := [] } = s := by
  cases s
  cases h
  rfl

/-- A voice that stands alone has entered IDLE. -/
theorem Reaches.drain_idle {x : VoiceId} (h : Reaches as
      { idledAt x u with notes := u.notes ++ [.voiceIdle x u.voices[x].owner] } v)
    (hn : u.notes = []) (ha : u.VoiceAlone x) : Reaches as (idledAt x u) (drain v) := by
  obtain ⟨ho, hp, hc⟩ := ha
  have hnotes : v.notes = [.voiceIdle x u.voices[x].owner] := by
    rw [h.1]
    show u.notes ++ _ = _
    rw [hn, List.nil_append]
  have h' : Reaches as (idledAt x u) { v with notes := [] } :=
    (h.plain (f := fun s => { s with notes := [] }) fun _ _ _ _ => rfl).congr
      (notes_self (s := idledAt x u) hn) fun _ => Iff.rfl
  have hpages : v.pages = u.pages := by rw [h.1]; rfl
  have hcalls : v.calls = u.calls := by rw [h.1]; rfl
  have hnote : handleNote (.voiceIdle x u.voices[x].owner) { v with notes := [] } = { v with notes := [] } :=
    voiceIdleNote_alone ho (by rw [hpages]; exact hp) (by rw [hcalls]; exact hc)
  rw [drain_note hnotes (by rw [hnote]), hnote]
  exact h'

/-- The stop of a voice that is not IDLE, made at once or by its stop record, is completed. -/
theorem stopCompleted_idles {x : VoiceId} {i : Option RecId} {b : Bool} (hs : s.voices[x].state ≠ .idle)
    (h : b = true ∨ (i ≠ none ∧ s.voices[x].stopRec = i)) : stopCompleted x i b s = enterIdle x s := by
  unfold stopCompleted
  rw [if_neg hs, if_pos h]

theorem Reaches.stopCompleted {x : VoiceId} {i : Option RecId} {b : Bool} (h : Reaches as u v)
    (hs : u.voices[x].state ≠ .idle) (hd : b = true ∨ (i ≠ none ∧ u.voices[x].stopRec = i)) :
    Reaches (.voices :: as) { idledAt x u with notes := u.notes ++ [.voiceIdle x u.voices[x].owner] }
      (stopCompleted x i b v) := by
  have hv : v.voices = u.voices := by rw [h.1]; rfl
  rw [stopCompleted_idles (by rw [hv]; exact hs) (by rw [hv]; exact hd)]
  exact h.enterIdle x

/-! ## A stop by cut (R106, R129) -/

theorem stopCut_eq {x : VoiceId} (hs : s.voices[x].state ≠ .idle) :
    stopCut x s = stopCompleted x none true (cut (.voice x) .off s) := if_neg hs

/-! ## VOICE_STOP (R129) -/

/-- The voice as it begins to stop by the record at place `i`. -/
def stoppingBy (i : RecId) (y : Voice) : Voice :=
  { y with state := .stopping, resume := if y.state = .stopping then y.resume else y.state, stopRec := some i }

theorem Reaches.voiceStopping {x : VoiceId} {i : RecId} (h : Reaches as u v) (hs : u.voices[x].state ≠ .idle) :
    Reaches (.voices :: as) { u with voices := u.voices.set x (stoppingBy i u.voices[x]) }
      (voiceStopping x i v) := by
  have hv : v.voices = u.voices := by rw [h.1]; rfl
  unfold Machine.voiceStopping
  rw [hv, if_neg hs]
  exact (h.plain (f := updVoice x (stoppingBy i)) fun _ _ _ _ => rfl).area .voices

theorem stopVoice_cut {x : VoiceId} {time : Nat} (h : time = 0 ∨ placeFor s (.voice x) = none) :
    stopVoice x time s = (stopCut x s, .set) := by
  unfold stopVoice
  by_cases h0 : time = 0
  · rw [if_pos h0]
  · rw [if_neg h0, h.resolve_left h0]

theorem stopVoice_fade {x : VoiceId} {time : Nat} {i : RecId} (h0 : time ≠ 0)
    (h : placeFor s (.voice x) = some i) : stopVoice x time s
      = (voiceStopping x i (placeFade i (levelRec .request (.voice x) .off time (some x)) (.voice x) .off s), .fading) := by
  unfold stopVoice
  rw [if_neg h0, h]

theorem ownerOf_voiceStop_bad {n time : Nat} (h : 16 ≤ n) :
    ownerOf (.voiceStop n time) s = (s, some (refuse .badArgument)) := by
  show later (voiceStopOwner n time s) = _
  unfold voiceStopOwner
  rw [fin?_none h]
  rfl

theorem ownerOf_voiceStop_idle {x : VoiceId} {time : Nat} (h : s.voices[x].state = .idle) :
    ownerOf (.voiceStop x.val time) s = (s, some (answer .ok (voiceStopWords s.voices[x] .none))) := by
  show later (voiceStopOwner x.val time s) = _
  unfold voiceStopOwner
  rw [fin?_val]
  exact congrArg later (if_pos h)

theorem ownerOf_voiceStop {x : VoiceId} {time : Nat} (h : s.voices[x].state ≠ .idle) :
    ownerOf (.voiceStop x.val time) s = ((stopVoice x (clampTime time) s).1,
      some (answer .ok (voiceStopWords s.voices[x] (stopVoice x (clampTime time) s).2))) := by
  show later (voiceStopOwner x.val time s) = _
  unfold voiceStopOwner
  rw [fin?_val]
  exact congrArg later (if_neg h)

section

variable {x : VoiceId} {time : Nat} (ht : s.Takes (.voiceStop x.val time)) (hs : s.voices[x].state ≠ .idle)

include ht hs

/-- A VOICE_STOP made as a cut of a voice that stands alone. -/
theorem voiceStop_cut (hc : time = 0 ∨ placeFor s (.voice x) = none)
    (h : Reaches as { u with slate := (markHanded s).slate } (cut (.voice x) .off (markHanded s)))
    (hus : u.slate = s.slate) (huf : u.freeCount = s.freeCount) (hn : u.notes = [])
    (hi : u.voices[x].state ≠ .idle) (ha : u.VoiceAlone x) :
    State.Answered (.voices :: as) (idledAt x u) (answer .ok (voiceStopWords s.voices[x] .set))
      (request (.voiceStop x.val time) s) := by
  have hop := ownerOf_voiceStop (s := markHanded s) (time := time) hs
  rw [stopVoice_cut (s := markHanded s) (hc.imp clampTime_eq_zero.mpr id), stopCut_eq (s := markHanded s) hs] at hop
  have hreach := h.stopCompleted (i := none) hi (.inl rfl)
  have hsl := congrArg State.slate hreach.1
  have hfc := congrArg State.freeCount hreach.1
  refine Reaches.answered_drained ht hop hsl (hfc.trans huf) rfl ?_ hus huf hn
  have h' := hreach.plain (plain_answered (answer .ok (voiceStopWords s.voices[x] .set)) s)
  exact Reaches.drain_idle (u := Ends.answered _ s u) h' hn ha

/-- A VOICE_STOP made as a fade. -/
theorem voiceStop_fade {i : RecId} (h0 : 0 < time) (hp : placeFor s (.voice x) = some i)
    (h : Reaches as { u with slate := (markHanded s).slate } (placeFade i
      (levelRec .request (.voice x) .off (clampTime time) (some x)) (.voice x) .off (markHanded s)))
    (hus : u.slate = s.slate) (huf : u.freeCount = s.freeCount) (hn : u.notes = [])
    (hi : u.voices[x].state ≠ .idle) :
    State.Answered (.voices :: as) { u with voices := u.voices.set x (stoppingBy i u.voices[x]) }
      (answer .ok (voiceStopWords s.voices[x] .fading)) (request (.voiceStop x.val time) s) := by
  have hop := ownerOf_voiceStop (s := markHanded s) (time := time) hs
  rw [stopVoice_fade (s := markHanded s) (mt clampTime_eq_zero.mp (by omega)) hp] at hop
  exact Reaches.answered ht hop (h.voiceStopping (i := i) hi) hus huf hn

end

/-- The takeover of a record changes of a voice its state and stop record alone. -/
theorem resumed_owner (i : RecId) (old : FadeRec) (x : VoiceId) :
    (s.resumed i old)[x].owner = s.voices[x].owner := by
  unfold State.resumed
  split
  · rfl
  · next w _ =>
    split
    · by_cases hw : w = x
      · subst hw
        rw [Fin.getElem_fin, Vector.getElem_set_self]
      · have hne : (w : Nat) ≠ x := fun h => hw (Fin.ext h)
        rw [Fin.getElem_fin, Vector.getElem_set_ne _ _ hne]
        rfl
    · rfl

/-- Settles O35: a cut completes the stop, a fade leaves it to its record. -/
theorem voiceStopFadesOrCuts : Obligations.VoiceStopFadesOrCuts := by
  unfold Obligations.VoiceStopFadesOrCuts
  intro s voice time ht
  obtain ⟨hn, hm⟩ := ht.2.1
  have hrefl : Reaches [] (markHanded s) (markHanded s) := Reaches.refl hm
  refine ⟨_, exec_command (r := .voiceStop voice time) ht.1, fun hb => answered_same ht (ownerOf_voiceStop_bad hb), ?_⟩
  rintro x rfl
  dsimp only
  have hclamp {n : Nat} (h : 0 < n) : clampTime n ≠ 0 := mt clampTime_eq_zero.mp (by omega)
  refine ⟨fun hs => answered_same ht (ownerOf_voiceStop_idle (s := markHanded s) hs), fun hs hnf => ⟨fun hc ha => ?_, fun i h0 hfree => ?_⟩,
    fun i old hs hf hold => ?_⟩
  · exact voiceStop_cut (u := { s with levels := _ }) ht hs (hc.imp id (placeFor_none hnf).trans)
      (hrefl.cut_none (e := .voice x) .off hnf) rfl rfl hn hs ha
  · have hfade := hrefl.placeFade_none (owner := .request) (e := .voice x) (x := .off) (m := some x) (i := i) hnf (hclamp h0)
    exact voiceStop_fade (u := { s with levels := _, fades := _ }) ht hs h0 ((placeFor_none hnf).trans hfree) hfade rfl rfl hn hs
  · have halone (ha : s.VoiceAlone x) (q : Seq) : State.VoiceAlone (overtaken s i old q) x :=
      ⟨fun c => (resumed_owner i old x).symm ▸ ha.1 c, ha.2⟩
    have htaken {q : Seq} (htell : Tells s old q) (hi : (s.resumed i old)[x].state ≠ .idle) :
        (time = 0 → s.VoiceAlone x → State.Answered (.voices :: s.takeoverAreas i old)
          (idledAt x { overtaken s i old q with levels := s.levels.put (.voice x) .off })
          (answer .ok (voiceStopWords s.voices[x] .set)) (request (.voiceStop x.val time) s))
        ∧ (0 < time → fadingOf s (.voice x) (some i) = none → State.Answered (.voices :: s.takeoverAreas i old)
          { overtaken s i old q with
            voices := (s.resumed i old).set x (stoppingBy i (s.resumed i old)[x])
            levels := s.levels.put (.voice x) (.steps ((s.level (.voice x)).orFloor (-480)))
            fades := (overtaken s i old q).fades.set i (some (.begun .request (.voice x) .off
              ((s.level (.voice x)).orFloor (-480)) (min time 600000) (some x))) }
          (answer .ok (voiceStopWords s.voices[x] .fading)) (request (.voiceStop x.val time) s)) := by
      have htell' : Tells (markHanded s) old q := htell.congr rfl
      refine ⟨fun h0 ha => ?_, fun h0 hexc => ?_⟩
      · have hcut := (hrefl.cut_some .off hf hold htell').congr rfl
            (bs := s.takeoverAreas i old) (by simp; exact fun _ => Iff.rfl)
        exact voiceStop_cut (u := { overtaken s i old q with levels := _ }) ht hs (.inl h0) hcut rfl rfl hn hi
          (halone ha q)
      · have hfade := (hrefl.placeFade_some (owner := .request) (x := .off) (m := some x) hf hexc hold htell'
            (hclamp h0)).congr rfl (bs := s.takeoverAreas i old) (by simp; exact fun _ => Iff.rfl)
        have := voiceStop_fade (i := i) (u := { overtaken s i old q with levels := _, fades := _ }) ht hs h0
          (placeFor_some hf) hfade rfl rfl hn hi
        rw [overtaken, Vector.set_set]
        exact this
    exact ⟨fun ho hi => htaken (.request ho) hi, fun y ho hy hp hpl hi => htaken (.cue y ho hy hp hpl) hi⟩

end Sys2Proof.Proofs.Ends
end

section
/-! PROOF. What the zone controller makes of a zone: power, demand judged anew, pages carried and faults (chapter
8). -/

namespace Sys2Proof.Proofs.Ends

open Sys2Proof.Machine

variable {s u v : State} {as : List Area} {z : ZoneId}

/-! ## Power (R137, R139) -/

/-- What is told of a zone that has come from `x` to `y`: that it has become LIVE. -/
def liveNotes (z : ZoneId) (x y : Zone) : List Note :=
  if x.state ≠ .live ∧ y.state = .live then [.zoneLive z] else []

/-- A zone that has entered LIVE. -/
def enteredLive (x : Zone) : Zone :=
  { x with state := .live, falseRun := 0, timer := if x.demand then none else x.idleTimer }

/-- A zone whose stability window is over. -/
def stabilized (x : Zone) : Zone :=
  if x.cfg.sample = 0 ∨ x.cfg.sample = 255 then enteredLive x
  else { x with state := .checking, timer := some (10 * x.cfg.sample) }

/-- The state with another zone and what is told of it. -/
def rezoned (z : ZoneId) (y : Zone) (s : State) : State :=
  { s with zones := s.zones.set z y, notes := s.notes ++ liveNotes z s.zones[z] y }

theorem Reaches.zoneEnterLive (h : Reaches as u v) (hs : u.zones[z].state ≠ .live) :
    Reaches (.zones :: as) (rezoned z (enteredLive u.zones[z]) u) (zoneEnterLive z v) := by
  unfold Machine.zoneEnterLive
  refine ((h.plain (f := fun s => tell (.zoneLive z) (updZone z enteredLive s)) fun _ _ _ _ => rfl).area .zones).congr
    ?_ fun _ => Iff.rfl
  unfold rezoned liveNotes
  rw [if_pos ⟨hs, rfl⟩]
  rfl

theorem Reaches.stabilityEnd (h : Reaches as u v) (hs : u.zones[z].state ≠ .live) :
    Reaches (.zones :: as) (rezoned z (stabilized u.zones[z]) u) (stabilityEnd z v) := by
  have hv : v.zones = u.zones := by rw [h.1]; rfl
  unfold Machine.stabilityEnd stabilized
  rw [hv]
  dsimp only
  split
  · exact h.zoneEnterLive hs
  · refine ((h.plain (f := updZone z fun x => { x with state := .checking, timer := some (10 * u.zones[z].cfg.sample) })
      fun _ _ _ _ => rfl).area .zones).congr ?_ fun _ => Iff.rfl
    unfold rezoned liveNotes
    rw [if_neg (fun h => nomatch h.2), List.append_nil]
    rfl

/-- A zone under power, its stability window still to run. -/
def powering (x : Zone) : Zone :=
  { x with ampen := true, state := .powering, timer := some (10 * x.cfg.stability) }

theorem poweredUp_windowless {x : Zone} (h : x.cfg.stability = 0 ∨ x.cfg.stability = 255) :
    x.poweredUp = stabilized (powering x) := by
  unfold Zone.poweredUp stabilized powering enteredLive
  rw [if_neg (by tauto)]
  dsimp only
  by_cases w : x.cfg.sample = 0 ∨ x.cfg.sample = 255
  · rw [if_neg (by tauto), if_pos w]
    simp only [Zone.demand, Zone.idleTimer, Zone.alwaysPowered, framesOf]
    congr 1
    cases x.relay <;> cases x.page <;> simp
  · rw [if_pos (by tauto), if_neg w]

theorem poweredUp_window {x : Zone} (h : ¬ (x.cfg.stability = 0 ∨ x.cfg.stability = 255)) :
    x.poweredUp = powering x := if_pos (by tauto)

theorem Reaches.powerZone (h : Reaches as u v) (he : u.engine ≠ .stopped) (hs : u.zones[z].state ≠ .live) :
    Reaches (.zones :: as) (rezoned z u.zones[z].poweredUp u) (powerZone z v) := by
  have hv : v.zones = u.zones := by rw [h.1]; rfl
  have hp : Reaches (.zones :: as) { u with zones := u.zones.set z (powering u.zones[z]) }
      (mark .zones (updZone z (fun x => { x with
        ampen := true, state := .powering, timer := some (10 * u.zones[z].cfg.stability) }) v)) :=
    (h.plain (f := updZone z fun x => { x with
      ampen := true, state := .powering, timer := some (10 * u.zones[z].cfg.stability) }) fun _ _ _ _ => rfl).area .zones
  have hget : ({ u with zones := u.zones.set z (powering u.zones[z]) } : State).zones[z] = powering u.zones[z] := by
    simp
  have hnotes (y : Zone) : liveNotes z (powering u.zones[z]) y = liveNotes z u.zones[z] y := by
    unfold liveNotes
    simp only [powering, ne_eq, hs, not_false_eq_true, reduceCtorEq]
  unfold Machine.powerZone
  rw [if_neg (by rw [h.1]; exact he), hv]
  dsimp only
  split
  · next w =>
    refine (hp.stabilityEnd (z := z) (by rw [hget]; nofun)).congr (bs := .zones :: as) ?_ (by simp)
    rw [poweredUp_windowless w, rezoned, hget, hnotes]
    simp only [Vector.set_set]
    rfl
  · next w =>
    refine hp.congr ?_ fun _ => Iff.rfl
    rw [poweredUp_window w, rezoned, liveNotes, if_neg (fun h => nomatch h.2), List.append_nil]

/-! ## Demand judged anew (R137, R140) -/

/-- A zone whose demand has been judged anew. -/
def rejudged (before stopped : Bool) (x : Zone) : Zone :=
  match x.state with
  | .off => if ((x.demand && !before) || x.alwaysPowered) = true ∧ stopped = false then x.poweredUp else x
  | .live =>
    if x.demand && !before then { x with timer := none }
    else if !x.demand && before then { x with timer := x.idleTimer }
    else x
  | _ => x

theorem rezoned_of_live (y : Zone) (h : y.state = s.zones[z].state) :
    rezoned z y s = { s with zones := s.zones.set z y } := by
  unfold rezoned liveNotes
  rw [if_neg (fun hl => hl.1 (h ▸ hl.2)), List.append_nil]

theorem rezoned_self : rezoned z s.zones[z] s = s := by
  rw [rezoned_of_live _ rfl, set_self]

theorem rejudge_off {before : Bool} (h : s.zones[z].state = .off) : rejudge z before s
    = if (s.zones[z].demand && !before) || s.zones[z].alwaysPowered then powerZone z s else s := by
  unfold rejudge
  dsimp only
  rw [h]

theorem rejudge_live {before : Bool} (h : s.zones[z].state = .live) : rejudge z before s
    = if s.zones[z].demand && !before then updZone z (fun y => { y with timer := none }) s
      else if !s.zones[z].demand && before then updZone z (fun y => { y with timer := y.idleTimer }) s
      else s := by
  unfold rejudge
  dsimp only
  rw [h]

theorem rejudge_else {before : Bool} (ho : s.zones[z].state ≠ .off) (hl : s.zones[z].state ≠ .live) :
    rejudge z before s = s := by
  unfold rejudge
  dsimp only
  split
  · next h => exact absurd h ho
  · next h => exact absurd h hl
  · rfl

theorem rejudged_off {before stopped : Bool} {x : Zone} (h : x.state = .off) : rejudged before stopped x
    = if ((x.demand && !before) || x.alwaysPowered) = true ∧ stopped = false then x.poweredUp else x := by
  unfold rejudged
  rw [h]

theorem rejudged_live {before stopped : Bool} {x : Zone} (h : x.state = .live) : rejudged before stopped x
    = if x.demand && !before then { x with timer := none }
      else if !x.demand && before then { x with timer := x.idleTimer } else x := by
  unfold rejudged
  rw [h]

theorem rejudged_else {before stopped : Bool} {x : Zone} (ho : x.state ≠ .off) (hl : x.state ≠ .live) :
    rejudged before stopped x = x := by
  unfold rejudged
  split
  · next h => exact absurd h ho
  · next h => exact absurd h hl
  · rfl

theorem Reaches.rejudge (before : Bool) (h : Reaches as u v) : Reaches (.zones :: as)
    (rezoned z (rejudged before (u.engine == .stopped) u.zones[z]) u) (mark .zones (rejudge z before v)) := by
  have hv : v.zones = u.zones := by rw [h.1]; rfl
  have hsame : Reaches (.zones :: as) (rezoned z u.zones[z] u) (mark .zones v) := by
    rw [rezoned_self]
    exact h.area .zones
  by_cases ho : u.zones[z].state = .off
  · rw [rejudge_off (by rw [hv]; exact ho), rejudged_off ho, hv]
    by_cases hw : (u.zones[z].demand && !before || u.zones[z].alwaysPowered) = true
    · rw [if_pos hw]
      by_cases he : u.engine = .stopped
      · rw [if_neg (by simp [he]), Machine.powerZone, if_pos (by rw [h.1]; exact he)]
        exact hsame
      · rw [if_pos ⟨hw, by simpa using he⟩]
        exact (h.powerZone he (by rw [ho]; nofun)).area_of_mem List.mem_cons_self
    · rw [if_neg hw, if_neg (fun h => hw h.1)]
      exact hsame
  · by_cases hl : u.zones[z].state = .live
    · rw [rejudge_live (by rw [hv]; exact hl), rejudged_live hl, hv]
      split
      · rw [rezoned_of_live _ (by exact rfl)]
        exact (h.plain (f := updZone z fun y => { y with timer := none }) fun _ _ _ _ => rfl).area .zones
      · split
        · rw [rezoned_of_live _ (by exact rfl)]
          exact (h.plain (f := updZone z fun y => { y with timer := y.idleTimer }) fun _ _ _ _ => rfl).area .zones
        · exact hsame
    · rw [rejudge_else (by rw [hv]; exact ho) (by rw [hv]; exact hl), rejudged_else ho hl]
      exact hsame

/-! ## Pages carried (R137, R144, R145) -/

/-- A zone that has just begun to carry the page, or to carry none, before its demand is judged anew. -/
def carrying (s : State) (page : Option PageId) (prio : Option (Fin 4)) (x : Zone) : Zone :=
  { x with
    page := page, pageHold := Gate.setTo (!pageHoldClosed x.held prio)
    duck := x.duck.command (if page.isSome then -(x.cfg.duckDepth : Int) else 0) (rampFrames s x.cfg.duckRamp) }

/-- A zone that has begun to carry the page, or to carry none. -/
def carried (s : State) (page : Option PageId) (prio : Option (Fin 4)) (x : Zone) : Zone :=
  rejudged x.demand (s.engine == .stopped) (carrying s page prio x)

/-- Judging the demand of a zone anew concerns its power and its idle timer alone. -/
theorem rejudged_same (before stopped : Bool) (x : Zone) : (rejudged before stopped x).page = x.page
    ∧ (rejudged before stopped x).relay = x.relay ∧ (rejudged before stopped x).pageHold = x.pageHold
    ∧ (rejudged before stopped x).relayHold = x.relayHold ∧ (rejudged before stopped x).duck = x.duck
    ∧ (rejudged before stopped x).cfg = x.cfg ∧ (rejudged before stopped x).held = x.held := by
  unfold rejudged Zone.poweredUp
  repeat' split
  all_goals exact ⟨rfl, rfl, rfl, rfl, rfl, rfl, rfl⟩

theorem carried_page (s : State) (page : Option PageId) (prio : Option (Fin 4)) (x : Zone) :
    (carried s page prio x).page = page := (rejudged_same ..).1

theorem Reaches.carry (page : Option PageId) (prio : Option (Fin 4)) (h : Reaches as u v) :
    Reaches (.zones :: as) (rezoned z (carried u page prio u.zones[z]) u) (mark .zones (Machine.rejudge z v.zones[z].demand
      (commandDuck z page.isSome (updZone z (fun x => { x with
        page := page, pageHold := Gate.setTo (!pageHoldClosed x.held prio) }) v)))) := by
  have hstep : ∀ s : State, commandDuck z page.isSome (updZone z (fun x => { x with
        page := page, pageHold := Gate.setTo (!pageHoldClosed x.held prio) }) s) = updZone z (carrying s page prio) s := by
    intro s
    unfold commandDuck commandGate updGate
    simp only [updZone, upd_upd]
    simp only [upd, Fin.getElem_fin, Vector.getElem_set_self]
    rfl
  have hv : v.zones = u.zones := by rw [h.1]; rfl
  have hc := Reaches.rejudge (z := z) v.zones[z].demand
    (h.plain (f := fun s => updZone z (carrying s page prio) s) fun _ _ _ _ => rfl)
  have hget : (updZone z (carrying u page prio) u).zones[z] = carrying u page prio u.zones[z] := updZone_zone ..
  rw [hstep v]
  refine hc.congr ?_ fun _ => Iff.rfl
  rw [rezoned, rezoned, hget, hv]
  simp only [updZone, upd, Vector.set_set]
  rfl

theorem Reaches.beginCarry (p : PageId) (prio : Fin 4) (h : Reaches as u v) :
    Reaches (.zones :: as) (rezoned z (carried u (some p) (some prio) u.zones[z]) u) (beginCarry z p prio v) :=
  h.carry (some p) (some prio)

theorem Reaches.endCarry (h : Reaches as u v) :
    Reaches (.zones :: as) (rezoned z (carried u none none u.zones[z]) u) (endCarry z v) :=
  h.carry none none

end Sys2Proof.Proofs.Ends
end

section
/-! PROOF. What the offers at the end of an event make of the areas and of the write queue (R172, R173). -/

namespace Sys2Proof.Proofs.Ends

open Sys2Proof.Machine

variable {s u v t : State} {as : List Area} {a : Area} {base : Nat}

/-! ## One area among those offered -/

theorem index_injective {a b : Area} (h : a.index = b.index) : a = b := by
  revert h
  cases a <;> cases b <;> decide

/-- An offer leaves the other areas alone, keeps what is queued, and keeps the base. -/
theorem offer_other {b : Area} (h : b ≠ a) (s : State) : ∃ l, (offer b s).wq.queue = s.wq.queue ++ l
    ∧ (offer b s).mirror.areas[a.index] = s.mirror.areas[a.index] ∧ (offer b s).mirror.base = s.mirror.base := by
  have hne : b.index ≠ a.index := fun he => h (index_injective he)
  unfold offer
  split
  · exact ⟨[], by simp, rfl, rfl⟩
  · split
    · exact ⟨_, List.append_assoc .., upd_get_ne _ _ _ _ hne, rfl⟩
    · exact ⟨[], by simp, upd_get_ne _ _ _ _ hne, rfl⟩

theorem offers_other (l : List Area) (h : a ∉ l) (s : State) :
    ∃ l', (l.foldl (fun s b => offer b s) s).wq.queue = s.wq.queue ++ l'
      ∧ (l.foldl (fun s b => offer b s) s).mirror.areas[a.index] = s.mirror.areas[a.index]
      ∧ (l.foldl (fun s b => offer b s) s).mirror.base = s.mirror.base := by
  induction l generalizing s with
  | nil => exact ⟨[], by simp, rfl, rfl⟩
  | cons b l ih =>
    obtain ⟨hb, hl⟩ := not_or.mp (mt List.mem_cons.mpr h)
    obtain ⟨l₁, hq₁, ha₁, hm₁⟩ := offer_other (Ne.symm hb) s
    obtain ⟨l₂, hq₂, ha₂, hm₂⟩ := ih hl (offer b s)
    exact ⟨l₁ ++ l₂, by rw [List.foldl_cons, hq₂, hq₁, List.append_assoc], ha₂.trans ha₁, hm₂.trans hm₁⟩

/-- An offer hands its area over. -/
theorem offer_handsOver (a : Area) (hb : s.mirror.base = some base) : s.HandedOver base a (offer a s) := by
  unfold offer State.HandedOver
  rw [hb]
  dsimp only
  split
  · refine .inl ?_
    dsimp only
    rw [upd_get_self]
    exact ⟨rfl, rfl, by simp⟩
  · next hf =>
    refine .inr ?_
    dsimp only
    rw [upd_get_self]
    refine ⟨rfl, rfl, ?_⟩
    simpa [offerAccepted] using hf

theorem handedOver_grow {l : List Burst} (h : s.HandedOver base a u) (hq : t.wq.queue = u.wq.queue ++ l)
    (ha : t.mirror.areas[a.index] = u.mirror.areas[a.index]) : s.HandedOver base a t := by
  unfold State.HandedOver at *
  dsimp only at *
  rw [ha, hq]
  exact h.imp (fun ⟨h₁, h₂, h₃⟩ => ⟨h₁, h₂, List.mem_append_left _ h₃⟩)
    fun ⟨h₁, h₂, h₃⟩ => ⟨h₁, h₂, by rw [List.length_append]; omega⟩

theorem handedOver_of_areas (h : u.HandedOver base a t) (ha : u.mirror.areas = s.mirror.areas) :
    s.HandedOver base a t := by
  unfold State.HandedOver at *
  rw [← ha]
  exact h

/-- Of several areas offered in turn each is handed over. -/
theorem offers_handOver {l : List Area} (hl : l.Nodup) (ha : a ∈ l) (hb : s.mirror.base = some base) :
    s.HandedOver base a (l.foldl (fun s b => offer b s) s) := by
  obtain ⟨l₁, l₂, rfl⟩ := List.append_of_mem ha
  obtain ⟨_, h₂, hd⟩ := List.nodup_append.mp hl
  have h₁ : a ∉ l₁ := fun h => hd a h a List.mem_cons_self rfl
  obtain ⟨_, _, ha₁, hb₁⟩ := offers_other l₁ h₁ s
  obtain ⟨_, hq₂, ha₂, _⟩ := offers_other l₂ (List.nodup_cons.mp h₂).1 (offer a (l₁.foldl (fun s b => offer b s) s))
  have hmid := offer_handsOver (base := base) a (hb₁.trans hb)
  rw [List.foldl_append, List.foldl_cons]
  refine handedOver_grow ?_ hq₂ ha₂
  unfold State.HandedOver at *
  rw [← ha₁]
  exact hmid

theorem all_nodup : Area.all.Nodup := by decide

theorem mem_all (a : Area) : a ∈ Area.all := by cases a <;> decide

/-- Each area that an event hands over has been offered when it is over. -/
theorem endsAs_handsOver (h : u.EndsAs as t) (ha : a ∈ as) (hb : u.mirror.base = some base) :
    u.HandedOver base a t := by
  obtain ⟨d, c, _, _, rfl⟩ := h
  have hmem : a ∈ Area.all.filter fun a => a ∈ as := List.mem_filter.mpr ⟨mem_all a, by simpa using ha⟩
  have := offers_handOver (s := { u.noted d c with marks := [] }) (base := base) (all_nodup.filter _) hmem hb
  exact handedOver_of_areas (by exact this) rfl

/-- An area that an event does not hand over stands as before. -/
theorem endsAs_other (h : u.EndsAs as t) (ha : a ∉ as) :
    t.mirror.areas[a.index] = u.mirror.areas[a.index] := by
  obtain ⟨d, c, _, _, rfl⟩ := h
  have hmem : a ∉ Area.all.filter fun a => a ∈ as := fun h => ha (by simpa using (List.mem_filter.mp h).2)
  obtain ⟨_, _, ha, _⟩ := offers_other _ hmem { u.noted d c with marks := [] }
  exact ha

/-! ## What an event leaves alone at its end -/

/-- The end of an event adds mirror bursts to the queue, and touches the mirror writer. -/
theorem Reaches.finished (h : Reaches as u (drain v)) (hn : u.notes = []) : ∃ (l : List Burst) (m : Mirror),
    finish v = { u with
      wq := { u.wq with queue := u.wq.queue ++ l, began := false }, mirror := m, marks := [] } := by
  obtain ⟨l, m, ht, _⟩ := EndsAs.law (Reaches.endsAs_drained rfl h hn)
  exact ⟨l, m, ht⟩

/-! ## An event handed to a cell (R168) -/

/-- The write queue takes a burst of a writer that holds none, while there is room. -/
theorem join_room {q : WriteQueue} {w : Writer} (b : Burst) (hw : q.held w = []) (hl : q.queue.length < 48) :
    q.join w b = { q with queue := q.queue ++ [b] } := by
  unfold WriteQueue.join
  rw [if_neg (not_not_intro hw), if_pos hl]

theorem held_capture (q : WriteQueue) : q.held .capture = q.heldCapture := rfl

/-- The write queue with a few bursts more, as far as a capture can tell. -/
def Roomy (q q' : WriteQueue) (n : Nat) : Prop :=
  q.queue.length + n ≤ 46 → q.heldCapture = [] → q'.heldCapture = [] ∧ ∃ l, l.length ≤ n ∧ q'.queue = q.queue ++ l

theorem roomy_refl (q : WriteQueue) : Roomy q q 0 := fun _ hc => ⟨hc, [], by simp⟩

theorem Roomy.join_slate {q q' : WriteQueue} {n : Nat} (h : Roomy q q' n) (b : Burst) :
    Roomy q (q'.join .slate b) (n + 1) := by
  intro hl hc
  obtain ⟨hc', l, hln, hq⟩ := h (by omega) hc
  have hlen : q'.queue.length < 48 := by rw [hq, List.length_append]; omega
  unfold WriteQueue.join
  split
  · exact ⟨hc', l, by omega, hq⟩
  · exact ⟨hc', l ++ [b], by simp; omega, by rw [hq, List.append_assoc]⟩

/-- The queue once the bursts of an answer have joined it. -/
theorem roomy_answeredQueue (ans : Answer) (cur : Option Current) (q : WriteQueue) :
    Roomy q (answeredQueue ans cur q) 2 := by
  cases cur with
  | none => exact fun h hc => ⟨hc, [], by simp, by simp [answeredQueue]⟩
  | some c => exact ((roomy_refl q).join_slate _).join_slate _

/-- An event handed to a cell whose place behind the bursts before it is known. -/
theorem captured_of {cell : CellId} {ds : List Word} {q : WriteQueue} {n : Nat} {l : List Burst}
    (hq : Roomy s.wq q n) (hcells : t.cells[cell] = (capturing cell ds s.cells s.tod q).1[cell])
    (hqueue : t.wq.queue = (capturing cell ds s.cells s.tod q).2.queue ++ l) : s.Captured cell ds n t := by
  unfold capturing at hcells hqueue
  refine ⟨fun he => ?_, fun hne hm => ?_⟩
  · rw [if_pos he] at hcells hqueue
    refine ⟨by rw [hcells]; simp, fun hl hc => ?_⟩
    obtain ⟨hc', l', hln, hq'⟩ := hq hl hc
    have h₁ := join_room (q := q) (w := .capture) (.cellData cell s.tod ds) hc'
      (by rw [hq', List.length_append]; omega)
    have h₂ := join_room (q := { q with queue := q.queue ++ [.cellData cell s.tod ds] }) (w := .capture)
      (.cellFull cell) hc' (by simp [hq']; omega)
    rw [h₁, h₂] at hqueue
    rw [hqueue]
    refine ⟨l', l, ?_⟩
    simp [hq']
  · rw [if_neg hne] at hcells
    split at hcells
    · next h255 =>
      rw [hcells]
      simp
      omega
    · rw [hcells]
      have : s.cells[cell].missed = 255 := by omega
      cases hcell : s.cells[cell] with
      | mk st m =>
        rw [hcell] at this
        simp_all

theorem capturing_other {c k : CellId} {ds : List Word} {cells : Vector Cell 12} {tod : TimeOfDay} {q : WriteQueue}
    (h : k ≠ c) : (capturing c ds cells tod q).1[k] = cells[k] := by
  have hne : (c : Nat) ≠ k := fun he => h (Fin.ext he.symm)
  unfold capturing
  split
  · exact Vector.getElem_set_ne c.isLt k.isLt hne
  · split
    · exact Vector.getElem_set_ne c.isLt k.isLt hne
    · rfl

end Sys2Proof.Proofs.Ends
end

section
/-! PROOF. How a page closes, what is told of it and of a voice's entry to IDLE, and the end of a call (R154, R161
to R163). -/

namespace Sys2Proof.Proofs.Ends

open Sys2Proof.Machine

variable {s u v w : State} {as bs : List Area}

/-! ## Notices worked off one after the other (log 22) -/

/-- The notices of `v`, worked off by `n` steps, lead to `u` with areas marked and changes noted. -/
def Settles (n : Nat) (as : List Area) (v u : State) : Prop := ∃ w, Works n v w ∧ Reaches as u w

theorem Reaches.settles (h : Reaches as u v) : Settles 0 as v u := ⟨v, Works.refl, h⟩

/-- The first notice is worked off. -/
theorem Reaches.note {x : Note} {l : List Note} {n : Nat} (h : Reaches as u v) (hn : u.notes = x :: l)
    (hx : ∀ v', Reaches as { u with notes := l } v' → Settles n bs (handleNote x v') w) :
    Settles (n + 1) bs v w := by
  have hv : v.notes = x :: l := by rw [h.1]; exact hn
  obtain ⟨w', hw, hr⟩ := hx _ (h.plain (f := fun s => { s with notes := l }) fun _ _ _ _ => rfl)
  exact ⟨w', hw.step hv, hr⟩

/-- A notice that nothing comes of. -/
def Idle (x : Note) (u : State) : Prop :=
  match x with
  | .zoneLive z => ∀ p pg, u.zones[z].page = some p → u.pages[p] = some pg →
      ¬ (pg.state = .opened ∧ allLive u pg.zones = true)
  | .pageClosed c reason => reason = .voiceEnd ∨ reason = .call ∨ reason = .stopped ∨ u.calls[c].inst = none
  | .voiceIdle y o => (∀ c, o = .call c → u.calls[c].inst = none)
      ∧ (∀ p : PageId, u.pages[p].map (·.source) ≠ some (.voice y))
      ∧ ∀ c : CallId, Call.waitsFor u.calls[c] y = false
  | .pageLive c => ∀ i, u.calls[c].inst = some i → i.phase ≠ .waitZones
  | .zoneLost p _ => u.pages[p] = none
  | .callCut c _ => u.calls[c].inst = none

theorem idle_zoneLive {z : ZoneId} (h : u.zones[z].page = none) : Idle (.zoneLive z) u :=
  fun _ _ hp => nomatch h.symm.trans hp

theorem voiceIdleNote_over {x : VoiceId} {o : VoiceOwner} (ho : ∀ c, o = .call c → s.calls[c].inst = none)
    (hp : ∀ p : PageId, s.pages[p].map (·.source) ≠ some (.voice x))
    (hc : ∀ c : CallId, Call.waitsFor s.calls[c] x = false) : voiceIdleNote x o s = s := by
  have hpages : forEach 4 (closeIfFrom x) s = s := forEach_same fun p => closeIfFrom_ne (hp p)
  have howner : (o.call?.elim s fun c => ownVoiceIdle c s) = s := by
    cases o with
    | call c =>
      show ownVoiceIdle c s = s
      unfold ownVoiceIdle
      rw [ho c rfl]
    | none | cue _ | request => rfl
  unfold voiceIdleNote
  rw [hpages]
  dsimp only
  rw [howner]
  exact forEach_same fun c => reoffer_ne (hc c)

theorem handleNote_idle {x : Note} (h : Idle x u) (hv : v.zones = u.zones ∧ v.calls = u.calls ∧ v.pages = u.pages) :
    handleNote x v = v := by
  obtain ⟨hz, hc, hp⟩ := hv
  cases x with
  | zoneLive z =>
    have hlive : allLive v = allLive u := by
      unfold allLive
      rw [hz]
    unfold handleNote
    dsimp only
    rw [hz]
    cases hpage : u.zones[z].page with
    | none => rfl
    | some p =>
      show judgePage p v = v
      unfold judgePage
      rw [hp]
      cases hpg : u.pages[p] with
      | none => rfl
      | some pg =>
        dsimp only
        rw [hlive, if_neg (h p pg hpage hpg)]
  | pageClosed c reason =>
    show ownPageClosed c reason v = v
    unfold ownPageClosed
    split
    · rfl
    · next hr =>
      have hi : u.calls[c].inst = none := by
        rcases h with h | h | h | h
        · exact absurd (.inl h) hr
        · exact absurd (.inr (.inl h)) hr
        · exact absurd (.inr (.inr h)) hr
        · exact h
      rw [hc, hi]
  | voiceIdle y o =>
    obtain ⟨ho, hpg, hw⟩ := h
    exact voiceIdleNote_over (by rw [hc]; exact ho) (by rw [hp]; exact hpg) (by rw [hc]; exact hw)
  | pageLive c =>
    unfold handleNote
    dsimp only
    rw [hc]
    cases hi : u.calls[c].inst with
    | none => rfl
    | some i => exact if_neg (h i hi)
  | zoneLost p z =>
    show loseZone p z .noZones v = v
    unfold loseZone
    rw [hp, show u.pages[p] = none from h]
  | callCut c by' =>
    show cutCall c by' v = v
    unfold cutCall
    rw [hc, show u.calls[c].inst = none from h]

/-- Notices that nothing comes of are worked off. -/
theorem Reaches.idle_notes {l k : List Note} (h : Reaches as u v) (hn : u.notes = l ++ k) (hl : ∀ x ∈ l, Idle x u) :
    Settles l.length as v { u with notes := k } := by
  induction l generalizing u v with
  | nil =>
    have : { u with notes := k } = u := by cases u; cases hn; rfl
    rw [this]
    exact h.settles
  | cons x l ih =>
    refine h.note hn fun v' h' => ?_
    have hsame : v'.zones = u.zones ∧ v'.calls = u.calls ∧ v'.pages = u.pages := by rw [h'.1]; exact ⟨rfl, rfl, rfl⟩
    rw [handleNote_idle (hl x List.mem_cons_self) hsame]
    exact ih (u := { u with notes := l ++ k }) h' rfl fun y hy => hl y (List.mem_cons_of_mem x hy)

theorem Settles.trans {n m : Nat} (h : Settles n as v u) (h' : ∀ v', Reaches as u v' → Settles m bs v' w) :
    Settles (m + n) bs v w := by
  obtain ⟨x, hx, hr⟩ := h
  obtain ⟨y, hy, hr'⟩ := h' x hr
  refine ⟨y, fun k => ?_, hr'⟩
  rw [← Nat.add_assoc, hx, hy]

theorem Settles.congr {n : Nat} (h : Settles n as v u) (hu : u = w) (ha : ∀ a, a ∈ as ↔ a ∈ bs) :
    Settles n bs v w := by
  obtain ⟨x, hx, hr⟩ := h
  exact ⟨x, hx, hr.congr hu ha⟩

/-- When all notices have been worked off. -/
theorem Settles.drained {n : Nat} (h : Settles n as v u) (hn : n ≤ 256) (hu : u.notes = []) :
    Reaches as u (drain v) := by
  obtain ⟨x, hx, hr⟩ := h
  rw [hx.drain hn (by rw [hr.1]; exact hu)]
  exact hr

/-! ## Zones that a page leaves (R154) -/

theorem vec_ext {α : Type} {n : Nat} {v w : Vector α n} (h : ∀ i : Fin n, v[i] = w[i]) : v = w :=
  Vector.ext fun i hi => h ⟨i, hi⟩

/-- The zones once those of the list have begun to carry the page, or to carry none. -/
def recarried (page : Option PageId) (prio : Option (Fin 4)) (s : State) (l : List ZoneId) : Vector Zone 24 :=
  tabulate fun z => if z ∈ l then carried s page prio s.zones[z] else s.zones[z]

/-- What is told of zones whose page changes: those that are powered by it may become LIVE. -/
def carryNotes (page : Option PageId) (prio : Option (Fin 4)) (s : State) (l : List ZoneId) : List Note :=
  l.flatMap fun z => liveNotes z s.zones[z] (carried s page prio s.zones[z])

/-- The zones once those of the list carry no page. -/
def uncarried (s : State) (l : List ZoneId) : Vector Zone 24 := recarried none none s l

def leaveNotes (s : State) (l : List ZoneId) : List Note := carryNotes none none s l

section

variable {page : Option PageId} {prio : Option (Fin 4)}

theorem recarried_get (s : State) (l : List ZoneId) (z : ZoneId) :
    (recarried page prio s l)[z] = if z ∈ l then carried s page prio s.zones[z] else s.zones[z] := tabulate_get _ _ _

theorem uncarried_get (s : State) (l : List ZoneId) (z : ZoneId) :
    (uncarried s l)[z] = if z ∈ l then carried s none none s.zones[z] else s.zones[z] := recarried_get s l z

theorem carryNotes_cons (z : ZoneId) (l : List ZoneId) (h : z ∉ l) (s : State) (y : Zone) :
    carryNotes page prio (rezoned z y s) l = carryNotes page prio s l := by
  unfold carryNotes
  refine List.flatMap_congr fun x hx => ?_
  have hne : (z : Nat) ≠ x := fun he => h (Fin.ext he ▸ hx)
  have hget : (rezoned z y s).zones[x] = s.zones[x] := Vector.getElem_set_ne z.isLt x.isLt hne
  rw [hget]
  rfl

theorem recarried_cons (z : ZoneId) (l : List ZoneId) (h : z ∉ l) (s : State) :
    recarried page prio (rezoned z (carried s page prio s.zones[z]) s) l = recarried page prio s (z :: l) := by
  refine vec_ext fun x => ?_
  rw [recarried_get, recarried_get]
  by_cases hx : x = z
  · subst hx
    rw [if_neg h, if_pos List.mem_cons_self]
    simp [rezoned]
  · have hne : (z : Nat) ≠ x := fun he => hx (Fin.ext he.symm)
    have hget : (rezoned z (carried s page prio s.zones[z]) s).zones[x] = s.zones[x] :=
      Vector.getElem_set_ne z.isLt x.isLt hne
    rw [hget]
    by_cases hl : x ∈ l
    · rw [if_pos hl, if_pos (List.mem_cons_of_mem z hl)]
      rfl
    · rw [if_neg hl, if_neg (fun hm => (List.mem_cons.mp hm).elim hx hl)]

/-- The page changes for the zones of a list, one after the other. -/
theorem Reaches.carries {step : ZoneId → State → State} (hstep : ∀ {z : ZoneId} {as : List Area} {u v : State},
      Reaches as u v → Reaches (.zones :: as) (rezoned z (carried u page prio u.zones[z]) u) (step z v))
    {l : List ZoneId} (hl : l.Nodup) (h : Reaches as u v) :
    Reaches (l.map (fun _ => Area.zones) ++ as)
      { u with zones := recarried page prio u l, notes := u.notes ++ carryNotes page prio u l }
      (l.foldl (fun s z => step z s) v) := by
  induction l generalizing u v as with
  | nil =>
    refine h.congr ?_ fun _ => Iff.rfl
    have : recarried page prio u [] = u.zones := vec_ext fun z => (recarried_get u [] z).trans (if_neg List.not_mem_nil)
    rw [this]
    show u = { u with notes := u.notes ++ [] }
    rw [List.append_nil]
  | cons z l ih =>
    obtain ⟨hz, hl⟩ := List.nodup_cons.mp hl
    refine (ih hl (hstep (z := z) h)).congr ?_ (by simp; tauto)
    rw [recarried_cons z l hz, carryNotes_cons z l hz]
    simp only [rezoned, List.append_assoc]
    rfl

theorem carryNotes_length (s : State) (l : List ZoneId) : (carryNotes page prio s l).length ≤ l.length := by
  induction l with
  | nil => exact Nat.le_refl 0
  | cons z l ih =>
    unfold carryNotes at *
    rw [List.flatMap_cons, List.length_append, List.length_cons]
    have : (liveNotes z s.zones[z] (carried s page prio s.zones[z])).length ≤ 1 := by
      unfold liveNotes; split <;> simp
    omega

theorem mem_carryNotes {l : List ZoneId} {x : Note} (h : x ∈ carryNotes page prio s l) :
    ∃ z ∈ l, x = .zoneLive z := by
  obtain ⟨z, hzl, hx⟩ := List.mem_flatMap.mp h
  unfold liveNotes at hx
  split at hx
  · exact ⟨z, hzl, List.mem_singleton.mp hx⟩
  · exact absurd hx List.not_mem_nil

end

theorem Reaches.endCarries {l : List ZoneId} (hl : l.Nodup) (h : Reaches as u v) :
    Reaches (l.map (fun _ => Area.zones) ++ as)
      { u with zones := uncarried u l, notes := u.notes ++ leaveNotes u l }
      (l.foldl (fun s z => Machine.endCarry z s) v) := h.carries Reaches.endCarry hl

/-! ## The close of a page (R154) -/

/-- The calls once the opener of a page no longer has it. -/
def withoutPage (o : Opener) (calls : Vector Call 16) : Vector Call 16 :=
  match o with
  | .request => calls
  | .call c => upd calls c fun x => { x with inst := x.inst.map fun i => { i with page := none } }

/-- What the opener of a page is told of its close. -/
def closeNotes (o : Opener) (reason : CloseReason) : List Note :=
  match o with
  | .request => []
  | .call c => if reason = .call then [] else [.pageClosed c reason]

/-- The state once a page has closed. -/
def closed (p : PageId) (pg : Page) (reason : CloseReason) (s : State) : State := { s with
  pages := s.pages.set p none
  zones := uncarried s (zonesOf pg.zones)
  lastClosed := some { id := p, opener := pg.opener, reason := reason, time := s.tod }
  calls := withoutPage pg.opener s.calls
  notes := s.notes ++ leaveNotes s (zonesOf pg.zones) ++ closeNotes pg.opener reason }

/-- The areas that the close of a page hands over. -/
def closeAreas (pg : Page) : List Area := .pages :: (zonesOf pg.zones).map fun _ => .zones

theorem zonesOf_nodup (b : BitVec 24) : (zonesOf b).Nodup := (List.nodup_finRange 24).filter _

theorem mem_zonesOf {b : BitVec 24} {z : ZoneId} : z ∈ zonesOf b ↔ b.getLsbD z = true := by simp [zonesOf]

theorem Reaches.closePage {p : PageId} {pg : Page} (reason : CloseReason) (h : Reaches as u v)
    (hp : u.pages[p] = some pg) :
    Reaches (closeAreas pg ++ as) (closed p pg reason u) (closePage p reason v) := by
  have hv : v.pages[p] = some pg := by rw [h.1]; exact hp
  have hzones := Reaches.endCarries (zonesOf_nodup pg.zones) (h.plain (f := setPage p none) fun _ _ _ _ => rfl)
  have htold := hzones.plain (f := fun s => tellOpener pg.opener reason { s with
      lastClosed := some { id := p, opener := pg.opener, reason := reason, time := s.tod } }) (by
    unfold tellOpener
    cases pg.opener with
    | request => exact fun _ _ _ _ => rfl
    | call c => intro _ _ _ _; dsimp only; split <;> rfl)
  unfold Machine.closePage
  rw [hv]
  refine (htold.area .pages).congr ?_ fun _ => Iff.rfl
  unfold tellOpener closed withoutPage closeNotes
  cases pg.opener with
  | request => simp only [List.append_nil]; rfl
  | call c =>
    dsimp only
    split
    · simp only [List.append_nil]; rfl
    · rfl

/-- Zones that carry no page any more are LIVE to nobody's ears. -/
theorem leaveNotes_idle {l : List ZoneId} {x : Note} (h : x ∈ leaveNotes s l)
    (hz : u.zones = uncarried s l) : Idle x u := by
  obtain ⟨z, hzl, rfl⟩ := mem_carryNotes h
  refine idle_zoneLive ?_
  rw [hz, uncarried_get, if_pos hzl]
  exact carried_page ..

theorem leaveNotes_length (s : State) (l : List ZoneId) : (leaveNotes s l).length ≤ l.length := carryNotes_length s l

theorem zonesOf_length (b : BitVec 24) : (zonesOf b).length ≤ 24 :=
  (List.length_filter_le ..).trans (by simp)

/-! ## The ends of a call (R161 to R163) -/

theorem callDetails_eq (c : CallId) (cut : Bool) (reason : Option MissReason) (i : CallInst) (holder : VoiceOwner) :
    callDetails c cut reason i holder = callWords c cut reason i holder := by
  cases holder <;> rfl

/-- The state once a call's instance has ended. -/
def ended (c : CallId) (o : CallOutcome) (s : State) : State :=
  { s with calls := upd s.calls c fun x => { x with inst := none, outcome := o } }

theorem Reaches.endInst {c : CallId} {o : CallOutcome} (h : Reaches as u v) :
    Reaches (.pages :: as) (ended c o u) (endInst c o v) :=
  (h.plain (f := ended c o) fun _ _ _ _ => rfl).area .pages

/-- One call more has been missed. -/
def countMissed (s : State) : State := { s with missedCalls := sat16 s.missedCalls }

/-- The state once a call that has no page has been missed, its voice still to be released. -/
def missed (c : CallId) (reason : MissReason) (i : CallInst) (holder : VoiceOwner) (s : State) : State :=
  captureEvent callCell (callWords c false (some reason) i holder)
    (ended c (.missed reason) (countMissed s))

theorem missCall_pageless {c : CallId} {reason : MissReason} {i : CallInst} {x : VoiceId}
    (hi : s.calls[c].inst = some i) (hx : s.calls[c].cfg.voice = x) (hp : i.page = none) :
    missCall c reason s = releaseVoice c x
      (captureEvent callCell (callWords c false (some reason) i
          (if reason = .voiceBusy then s.voices[x].owner else .none))
        (endInst c (.missed reason) (countMissed s))) := by
  subst hx
  unfold missCall
  rw [hi]
  dsimp only
  rw [closeOwnPage, hp, callDetails_eq] <;> rfl

theorem Reaches.missCall {c : CallId} {reason : MissReason} {i : CallInst} {x : VoiceId} (h : Reaches as u v)
    (hi : u.calls[c].inst = some i) (hx : u.calls[c].cfg.voice = x) (hp : i.page = none)
    (hr : ∀ v', Reaches (.pages :: as) (missed c reason i
        (if reason = .voiceBusy then u.voices[x].owner else .none) u) v' →
      Reaches bs w (releaseVoice c x v')) : Reaches bs w (missCall c reason v) := by
  have hc : v.calls = u.calls := by rw [h.1]; rfl
  have hv : v.voices = u.voices := by rw [h.1]; rfl
  have hcount : Reaches as (countMissed u) (countMissed v) := h.plain fun _ _ _ _ => rfl
  rw [missCall_pageless (i := i) (x := x) (by rw [hc]; exact hi) (by rw [hc]; exact hx) hp, hv]
  exact hr _ (hcount.endInst.plain (plain_captureEvent _ _))

theorem Reaches.releaseVoice_not {c : CallId} {x : VoiceId} (h : Reaches as u v) (hx : u.voices[x].owner ≠ .call c) :
    Reaches as u (releaseVoice c x v) := by
  have hv : v.voices = u.voices := by rw [h.1]; rfl
  unfold releaseVoice
  rw [hv, if_neg fun hc => hx hc.1]
  exact h

theorem Reaches.releaseVoice {c : CallId} {x : VoiceId} (h : Reaches as u v) (hx : u.voices[x].owner = .call c)
    (hs : u.voices[x].state ≠ .idle) : Reaches (.voices :: as)
      { idledAt x u with notes := u.notes ++ [.voiceIdle x (.call c)] } (releaseVoice c x v) := by
  have hv : v.voices = u.voices := by rw [h.1]; rfl
  unfold Machine.releaseVoice
  rw [hv, if_pos ⟨hx, hs⟩, ← hx]
  exact h.enterIdle x

/-! ## A call whose page has closed (R161, R162) -/

/-- The state once a call whose page has closed has ended and its voice has been released. -/
def callLost (c : CallId) (x : VoiceId) (i : CallInst) (s : State) : State :=
  idledAt x (if i.phase = .playing then ended c (.done true) s else missed c .pageClosed i .none s)

theorem callLost_playing {c : CallId} {x : VoiceId} {i : CallInst} (h : i.phase = .playing) :
    callLost c x i s = idledAt x (ended c (.done true) s) := by rw [callLost, if_pos h]

theorem callLost_waiting {c : CallId} {x : VoiceId} {i : CallInst} (h : i.phase = .waitZones) :
    callLost c x i s = idledAt x (missed c .pageClosed i .none s) := by rw [callLost, if_neg (by rw [h]; nofun)]

/-- What a call's end leaves of the calls, and that it concerns no page, zone or voice. -/
theorem missed_eq (c : CallId) (reason : MissReason) (i : CallInst) (holder : VoiceOwner) (s : State) :
    missed c reason i holder s = { ended c (.missed reason) s with
      missedCalls := sat16 s.missedCalls
      cells := (capturing callCell (callWords c false (some reason) i holder) s.cells s.tod s.wq).1
      wq := (capturing callCell (callWords c false (some reason) i holder) s.cells s.tod s.wq).2 } := by
  rw [missed, captureEvent_eq]
  rfl

theorem callLost_parts (c : CallId) (x : VoiceId) (i : CallInst) (s : State) :
    (callLost c x i s).calls = (upd s.calls c fun y => { y with
        inst := none, outcome := if i.phase = .playing then .done true else .missed .pageClosed })
      ∧ (callLost c x i s).pages = s.pages ∧ (callLost c x i s).zones = s.zones
      ∧ (callLost c x i s).voices = s.voices.set x s.voices[x].idled
      ∧ (callLost c x i s).lastClosed = s.lastClosed ∧ (callLost c x i s).slate = s.slate := by
  unfold callLost
  by_cases hp : i.phase = .playing
  · simp only [if_pos hp]
    exact ⟨rfl, rfl, rfl, rfl, rfl, rfl⟩
  · simp only [if_neg hp, missed_eq]
    exact ⟨rfl, rfl, rfl, rfl, rfl, rfl⟩

theorem waitsFor_of_inst_none {y : Call} (h : y.inst = none) (x : VoiceId) : y.waitsFor x = false := by
  unfold Call.waitsFor
  rw [h, Bool.and_false]

theorem waitsFor_upd {c : CallId} {f : Call → Call} {calls : Vector Call 16} {x : VoiceId}
    (hc : (f calls[c]).waitsFor x = false) (h : ∀ d : CallId, Call.waitsFor calls[d] x = false) (d : CallId) :
    Call.waitsFor (upd calls c f)[d] x = false := by
  by_cases hd : c = d
  · subst hd
    rw [upd_get_self]
    exact hc
  · rw [upd_get_ne _ _ _ _ (fun he => hd he)]
    exact h d

section

variable {c : CallId} {x : VoiceId} {i : CallInst} {reason : CloseReason} {l : List Note}

/-- The notice of the close of its page ends a call, and its voice is released. -/
theorem Reaches.callLost (h : Reaches as u v) (hi : u.calls[c].inst = some i) (hip : i.page = none)
    (hph : i.phase ≠ .waitVoice) (hx : u.calls[c].cfg.voice = x) (ho : u.voices[x].owner = .call c)
    (hs : u.voices[x].state ≠ .idle) (hr : ¬ (reason = .voiceEnd ∨ reason = .call ∨ reason = .stopped)) :
    Reaches (.voices :: .pages :: as) { callLost c x i u with notes := u.notes ++ [.voiceIdle x (.call c)] }
      (ownPageClosed c reason v) := by
  have hc : v.calls = u.calls := by rw [h.1]; rfl
  unfold ownPageClosed
  rw [if_neg hr, hc, hi]
  dsimp only
  cases hp : i.phase with
  | waitVoice => exact absurd hp hph
  | playing =>
    rw [callLost_playing hp, hx]
    exact h.endInst.releaseVoice ho hs
  | waitZones =>
    rw [callLost_waiting hp]
    refine h.missCall hi hx hip fun v' h' => ?_
    rw [if_neg nofun] at h'
    rw [missed_eq] at h' ⊢
    exact h'.releaseVoice ho hs

/-- All is worked off once the call whose page has closed has ended. -/
theorem Reaches.settles_callLost (h : Reaches as u v) (hn : u.notes = l ++ [.pageClosed c reason])
    (hl : ∀ n ∈ l, Idle n u) (hi : u.calls[c].inst = some i) (hip : i.page = none)
    (hph : i.phase ≠ .waitVoice) (hx : u.calls[c].cfg.voice = x) (ho : u.voices[x].owner = .call c)
    (hs : u.voices[x].state ≠ .idle) (hr : ¬ (reason = .voiceEnd ∨ reason = .call ∨ reason = .stopped))
    (hp : ∀ p : PageId, u.pages[p].map (·.source) ≠ some (.voice x))
    (hw : ∀ d : CallId, Call.waitsFor u.calls[d] x = false) :
    Settles (2 + l.length) (.voices :: .pages :: as) v { Ends.callLost c x i u with notes := [] } := by
  refine Settles.trans (h.idle_notes hn hl) fun v' h' => ?_
  refine h'.note rfl fun v'' h'' => ?_
  have hend := h''.callLost (c := c) (reason := reason) hi hip hph hx ho hs hr
  obtain ⟨hcalls, hpages, _, _⟩ := callLost_parts c x i { u with notes := [] }
  refine (Reaches.idle_notes (k := []) (l := [.voiceIdle x (.call c)]) hend (List.append_nil _).symm
    (List.forall_mem_singleton.mpr ⟨?_, ?_, ?_⟩)).congr ?_ fun _ => Iff.rfl
  · rintro d hd
    obtain rfl := VoiceOwner.call.inj hd
    show (Ends.callLost c x i { u with notes := [] }).calls[c].inst = none
    rw [hcalls, upd_get_self]
  · show ∀ p : PageId, (Ends.callLost c x i { u with notes := [] }).pages[p].map _ ≠ _
    rw [hpages]
    exact hp
  · show ∀ d : CallId, Call.waitsFor (Ends.callLost c x i { u with notes := [] }).calls[d] x = false
    rw [hcalls]
    exact waitsFor_upd (waitsFor_of_inst_none rfl x) hw
  · unfold Ends.callLost
    split
    · rfl
    · rw [missed_eq, missed_eq]
      rfl

end

/-- Once its page has closed, a call that stands alone with its voice stands alone without a page. -/
theorem callAlone_closed {t : State} {c : CallId} {x : VoiceId} {i : CallInst} {p : PageId}
    (ha : s.CallAlone c x (some p)) (hi : s.calls[c].inst = some i) (hph : i.phase ≠ .waitVoice)
    (hP : t.pages = s.pages.set p none) (hC : t.calls = withoutPage (.call c) s.calls) :
    t.calls[c] = { s.calls[c] with inst := some { i with page := none } }
      ∧ (∀ o : PageId, t.pages[o].map (·.source) ≠ some (.voice x))
      ∧ ∀ d : CallId, Call.waitsFor t.calls[d] x = false := by
  obtain ⟨_, hsource, hwait⟩ := ha
  unfold withoutPage at hC
  refine ⟨?_, fun o => ?_, fun d => ?_⟩
  · rw [hC, upd_get_self, hi]
    rfl
  · rw [hP]
    by_cases ho : p = o
    · subst ho
      simp
    · rw [show (s.pages.set p none)[o] = s.pages[o] from
        Vector.getElem_set_ne p.isLt o.isLt fun h => ho (Fin.ext h)]
      exact fun h => ho (Option.some_inj.mp (hsource o h))
  · rw [hC]
    refine waitsFor_upd ?_ hwait d
    have := hwait c
    unfold Call.waitsFor at this ⊢
    rw [hi] at this ⊢
    exact this

end Sys2Proof.Proofs.Ends
end

section
/-! PROOF. A page closes at PAGE_CLOSE and at its limit (R154, R155). -/

namespace Sys2Proof.Proofs.Ends

open Sys2Proof.Machine

variable {s u v : State} {as : List Area}

/-! ## A zone that carries no page any more -/

/-- A zone whose page has closed: its gates, and its power and idle timer where it was not OFF. -/
theorem uncarried_zone (s : State) (x : Zone) :
    let y := carried s none none x
    y.page = none ∧ y.pageHold = Gate.setTo (!x.held)
      ∧ y.duck = x.duck.command 0 (rampFrames s x.cfg.duckRamp) ∧ y.relay = x.relay
      ∧ (x.state ≠ .off → y.state = x.state ∧ y.ampen = x.ampen ∧ y.falseRun = x.falseRun
          ∧ y.timer = if x.state = .live ∧ x.page ≠ none ∧ x.relay = false
              then (if x.cfg.idle = 0 ∨ x.cfg.stability = 255 then none else some (48 * (1000 * x.cfg.idle)))
              else x.timer) := by
  intro y
  obtain ⟨hpage, hrelay, hhold, _, hduck, _, _⟩ :=
    rejudged_same x.demand (s.engine == .stopped) (carrying s none none x)
  refine ⟨hpage, hhold.trans ?_, hduck, hrelay, fun ho => ?_⟩
  · cases hh : x.held <;> simp only [carrying, pageHoldClosed, hh] <;> rfl
  · by_cases hl : x.state = .live
    · have hy : y = if !x.relay && x.demand
          then { carrying s none none x with timer := (carrying s none none x).idleTimer }
          else carrying s none none x := by
        refine (rejudged_live (x := carrying s none none x) hl).trans ?_
        have hd : (carrying s none none x).demand = x.relay := by simp [Zone.demand, carrying]
        rw [hd, if_neg (by simp only [Zone.demand]; cases x.relay <;> simp)]
      rw [hy]
      have hcond : (!x.relay && x.demand) = true ↔ x.state = .live ∧ x.page ≠ none ∧ x.relay = false := by
        simp only [Zone.demand, hl, true_and]
        cases x.relay <;> simp [Option.isSome_iff_ne_none]
      simp only [hcond]
      split
      · exact ⟨rfl, rfl, rfl, by simp [Zone.idleTimer, Zone.alwaysPowered, framesOf, carrying]⟩
      · exact ⟨rfl, rfl, rfl, rfl⟩
    · have hy : y = carrying s none none x := rejudged_else (x := carrying s none none x) ho hl
      rw [hy, if_neg fun h => hl h.1]
      exact ⟨rfl, rfl, rfl, rfl⟩

theorem Reaches.slate_eq (h : Reaches as u v) : v.slate = u.slate := by rw [h.1]; rfl

theorem Reaches.freeCount_eq (h : Reaches as u v) : v.freeCount = u.freeCount := by rw [h.1]; rfl

/-! ## PAGE_CLOSE -/

theorem ownerOf_pageClose_bad {n : Nat} (h : 4 ≤ n ∨ ∃ p : PageId, p.val = n ∧ s.pages[p] = none) :
    ownerOf (.pageClose n) s = (s, some (refuse .badArgument)) := by
  show later (pageCloseOwner n s) = _
  unfold pageCloseOwner
  rcases h with h | ⟨p, rfl, hp⟩
  · rw [fin?_none h]
    rfl
  · rw [fin?_val]
    dsimp only
    rw [hp]
    rfl

theorem ownerOf_pageClose {p : PageId} {pg : Page} (h : s.pages[p] = some pg) :
    ownerOf (.pageClose p.val) s = (closePage p .closed s,
      some (answer .ok (wordsOf (Config.code (.owner pg.opener.ownerKind)) (wordOf pg.opener.index)
        (wordOf (zoneCount pg.zones)) (rest s 3)))) := by
  show later (pageCloseOwner p.val s) = _
  unfold pageCloseOwner
  rw [fin?_val]
  dsimp only
  rw [h] <;> rfl

/-- A page closes by a command: the event's state before its notices are worked off, and what in it is the answer's
alone. -/
theorem closes_by_command {p : PageId} {pg : Page} {c : Instr} {reason : CloseReason} (hruns : s.Runs)
    (hq : s.Quiet) (hp : s.pages[p] = some pg)
    (hc : (c = .pageClose p.val ∧ s.Takes (.pageClose p.val) ∧ reason = .closed)
      ∨ (c = .pageLimitExpiry p ∧ pg.limit = some 0 ∧ reason = .limit)) :
    ∃ (v : State) (q : WriteQueue) (sl : Slate) (n : Nat), exec c s = .next (finish v)
      ∧ Reaches (closeAreas pg) { closed p pg reason s with wq := q, slate := sl, freeCount := n } v
      ∧ Roomy s.wq q 2
      ∧ (c = .pageClose p.val → sl.lastAnswer = some (answer .ok (wordsOf
          (Config.code (.owner pg.opener.ownerKind)) (wordOf pg.opener.index) (wordOf (zoneCount pg.zones))
          (rest s 3)))) := by
  obtain ⟨hn, hm⟩ := hq
  rcases hc with ⟨rfl, ht, rfl⟩ | ⟨rfl, hl, rfl⟩
  · have hreach := (Reaches.refl (s := markHanded s) hm).closePage .closed hp
    have ho := ownerOf_pageClose (s := markHanded s) hp
    have hreq := request_eq ht ho hreach.slate_eq hreach.freeCount_eq
    let ans := answer .ok (wordsOf (Config.code (.owner pg.opener.ownerKind)) (wordOf pg.opener.index)
      (wordOf (zoneCount pg.zones)) (rest s 3))
    exact ⟨_, answeredQueue ans s.slate.current s.wq, answeredSlate ans s.slate, s.freeCount + 1,
      (exec_command (r := .pageClose p.val) hruns).trans (congrArg _ hreq),
      (hreach.plain (plain_answered ans s)).congr rfl (by simp), roomy_answeredQueue _ _ _, fun _ => rfl⟩
  · have hdue : limitDue s p = true := by simp only [limitDue, hp, hl]; rfl
    have hreach := (Reaches.refl (s := s) hm).closePage .limit hp
    refine ⟨_, s.wq, s.slate, s.freeCount, (running_next _ hruns).trans (congrArg _ (event_due hdue)),
      hreach.congr rfl (by simp), fun h hc => ⟨hc, [], by simp, by simp⟩, nofun⟩

/-- The cells and the misses once a call whose page has closed has ended. -/
theorem callLost_cells (c : CallId) (x : VoiceId) (i : CallInst) (s : State) :
    (i.phase = .playing → (callLost c x i s).cells = s.cells ∧ (callLost c x i s).missedCalls = s.missedCalls)
    ∧ (i.phase = .waitZones → (callLost c x i s).cells
          = (capturing callCell (callWords c false (some .pageClosed) i .none) s.cells s.tod s.wq).1
        ∧ (callLost c x i s).wq
          = (capturing callCell (callWords c false (some .pageClosed) i .none) s.cells s.tod s.wq).2
        ∧ (callLost c x i s).missedCalls = sat16 s.missedCalls) := by
  refine ⟨fun h => ?_, fun h => ?_⟩
  · rw [callLost_playing h]
    exact ⟨rfl, rfl⟩
  · rw [callLost_waiting h, missed_eq]
    exact ⟨rfl, rfl, rfl⟩

/-- A page that a call opened closes by a command. -/
theorem closes_with_call {p : PageId} {pg : Page} {c : Instr} {reason : CloseReason} {k : CallId} {i : CallInst}
    {x : VoiceId} (hruns : s.Runs) (hq : s.Quiet) (hp : s.pages[p] = some pg) (ho : pg.opener = .call k)
    (hi : s.calls[k].inst = some i) (hph : i.phase ≠ .waitVoice) (hip : i.page = some p)
    (hc : (c = .pageClose p.val ∧ s.Takes (.pageClose p.val) ∧ reason = .closed)
      ∨ (c = .pageLimitExpiry p ∧ pg.limit = some 0 ∧ reason = .limit))
    (hs : s.voices[x].state ≠ .idle) (ha : s.CallAlone k x (some p)) (hx : s.calls[k].cfg.voice = x) :
    ∃ t, exec c s = .next t ∧ t.pages = s.pages.set p none
      ∧ t.lastClosed = some { id := p, opener := .call k, reason := reason, time := s.tod }
      ∧ t.calls = upd s.calls k (fun x => { x with
          inst := none, outcome := if i.phase = .playing then .done true else .missed .pageClosed })
      ∧ t.missedCalls = (if i.phase = .playing then s.missedCalls else sat16 s.missedCalls)
      ∧ (i.phase = .playing → t.cells = s.cells)
      ∧ (i.phase = .waitZones → s.CellsKept [callCell] t
          ∧ s.Captured callCell (callWords k false (some .pageClosed) i .none) 2 t)
      ∧ t.voices = s.voices.set x s.voices[x].idled
      ∧ (c = .pageClose p.val → t.slate.lastAnswer = some
          { code := .ok
            words := wordsOf (Config.code (.owner .call)) (wordOf k.val) (wordOf (zoneCount pg.zones)) (rest s 3) })
      ∧ ∀ z : ZoneId, pg.zones.getLsbD z = true → t.zones[z].page = none
          ∧ (s.zones[z].state ≠ .off → t.zones[z].state = s.zones[z].state ∧ t.zones[z].ampen = s.zones[z].ampen
              ∧ t.zones[z].falseRun = s.zones[z].falseRun
              ∧ t.zones[z].timer = if s.zones[z].state = .live ∧ s.zones[z].page ≠ none ∧ s.zones[z].relay = false
                then (if s.zones[z].cfg.idle = 0 ∨ s.zones[z].cfg.stability = 255 then none
                  else some (48 * (1000 * s.zones[z].cfg.idle)))
                else s.zones[z].timer) := by
  obtain ⟨v, q, sl, n, hexec, hreach, hroom, hans⟩ := closes_by_command hruns hq hp hc
  obtain ⟨hn, _⟩ := hq
  have hreason : ¬ (reason = .voiceEnd ∨ reason = .call ∨ reason = .stopped) := by
    rcases hc with ⟨_, _, rfl⟩ | ⟨_, _, rfl⟩ <;> decide
  have hnotes : (closed p pg reason s).notes = leaveNotes s (zonesOf pg.zones) ++ [.pageClosed k reason] := by
    unfold closed
    rw [ho, closeNotes, if_neg (fun h => hreason (.inr (.inl h))), hn]
    rfl
  have hcalls : (closed p pg reason s).calls = withoutPage (.call k) s.calls := by
    unfold closed
    rw [ho]
  obtain ⟨hget, hgone, hw⟩ := callAlone_closed ha hi hph (t := closed p pg reason s) rfl hcalls
  have hdrain := (hreach.settles_callLost (i := { i with page := none }) (x := x) hnotes
    (fun m hm => leaveNotes_idle hm rfl) (congrArg (·.inst) hget) rfl hph
    ((congrArg (·.cfg.voice) hget).trans hx) ha.1 hs hreason hgone hw).drained
    (by have := (leaveNotes_length s (zonesOf pg.zones)).trans (zonesOf_length pg.zones); omega) rfl
  obtain ⟨l, m, hfin⟩ := hdrain.finished rfl
  obtain ⟨hc', hp', hz', hv', hlast', hslate'⟩ := callLost_parts k x { i with page := none }
    { closed p pg reason s with wq := q, slate := sl, freeCount := n }
  obtain ⟨hplaying, hwaiting⟩ := callLost_cells k x { i with page := none }
    { closed p pg reason s with wq := q, slate := sl, freeCount := n }
  refine ⟨_, hexec, ?_⟩
  rw [hfin]
  clear hfin hdrain
  generalize callLost k x { i with page := none }
    { closed p pg reason s with wq := q, slate := sl, freeCount := n } = t at *
  refine ⟨hp', ?_, ?_, ?_, fun h => (hplaying h).1, fun h => ?_, hv', fun h => ?_, fun z hz => ?_⟩
  · refine hlast'.trans ?_
    show some _ = _
    rw [ho]
  · refine hc'.trans ?_
    show upd (closed p pg reason s).calls k _ = _
    rw [hcalls, withoutPage, upd_upd]
  · by_cases h : i.phase = .playing
    · rw [if_pos h]
      exact (hplaying h).2
    · rw [if_neg h]
      have hz : i.phase = .waitZones := by
        cases hph' : i.phase with
        | waitVoice => exact absurd hph' hph
        | waitZones => rfl
        | playing => exact absurd hph' h
      exact (hwaiting hz).2.2
  · obtain ⟨hcells, hwq, _⟩ := hwaiting h
    refine ⟨fun cell hcell => ?_, captured_of (l := l) hroom (congrArg (·[callCell]) hcells) ?_⟩
    · exact (congrArg (·[cell]) hcells).trans (capturing_other fun h => hcell (List.mem_singleton.mpr h))
    · exact congrArg (fun q : WriteQueue => q.queue ++ l) hwq
  · refine (congrArg Slate.lastAnswer hslate').trans ((hans h).trans ?_)
    rw [ho]
    rfl
  · have hzone : t.zones[z] = carried s none none s.zones[z] := by
      rw [hz']
      exact (uncarried_get ..).trans (if_pos (mem_zonesOf.mpr hz))
    obtain ⟨h1, _, _, _, h2⟩ := uncarried_zone s s.zones[z]
    show t.zones[z].page = none ∧ _
    rw [hzone]
    exact ⟨h1, h2⟩

/-- Settles O38: the close, and the end of the call that opened the page. -/
theorem pagesCloseByRequestAndLimit : Obligations.PagesCloseByRequestAndLimit := by
  unfold Obligations.PagesCloseByRequestAndLimit
  refine ⟨fun s p pg c reason hruns hq hp ho hc => ?_, fun s p pg c reason k i hruns hq hp ho hi hph hip hc hs ha => ?_,
    fun s n ht h => ⟨_, exec_command (r := .pageClose n) ht.1,
      answered_same ht (ownerOf_pageClose_bad (s := markHanded s) h)⟩⟩
  · obtain ⟨v, q, sl, n, hexec, hreach, _, hans⟩ := closes_by_command hruns hq hp hc
    obtain ⟨hn, _⟩ := hq
    have hnotes : (closed p pg reason s).notes = leaveNotes s (zonesOf pg.zones) ++ [] := by
      simp [closed, hn, ho, closeNotes]
    have hdrain := (hreach.idle_notes hnotes fun x hx => leaveNotes_idle hx rfl).drained
      ((leaveNotes_length ..).trans (by have := zonesOf_length pg.zones; omega)) rfl
    obtain ⟨l, m, hfin⟩ := hdrain.finished rfl
    have hends := Reaches.endsAs_drained rfl hdrain rfl
    refine ⟨_, hexec, ?_⟩
    have hover : ∀ base, s.mirror.base = some base → s.HandedOver base .pages (finish v) := fun base hb =>
      handedOver_of_areas (endsAs_handsOver hends (by simp [closeAreas]) hb) rfl
    refine ⟨?_, ?_, ?_, ?_, ?_, ?_, ?_, ?_, hover, ?_⟩
    all_goals rw [hfin]
    · simp [closed]
    · simp [closed, ho]
    · intro o hne
      exact Vector.getElem_set_ne p.isLt o.isLt fun h => hne (Fin.ext h.symm)
    · intro z hz
      exact (uncarried_get ..).trans (if_neg (by rw [mem_zonesOf, hz]; nofun))
    · intro z hz
      have hget : (uncarried s (zonesOf pg.zones))[z] = carried s none none s.zones[z] :=
        (uncarried_get ..).trans (if_pos (mem_zonesOf.mpr hz))
      show ((uncarried s (zonesOf pg.zones))[z].page = none ∧ _)
      simp only [closed, hget]
      exact uncarried_zone s s.zones[z]
    · rfl
    · rfl
    · rfl
    · intro h
      have := hans h
      rw [ho] at this
      exact this
  · exact closes_with_call hruns hq hp ho hi hph hip hc hs ha rfl

end Sys2Proof.Proofs.Ends
end

section
/-! PROOF. RELAY and CLEAR_ZONE_FAULT (R138, R142). -/

namespace Sys2Proof.Proofs.Ends

open Sys2Proof.Machine

variable {s u v : State} {as : List Area} {z : ZoneId}

/-! ## Zones told of as LIVE (R153) -/

/-- A notice that leads to a page's judgement or to a call's start. -/
def Benign : Note → Prop
  | .zoneLive _ | .pageLive _ => True
  | _ => False

/-- `t` is `s` with work done on pages, calls and voices alone. -/
def PageWork (s t : State) : Prop :=
  (∃ P C V N M, t = { s with pages := P, calls := C, voices := V, notes := N, marks := M })
    ∧ ∀ a ∈ s.marks, a ∈ t.marks

theorem PageWork.refl (s : State) : PageWork s s := ⟨⟨_, _, _, _, _, rfl⟩, fun _ h => h⟩

theorem PageWork.trans {t w : State} (h : PageWork s t) (h' : PageWork t w) : PageWork s w := by
  obtain ⟨⟨P, C, V, N, M, rfl⟩, hm⟩ := h
  obtain ⟨⟨P', C', V', N', M', rfl⟩, hm'⟩ := h'
  exact ⟨⟨_, _, _, _, _, rfl⟩, fun a ha => hm' a (hm a ha)⟩

theorem mem_mark {a b : Area} (h : b ∈ s.marks) : b ∈ (mark a s).marks := by
  show b ∈ if a ∈ s.marks then s.marks else s.marks ++ [a]
  split
  · exact h
  · exact List.mem_append_left _ h

theorem pageWork_mark (a : Area) (s : State) : PageWork s (mark a s) :=
  ⟨⟨_, _, _, _, _, rfl⟩, fun _ h => mem_mark h⟩

theorem pageWork_judgePage (p : PageId) (s : State) : PageWork s (judgePage p s)
    ∧ ((∀ x ∈ s.notes, Benign x) → ∀ x ∈ (judgePage p s).notes, Benign x) := by
  unfold judgePage
  split
  · exact ⟨.refl s, id⟩
  · next pg _ =>
    dsimp only
    split
    · cases pg.opener with
      | request => exact ⟨(⟨⟨_, _, _, _, _, rfl⟩, fun _ h => mem_mark h⟩), id⟩
      | call c =>
        refine ⟨⟨⟨_, _, _, _, _, rfl⟩, fun _ h => mem_mark h⟩, fun hn x hx => ?_⟩
        exact (List.mem_append.mp hx).elim (hn x) fun h => by
          rw [List.mem_singleton.mp h]
          trivial
    · exact ⟨.refl s, id⟩

theorem pageWork_startVoice (c : CallId) (x : VoiceId) (s : State) : PageWork s (startVoice c x s)
    ∧ (startVoice c x s).notes = s.notes := by
  unfold startVoice
  split
  · split
    · exact ⟨⟨⟨_, _, _, _, _, rfl⟩, fun _ h => mem_mark h⟩, rfl⟩
    · exact ⟨⟨⟨_, _, _, _, _, rfl⟩, fun _ h => h⟩, rfl⟩
    · exact ⟨⟨⟨_, _, _, _, _, rfl⟩, fun _ h => mem_mark h⟩, rfl⟩
    · exact ⟨.refl s, rfl⟩
  · exact ⟨.refl s, rfl⟩

theorem pageWork_handleNote {x : Note} (hx : Benign x) (hn : ∀ y ∈ s.notes, Benign y) :
    PageWork s (handleNote x s) ∧ ∀ y ∈ (handleNote x s).notes, Benign y := by
  cases x with
  | zoneLive z =>
    unfold handleNote
    dsimp only
    split
    · exact ⟨(pageWork_judgePage _ s).1, (pageWork_judgePage _ s).2 hn⟩
    · exact ⟨.refl s, hn⟩
  | pageLive c =>
    unfold handleNote
    dsimp only
    split
    · split
      · unfold beginPlaying
        have hm : PageWork s (mark .pages (updCall c (fun x => { x with
            inst := x.inst.map fun i => { i with phase := .playing } }) s)) :=
          ⟨⟨_, _, _, _, _, rfl⟩, fun _ h => mem_mark h⟩
        obtain ⟨h, hnotes⟩ := pageWork_startVoice c s.calls[c].cfg.voice (mark .pages (updCall c (fun x => { x with
            inst := x.inst.map fun i => { i with phase := .playing } }) s))
        exact ⟨hm.trans h, by rw [hnotes]; exact hn⟩
      · exact ⟨.refl s, hn⟩
    · exact ⟨.refl s, hn⟩
  | voiceIdle | callCut | pageClosed | zoneLost => exact hx.elim

/-- Working off such notices does work on pages, calls and voices alone. -/
theorem pageWork_drainN (n : Nat) (hn : ∀ x ∈ s.notes, Benign x) : PageWork s (drainN n s) := by
  induction n generalizing s with
  | zero => exact .refl s
  | succ n ih =>
    cases hs : s.notes with
    | nil => rw [drainN_nil _ hs]; exact .refl s
    | cons x rest =>
      rw [drainN, hs]
      rw [hs] at hn
      have hrest : PageWork s { s with notes := rest } := ⟨⟨_, _, _, _, _, rfl⟩, fun _ h => h⟩
      obtain ⟨hw, hb⟩ := pageWork_handleNote (s := { s with notes := rest }) (hn x List.mem_cons_self)
        fun y hy => hn y (List.mem_cons_of_mem x hy)
      exact hrest.trans (hw.trans (ih hb))

/-- The end of an event of which only such notices are left. -/
theorem finish_benign (hn : ∀ x ∈ s.notes, Benign x) : (∃ P C V q m,
      finish s = { s with pages := P, calls := C, voices := V, wq := q, mirror := m, notes := [], marks := [] })
    ∧ ∀ (a : Area) (base : Nat), a ∈ s.marks → s.mirror.base = some base → s.HandedOver base a (finish s) := by
  obtain ⟨⟨P, C, V, N, M, hw⟩, hm⟩ := pageWork_drainN 256 hn
  obtain ⟨q, m, hf⟩ := flushMarks_eq (drainN 256 s)
  refine ⟨⟨P, C, V, { q with began := false }, m, ?_⟩, fun a base ha hb => ?_⟩
  · unfold finish drain
    rw [hf, hw]
  · have hmem : a ∈ Area.all.filter fun b => b ∈ (drainN 256 s).marks :=
      List.mem_filter.mpr ⟨mem_all a, by simpa using hm a ha⟩
    have := offers_handOver (s := { drainN 256 s with marks := [] }) (base := base) (all_nodup.filter _) hmem
      (by rw [hw]; exact hb)
    exact handedOver_of_areas (u := drainN 256 s) (by exact this) (by rw [hw])

/-! ## One step for each of several zones -/

/-- The zones once some of them have made a step. -/
def zonesStepped (f : ZoneId → Zone → Zone) (l : List ZoneId) (zones : Vector Zone 24) : Vector Zone 24 :=
  tabulate fun z => if z ∈ l then f z zones[z] else zones[z]

theorem zonesStepped_get (f : ZoneId → Zone → Zone) (l : List ZoneId) (zones : Vector Zone 24) (z : ZoneId) :
    (zonesStepped f l zones)[z] = if z ∈ l then f z zones[z] else zones[z] := tabulate_get _ _ _

/-- Steps of a state each of which concerns one zone: what they come to, what is told, and what is handed over. -/
theorem zones_step {step : ZoneId → State → State} {f : ZoneId → Zone → Zone} {touched : ZoneId → Zone → Bool} {P : State → Prop}
    {Q : Zone → Prop}
    (hstep : ∀ (z : ZoneId) {as : List Area} {u v : State}, Reaches as u v → P u → Q u.zones[z] →
      Reaches (if touched z u.zones[z] then .zones :: as else as) (rezoned z (f z u.zones[z]) u) (step z v))
    (hP : ∀ (z : ZoneId) (y : Zone) (u : State), P u → P (rezoned z y u)) {l : List ZoneId} (hl : l.Nodup)
    (hQ : ∀ z ∈ l, Q u.zones[z]) (h : Reaches as u v) (hu : P u) : ∃ (ns : List Note) (bs : List Area),
      Reaches bs { u with zones := zonesStepped f l u.zones, notes := u.notes ++ ns } (l.foldl (fun s z => step z s) v)
        ∧ (∀ n ∈ ns, Benign n) ∧ ∀ z ∈ l, touched z u.zones[z] = true → .zones ∈ bs := by
  have hmain : ∀ {as : List Area} {u v : State} (l : List ZoneId), l.Nodup → (∀ z ∈ l, Q u.zones[z]) →
      Reaches as u v → P u →
      ∃ (ns : List Note) (bs : List Area), Reaches bs
        { u with zones := zonesStepped f l u.zones, notes := u.notes ++ ns } (l.foldl (fun s z => step z s) v)
        ∧ (∀ n ∈ ns, Benign n) ∧ (∀ a ∈ as, a ∈ bs) ∧ ∀ z ∈ l, touched z u.zones[z] = true → .zones ∈ bs := by
    intro as u v l
    induction l generalizing as u v with
    | nil =>
      intro _ _ h _
      have hz : zonesStepped f [] u.zones = u.zones := vec_ext fun z =>
        (zonesStepped_get f [] u.zones z).trans (if_neg List.not_mem_nil)
      refine ⟨[], as, ?_, nofun, fun _ h => h, nofun⟩
      rw [hz, List.append_nil]
      exact h
    | cons z l ih =>
      intro hl hQ h hu
      obtain ⟨hz, hl⟩ := List.nodup_cons.mp hl
      have hother (y : ZoneId) (hy : y ≠ z) : (rezoned z (f z u.zones[z]) u).zones[y] = u.zones[y] :=
        Vector.getElem_set_ne z.isLt y.isLt fun he => hy (Fin.ext he.symm)
      obtain ⟨ns, bs, hr, hb, hmono, ht⟩ := ih hl
        (fun y hy => by
          rw [hother y fun he => hz (he ▸ hy)]
          exact hQ y (List.mem_cons_of_mem z hy))
        (hstep z h hu (hQ z List.mem_cons_self)) (hP z _ u hu)
      have hself : (rezoned z (f z u.zones[z]) u).zones[z] = f z u.zones[z] := by simp [rezoned]
      refine ⟨liveNotes z u.zones[z] (f z u.zones[z]) ++ ns, bs, hr.congr ?_ fun _ => Iff.rfl, fun n hn => ?_,
        fun a ha => hmono a (by split; exacts [List.mem_cons_of_mem _ ha, ha]), fun y hy htouch => ?_⟩
      · have hzones : zonesStepped f l (rezoned z (f z u.zones[z]) u).zones = zonesStepped f (z :: l) u.zones := by
          refine vec_ext fun y => ?_
          rw [zonesStepped_get, zonesStepped_get]
          by_cases hy : y = z
          · subst hy
            rw [if_neg hz, if_pos List.mem_cons_self, hself]
          · rw [hother y hy]
            simp only [List.mem_cons, hy, false_or]
        rw [hzones]
        simp only [rezoned, List.append_assoc]
      · refine (List.mem_append.mp hn).elim (fun h => ?_) (hb n)
        unfold liveNotes at h
        split at h
        · rw [List.mem_singleton.mp h]
          trivial
        · exact absurd h List.not_mem_nil
      · rcases List.mem_cons.mp hy with rfl | hy
        · exact hmono _ (by rw [if_pos htouch]; exact List.mem_cons_self)
        · refine ht y hy ?_
          rw [hother y fun he => hz (he ▸ hy)]
          exact htouch
  obtain ⟨ns, bs, h1, h2, _, h3⟩ := hmain l hl hQ h hu
  exact ⟨ns, bs, h1, h2, h3⟩

/-! ## RELAY (R138) -/

/-- A zone whose relay flag has been switched. -/
def switched (stopped on : Bool) (x : Zone) : Zone :=
  if x.relay = on then x else rejudged x.demand stopped { x with relay := on }

theorem Reaches.setRelay {on : Bool} (h : Reaches as u v) :
    Reaches (if (u.zones[z].relay != on) = true then .zones :: as else as)
      (rezoned z (switched (u.engine == .stopped) on u.zones[z]) u) (setRelay on z v) := by
  have hv : v.zones = u.zones := by rw [h.1]; rfl
  unfold Machine.setRelay switched
  rw [hv]
  by_cases hr : u.zones[z].relay = on
  · rw [if_neg (fun h => bne_iff_ne.mp h hr), if_pos hr, if_pos hr, rezoned_self]
    exact h
  · rw [if_pos (bne_iff_ne.mpr hr), if_neg hr, if_neg hr]
    have hj := Reaches.rejudge (z := z) u.zones[z].demand
      (h.plain (f := updZone z fun x => { x with relay := on }) fun _ _ _ _ => rfl)
    have hget : (updZone z (fun x => { x with relay := on }) u).zones[z] = { u.zones[z] with relay := on } :=
      updZone_zone ..
    refine hj.congr ?_ fun _ => Iff.rfl
    rw [hget, rezoned, hget, rezoned]
    simp only [updZone, upd, Vector.set_set]
    rfl

theorem inGroup_iff {g : Fin 8} : inGroup s g z = true ↔ z ∈ membersOf s g := mem_zonesOf.symm

/-- What a RELAY action on a group comes to. -/
theorem Reaches.relayAction {g : Fin 8} {on : Bool} (h : Reaches as u v) : ∃ (ns : List Note) (bs : List Area),
    Reaches bs { u with
      zones := tabulate fun z => if z ∈ membersOf u g then switched (u.engine == .stopped) on u.zones[z] else u.zones[z]
      notes := u.notes ++ ns } (relayAction g on v)
      ∧ (∀ n ∈ ns, Benign n) ∧ ∀ z ∈ membersOf u g, u.zones[z].relay ≠ on → .zones ∈ bs := by
  have hsteps := zones_step (step := fun z s => if inGroup s g z then Machine.setRelay on z s else s)
    (f := fun z x => if z ∈ membersOf u g then switched (u.engine == .stopped) on x else x)
    (touched := fun z x => decide (z ∈ membersOf u g) && x.relay != on)
    (P := fun w => w.zoneGroups = u.zoneGroups ∧ w.engine = u.engine) (Q := fun _ => True)
    (fun z {as w w'} hw hP _ => by
      obtain ⟨hg, he⟩ := hP
      have hmem : inGroup w' g z = true ↔ z ∈ membersOf u g := by
        rw [hw.1]
        show inGroup w g z = true ↔ _
        rw [inGroup_iff, membersOf, membersOf, hg]
      by_cases hz : z ∈ membersOf u g
      · rw [if_pos (hmem.mpr hz), if_pos hz, decide_eq_true hz, Bool.true_and, ← he]
        exact hw.setRelay
      · rw [if_neg (mt hmem.mp hz), if_neg hz, decide_eq_false hz, rezoned_self]
        exact hw)
    (fun _ _ _ hP => hP) (List.nodup_finRange 24) (fun _ _ => trivial) h ⟨rfl, rfl⟩
  obtain ⟨ns, bs, hr, hb, ht⟩ := hsteps
  refine ⟨ns, bs, hr.congr ?_ fun _ => Iff.rfl, hb, fun z hz hrel =>
    ht z (List.mem_finRange z) (by rw [decide_eq_true hz, Bool.true_and]; exact bne_iff_ne.mpr hrel)⟩
  have hall : zonesStepped (fun z x => if z ∈ membersOf u g then switched (u.engine == .stopped) on x else x)
      (List.finRange 24) u.zones
      = tabulate fun z => if z ∈ membersOf u g then switched (u.engine == .stopped) on u.zones[z] else u.zones[z] :=
    vec_ext fun z => (zonesStepped_get ..).trans ((if_pos (List.mem_finRange z)).trans
      (tabulate_get (fun z : ZoneId => if z ∈ membersOf u g then switched (u.engine == .stopped) on u.zones[z]
        else u.zones[z]) z.val z.isLt).symm)
  rw [hall]

theorem ownerOf_relay_bad {g : Nat} {on : Option Bool} (h : 8 ≤ g ∨ on = none) :
    ownerOf (.relay g on) s = (s, some (refuse .badArgument)) := by
  show later (relayOwner g on s) = _
  unfold relayOwner
  rcases h with h | rfl
  · rw [fin?_none h]
    rfl
  · cases fin? 8 g <;> rfl

theorem ownerOf_relay {g : Fin 8} {on : Bool} :
    ownerOf (.relay g.val (some on)) s = (relayAction g on s, some (answer .ok (wordsOf
      (wordOf (membersOf s g).length) (wordOf ((membersOf s g).filter fun z => s.zones[z].relay != on).length)
      (wordOf ((membersOf s g).filter (inFault (relayAction g on s))).length) 0#32))) := by
  show later (relayOwner g.val (some on) s) = _
  unfold relayOwner
  rw [fin?_val] <;> rfl

/-- A switched zone in the terms of R138 and R140. -/
theorem switched_zone {on : Bool} (x : Zone) (hx : x.relay ≠ on) :
    (x.state = .off → x.cfg.stability = 255 ∨ (x.page = none ∧ on = true) →
      switched false on x = Zone.poweredUp { x with relay := on })
    ∧ (x.state = .off → x.cfg.stability ≠ 255 → x.page ≠ none ∨ on = false →
      switched false on x = { x with relay := on })
    ∧ (x.state = .live → x.page = none → switched false on x = { x with
        relay := on, timer := if on = true ∨ x.cfg.idle = 0 ∨ x.cfg.stability = 255 then none
          else some (48 * (1000 * x.cfg.idle)) })
    ∧ (x.state = .live → x.page ≠ none → switched false on x = { x with relay := on })
    ∧ (x.state = .powering ∨ x.state = .checking ∨ x.state = .fault → switched false on x = { x with relay := on }) := by
  have hsw : switched false on x = rejudged x.demand false { x with relay := on } := if_neg hx
  have hrel : x.relay = !on := by revert hx; cases x.relay <;> cases on <;> simp
  have hdem : x.demand = (!on || x.page.isSome) := by rw [Zone.demand, hrel]
  have hdem' : Zone.demand { x with relay := on } = (on || x.page.isSome) := rfl
  have halways : Zone.alwaysPowered { x with relay := on } = true ↔ x.cfg.stability = 255 := by
    simp [Zone.alwaysPowered]
  rw [hsw]
  refine ⟨fun hs hw => ?_, fun hs h255 hw => ?_, fun hs hp => ?_, fun hs hp => ?_, fun hs => ?_⟩
  · rw [rejudged_off (x := { x with relay := on }) hs, if_pos]
    refine ⟨?_, rfl⟩
    rw [hdem', hdem, Bool.or_eq_true, halways]
    rcases hw with h | ⟨h, rfl⟩
    · exact .inr h
    · rw [h]
      exact .inl rfl
  · rw [rejudged_off (x := { x with relay := on }) hs, if_neg]
    rintro ⟨h, _⟩
    rw [hdem', hdem, Bool.or_eq_true, halways] at h
    rcases h with h | h
    · rcases hw with hw | rfl
      · rw [Option.isSome_iff_ne_none.mpr hw] at h
        simp at h
      · simp at h
    · exact h255 h
  · rw [rejudged_live (x := { x with relay := on }) hs, hdem', hdem, hp]
    cases on
    · simp [Zone.idleTimer, Zone.alwaysPowered, framesOf]
    · simp
  · rw [rejudged_live (x := { x with relay := on }) hs, hdem', hdem, Option.isSome_iff_ne_none.mpr hp]
    simp
  · have ho : x.state ≠ .off := by rcases hs with h | h | h <;> rw [h] <;> nofun
    have hl : x.state ≠ .live := by rcases hs with h | h | h <;> rw [h] <;> nofun
    exact rejudged_else (x := { x with relay := on }) ho hl

theorem switched_same {stopped on : Bool} (x : Zone) : (switched stopped on x).relay = on
    ∧ (switched stopped on x).page = x.page ∧ (x.relay = on → switched stopped on x = x) := by
  unfold switched
  split
  · next h => exact ⟨h, rfl, fun _ => rfl⟩
  · next h =>
    obtain ⟨hp, hr, _⟩ := rejudged_same x.demand stopped { x with relay := on }
    exact ⟨hr, hp, fun h' => absurd h' h⟩

/-- A switch of the relay flag takes no zone into FAULT or out of it. -/
theorem switched_fault {on : Bool} (x : Zone) : (switched false on x).state = .fault ↔ x.state = .fault := by
  unfold switched
  split
  · exact Iff.rfl
  · by_cases hf : x.state = .fault
    · rw [rejudged_else (x := { x with relay := on }) (by rw [hf]; nofun) (by rw [hf]; nofun)]
    · refine ⟨fun h => absurd h ?_, fun h => absurd h hf⟩
      unfold rejudged Zone.poweredUp
      repeat' split
      all_goals simp [hf]

/-! ## CLEAR_ZONE_FAULT (R142) -/

/-- A zone whose fault has been cleared, before it is powered again. -/
def cleared (x : Zone) : Zone := { x with state := .off, ampen := false, timer := none, falseRun := 0 }

/-- A zone whose fault has been cleared and which is powered where it is wanted. -/
def clearedZone (x : Zone) : Zone :=
  if x.relay = true ∨ x.page ≠ none ∨ x.cfg.stability = 255 then (cleared x).poweredUp else cleared x

theorem Reaches.clearFault (h : Reaches as u v) (he : u.engine ≠ .stopped) (hs : u.zones[z].state = .fault) :
    Reaches (.zones :: as) (rezoned z (clearedZone u.zones[z]) u) (clearFault z v) := by
  have hoff : Reaches (.zones :: as) { u with zones := u.zones.set z (cleared u.zones[z]) } (zoneOff z v) :=
    (h.plain (f := updZone z cleared) fun _ _ _ _ => rfl).area .zones
  have hget : ({ u with zones := u.zones.set z (cleared u.zones[z]) } : State).zones[z] = cleared u.zones[z] := by simp
  have hw : ((cleared u.zones[z]).demand = true ∨ (cleared u.zones[z]).alwaysPowered = true)
      ↔ u.zones[z].relay = true ∨ u.zones[z].page ≠ none ∨ u.zones[z].cfg.stability = 255 := by
    simp [Zone.demand, Zone.alwaysPowered, cleared, Option.isSome_iff_ne_none, or_assoc]
  have hv : (zoneOff z v).zones[z] = cleared u.zones[z] := by rw [hoff.1]; exact hget
  have hnotes (y : Zone) : liveNotes z (cleared u.zones[z]) y = liveNotes z u.zones[z] y := by
    unfold liveNotes
    simp only [hs, cleared, ne_eq, reduceCtorEq, not_false_eq_true]
  unfold Machine.clearFault powerIfWanted clearedZone
  rw [hv]
  by_cases hc : u.zones[z].relay = true ∨ u.zones[z].page ≠ none ∨ u.zones[z].cfg.stability = 255
  · rw [if_pos (hw.mpr hc), if_pos hc]
    refine (Reaches.powerZone (z := z) hoff he (by rw [hget]; nofun)).congr (bs := .zones :: as) ?_ (by simp)
    rw [rezoned, rezoned, hget, hnotes]
    simp only [Vector.set_set]
  · rw [if_neg (mt hw.mp hc), if_neg hc]
    refine hoff.congr ?_ fun _ => Iff.rfl
    rw [rezoned, liveNotes, if_neg (fun h => nomatch h.2), List.append_nil]

theorem ownerOf_clear_bad {g : Nat} (h : 8 ≤ g) : ownerOf (.clearZoneFault g) s = (s, some (refuse .badArgument)) := by
  show later (clearZoneFaultOwner g s) = _
  unfold clearZoneFaultOwner
  rw [fin?_none h]
  rfl

/-- The members of a group that stand in FAULT. -/
def faulty (s : State) (g : Fin 8) : List ZoneId := (membersOf s g).filter fun z => s.zones[z].state == .fault

theorem ownerOf_clear {g : Fin 8} :
    ownerOf (.clearZoneFault g.val) s = ((faulty s g).foldl (fun s z => clearFault z s) s,
      some (answer .ok (wordsOf (wordOf (faulty s g).length) (wordOf ((faulty s g).filter fun z =>
        ((faulty s g).foldl (fun s z => clearFault z s) s).zones[z].ampen).length) 0#32 0#32))) := by
  show later (clearZoneFaultOwner g.val s) = _
  unfold clearZoneFaultOwner
  rw [fin?_val] <;> rfl

theorem faulty_nodup (s : State) (g : Fin 8) : (faulty s g).Nodup := (zonesOf_nodup _).filter _

/-- What a clear of a group comes to. -/
theorem Reaches.clears {g : Fin 8} (h : Reaches as u v) (he : u.engine ≠ .stopped) : ∃ (ns : List Note) (bs : List Area),
    Reaches bs { u with
      zones := tabulate fun z => if z ∈ faulty u g then clearedZone u.zones[z] else u.zones[z]
      notes := u.notes ++ ns } ((faulty u g).foldl (fun s z => Machine.clearFault z s) v)
      ∧ ∀ n ∈ ns, Benign n := by
  obtain ⟨ns, bs, hr, hb, _⟩ := zones_step (step := Machine.clearFault) (f := fun _ x => clearedZone x)
    (touched := fun _ _ => true) (P := fun w => w.engine = u.engine) (Q := fun x => x.state = .fault)
    (fun z {_ _ _} hw hP hQ => hw.clearFault (by rw [hP]; exact he) hQ) (fun _ _ _ hP => hP) (faulty_nodup u g)
    (fun z hz => by simpa using (List.mem_filter.mp hz).2) h rfl
  exact ⟨ns, bs, hr, hb⟩

/-- A request's answer of which only benign notices are left. -/
theorem request_benign {r : Request} {a : Answer} {ns : List Note} (ht : s.Takes r)
    (ho : ownerOf r (markHanded s) = (v, some a)) (h : Reaches as u v) (hus : u.slate = (markHanded s).slate)
    (huf : u.freeCount = s.freeCount) (hn : u.notes = ns) (hb : ∀ n ∈ ns, Benign n) :
    (∃ P C V q m F, request r s = { u with
        slate := answeredSlate a s.slate, pages := P, calls := C, voices := V, wq := q, mirror := m
        freeCount := F, notes := [], marks := [] })
      ∧ ∀ (x : Area) (base : Nat), x ∈ as → u.mirror.areas = s.mirror.areas → s.mirror.base = some base →
          u.mirror.base = s.mirror.base → s.HandedOver base x (request r s) := by
  rw [request_eq ht ho (h.slate_eq.trans hus) (h.freeCount_eq.trans huf)]
  have h' := h.plain (plain_answered a s)
  obtain ⟨⟨P, C, V, q, m, hf⟩, hover⟩ := finish_benign (s := answered a s v) (by
    rw [h'.1]
    show ∀ n ∈ u.notes, Benign n
    rw [hn]
    exact hb)
  refine ⟨⟨P, C, V, q, m, s.freeCount + 1, ?_⟩, fun x base hx ha hs hm => ?_⟩
  · rw [hf, h'.1]
    rfl
  · refine handedOver_of_areas (hover x base ((h'.2.2.2 x).mpr hx) ?_) ?_
    · rw [h'.1]
      exact hm.trans hs
    · rw [h'.1]
      exact ha

/-- Settles O36: each member's zone by the law of its step. -/
theorem relayAndClearActOnTheGroup : Obligations.RelayAndClearActOnTheGroup := by
  unfold Obligations.RelayAndClearActOnTheGroup
  refine ⟨fun s g on ht => ⟨_, exec_command (r := .relay g on) ht.1, fun hb =>
      answered_same ht (ownerOf_relay_bad hb), fun hg b hon => ?_⟩,
    fun s g ht => ⟨_, exec_command (r := .clearZoneFault g) ht.1, fun hb =>
      answered_same ht (ownerOf_clear_bad hb), fun hg => ?_⟩⟩
  · subst hon
    obtain ⟨hn, hm⟩ := ht.2.1
    have he : s.engine ≠ .stopped := ht.2.2.2.resolve_right nofun
    obtain ⟨ns, bs, hr, hb, htouch⟩ := (Reaches.refl (s := markHanded s) hm).relayAction (g := ⟨g, hg⟩) (on := b)
    obtain ⟨⟨P, C, V, q, m, F, ht'⟩, hover⟩ := request_benign ht (ownerOf_relay (g := ⟨g, hg⟩)) hr rfl rfl
      (show s.notes ++ ns = ns by rw [hn]; rfl) hb
    have hstop : (s.engine == .stopped) = false := by simpa using he
    have hzone (z : ZoneId) : (request (.relay g (some b)) s).zones[z]
        = if z ∈ membersOf s ⟨g, hg⟩ then switched false b s.zones[z] else s.zones[z] := by
      rw [ht', ← hstop]
      exact tabulate_get _ _ _
    refine ⟨fun z hz => (hzone z).trans (if_neg hz), fun z hz => ?_, fun z hz hrel => ?_, ?_, fun base hbase z hz hrel => ?_⟩
    · rw [(hzone z).trans (if_pos hz)]
      exact switched_same s.zones[z]
    · rw [(hzone z).trans (if_pos hz)]
      exact switched_zone s.zones[z] hrel
    · have hfault (z : ZoneId) : inFault (relayAction ⟨g, hg⟩ b (markHanded s)) z = (s.zones[z].state == .fault) := by
        have hget : (relayAction ⟨g, hg⟩ b (markHanded s)).zones[z]
            = if z ∈ membersOf s ⟨g, hg⟩ then switched false b s.zones[z] else s.zones[z] := by
          rw [hr.1, ← hstop]
          exact tabulate_get _ _ _
        unfold inFault
        rw [hget]
        split
        · exact Bool.eq_iff_iff.mpr (by simpa using switched_fault s.zones[z])
        · rfl
      rw [ht']
      simp only [answeredSlate, funext hfault]
      rfl
    · exact hover .zones base (htouch z hz hrel) rfl hbase rfl
  · obtain ⟨hn, hm⟩ := ht.2.1
    have he : s.engine ≠ .stopped := ht.2.2.2.resolve_right nofun
    obtain ⟨ns, bs, hr, hb⟩ := (Reaches.refl (s := markHanded s) hm).clears (g := ⟨g, hg⟩) he
    obtain ⟨⟨P, C, V, q, m, F, ht'⟩, _⟩ := request_benign ht (ownerOf_clear (g := ⟨g, hg⟩)) hr rfl rfl
      (show s.notes ++ ns = ns by rw [hn]; rfl) hb
    have hzone (z : ZoneId) : (request (.clearZoneFault g) s).zones[z]
        = if z ∈ faulty s ⟨g, hg⟩ then clearedZone s.zones[z] else s.zones[z] := by
      rw [ht']
      exact tabulate_get _ _ _
    have hafter (z : ZoneId) : ((faulty s ⟨g, hg⟩).foldl (fun s z => clearFault z s) (markHanded s)).zones[z]
        = (request (.clearZoneFault g) s).zones[z] := by
      rw [hzone]
      have := congrArg State.zones hr.1
      refine (congrArg (·[z]) this).trans ?_
      exact tabulate_get _ _ _
    refine ⟨fun z hz => (hzone z).trans (if_neg hz), fun z hz => (hzone z).trans (if_pos hz), ?_, ?_, ?_⟩
    · rw [ht']
      rfl
    · rw [ht']
      rfl
    · rw [ht'] at hafter ⊢
      simp only [answeredSlate, ← hafter]
      rfl

end Sys2Proof.Proofs.Ends
end

section
/-! PROOF. The power sequence of a zone, its faults, and what its page and that page's call make of them (R139 to
R141, R153, R154, R161, R162). -/

namespace Sys2Proof.Proofs.Ends

open Sys2Proof.Machine

variable {s u v : State} {as : List Area} {z : ZoneId} {p : PageId} {pg : Page}

/-! ## A page judged anew, and one that loses a zone (R153, R154) -/

/-- What the opener of a page is told when it becomes LIVE. -/
def liveTold (o : Opener) : List Note :=
  match o with
  | .request => []
  | .call c => [.pageLive c]

/-- The state once a page has become LIVE. -/
def pageLived (p : PageId) (pg : Page) (s : State) : State :=
  { s with pages := s.pages.set p (some { pg with state := .live }), notes := s.notes ++ liveTold pg.opener }

theorem Reaches.judgePage_same (h : Reaches as u v) (hp : u.pages[p] = some pg)
    (hj : ¬ (pg.state = .opened ∧ allLive u pg.zones = true)) : Reaches as u (judgePage p v) := by
  have hv : v.pages = u.pages ∧ v.zones = u.zones := by rw [h.1]; exact ⟨rfl, rfl⟩
  unfold judgePage
  rw [hv.1, hp]
  dsimp only
  unfold allLive
  rw [hv.2]
  exact (if_neg hj).symm ▸ h

theorem Reaches.judgePage_live (h : Reaches as u v) (hp : u.pages[p] = some pg) (ho : pg.state = .opened)
    (hl : allLive u pg.zones = true) : Reaches (.pages :: as) (pageLived p pg u) (judgePage p v) := by
  have hv : v.pages = u.pages ∧ v.zones = u.zones := by rw [h.1]; exact ⟨rfl, rfl⟩
  have hlive := (h.plain (f := setPage p (some { pg with state := .live })) fun _ _ _ _ => rfl).area .pages
  unfold judgePage
  rw [hv.1, hp]
  dsimp only
  unfold allLive at hl ⊢
  rw [hv.2, if_pos ⟨ho, hl⟩]
  unfold pageLived liveTold
  obtain ⟨state, opener, source, priority, level, zones, opened, limit⟩ := pg
  cases opener with
  | request =>
    refine hlive.congr ?_ fun _ => Iff.rfl
    rw [List.append_nil]
    rfl
  | call c => exact hlive.plain (f := tell (.pageLive c)) fun _ _ _ _ => rfl

/-- A page without one of its zones. -/
def Without (pg : Page) (z : ZoneId) : Page := { pg with zones := pg.zones &&& ~~~(zoneBit z) }

theorem Reaches.loseZone_left {C : State → Prop} (reason : CloseReason) (h : Reaches as u v)
    (hp : u.pages[p] = some pg) (hl : (Without pg z).zones ≠ 0#24)
    (hj : ∀ v', Reaches (.pages :: as) { u with pages := u.pages.set p (some (Without pg z)) } v' →
      C (judgePage p v')) : C (loseZone p z reason v) := by
  have hv : v.pages = u.pages := by rw [h.1]; rfl
  unfold loseZone
  rw [hv, hp]
  dsimp only
  rw [if_neg (show ¬ pg.zones &&& ~~~(zoneBit z) = 0#24 from hl)]
  exact hj _ ((h.plain (f := setPage p (some (Without pg z))) fun _ _ _ _ => rfl).area .pages)

theorem Reaches.loseZone_last (reason : CloseReason) (h : Reaches as u v) (hp : u.pages[p] = some pg)
    (hl : (Without pg z).zones = 0#24) : Reaches (.pages :: as) { u with
      pages := u.pages.set p none
      lastClosed := some { id := p, opener := pg.opener, reason := reason, time := u.tod }
      calls := withoutPage pg.opener u.calls
      notes := u.notes ++ closeNotes pg.opener reason } (loseZone p z reason v) := by
  have hv : v.pages = u.pages := by rw [h.1]; rfl
  unfold loseZone
  rw [hv, hp]
  dsimp only
  rw [if_pos (show pg.zones &&& ~~~(zoneBit z) = 0#24 from hl)]
  have hset := (h.plain (f := setPage p (some (Without pg z))) fun _ _ _ _ => rfl).area .pages
  have hget : (setPage p (some (Without pg z)) u).pages[p] = some (Without pg z) := by simp [setPage]
  have hnone : zonesOf (Without pg z).zones = [] := by
    refine List.filter_eq_nil_iff.mpr fun y _ => ?_
    rw [hl]
    simp
  refine (hset.closePage reason hget).congr ?_ (by simp [closeAreas, hnone])
  have hz : uncarried (setPage p (some (Without pg z)) u) [] = u.zones :=
    vec_ext fun y => (uncarried_get _ [] y).trans (if_neg List.not_mem_nil)
  unfold closed
  rw [hnone, hz]
  simp only [setPage, Vector.set_set, leaveNotes, carryNotes, List.flatMap_nil, List.append_nil]
  rfl

/-! ## A call that begins to play (R123, R162) -/

/-- The areas that the start of a voice hands over. -/
def startAreas (x : Voice) : List Area :=
  if x.state = .primed ∨ x.state = .stopping then [.voices] else []

theorem Reaches.startVoice {c : CallId} {x : VoiceId} (h : Reaches as u v) (ho : u.voices[x].owner = .call c) :
    Reaches (startAreas u.voices[x] ++ as) { u with voices := upd u.voices x Voice.started } (startVoice c x v) := by
  have hv : v.voices = u.voices := by rw [h.1]; rfl
  have hupd {f : Voice → Voice} (hf : f u.voices[x] = Voice.started u.voices[x]) :
      Reaches as { u with voices := upd u.voices x Voice.started } (updVoice x f v) := by
    refine (h.plain (f := updVoice x f) fun _ _ _ _ => rfl).congr ?_ fun _ => Iff.rfl
    unfold updVoice upd
    rw [hf]
  unfold Machine.startVoice startAreas
  rw [hv, if_pos ho]
  cases hs : u.voices[x].state with
  | primed =>
    rw [if_pos (.inl rfl)]
    exact (hupd (f := fun y => { y with state := .playing }) (by unfold Voice.started; rw [hs])).area .voices
  | stopping =>
    rw [if_pos (.inr rfl)]
    exact (hupd (f := fun y => { y with resume := .playing }) (by unfold Voice.started; rw [hs])).area .voices
  | priming =>
    rw [if_neg (by simp)]
    exact hupd (f := fun y => { y with startPending := true }) (by unfold Voice.started; rw [hs])
  | idle | playing =>
    rw [if_neg (by simp)]
    refine h.congr ?_ fun _ => Iff.rfl
    have : upd u.voices x Voice.started = u.voices := upd_of_eq (by unfold Voice.started; rw [hs])
    rw [this]

/-- A call's instance in its next phase. -/
def inPhase (ph : CallPhase) (y : Call) : Call := { y with inst := y.inst.map fun i => { i with phase := ph } }

theorem Reaches.beginPlaying {c : CallId} {x : VoiceId} (h : Reaches as u v) (hx : u.calls[c].cfg.voice = x)
    (ho : u.voices[x].owner = .call c) : Reaches (startAreas u.voices[x] ++ .pages :: as)
      { u with calls := upd u.calls c (inPhase .playing), voices := upd u.voices x Voice.started }
      (beginPlaying c v) := by
  have hc : v.calls = u.calls := by rw [h.1]; rfl
  have hbegun := (h.plain (f := updCall c (inPhase .playing)) fun _ _ _ _ => rfl).area .pages
  unfold Machine.beginPlaying
  rw [show v.calls[c].cfg.voice = x by rw [hc]; exact hx]
  exact hbegun.startVoice ho

/-- The call of a page that has become LIVE waits for its zones no more, or does not hear of it. -/
theorem Reaches.pageLive_ignored {c : CallId} (h : Reaches as u v)
    (hi : (u.calls[c].inst.map (·.phase)) ≠ some .waitZones) : Reaches as u (handleNote (.pageLive c) v) := by
  have hc : v.calls = u.calls := by rw [h.1]; rfl
  unfold handleNote
  dsimp only
  rw [hc]
  cases hinst : u.calls[c].inst with
  | none => exact h
  | some i =>
    dsimp only
    rw [if_neg fun hp => hi (by rw [hinst]; exact congrArg some hp)]
    exact h

theorem Reaches.pageLive_plays {c : CallId} {x : VoiceId} {i : CallInst} (h : Reaches as u v)
    (hi : u.calls[c].inst = some i) (hp : i.phase = .waitZones) (hx : u.calls[c].cfg.voice = x)
    (ho : u.voices[x].owner = .call c) : Reaches (startAreas u.voices[x] ++ .pages :: as)
      { u with calls := upd u.calls c (inPhase .playing), voices := upd u.voices x Voice.started }
      (handleNote (.pageLive c) v) := by
  have hc : v.calls = u.calls := by rw [h.1]; rfl
  unfold handleNote
  dsimp only
  rw [hc, hi]
  dsimp only
  rw [if_pos hp]
  exact h.beginPlaying hx ho

/-! ## The zones of a page but one -/

theorem getLsbD_without (y : ZoneId) : (Without pg z).zones.getLsbD y = (y != z && pg.zones.getLsbD y) := by
  have hbit : (zoneBit z).getLsbD y = decide (z.val = y.val) := by
    unfold zoneBit
    rw [BitVec.getLsbD_ofNat, Nat.testBit_two_pow, decide_eq_true y.isLt, Bool.true_and]
  show (pg.zones &&& ~~~(zoneBit z)).getLsbD y = _
  rw [BitVec.getLsbD_and, BitVec.getLsbD_not, decide_eq_true y.isLt, Bool.true_and, hbit, Bool.and_comm]
  refine congrArg (· && _) ?_
  by_cases hy : z = y
  · rw [decide_eq_true (congrArg Fin.val hy), hy, bne_self_eq_false]
    rfl
  · rw [decide_eq_false fun h => hy (Fin.ext h), bne_iff_ne.mpr (Ne.symm hy)]
    rfl

theorem zonesOf_without :
    zonesOf (Without pg z).zones = (List.finRange 24).filter fun y => y != z && pg.zones.getLsbD y := by
  unfold zonesOf
  exact List.filter_congr fun y _ => getLsbD_without y

theorem zonesOf_eq_nil {b : BitVec 24} : zonesOf b = [] ↔ b = 0#24 := by
  refine ⟨fun h => BitVec.eq_of_getLsbD_eq fun i hi => ?_, fun h => ?_⟩
  · have := mt (mem_zonesOf (b := b) (z := ⟨i, hi⟩)).mpr (by rw [h]; exact List.not_mem_nil)
    rw [BitVec.getLsbD_zero]
    simpa using this
  · subst h
    exact List.filter_eq_nil_iff.mpr fun y _ => by simp

theorem allLive_iff {b : BitVec 24} : allLive s b = true ↔ ∀ y ∈ zonesOf b, s.zones[y].state = .live := by
  unfold allLive
  rw [List.all_eq_true]
  simp only [beq_iff_eq]

/-! ## An entry to FAULT (R141) -/

/-- A zone that has entered FAULT. -/
def faultedZone (s : State) (x : Zone) : Zone :=
  { x with
    state := .fault, ampen := false, timer := none, faults := min (x.faults + 1) 65535
    duck := x.duck.command 0 (rampFrames s x.cfg.duckRamp) }

/-- The state once a zone has entered FAULT as `y`, and this has been latched and captured. -/
def faultTold (z : ZoneId) (cause : ZoneFaultCause) (prior : ZoneState) (y : Zone) (s : State) : State :=
  captureEvent zoneCell (zoneDetails z cause prior s.zones[z].page s.zones[z].relay) { s with
    zones := s.zones.set z y
    notice := { s.notice with
      zone := s.notice.zone || !(s.zones[z].cfg.faultMask || s.header.zoneMask) } }

theorem faultTold_eq (z : ZoneId) (cause : ZoneFaultCause) (prior : ZoneState) (s : State) : ∃ n c q, ∀ y,
    faultTold z cause prior y s = { s with zones := s.zones.set z y, notice := n, cells := c, wq := q } := by
  unfold faultTold
  simp only [captureEvent_eq]
  exact ⟨_, _, _, fun _ => rfl⟩

/-- A second command to the same target changes no gate. -/
theorem command_command (g : Gate) (target : Int) (T : Nat) :
    (g.command target T).command target T = g.command target T := by
  obtain ⟨value, ramp⟩ := g
  unfold Gate.command
  cases ramp with
  | none =>
    by_cases hv : value = restValue target
    · simp [hv]
    · by_cases hT : T = 0 <;> simp [hv, hT]
  | some r =>
    by_cases hr : r.target = target
    · simp [hr]
    · by_cases hT : T = 0 <;> simp [hr, hT]

section

variable {cause : ZoneFaultCause} {prior : ZoneState}

/-- The first part of an entry to FAULT. -/
theorem Reaches.faultTold (h : Reaches as u v) : Reaches as
    (faultTold z cause prior { u.zones[z] with
      state := .fault, ampen := false, timer := none, faults := min (u.zones[z].faults + 1) 65535 } u)
    (captureEvent zoneCell (zoneDetails z cause prior v.zones[z].page v.zones[z].relay)
      (latchZone z (updZone z (fun x => { x with
        state := .fault, ampen := false, timer := none, faults := sat16 x.faults }) v))) := by
  have hv : v.zones = u.zones := by rw [h.1]; rfl
  have hlatch := h.plain (f := fun s => latchZone z (updZone z (fun x => { x with
        state := .fault, ampen := false, timer := none, faults := sat16 x.faults }) s)) fun _ _ _ _ => rfl
  rw [hv]
  refine (hlatch.plain (plain_captureEvent zoneCell _)).congr ?_ fun _ => Iff.rfl
  unfold Ends.faultTold
  congr 1
  unfold latchZone updNotice
  rw [updZone_zone]
  rfl

theorem Reaches.commandDuck_off (h : Reaches as u v) : Reaches (.zones :: as)
    { u with zones := u.zones.set z { u.zones[z] with
      duck := u.zones[z].duck.command 0 (rampFrames u u.zones[z].cfg.duckRamp) } }
    (mark .zones (commandDuck z false v)) :=
  (h.plain (f := commandDuck z false) fun _ _ _ _ => rfl).area .zones

/-- A zone without a page enters FAULT. -/
theorem Reaches.zoneFault (h : Reaches as u v) (hp : u.zones[z].page = none) : Reaches (.zones :: as)
    (Ends.faultTold z cause prior (faultedZone u u.zones[z]) u) (Machine.zoneFault z cause prior v) := by
  have hv : v.zones = u.zones := by rw [h.1]; rfl
  have hduck := (h.faultTold (z := z) (cause := cause) (prior := prior)).commandDuck_off (z := z)
  unfold Machine.zoneFault
  rw [show v.zones[z].page = none by rw [hv]; exact hp]
  rw [show v.zones[z].page = none by rw [hv]; exact hp] at hduck
  refine hduck.congr ?_ fun _ => Iff.rfl
  obtain ⟨n, c, q, hf⟩ := faultTold_eq z cause prior u
  rw [hf, hf]
  simp only [Fin.getElem_fin, Vector.getElem_set_self, Vector.set_set]
  rfl

/-- A zone that carries a page enters FAULT, and the page is told. -/
theorem Reaches.zoneFault_page (h : Reaches as u v) (hp : u.zones[z].page = some p) : Reaches (.zones :: as)
    { Ends.faultTold z cause prior { faultedZone u u.zones[z] with
        page := none, pageHold := Gate.setTo (!u.zones[z].held) } u with
      notes := u.notes ++ [.zoneLost p z] } (Machine.zoneFault z cause prior v) := by
  have hv : v.zones = u.zones := by rw [h.1]; rfl
  have hend := (h.faultTold (z := z) (cause := cause) (prior := prior)).endCarry (z := z)
  have hduck := (hend.plain (f := tell (.zoneLost p z)) fun _ _ _ _ => rfl).commandDuck_off (z := z)
  unfold Machine.zoneFault
  rw [show v.zones[z].page = some p by rw [hv]; exact hp]
  rw [show v.zones[z].page = some p by rw [hv]; exact hp] at hduck
  refine hduck.congr (bs := .zones :: as) ?_ (by simp)
  obtain ⟨n, c, q, hf⟩ := faultTold_eq z cause prior u
  rw [hf, hf]
  have hcarried : ∀ w : State, w.header = u.header → carried w none none { u.zones[z] with
      state := .fault, ampen := false, timer := none, faults := min (u.zones[z].faults + 1) 65535 }
      = { faultedZone u u.zones[z] with page := none, pageHold := Gate.setTo (!u.zones[z].held) } := by
    intro w hw
    refine (rejudged_else (by nofun) (by nofun)).trans ?_
    unfold carrying faultedZone rampFrames pageHoldClosed
    rw [hw]
    cases u.zones[z].held <;> rfl
  let x' : Zone := { u.zones[z] with
    state := .fault, ampen := false, timer := none, faults := min (u.zones[z].faults + 1) 65535 }
  let w : State := { u with zones := u.zones.set z x', notice := n, cells := c, wq := q }
  let y : Zone := { faultedZone u u.zones[z] with page := none, pageHold := Gate.setTo (!u.zones[z].held) }
  have hget : w.zones[z] = x' := by simp [w]
  have hre : rezoned z (carried w none none w.zones[z]) w = { u with
      zones := u.zones.set z y, notice := n, cells := c, wq := q } := by
    rw [hget, hcarried w rfl, rezoned_of_live _ (by rw [hget]; rfl)]
    simp only [w, Vector.set_set]
    rfl
  have hy : y.duck.command 0 (rampFrames u y.cfg.duckRamp) = y.duck := command_command ..
  show { tell (.zoneLost p z) (rezoned z (carried w none none w.zones[z]) w) with
    zones := (rezoned z (carried w none none w.zones[z]) w).zones.set z
      { (rezoned z (carried w none none w.zones[z]) w).zones[z] with
        duck := (rezoned z (carried w none none w.zones[z]) w).zones[z].duck.command 0
          (rampFrames u (rezoned z (carried w none none w.zones[z]) w).zones[z].cfg.duckRamp) } } = _
  rw [hre]
  simp only [Fin.getElem_fin, Vector.getElem_set_self, Vector.set_set, hy]
  rfl

end

end Sys2Proof.Proofs.Ends
end

section
/-! PROOF. The power sequence of a zone, with its page and that page's call (R139 to R141, R153, R154, R161, R162). -/

namespace Sys2Proof.Proofs.Ends

open Sys2Proof.Machine

variable {s u v : State} {as : List Area} {z : ZoneId} {p : PageId} {pg : Page}

/-! ## A page judged anew, and what its call makes of it -/

/-- The state once a page stands LIVE. -/
def pageLive (p : PageId) (pg : Page) (s : State) : State :=
  { s with pages := s.pages.set p (some { pg with state := .live }) }

section

variable (h : Reaches as u v) (hp : u.pages[p] = some pg) (hn : u.notes = [])

include h hp hn

theorem Reaches.judged_request (ho : pg.state = .opened) (hl : allLive u pg.zones = true)
    (hreq : pg.opener = .request) : Settles 0 (.pages :: as) (judgePage p v) (pageLive p pg u) := by
  refine ((h.judgePage_live hp ho hl).congr ?_ fun _ => Iff.rfl).settles
  unfold pageLived pageLive liveTold
  rw [hreq]
  dsimp only
  rw [List.append_nil]

theorem Reaches.judged_told {c : CallId} (ho : pg.state = .opened) (hl : allLive u pg.zones = true)
    (hcall : pg.opener = .call c) {n : Nat} {bs : List Area} {w : State}
    (hnext : ∀ v', Reaches (.pages :: as) (pageLive p pg u) v' → Settles n bs (handleNote (.pageLive c) v') w) :
    Settles (n + 1) bs (judgePage p v) w := by
  have hlive := h.judgePage_live hp ho hl
  have hnotes : (pageLived p pg u).notes = [.pageLive c] := by
    unfold pageLived liveTold
    rw [hcall, hn]
    rfl
  refine hlive.note hnotes fun v' h' => hnext v' (h'.congr ?_ fun _ => Iff.rfl)
  unfold pageLived pageLive
  exact notes_self (s := { u with pages := u.pages.set p (some { pg with state := .live }) }) hn

theorem Reaches.judged_ignored {c : CallId} (ho : pg.state = .opened) (hl : allLive u pg.zones = true)
    (hcall : pg.opener = .call c) (hi : (u.calls[c].inst.map (·.phase)) ≠ some .waitZones) :
    Settles 1 (.pages :: as) (judgePage p v) (pageLive p pg u) :=
  h.judged_told hp hn ho hl hcall fun _ h' => (h'.pageLive_ignored hi).settles

theorem Reaches.judged_plays {c : CallId} {x : VoiceId} {i : CallInst} (ho : pg.state = .opened)
    (hl : allLive u pg.zones = true) (hcall : pg.opener = .call c) (hi : u.calls[c].inst = some i)
    (hph : i.phase = .waitZones) (hx : u.calls[c].cfg.voice = x) (hown : u.voices[x].owner = .call c) :
    Settles 1 (startAreas u.voices[x] ++ .pages :: as) (judgePage p v) { pageLive p pg u with
      calls := upd u.calls c (inPhase .playing), voices := upd u.voices x Voice.started } :=
  h.judged_told hp hn ho hl hcall fun _ h' =>
    ((h'.pageLive_plays hi hph hx hown).congr rfl (by simp [pageLive])).settles

end

/-! ## A zone that becomes LIVE -/

/-- A zone without a page has changed: nobody else hears of it. -/
theorem Reaches.drain_rezoned {y : Zone} (h : Reaches as (rezoned z y u) v) (hn : u.notes = []) (hy : y.page = none) :
    Reaches as { u with zones := u.zones.set z y } (drain v) := by
  have hnotes : (rezoned z y u).notes = liveNotes z u.zones[z] y ++ [] := by
    rw [List.append_nil]
    show u.notes ++ _ = _
    rw [hn, List.nil_append]
  have hlen : (liveNotes z u.zones[z] y).length ≤ 256 := by unfold liveNotes; split <;> simp
  refine ((h.idle_notes hnotes fun n hl => ?_).drained hlen rfl).congr ?_ fun _ => Iff.rfl
  · unfold liveNotes at hl
    split at hl
    · obtain rfl := List.mem_singleton.mp hl
      refine idle_zoneLive ?_
      unfold rezoned
      simpa using hy
    · exact absurd hl List.not_mem_nil
  · exact notes_self (s := { u with zones := u.zones.set z y }) hn

/-- A zone that has become LIVE has its page judged. -/
theorem Reaches.zoneLive {n : Nat} {bs : List Area} {w : State} (h : Reaches as (rezoned z (enteredLive u.zones[z]) u) v)
    (hn : u.notes = []) (hs : u.zones[z].state ≠ .live) (hp : u.zones[z].page = some p)
    (hj : ∀ v', Reaches as { u with zones := u.zones.set z (enteredLive u.zones[z]) } v' →
      Settles n bs (judgePage p v') w) : Settles (n + 1) bs v w := by
  have hnotes : (rezoned z (enteredLive u.zones[z]) u).notes = [.zoneLive z] := by
    show u.notes ++ liveNotes z u.zones[z] (enteredLive u.zones[z]) = _
    rw [hn, liveNotes, if_pos ⟨hs, rfl⟩]
    rfl
  refine h.note hnotes fun v' h' => ?_
  have h' := h'.congr (notes_self (s := { u with zones := u.zones.set z (enteredLive u.zones[z]) }) hn) fun _ => Iff.rfl
  have hv : v'.zones[z].page = some p := by
    rw [h'.1]
    show (u.zones.set z (enteredLive u.zones[z]))[z].page = _
    rw [Fin.getElem_fin, Vector.getElem_set_self]
    exact hp
  unfold handleNote
  dsimp only
  rw [hv]
  exact hj v' h'

/-- The events by which a zone enters LIVE. -/
theorem entersLive {cmd : Instr} (hruns : s.Runs) (hm : s.marks = [])
    (hc : (cmd = .ampOkTrue z ∧ s.zones[z].state = .checking ∧ s.clock.tickOpen = true ∧ s.zones[z].ampOk = true)
      ∨ (cmd = .stabilityWindowExpiry z ∧ s.zones[z].state = .powering ∧ s.zones[z].timer = some 0
        ∧ (s.zones[z].cfg.sample = 0 ∨ s.zones[z].cfg.sample = 255))) :
    s.zones[z].state ≠ .live ∧ ∃ v, exec cmd s = .next (finish v)
      ∧ Reaches [.zones] (rezoned z (enteredLive s.zones[z]) s) v := by
  rcases hc with ⟨rfl, hs, htick, hok⟩ | ⟨rfl, hs, htimer, hw⟩
  · have hdue : ampOkDue s z = true := by rw [ampOkDue, hs, htick, hok]; rfl
    have hne : s.zones[z].state ≠ .live := by rw [hs]; nofun
    exact ⟨hne, _, (running_next _ hruns).trans (congrArg _ (event_due hdue)), (Reaches.refl hm).zoneEnterLive hne⟩
  · have hdue : stabilityDue s z = true := by rw [stabilityDue, hs, htimer]; rfl
    have hne : s.zones[z].state ≠ .live := by rw [hs]; nofun
    refine ⟨hne, _, (running_next _ hruns).trans (congrArg _ (event_due hdue)), ?_⟩
    have h := (Reaches.refl hm).stabilityEnd (z := z) hne
    rw [stabilized, if_pos hw] at h
    exact h

/-! ## A zone that enters FAULT -/

/-- The events by which a zone enters FAULT. -/
theorem entersFault {cmd : Instr} {cause : ZoneFaultCause} {prior : ZoneState} (hruns : s.Runs)
    (hc : (cmd = .sampleWindowExpiry z ∧ s.zones[z].state = .checking ∧ s.zones[z].timer = some 0
          ∧ s.zones[z].ampOk = false ∧ cause = .sampleTimeout ∧ prior = .checking)
        ∨ (cmd = .ampDrop z ∧ s.zones[z].state = .live ∧ s.zones[z].cfg.sample ≠ 255
          ∧ 100 ≤ s.zones[z].falseRun ∧ cause = .ampDrop ∧ prior = .live)) :
    exec cmd s = .next (finish (zoneFault z cause prior s)) := by
  rcases hc with ⟨rfl, hs, ht, ha, rfl, rfl⟩ | ⟨rfl, hs, h255, hr, rfl, rfl⟩
  · have hdue : sampleDue s z = true := by rw [sampleDue, hs, ht, ha]; rfl
    exact (running_next _ hruns).trans (congrArg _ (event_due hdue))
  · have hdue : ampDropDue s z = true := by
      rw [ampDropDue, hs, Zone.supervised, bne_iff_ne.mpr h255, decide_eq_true hr]
      rfl
    exact (running_next _ hruns).trans (congrArg _ (event_due hdue))

/-! ## Without a page -/

theorem enteredLive_alone {x : Zone} (h : x.page = none) : enteredLive x = { x with
    state := .live, falseRun := 0
    timer := if x.relay = true ∨ x.cfg.idle = 0 ∨ x.cfg.stability = 255 then none
      else some (48 * (1000 * x.cfg.idle)) } := by
  unfold enteredLive Zone.demand Zone.idleTimer Zone.alwaysPowered framesOf
  rw [h]
  cases x.relay <;> simp

theorem entersLive_endsAs {cmd : Instr} (hruns : s.Runs) (hq : s.Quiet) (hp : s.zones[z].page = none)
    (hc : (cmd = .ampOkTrue z ∧ s.zones[z].state = .checking ∧ s.clock.tickOpen = true ∧ s.zones[z].ampOk = true)
      ∨ (cmd = .stabilityWindowExpiry z ∧ s.zones[z].state = .powering ∧ s.zones[z].timer = some 0
        ∧ (s.zones[z].cfg.sample = 0 ∨ s.zones[z].cfg.sample = 255))) :
    ∃ t, exec cmd s = .next t
      ∧ State.EndsAs [.zones] { s with zones := s.zones.set z (enteredLive s.zones[z]) } t := by
  obtain ⟨_, v, hexec, h⟩ := entersLive hruns hq.2 hc
  exact ⟨_, hexec, Reaches.endsAs_drained rfl (h.drain_rezoned hq.1 hp) hq.1⟩

theorem faultTold_notes (z : ZoneId) (cause : ZoneFaultCause) (prior : ZoneState) (y : Zone) (s : State) :
    (faultTold z cause prior y s).notes = s.notes := by
  obtain ⟨_, _, _, h⟩ := faultTold_eq z cause prior s
  rw [h]

/-! ## With a page -/

/-- What follows where a zone with a page has entered LIVE. -/
theorem entersLive_page {cmd : Instr} (hruns : s.Runs) (hq : s.Quiet)
    (hc : (cmd = .ampOkTrue z ∧ s.zones[z].state = .checking ∧ s.clock.tickOpen = true ∧ s.zones[z].ampOk = true)
      ∨ (cmd = .stabilityWindowExpiry z ∧ s.zones[z].state = .powering ∧ s.zones[z].timer = some 0
        ∧ (s.zones[z].cfg.sample = 0 ∨ s.zones[z].cfg.sample = 255)))
    (hp : s.zones[z].page = some p) (hpg : s.pages[p] = some pg) :
    let u := { s with zones := s.zones.set z { s.zones[z] with state := .live, falseRun := 0, timer := none } }
    let others := ∀ y : ZoneId, y ≠ z → pg.zones.getLsbD y = true → s.zones[y].state = .live
    let w := { u with pages := s.pages.set p (some { pg with state := .live }) }
    ∃ t, exec cmd s = .next t
      ∧ (pg.state = .live ∨ ¬ others → u.EndsAs [.zones] t)
      ∧ (pg.state = .opened → others → pg.opener = .request → w.EndsAs [.zones, .pages] t)
      ∧ (∀ c : CallId, pg.state = .opened → others → pg.opener = .call c →
          (s.calls[c].inst.map (·.phase)) ≠ some .waitZones → w.EndsAs [.zones, .pages] t)
      ∧ ∀ (c : CallId) (i : CallInst) (x : VoiceId), pg.state = .opened → others → pg.opener = .call c →
          s.calls[c].inst = some i → i.phase = .waitZones → s.calls[c].cfg.voice = x → s.voices[x].owner = .call c →
          State.EndsAs ([.zones, .pages] ++ startAreas s.voices[x])
            { w with
              calls := upd s.calls c fun x => { x with inst := some { i with phase := .playing } }
              voices := upd s.voices x Voice.started } t := by
  intro u others w
  obtain ⟨hne, v, hexec, h⟩ := entersLive hruns hq.2 hc
  have hlive : enteredLive s.zones[z] = { s.zones[z] with state := .live, falseRun := 0, timer := none } := by
    have hd : s.zones[z].demand = true := by rw [Zone.demand, hp, Option.isSome_some, Bool.or_true]
    unfold enteredLive
    rw [if_pos hd]
  have hstart : { s with zones := s.zones.set z (enteredLive s.zones[z]) } = u := by rw [hlive]
  have hothers : allLive u pg.zones = true ↔ others := by
    rw [allLive_iff]
    refine ⟨fun ha y hy hb => ?_, fun ha y hy => ?_⟩
    · have := ha y (mem_zonesOf.mpr hb)
      rwa [show u.zones[y] = s.zones[y] from
        Vector.getElem_set_ne z.isLt y.isLt fun he => hy (Fin.ext he.symm)] at this
    · by_cases hz : y = z
      · subst hz
        simp [u]
      · rw [show u.zones[y] = s.zones[y] from
          Vector.getElem_set_ne z.isLt y.isLt fun he => hz (Fin.ext he.symm)]
        exact ha y hz (mem_zonesOf.mp hy)
  have hends {n : Nat} {bs cs : List Area} {w' : State} (hn : n ≤ 1) (hw : w'.notes = s.notes)
      (hb : ∀ a, a ∈ bs ↔ a ∈ cs)
      (hj : ∀ v', Reaches [.zones] u v' → Settles n bs (judgePage p v') w') : w'.EndsAs cs (finish v) := by
    have hd := (h.zoneLive hq.1 hne hp fun v' h' => hj v' (hstart ▸ h')).drained (by omega) (hw.trans hq.1)
    exact Reaches.endsAs_drained rfl (hd.congr rfl hb) (hw.trans hq.1)
  refine ⟨_, hexec, fun hno => ?_, fun ho hot hreq => ?_, fun c ho hot hcall hi => ?_,
    fun c i x ho hot hcall hi hph hx hown => ?_⟩
  · refine hends (n := 0) (by omega) rfl (fun _ => Iff.rfl) fun v' h' => ?_
    refine (h'.judgePage_same hpg fun hj => ?_).settles
    rcases hno with hno | hno
    · rw [hno] at hj
      exact nomatch hj.1
    · exact hno (hothers.mp hj.2)
  · exact hends (n := 0) (by omega) rfl (by simp [or_comm]) fun v' h' =>
      h'.judged_request hpg hq.1 ho (hothers.mpr hot) hreq
  · exact hends (n := 1) (by omega) rfl (by simp [or_comm]) fun v' h' =>
      h'.judged_ignored hpg hq.1 ho (hothers.mpr hot) hcall hi
  · refine hends (n := 1) (by omega) rfl ?_ fun v' h' =>
      (h'.judged_plays hpg hq.1 ho (hothers.mpr hot) hcall hi hph hx hown).congr ?_ fun _ => Iff.rfl
    · intro a
      simp only [u, List.mem_append, List.mem_cons, List.not_mem_nil, or_false]
      tauto
    · have : upd s.calls c (inPhase .playing)
          = upd s.calls c fun x => { x with inst := some { i with phase := .playing } } := by
        unfold upd inPhase
        rw [hi]
        rfl
      rw [show upd u.calls c (inPhase .playing) = _ from this]
      rfl

/-- The page of a zone that has entered FAULT is told, and loses the zone. -/
theorem Reaches.zoneLost {n : Nat} {bs : List Area} {w : State} (h : Reaches as { u with notes := [.zoneLost p z] } v)
    (hn : u.notes = [])
    (hj : ∀ v', Reaches as u v' → Settles n bs (loseZone p z .noZones v') w) : Settles (n + 1) bs v w :=
  h.note rfl fun v' h' => hj v' (h'.congr (notes_self hn) fun _ => Iff.rfl)

/-- The state once a page has lost its last zone by a fault. -/
def lastLost (p : PageId) (pg : Page) (s : State) : State := { s with
  pages := s.pages.set p none
  lastClosed := some { id := p, opener := pg.opener, reason := .noZones, time := s.tod }
  calls := withoutPage pg.opener s.calls }

theorem Reaches.lastLost_request (h : Reaches as u v) (hn : u.notes = []) (hp : u.pages[p] = some pg)
    (hl : (Without pg z).zones = 0#24) (hreq : pg.opener = .request) :
    Settles 0 (.pages :: as) (loseZone p z .noZones v) (lastLost p pg u) := by
  refine ((h.loseZone_last .noZones hp hl).congr ?_ fun _ => Iff.rfl).settles
  unfold lastLost
  rw [hreq]
  simp only [closeNotes, List.append_nil]

/-- Notices given do not change what the end of a call makes of the state. -/
theorem callLost_notes {c : CallId} {x : VoiceId} {i : CallInst} {q : State} {ns : List Note} (hq : q.notes = []) :
    { callLost c x i { q with notes := ns } with notes := [] } = callLost c x i q := by
  unfold callLost
  split
  · exact notes_self (s := idledAt x (ended c (.done true) q)) hq
  · rw [missed_eq, missed_eq]
    exact notes_self (s := idledAt x { ended c (.missed .pageClosed) q with
      missedCalls := _, cells := _, wq := _ }) hq

theorem Reaches.lastLost_call {c : CallId} {i : CallInst} {x : VoiceId} (h : Reaches as u v) (hn : u.notes = [])
    (hp : u.pages[p] = some pg) (hl : (Without pg z).zones = 0#24) (hcall : pg.opener = .call c)
    (hi : u.calls[c].inst = some i) (hph : i.phase ≠ .waitVoice) (hx : u.calls[c].cfg.voice = x)
    (ha : u.CallAlone c x (some p)) (hs : u.voices[x].state ≠ .idle) :
    Settles 2 (.voices :: .pages :: .pages :: as) (loseZone p z .noZones v)
      (Ends.callLost c x { i with page := none } (lastLost p pg u)) := by
  have hlast := h.loseZone_last .noZones hp hl
  have hnotes : u.notes ++ closeNotes pg.opener .noZones = [] ++ [.pageClosed c .noZones] := by rw [hn, hcall]; rfl
  obtain ⟨hget, hgone, hw⟩ := callAlone_closed ha hi hph (t := lastLost p pg u) rfl (by rw [lastLost, hcall])
  exact (hlast.settles_callLost (c := c) (i := { i with page := none }) (x := x) (l := []) hnotes nofun
    (congrArg (·.inst) hget) rfl hph ((congrArg (·.cfg.voice) hget).trans hx) ha.1 hs (by decide) hgone hw).congr
    (callLost_notes (q := lastLost p pg u) hn) fun _ => Iff.rfl

/-- The other zones of a page. -/
def othersOf (pg : Page) (z : ZoneId) : List ZoneId := (List.finRange 24).filter fun y => y != z && pg.zones.getLsbD y

/-- The state once a page has lost a zone by a fault, `live` saying whether its other zones are LIVE. -/
def fewer (p : PageId) (pg : Page) (z : ZoneId) (live : Prop) [Decidable live] (s : State) : State := { s with
  pages := s.pages.set p (if othersOf pg z = [] then none else some { pg with
    zones := pg.zones &&& ~~~(BitVec.ofNat 24 (2 ^ z.val))
    state := if live then .live else pg.state })
  lastClosed := if othersOf pg z = []
    then some { id := p, opener := pg.opener, reason := .noZones, time := s.tod }
    else s.lastClosed }

theorem othersOf_eq_nil : othersOf pg z = [] ↔ (Without pg z).zones = 0#24 := by
  rw [← zonesOf_eq_nil, zonesOf_without, othersOf]

section

variable {live : Prop} [Decidable live]

theorem fewer_last (hl : othersOf pg z = []) (hreq : pg.opener = .request) :
    fewer p pg z live s = lastLost p pg s := by
  unfold fewer lastLost
  rw [if_pos hl, if_pos hl, hreq]
  rfl

theorem fewer_last_call {c : CallId} (hl : othersOf pg z = []) (hcall : pg.opener = .call c) :
    { fewer p pg z live s with calls := withoutPage (.call c) s.calls } = lastLost p pg s := by
  unfold fewer lastLost
  rw [if_pos hl, if_pos hl, hcall]

theorem fewer_live (hl : othersOf pg z ≠ []) (h : live) : fewer p pg z live s
    = pageLive p (Without pg z) { s with pages := s.pages.set p (some (Without pg z)) } := by
  unfold fewer pageLive
  rw [if_neg hl, if_neg hl, if_pos h, Vector.set_set]
  rfl

theorem fewer_same (hl : othersOf pg z ≠ []) (h : ¬ (pg.state = .opened ∧ live)) : fewer p pg z live s
    = { s with pages := s.pages.set p (some (Without pg z)) } := by
  have : (if live then PageState.live else pg.state) = pg.state := by
    split
    · next hlive =>
      cases hst : pg.state with
      | opened => exact absurd ⟨hst, hlive⟩ h
      | live => rfl
    · rfl
  unfold fewer
  rw [if_neg hl, if_neg hl, this]
  rfl

variable (h : Reaches as u v) (hn : u.notes = []) (hp : u.pages[p] = some pg)
  (hall : allLive u (Without pg z).zones = true ↔ live)

include h hn hp hall

/-- A page loses a zone and keeps others: it is judged anew. -/
theorem Reaches.fewer_judged {n : Nat} {w : State} (hl : othersOf pg z ≠ [])
    (hj : ∀ v', Reaches (.pages :: as) { u with pages := u.pages.set p (some (Without pg z)) } v' →
      Settles n bs (judgePage p v') w) : Settles n bs (loseZone p z .noZones v) w :=
  h.loseZone_left (C := fun q => Settles n bs q w) .noZones hp (mt othersOf_eq_nil.mpr hl) hj

theorem Reaches.fewer_request (hreq : pg.opener = .request) :
    ∃ bs, (∀ a, a ∈ bs ↔ a ∈ .pages :: as) ∧ Settles 0 bs (loseZone p z .noZones v) (fewer p pg z live u) := by
  have hget : (u.pages.set p (some (Without pg z)))[p] = some (Without pg z) := by simp
  by_cases hl : othersOf pg z = []
  · rw [fewer_last hl hreq]
    exact ⟨_, fun _ => Iff.rfl, h.lastLost_request hn hp (othersOf_eq_nil.mp hl) hreq⟩
  · by_cases hj : pg.state = .opened ∧ live
    · rw [fewer_live hl hj.2]
      exact ⟨.pages :: .pages :: as, by simp, h.fewer_judged hn hp hall hl fun _ h' =>
        h'.judged_request hget hn hj.1 (hall.mpr hj.2) hreq⟩
    · rw [fewer_same hl hj]
      exact ⟨_, fun _ => Iff.rfl, h.fewer_judged hn hp hall hl fun _ h' =>
        (h'.judgePage_same hget fun ⟨ho, ha⟩ => hj ⟨ho, hall.mp ha⟩).settles⟩

theorem Reaches.fewer_waits {c : CallId} {i : CallInst} (hl : othersOf pg z ≠ []) (hcall : pg.opener = .call c)
    (hi : u.calls[c].inst = some i) (hno : ¬ (pg.state = .opened ∧ live ∧ i.phase = .waitZones)) :
    ∃ n bs, n ≤ 1 ∧ (∀ a, a ∈ bs ↔ a ∈ .pages :: as)
      ∧ Settles n bs (loseZone p z .noZones v) (fewer p pg z live u) := by
  have hget : (u.pages.set p (some (Without pg z)))[p] = some (Without pg z) := by simp
  by_cases hj : pg.state = .opened ∧ live
  · rw [fewer_live hl hj.2]
    refine ⟨1, .pages :: .pages :: as, Nat.le_refl 1, by simp, h.fewer_judged hn hp hall hl fun _ h' =>
      h'.judged_ignored hget hn hj.1 (hall.mpr hj.2) hcall (c := c) fun hw => ?_⟩
    have hph : (u.calls[c].inst.map (·.phase)) = some .waitZones := hw
    rw [hi] at hph
    exact hno ⟨hj.1, hj.2, Option.some.inj hph⟩
  · rw [fewer_same hl hj]
    exact ⟨0, _, Nat.zero_le 1, fun _ => Iff.rfl, h.fewer_judged hn hp hall hl fun _ h' =>
      (h'.judgePage_same hget fun ⟨ho, ha⟩ => hj ⟨ho, hall.mp ha⟩).settles⟩

theorem Reaches.fewer_plays {c : CallId} {i : CallInst} {x : VoiceId} (hl : othersOf pg z ≠ [])
    (hcall : pg.opener = .call c) (ho : pg.state = .opened) (hlive : live) (hi : u.calls[c].inst = some i)
    (hph : i.phase = .waitZones) (hx : u.calls[c].cfg.voice = x) (hown : u.voices[x].owner = .call c) :
    Settles 1 (startAreas u.voices[x] ++ .pages :: .pages :: as) (loseZone p z .noZones v)
      { fewer p pg z live u with
        calls := upd u.calls c (inPhase .playing), voices := upd u.voices x Voice.started } := by
  have hget : (u.pages.set p (some (Without pg z)))[p] = some (Without pg z) := by simp
  rw [fewer_live hl hlive]
  exact h.fewer_judged hn hp hall hl fun _ h' =>
    h'.judged_plays hget hn ho (hall.mpr hlive) hcall hi hph hx hown

end

section

variable {cause : ZoneFaultCause} {prior : ZoneState} {cmd : Instr}

/-- The state once a zone with a page has entered FAULT, its page still to be told. -/
def pagedFault (z : ZoneId) (cause : ZoneFaultCause) (prior : ZoneState) (s : State) : State :=
  faultTold z cause prior { faultedZone s s.zones[z] with
    page := none, pageHold := Gate.setTo (!s.zones[z].held) } s

theorem pagedFault_eq (z : ZoneId) (cause : ZoneFaultCause) (prior : ZoneState) (s : State) : ∃ n c q,
    pagedFault z cause prior s = { s with zones := s.zones.set z { faultedZone s s.zones[z] with
      page := none, pageHold := Gate.setTo (!s.zones[z].held) }, notice := n, cells := c, wq := q } := by
  obtain ⟨n, c, q, h⟩ := faultTold_eq z cause prior s
  exact ⟨n, c, q, h _⟩

theorem entersFault_ends (hruns : s.Runs) (hq : s.Quiet) (hp : s.zones[z].page = some p)
    (hc : (cmd = .sampleWindowExpiry z ∧ s.zones[z].state = .checking ∧ s.zones[z].timer = some 0
          ∧ s.zones[z].ampOk = false ∧ cause = .sampleTimeout ∧ prior = .checking)
        ∨ (cmd = .ampDrop z ∧ s.zones[z].state = .live ∧ s.zones[z].cfg.sample ≠ 255
          ∧ 100 ≤ s.zones[z].falseRun ∧ cause = .ampDrop ∧ prior = .live)) :
    ∃ t, exec cmd s = .next t ∧ ∀ bs (w : State), w.notes = [] →
      (∀ v, Reaches [.zones] (pagedFault z cause prior s) v →
        ∃ n ≤ 2, ∃ as, (∀ a, a ∈ as ↔ a ∈ bs) ∧ Settles n as (loseZone p z .noZones v) w) →
      w.EndsAs bs t := by
  have hn : (pagedFault z cause prior s).notes = [] := (faultTold_notes ..).trans hq.1
  have hreach : Reaches [.zones] { pagedFault z cause prior s with notes := [.zoneLost p z] }
      (zoneFault z cause prior s) := by
    refine ((Reaches.refl hq.2).zoneFault_page (cause := cause) (prior := prior) hp).congr ?_ fun _ => Iff.rfl
    rw [hq.1]
    rfl
  refine ⟨_, entersFault hruns hc, fun bs w hw hj => ?_⟩
  have h' := hreach.plain (f := fun q => { q with notes := [] }) fun _ _ _ _ => rfl
  obtain ⟨n, hle, as, hb, hset⟩ := hj _ (h'.congr (notes_self hn) fun _ => Iff.rfl)
  have hv : (zoneFault z cause prior s).notes = [.zoneLost p z] := by rw [hreach.1]; rfl
  obtain ⟨q, hwork, hr⟩ := hset
  have hd := (show Settles (n + 1) as (zoneFault z cause prior s) w from ⟨q, hwork.step hv, hr⟩).drained (by omega) hw
  exact Reaches.endsAs_drained rfl (hd.congr rfl hb) hw

/-- The zones but the one that has entered FAULT. -/
theorem pagedFault_allLive : allLive (pagedFault z cause prior s) (Without pg z).zones = true
    ↔ ∀ y ∈ othersOf pg z, s.zones[y].state = .live := by
  rw [allLive_iff, zonesOf_without]
  refine forall₂_congr fun y hy => ?_
  have hyz : y ≠ z := by
    have := (List.mem_filter.mp hy).2
    rw [Bool.and_eq_true, bne_iff_ne] at this
    exact this.1
  obtain ⟨n, c, q, h⟩ := pagedFault_eq z cause prior s
  rw [h]
  have : (s.zones.set z { faultedZone s s.zones[z] with
      page := none, pageHold := Gate.setTo (!s.zones[z].held) })[y] = s.zones[y] :=
    Vector.getElem_set_ne z.isLt y.isLt fun he => hyz (Fin.ext he.symm)
  rw [this]

/-- What follows where a zone with a page has entered FAULT. -/
theorem entersFault_page (hruns : s.Runs) (hq : s.Quiet) (hp : s.zones[z].page = some p) (hpg : s.pages[p] = some pg)
    (hc : (cmd = .sampleWindowExpiry z ∧ s.zones[z].state = .checking ∧ s.zones[z].timer = some 0
          ∧ s.zones[z].ampOk = false ∧ cause = .sampleTimeout ∧ prior = .checking)
        ∨ (cmd = .ampDrop z ∧ s.zones[z].state = .live ∧ s.zones[z].cfg.sample ≠ 255
          ∧ 100 ≤ s.zones[z].falseRun ∧ cause = .ampDrop ∧ prior = .live)) :
    let allLive : Prop := ∀ y ∈ othersOf pg z, s.zones[y].state = .live
    let told : State := pagedFault z cause prior s
    let faulted : State := fewer p pg z allLive told
    ∃ t, exec cmd s = .next t
      ∧ (pg.opener = .request → faulted.EndsAs [.zones, .pages] t)
      ∧ ∀ (c : CallId) (i : CallInst) (x : VoiceId), pg.opener = .call c → s.calls[c].inst = some i →
          i.phase ≠ .waitVoice → s.calls[c].cfg.voice = x → s.CallAlone c x (some p) → s.voices[x].state ≠ .idle →
          let begins : Prop := pg.state = .opened ∧ allLive ∧ i.phase = .waitZones
          (othersOf pg z = [] → State.EndsAs [.zones, .pages, .voices]
              (callLost c x { i with page := none } { faulted with calls := withoutPage (.call c) s.calls }) t)
          ∧ (othersOf pg z ≠ [] → ¬ begins → faulted.EndsAs [.zones, .pages] t)
          ∧ (othersOf pg z ≠ [] → begins → State.EndsAs ([.zones, .pages] ++ startAreas s.voices[x])
              { faulted with
                calls := upd s.calls c (inPhase .playing)
                voices := upd s.voices x Voice.started } t) := by
  intro allLive told faulted
  have htoldn : told.notes = [] := (faultTold_notes ..).trans hq.1
  have hfn : faulted.notes = [] := htoldn
  have hall := pagedFault_allLive (z := z) (cause := cause) (prior := prior) (pg := pg) (s := s)
  have hparts : told.pages = s.pages ∧ told.calls = s.calls ∧ told.voices = s.voices := by
    obtain ⟨n, k, q, h⟩ := pagedFault_eq z cause prior s
    unfold told
    rw [h]
    exact ⟨rfl, rfl, rfl⟩
  obtain ⟨hpages, hcalls, hvoices⟩ := hparts
  have hget : told.pages[p] = some pg := by rw [hpages]; exact hpg
  obtain ⟨t, hexec, hends⟩ := entersFault_ends hruns hq hp hc
  have halone (c : CallId) (x : VoiceId) (ha : s.CallAlone c x (some p)) : told.CallAlone c x (some p) := by
    obtain ⟨n, k, q, h⟩ := pagedFault_eq z cause prior s
    unfold told
    rw [h]
    exact ha
  have hends : ∀ bs (w : State), w.notes = [] → (∀ v, Reaches [.zones] told v →
      ∃ n ≤ 2, ∃ as, (∀ a, a ∈ as ↔ a ∈ bs) ∧ Settles n as (loseZone p z .noZones v) w) → w.EndsAs bs t := hends
  have hall : Machine.allLive told (Without pg z).zones = true ↔ allLive := hall
  clear_value told
  refine ⟨t, hexec, fun hreq => ?_, fun c i x hcall hi hph hx ha hs => ?_⟩
  · refine hends _ _ hfn fun v h => ?_
    obtain ⟨bs, hb, hset⟩ := h.fewer_request htoldn hget hall hreq
    exact ⟨0, by omega, bs, fun a => (hb a).trans (by simp [or_comm]), hset⟩
  rw [← hcalls] at hi hx ⊢
  rw [← hvoices] at hs ⊢
  have ha := halone c x ha
  refine ⟨fun hl => ?_, fun hl hno => ?_, fun hl ⟨ho, hal, hwz⟩ => ?_⟩
  · rw [fewer_last_call hl hcall]
    refine hends _ _ ?_ fun v h => ⟨2, by omega, _, ?_,
      h.lastLost_call htoldn hget (othersOf_eq_nil.mp hl) hcall hi hph hx ha hs⟩
    · rw [← callLost_notes (ns := []) (show (lastLost p pg told).notes = [] from htoldn)]
    · simp; tauto
  · refine hends _ _ hfn fun v h => ?_
    obtain ⟨n, bs, hle, hb, hset⟩ := h.fewer_waits htoldn hget hall hl hcall hi hno
    exact ⟨n, by omega, bs, fun a => (hb a).trans (by simp [or_comm]), hset⟩
  · refine hends _ _ hfn fun v h => ⟨1, by omega, _, fun a => ?_,
      h.fewer_plays htoldn hget hall hl hcall ho hal hi hwz hx ha.1⟩
    simp only [List.mem_append, List.mem_cons, List.not_mem_nil, or_false]
    tauto

end

end Sys2Proof.Proofs.Ends
end

section
/-! PROOF. The power sequence of a zone: the statement of O54 (R139 to R141, R153, R154, R161, R162). -/

namespace Sys2Proof.Proofs.Ends

open Sys2Proof.Machine

variable {s u v : State} {as : List Area} {z : ZoneId} {p : PageId} {pg : Page}

/-- A zone that is not LIVE after its change is told to nobody. -/
theorem rezoned_alone {y : Zone} (hs : s.zones[z].state = .live ∨ y.state ≠ .live) :
    rezoned z y s = { s with zones := s.zones.set z y } := by
  unfold rezoned liveNotes
  rw [if_neg fun h => hs.elim h.1 fun hy => hy h.2, List.append_nil]

/-- The page of a zone that becomes FAULT, as a capture hands it over. -/
theorem fewer_pagedFault {cause : ZoneFaultCause} {prior : ZoneState} {live : Prop} [Decidable live]
    (hp : s.zones[z].page = some p) : fewer p pg z live (pagedFault z cause prior s) = captureEvent zoneCell
      [wordOf z.val, Config.code (.zoneCause cause), Config.code (.zoneState prior),
        wordOf p.val, wordOf (bitOf s.zones[z].relay)] { s with
      zones := s.zones.set z { s.zones[z] with
        state := .fault, ampen := false, timer := none, faults := min (s.zones[z].faults + 1) 65535
        page := none, pageHold := Gate.setTo (!s.zones[z].held)
        duck := s.zones[z].duck.command 0 (rampFrames s s.zones[z].cfg.duckRamp) }
      pages := s.pages.set p (if othersOf pg z = [] then none else some { pg with
        zones := pg.zones &&& ~~~(BitVec.ofNat 24 (2 ^ z.val))
        state := if live then .live else pg.state })
      lastClosed := if othersOf pg z = []
        then some { id := p, opener := pg.opener, reason := .noZones, time := s.tod }
        else s.lastClosed
      notice := { s.notice with
        zone := s.notice.zone || !(s.zones[z].cfg.faultMask || s.header.zoneMask) } } := by
  unfold fewer pagedFault faultTold zoneDetails
  rw [hp, captureEvent_eq, captureEvent_eq]
  rfl

/-- The end of a call whose page has closed by a fault, its page no longer its own. -/
theorem callLost_paged {c : CallId} {i : CallInst} {x : VoiceId} {t : State} (hi : t.calls[c].inst = some i) :
    callLost c x { i with page := none } { t with calls := withoutPage (.call c) t.calls }
      = callLost c x i t := by
  have hcalls {o : CallOutcome} : ended c o { t with calls := withoutPage (.call c) t.calls } = ended c o t := by
    unfold ended withoutPage
    dsimp only
    rw [upd_upd]
  unfold callLost
  rw [hcalls, missed_eq, missed_eq, hcalls]
  rfl

/-- The powering of a zone ends in CHECKING, or in LIVE with nothing to check. -/
theorem stability_endsAs (hruns : s.Runs) (hq : s.Quiet) (hs : s.zones[z].state = .powering)
    (ht : s.zones[z].timer = some 0) : ∃ t, exec (.stabilityWindowExpiry z) s = .next t
      ∧ (s.zones[z].cfg.sample ≠ 0 → s.zones[z].cfg.sample ≠ 255 → State.EndsAs [.zones] { s with
          zones := s.zones.set z { s.zones[z] with state := .checking, timer := some (10 * s.zones[z].cfg.sample) } } t)
      ∧ (s.zones[z].page = none → s.zones[z].cfg.sample = 0 ∨ s.zones[z].cfg.sample = 255 →
          State.EndsAs [.zones] { s with zones := s.zones.set z (enteredLive s.zones[z]) } t) := by
  have hdue : stabilityDue s z = true := by rw [stabilityDue, hs, ht]; rfl
  have hexec : exec (.stabilityWindowExpiry z) s = _ := (running_next _ hruns).trans (congrArg _ (event_due hdue))
  refine ⟨_, hexec, fun h0 h255 => ?_, fun hp hw => ?_⟩
  · have h := (Reaches.refl hq.2).stabilityEnd (z := z) (by rw [hs]; nofun)
    rw [stabilized, if_neg (not_or.mpr ⟨h0, h255⟩), rezoned_alone (.inr (by nofun))] at h
    exact h.endsAs hq.1
  · obtain ⟨t, ht', hends⟩ := entersLive_endsAs hruns hq hp (.inr ⟨rfl, hs, ht, hw⟩)
    obtain rfl := Host.Outcome.next.inj (hexec.symm.trans ht')
    exact hends

theorem idle_endsAs (hruns : s.Runs) (hq : s.Quiet) (hs : s.zones[z].state = .live)
    (ht : s.zones[z].timer = some 0) : ∃ t, exec (.idleTimerExpiry z) s = .next t
      ∧ State.EndsAs [.zones] { s with zones := s.zones.set z { s.zones[z] with
          state := .off, ampen := false, timer := none, falseRun := 0 } } t := by
  have hdue : idleDue s z = true := by rw [idleDue, hs, ht]; rfl
  have h := ((Reaches.refl hq.2).plain (f := updZone z (fun x => { x with
    state := .off, ampen := false, timer := none, falseRun := 0 })) fun _ _ _ _ => rfl).area .zones
  exact ⟨_, (running_next _ hruns).trans (congrArg _ (event_due hdue)), h.endsAs hq.1⟩

section

variable {cause : ZoneFaultCause} {prior : ZoneState} {cmd : Instr}

/-- A zone without a page enters FAULT. -/
theorem entersFault_alone (hruns : s.Runs) (hq : s.Quiet) (hp : s.zones[z].page = none)
    (hc : (cmd = .sampleWindowExpiry z ∧ s.zones[z].state = .checking ∧ s.zones[z].timer = some 0
          ∧ s.zones[z].ampOk = false ∧ cause = .sampleTimeout ∧ prior = .checking)
        ∨ (cmd = .ampDrop z ∧ s.zones[z].state = .live ∧ s.zones[z].cfg.sample ≠ 255
          ∧ 100 ≤ s.zones[z].falseRun ∧ cause = .ampDrop ∧ prior = .live)) :
    ∃ t, exec cmd s = .next t ∧ State.EndsAs [.zones]
        (captureEvent zoneCell
          [wordOf z.val, Config.code (.zoneCause cause), Config.code (.zoneState prior), 4#32,
            wordOf (bitOf s.zones[z].relay)] { s with
          zones := s.zones.set z { s.zones[z] with
            state := .fault, ampen := false, timer := none, faults := min (s.zones[z].faults + 1) 65535
            duck := s.zones[z].duck.command 0 (rampFrames s s.zones[z].cfg.duckRamp) }
          notice := { s.notice with
            zone := s.notice.zone || !(s.zones[z].cfg.faultMask || s.header.zoneMask) } }) t := by
  have h := (Reaches.refl hq.2).zoneFault (z := z) (cause := cause) (prior := prior) hp
  have hends := h.endsAs ((faultTold_notes ..).trans hq.1)
  unfold faultTold zoneDetails at hends
  rw [hp] at hends
  exact ⟨_, entersFault hruns hc, hends⟩

end

/-- Settles O54: the power sequence alone, the faults of a zone with a page, and the page of a zone that becomes
LIVE. -/
theorem zoneRunsItsPowerSequence : Obligations.ZoneRunsItsPowerSequence := by
  unfold Obligations.ZoneRunsItsPowerSequence
  refine ⟨fun s z hruns hq => ⟨fun hs ht => ?_, fun hp hs htick hok => ?_,
    fun hp hs ht hok => entersFault_alone hruns hq hp (.inl ⟨rfl, hs, ht, hok, rfl, rfl⟩),
    fun hp hs h255 hr => entersFault_alone hruns hq hp (.inr ⟨rfl, hs, h255, hr, rfl, rfl⟩),
    fun hs ht => idle_endsAs hruns hq hs ht⟩, fun s z p pg cmd cause prior hruns hq hp hpg _ hc => ?_,
    fun s z p pg cmd hruns hq hc hp hpg => ?_⟩
  · obtain ⟨t, hexec, hchecking, hlive⟩ := stability_endsAs hruns hq hs ht
    refine ⟨t, hexec, hchecking, fun hp hw => ?_⟩
    have hends := hlive hp hw
    rw [enteredLive_alone hp] at hends
    exact hends
  · have hends := entersLive_endsAs hruns hq hp (.inl ⟨rfl, hs, htick, hok⟩)
    rw [enteredLive_alone hp] at hends
    exact hends
  · intro x left allLive faulted
    obtain ⟨t, hexec, hreq, hcall⟩ := entersFault_page hruns hq hp hpg hc
    have hfew : fewer p pg z (∀ y ∈ othersOf pg z, s.zones[y].state = .live) (pagedFault z cause prior s) = faulted :=
      fewer_pagedFault hp
    have hparts : faulted.calls = s.calls ∧ faulted.voices = s.voices ∧ faulted.missedCalls = s.missedCalls
        ∧ ∀ v, (staleBurst v faulted).arb = (staleBurst v s).arb := by
      unfold faulted
      rw [captureEvent_eq]
      exact ⟨rfl, rfl, rfl, fun _ => rfl⟩
    rw [hfew] at hreq hcall
    clear_value faulted
    obtain ⟨hcalls, hvoices, hmissed, hstale⟩ := hparts
    refine ⟨t, hexec, hreq, fun c i ho hi hph hip ha hs => ?_⟩
    obtain ⟨hlast, hwaits, hplays⟩ := hcall c i _ ho hi hph rfl ha hs
    rw [← hcalls, callLost_paged (by rw [hcalls]; exact hi)] at hlast
    refine ⟨fun hl hw => ?_, fun hl hpl => ?_, hwaits, fun hl hb => ?_⟩
    · have hends := hlast hl
      rw [callLost_waiting hw, missed_eq] at hends
      unfold idledAt ended at hends
      rw [hcalls] at hends
      rw [captureEvent_eq, ← hstale, ← hvoices, ← hmissed]
      exact hends
    · have hends := hlast hl
      rw [callLost_playing hpl] at hends
      unfold idledAt ended at hends
      rw [hcalls] at hends
      dsimp only
      rw [← hstale, ← hvoices]
      exact hends
    · have hends := hplays hl hb
      have : upd s.calls c (inPhase .playing)
          = upd s.calls c fun y => { y with inst := some { i with phase := .playing } } := by
        unfold upd inPhase
        rw [hi]
        rfl
      rw [this] at hends
      exact hends
  · obtain ⟨t, hexec, hsame, hreq, hignored, hplays⟩ := entersLive_page hruns hq hc hp hpg
    exact ⟨t, hexec, hsame, hreq, hignored, fun c i ho hot hcall hi hph hown =>
      hplays c i _ ho hot hcall hi hph rfl hown⟩

end Sys2Proof.Proofs.Ends
end

section
/-! PROOF. A voice enters IDLE that a call plays: the page on it closes and the call ends (R126, R154, R161, R162). -/

namespace Sys2Proof.Proofs.Ends

open Sys2Proof.Machine

variable {s u v w : State} {as : List Area} {c : CallId} {x : VoiceId} {i : CallInst} {p : PageId} {pg : Page}

/-! ## One step of many acts -/

/-- Where the steps of all places but one leave the state as it is, only that one acts. -/
theorem forEach_single {σ : Type} {n : Nat} {f : Fin n → σ → σ} {s : σ} (k : Fin n) (h : ∀ j, j ≠ k → f j s = s)
    (h' : ∀ j, j ≠ k → f j (f k s) = f k s) : forEach n f s = f k s := by
  have hsame {t : σ} {l : List (Fin n)} (hl : ∀ j ∈ l, f j t = t) : l.foldl (fun s j => f j s) t = t := by
    induction l with
    | nil => rfl
    | cons j l ih =>
      rw [List.foldl_cons, hl j List.mem_cons_self]
      exact ih fun a ha => hl a (List.mem_cons_of_mem j ha)
  obtain ⟨l, r, hlr⟩ := List.append_of_mem (List.mem_finRange k)
  have hnd := List.nodup_finRange n
  rw [hlr, List.nodup_append] at hnd
  obtain ⟨_, hr, hd⟩ := hnd
  unfold forEach
  rw [hlr, List.foldl_append, hsame fun j hj => h j (hd j hj k List.mem_cons_self), List.foldl_cons]
  exact hsame fun j hj => h' j fun he => (List.nodup_cons.mp hr).1 (he ▸ hj)

/-! ## The call of a voice that has entered IDLE -/

/-- The state once the page on a voice has closed and its call has ended. -/
def callGone (c : CallId) (i : CallInst) (p : PageId) (pg : Page) (s : State) : State :=
  if i.phase = .playing then ended c (.done false) (closed p pg .voiceEnd s)
  else missed c .voiceLost i .none (closed p pg .voiceEnd s)

theorem callGone_playing (h : i.phase = .playing) :
    callGone c i p pg s = ended c (.done false) (closed p pg .voiceEnd s) := by rw [callGone, if_pos h]

theorem callGone_waiting (h : i.phase = .waitZones) :
    callGone c i p pg s = missed c .voiceLost i .none (closed p pg .voiceEnd s) := by
  rw [callGone, if_neg (by rw [h]; nofun)]

theorem callGone_parts (hop : pg.opener = .call c) :
    (callGone c i p pg s).calls = (upd s.calls c fun y => { y with
        inst := none, outcome := if i.phase = .playing then .done false else .missed .voiceLost })
      ∧ (callGone c i p pg s).pages = s.pages.set p none
      ∧ (callGone c i p pg s).zones = uncarried s (zonesOf pg.zones)
      ∧ (callGone c i p pg s).voices = s.voices
      ∧ (callGone c i p pg s).lastClosed
          = some { id := p, opener := .call c, reason := .voiceEnd, time := s.tod }
      ∧ (callGone c i p pg s).cutCalls = s.cutCalls
      ∧ (callGone c i p pg s).notes = s.notes ++ leaveNotes s (zonesOf pg.zones) ++ [.pageClosed c .voiceEnd] := by
  have hcalls (o : CallOutcome) : (ended c o (closed p pg .voiceEnd s)).calls
      = upd s.calls c fun y => { y with inst := none, outcome := o } := by
    unfold ended closed withoutPage
    rw [hop]
    dsimp only
    rw [upd_upd]
  have hnotes : (closed p pg .voiceEnd s).notes
      = s.notes ++ leaveNotes s (zonesOf pg.zones) ++ [.pageClosed c .voiceEnd] := by
    unfold closed closeNotes
    rw [hop]
    rfl
  have hlast : (closed p pg .voiceEnd s).lastClosed
      = some { id := p, opener := .call c, reason := .voiceEnd, time := s.tod } := by rw [← hop]; rfl
  unfold callGone
  by_cases hp : i.phase = .playing
  · simp only [if_pos hp]
    exact ⟨hcalls _, rfl, rfl, rfl, hlast, rfl, hnotes⟩
  · simp only [if_neg hp, missed_eq]
    exact ⟨hcalls _, rfl, rfl, rfl, hlast, rfl, hnotes⟩

theorem callGone_cells (c : CallId) (i : CallInst) (p : PageId) (pg : Page) (s : State) :
    (i.phase = .playing → (callGone c i p pg s).cells = s.cells ∧ (callGone c i p pg s).missedCalls = s.missedCalls)
    ∧ (i.phase = .waitZones → (callGone c i p pg s).cells
          = (capturing callCell (callWords c false (some .voiceLost) i .none) s.cells s.tod s.wq).1
        ∧ (callGone c i p pg s).wq
          = (capturing callCell (callWords c false (some .voiceLost) i .none) s.cells s.tod s.wq).2
        ∧ (callGone c i p pg s).missedCalls = sat16 s.missedCalls) := by
  refine ⟨fun h => ?_, fun h => ?_⟩
  · rw [callGone_playing h]
    exact ⟨rfl, rfl⟩
  · rw [callGone_waiting h, missed_eq]
    exact ⟨rfl, rfl, rfl⟩

section

variable (h : Reaches as u v) (ho : u.voices[x].owner ≠ .call c) (hi : u.calls[c].inst = some i)
  (hph : i.phase ≠ .waitVoice) (hx : i.phase = .waitZones → u.calls[c].cfg.voice = x) (hp : u.pages[p] = some pg)
  (hsrc : pg.source = .voice x) (hop : pg.opener = .call c)
  (hothers : ∀ q : PageId, u.pages[q].map (·.source) = some (.voice x) → p = q)
  (hw : ∀ d : CallId, Call.waitsFor u.calls[d] x = false)

include h hp hsrc hothers

/-- The page on the voice closes, and no other. -/
theorem Reaches.closeFrom :
    Reaches (closeAreas pg ++ as) (closed p pg .voiceEnd u) (forEach 4 (closeIfFrom x) v) := by
  have hpages : v.pages = u.pages := by rw [h.1]; rfl
  have hclose := h.closePage .voiceEnd hp
  have hself : closeIfFrom x p v = Machine.closePage p .voiceEnd v := by
    refine if_pos ?_
    rw [hpages, hp]
    exact congrArg some hsrc
  have hne (q : PageId) (hq : q ≠ p) : v.pages[q].map (·.source) ≠ some (.voice x) := by
    rw [hpages]
    exact fun he => hq (hothers q he).symm
  rw [forEach_single p (fun q hq => closeIfFrom_ne (hne q hq)) fun q hq => ?_, hself]
  · exact hclose
  · refine closeIfFrom_ne ?_
    have hset : (Machine.closePage p .voiceEnd v).pages[q] = v.pages[q] := by
      rw [hclose.1, hpages]
      show (u.pages.set p none)[q] = _
      exact Vector.getElem_set_ne p.isLt q.isLt fun he => hq (Fin.ext he.symm)
    rw [hself, hset]
    exact hne q hq

include ho hi hph hx hop hw

/-- The notice of the entry to IDLE of a call's voice: the page on it closes and the call ends. -/
theorem Reaches.callGone : Reaches (.pages :: (closeAreas pg ++ as)) (callGone c i p pg u)
    (voiceIdleNote x (.call c) v) := by
  have hclosed := h.closeFrom hp hsrc hothers
  have hcalls : (closed p pg .voiceEnd u).calls = withoutPage (.call c) u.calls := by rw [← hop]; rfl
  have hget : (closed p pg .voiceEnd u).calls[c] = { u.calls[c] with inst := some { i with page := none } } := by
    rw [hcalls, withoutPage, upd_get_self, hi]
    rfl
  have hended : Reaches (.pages :: (closeAreas pg ++ as)) (Ends.callGone c i p pg u)
      (ownVoiceIdle c (forEach 4 (closeIfFrom x) v)) := by
    have hc : (forEach 4 (closeIfFrom x) v).calls = (closed p pg .voiceEnd u).calls := by rw [hclosed.1]; rfl
    unfold ownVoiceIdle
    rw [hc, hget]
    dsimp only
    cases hpc : i.phase with
    | waitVoice => exact absurd hpc hph
    | playing =>
      rw [callGone_playing hpc]
      exact hclosed.endInst
    | waitZones =>
      rw [callGone_waiting hpc]
      refine hclosed.missCall (i := { i with page := none }) (x := x) (by rw [hget]) (by rw [hget]; exact hx hpc) rfl
        fun v' h' => ?_
      rw [if_neg nofun] at h'
      refine h'.releaseVoice_not ?_
      rw [missed_eq]
      exact ho
  have hwaits (d : CallId) : Call.waitsFor (ownVoiceIdle c (forEach 4 (closeIfFrom x) v)).calls[d] x = false := by
    rw [hended.1]
    show Call.waitsFor (Ends.callGone c i p pg u).calls[d] x = false
    rw [(callGone_parts hop).1]
    exact waitsFor_upd (waitsFor_of_inst_none rfl x) hw d
  unfold voiceIdleNote
  dsimp only [VoiceOwner.call?, Option.elim]
  rw [forEach_same fun d => reoffer_ne (hwaits d)]
  exact hended

end

/-- All is worked off once the call whose voice has entered IDLE has ended. -/
theorem Reaches.drain_callGone (h : Reaches as { u with notes := [.voiceIdle x (.call c)] } v)
    (ho : u.voices[x].owner ≠ .call c) (hi : u.calls[c].inst = some i)
    (hph : i.phase ≠ .waitVoice) (hx : i.phase = .waitZones → u.calls[c].cfg.voice = x) (hp : u.pages[p] = some pg)
    (hsrc : pg.source = .voice x) (hop : pg.opener = .call c)
    (hothers : ∀ q : PageId, u.pages[q].map (·.source) = some (.voice x) → p = q)
    (hw : ∀ d : CallId, Call.waitsFor u.calls[d] x = false) :
    Reaches (.pages :: (closeAreas pg ++ as)) { Ends.callGone c i p pg u with notes := [] } (drain v) := by
  obtain ⟨_, _, hzones, _, _, _, hnotes⟩ :=
    callGone_parts (i := i) (p := p) (s := { u with notes := [] }) hop
  have hlen : (leaveNotes { u with notes := [] } (zonesOf pg.zones)).length ≤ 24 :=
    (leaveNotes_length ..).trans (zonesOf_length pg.zones)
  refine (h.note rfl fun v' h' => ?_).drained
    (n := (leaveNotes { u with notes := [] } (zonesOf pg.zones) ++ [Note.pageClosed c .voiceEnd]).length + 1)
    (by rw [List.length_append, List.length_singleton]; omega) rfl
  have hgone := Reaches.callGone (u := { u with notes := [] }) h' ho hi hph hx hp hsrc hop hothers hw
  refine (hgone.idle_notes (k := []) (by rw [hnotes]; simp) fun n hn => ?_).congr ?_ fun _ => Iff.rfl
  · rcases List.mem_append.mp hn with hn | hn
    · exact leaveNotes_idle hn hzones
    · rw [List.mem_singleton.mp hn]
      exact .inl rfl
  · unfold Ends.callGone
    split
    · rfl
    · rw [missed_eq, missed_eq]
      rfl

/-- The state of the voice's call, of its page and of what a call's end changes, as one event finds them. -/
structure SameCalls (s u : State) : Prop where
  calls : u.calls = s.calls
  pages : u.pages = s.pages
  zones : u.zones = s.zones
  header : u.header = s.header
  engine : u.engine = s.engine
  cells : u.cells = s.cells
  missed : u.missedCalls = s.missedCalls
  cuts : u.cutCalls = s.cutCalls
  tod : u.tod = s.tod

/-- What an event that ends in the entry to IDLE of a call's voice has made of the state. -/
theorem callGone_finished {n : Nat} {y : Voice} (hall : SameCalls s u) (hr : Roomy s.wq u.wq n)
    (h : Reaches as { u with notes := [.voiceIdle x (.call c)] } v) (hv : u.voices = s.voices.set x y)
    (hy : y.owner = .none) (ha : s.CallAlone c x (some p)) (hi : s.calls[c].inst = some i)
    (hph : i.phase ≠ .waitVoice) (hx : i.phase = .waitZones → s.calls[c].cfg.voice = x) (hp : s.pages[p] = some pg)
    (hsrc : pg.source = .voice x) (hop : pg.opener = .call c) :
    let t := finish v
    t.voices = s.voices.set x y
      ∧ t.calls = upd s.calls c (fun x => { x with
          inst := none
          outcome := if i.phase = .playing then .done false else .missed .voiceLost })
      ∧ t.missedCalls = (if i.phase = .playing then s.missedCalls else sat16 s.missedCalls)
      ∧ t.cutCalls = s.cutCalls ∧ t.pages = s.pages.set p none
      ∧ t.lastClosed = some { id := p, opener := .call c, reason := .voiceEnd, time := s.tod }
      ∧ (∀ z : ZoneId, (pg.zones.getLsbD z = true → t.zones[z].page = none)
          ∧ (pg.zones.getLsbD z = false → t.zones[z] = s.zones[z]))
      ∧ (i.phase = .playing → t.cells = s.cells)
      ∧ (i.phase = .waitZones → s.CellsKept [callCell] t
          ∧ s.Captured callCell (callWords c false (some .voiceLost) i .none) n t) := by
  intro t
  obtain ⟨hC, hP, hZ, hH, hE, hK, hM, hcut, htod⟩ := hall
  obtain ⟨_, hsource, hwait⟩ := ha
  have hdrain := h.drain_callGone (i := i) (p := p) (by rw [hv]; simp [hy]) (by rw [hC]; exact hi) hph
    (by rw [hC]; exact hx) (by rw [hP]; exact hp) hsrc hop
    (fun q hq => Option.some_inj.mp (hsource q (by rw [← hP]; exact hq))) (by rw [hC]; exact hwait)
  obtain ⟨l, m, hfin⟩ := hdrain.finished rfl
  obtain ⟨hcalls, hpages, hzones, hvoices, hlast, hcuts, _⟩ := callGone_parts (i := i) (p := p) (s := u) hop
  obtain ⟨hplaying, hwaiting⟩ := callGone_cells c i p pg u
  have ht : t = _ := hfin
  rw [ht]
  clear hfin hdrain ht
  generalize Ends.callGone c i p pg u = g at *
  refine ⟨hvoices.trans hv, by rw [← hC]; exact hcalls, ?_, hcuts.trans hcut, by rw [← hP]; exact hpages,
    by rw [← htod]; exact hlast, fun z => ?_, fun h => (hplaying h).1.trans hK, fun h => ?_⟩
  · by_cases h : i.phase = .playing
    · rw [if_pos h]
      exact (hplaying h).2.trans hM
    · rw [if_neg h, ← hM]
      have hz : i.phase = .waitZones := by
        cases hph' : i.phase with
        | waitVoice => exact absurd hph' hph
        | waitZones => rfl
        | playing => exact absurd hph' h
      exact (hwaiting hz).2.2
  · have hzone : g.zones[z] = if z ∈ zonesOf pg.zones then carried u none none u.zones[z] else u.zones[z] := by
      rw [hzones]
      exact uncarried_get ..
    refine ⟨fun hz => ?_, fun hz => ?_⟩
    · show g.zones[z].page = none
      rw [hzone, if_pos (mem_zonesOf.mpr hz)]
      exact carried_page ..
    · show g.zones[z] = _
      rw [hzone, if_neg (by rw [mem_zonesOf, hz]; nofun), hZ]
  · obtain ⟨hcells, hwq, _⟩ := hwaiting h
    rw [hK, htod] at hcells hwq
    refine ⟨fun cell hcell => ?_, captured_of (l := l) hr (congrArg (·[callCell]) hcells) ?_⟩
    · exact (congrArg (·[cell]) hcells).trans (capturing_other fun h => hcell (List.mem_singleton.mpr h))
    · exact congrArg (fun q : WriteQueue => q.queue ++ l) hwq

/-! ## A sound that has been played out (R126) -/

/-- The voice once it has played out: IDLE, its signal standing for this frame. -/
def playedOut (y : Voice) : Voice := { y.idled with signal := y.signal }

theorem Reaches.endSound (h : Reaches as u v) : Reaches (.voices :: as)
    { u with
      voices := u.voices.set x (playedOut u.voices[x]), arb := (staleBurst x u).arb
      notes := u.notes ++ [.voiceIdle x u.voices[x].owner] } (endSound x v) := by
  have hv : v.voices = u.voices := by rw [h.1]; rfl
  have hend := (h.enterIdle x).plain (f := updVoice x fun y => { y with signal := u.voices[x].signal })
    fun _ _ _ _ => rfl
  unfold Machine.endSound
  rw [hv]
  refine hend.congr ?_ fun _ => Iff.rfl
  unfold updVoice idledAt upd playedOut
  simp

/-- A voice that stands alone has played out. -/
theorem Reaches.drain_playedOut (h : Reaches as { u with
      voices := u.voices.set x (playedOut u.voices[x]), arb := (staleBurst x u).arb
      notes := u.notes ++ [.voiceIdle x u.voices[x].owner] } v) (hn : u.notes = []) (ha : u.VoiceAlone x) :
    Reaches as { u with voices := u.voices.set x (playedOut u.voices[x]), arb := (staleBurst x u).arb } (drain v) := by
  obtain ⟨ho, hp, hc⟩ := ha
  refine ((h.idle_notes (l := [.voiceIdle x u.voices[x].owner]) (k := []) ?_ ?_).drained (by simp) rfl).congr ?_
    fun _ => Iff.rfl
  · show u.notes ++ _ = _
    rw [hn]
    rfl
  · exact List.forall_mem_singleton.mpr ⟨fun c hc => absurd hc (ho c), hp, hc⟩
  · exact notes_self (s := { u with voices := _, arb := _ }) hn

/-- Settles O53: a voice alone, and one that a call plays. -/
theorem playedOutVoiceEntersIdle : Obligations.PlayedOutVoiceEntersIdle := by
  unfold Obligations.PlayedOutVoiceEntersIdle
  intro s v hruns ⟨hn, hm⟩ hs hl hc idle
  have hdue : Voice.endDue s.voices[v] = true := by
    unfold Voice.endDue Voice.playsOut
    rw [hs, hl, decide_eq_true hc]
    rfl
  have hend := (Reaches.refl hm).endSound (x := v)
  refine ⟨_, (running_next _ hruns).trans (congrArg _ (event_due hdue)), fun ha => ?_,
    fun c i p pg ha hi hph hip hp hsrc hop => ?_⟩
  · exact Reaches.endsAs_drained rfl (hend.drain_playedOut hn ha) hn
  · have hreach := hend.congr (w := { s with
      voices := s.voices.set v idle, arb := (staleBurst v s).arb, notes := [.voiceIdle v (.call c)] })
      (by rw [hn, ha.1]; rfl) fun _ => Iff.rfl
    obtain ⟨hv, hC, hM, _, hP, hL, hZ, hK, _⟩ := callGone_finished (s := s) (y := idle) (n := 0) (u := { s with
      voices := s.voices.set v idle, arb := (staleBurst v s).arb })
      ⟨rfl, rfl, rfl, rfl, rfl, rfl, rfl, rfl, rfl⟩ (roomy_refl _) hreach rfl rfl ha hi (by rw [hph]; nofun)
      (by rw [hph]; nofun)
      hp hsrc hop
    rw [if_pos hph] at hM
    simp only [if_pos hph] at hC
    exact ⟨hv, hC, hP, hL, hZ, hK hph, hM⟩

end Sys2Proof.Proofs.Ends
end

section
/-! PROOF. Fades that complete, and what their owners and the voice player make of it (R31, R103, R110, R130). -/

namespace Sys2Proof.Proofs.Ends

open Sys2Proof.Machine

variable {s u v w : State} {as : List Area} {i : RecId} {r : FadeRec} {b : Bool}

/-! ## A record that leaves as completed (R103) -/

theorem leaveTable_completed (hr : s.fades[i] = some r) : leaveTable i (.completed b) s
    = stopTold i r (.completed b) (ownerTold r (.completed b) (setFade i none s)) := by
  unfold leaveTable
  rw [hr]
  rfl

/-- The end of a LEVEL record's fade. -/
theorem completeFade_eq {e : Elem} {target : Level} {curve : Curve} (hr : s.fades[i] = some r)
    (hc : r.content = .level e target curve) : completeFade i s
      = stopTold i r (.completed false) (ownerTold r (.completed false) (setFade i none (setElem e target s))) := by
  unfold completeFade
  rw [hr]
  dsimp only
  rw [hc]
  refine leaveTable_completed ?_
  rw [setElem_eq]
  exact hr

theorem exec_fadeComplete (hruns : s.Runs) (hr : s.fades[i] = some r) (hf : r.fading = true)
    (ht : r.time ≤ r.elapsed) (hz : frozen s r = false) :
    exec (.fadeComplete i) s = .next (finish (completeFade i s)) := by
  have hdue : fadeDue s i = true := by
    unfold fadeDue
    rw [hr]
    simp [hf, ht, hz]
  exact (running_next _ hruns).trans (congrArg _ (event_due hdue))

theorem exec_delayExpiry (hruns : s.Runs) (hr : s.fades[i] = some r) (hf : r.fading = false)
    (hd : r.delayLeft = 0) (hz : frozen s r = false) :
    exec (.delayExpiry i) s = .next (finish (actRecord none i s)) := by
  have hdue : delayDue s i = true := by
    unfold delayDue
    rw [hr]
    simp [hf, hd, hz]
  exact (running_next _ hruns).trans (congrArg _ (event_due hdue))

/-- The completion of a cue changes the sequencer alone. -/
theorem completeIfDone_eq (id : FiringId) (s : State) : completeIfDone id s
    = { s with seq := (completeIfDone id s).seq, marks := (completeIfDone id s).marks } := by
  cases h : entryOf s id with
  | none =>
    have : completeIfDone id s = s := by unfold completeIfDone; rw [h]
    rw [this]
  | some e =>
    by_cases hc : e.pending = 0 ∧ e.placing = false
    · have : completeIfDone id s = completeCue e s := by unfold completeIfDone; rw [h]; exact if_pos hc
      rw [this]
      rfl
    · have : completeIfDone id s = s := by unfold completeIfDone; rw [h]; exact if_neg hc
      rw [this]

theorem cueTold_eq (id : FiringId) (s : State) :
    cueTold id s = { s with seq := (cueTold id s).seq, marks := (cueTold id s).marks } :=
  completeIfDone_eq id (mark .cue (updEntry id (fun e => { e with pending := e.pending - 1 }) s))

theorem setTap_setElem (ro : RoleId) (k : TapId) (y : TapState) (l : Level) (s : State) :
    setTap ro k y (setElem (.tap ro k) l s) = { s with
      levels := s.levels.put (.tap ro k) l, roles := upd s.roles ro fun o => { o with taps := o.taps.set k y }
      marks := (mark .roles s).marks, mirror := (setElem (.tap ro k) l s).mirror } := by
  rw [setElem_eq]
  rfl

theorem castEnd_eq (ro : RoleId) (k : TapId) (target : Level) (s : State) : ∃ l roles ms m,
    castEnd ro k target s = { s with levels := l, roles := roles, marks := ms, mirror := m } := by
  unfold castEnd
  by_cases h : target = .off
  · exact ⟨_, _, _, _, (if_pos h).trans (setTap_setElem ro k .idle .off s)⟩
  · exact ⟨_, _, _, _, (if_neg h).trans (setTap_setElem ro k .active (.steps 0) s)⟩

/-- What the owner is told of a completed record changes neither voices nor what the end of a call changes. -/
theorem ownerTold_completed_eq (r : FadeRec) (b : Bool) (s : State) : ∃ l q roles ms m,
    ownerTold r (.completed b) s = { s with levels := l, seq := q, roles := roles, marks := ms, mirror := m } := by
  unfold ownerTold
  cases r.owner with
  | request => exact ⟨s.levels, s.seq, s.roles, s.marks, s.mirror, rfl⟩
  | firing id =>
    exact ⟨s.levels, (cueTold id s).seq, s.roles, (cueTold id s).marks, s.mirror, cueTold_eq id s⟩
  | cast =>
    dsimp only
    split
    · next ro t target curve _ _ =>
      obtain ⟨l, roles, ms, m, h⟩ := castEnd_eq ro t target s
      exact ⟨l, s.seq, roles, ms, m, h⟩
    · exact ⟨s.levels, s.seq, s.roles, s.marks, s.mirror, rfl⟩

/-! ## The owner, and the voice of a stop fade -/

theorem Reaches.stopTold_none {how : Leave} (h : Reaches as u v) (hm : r.stopMark = none) :
    Reaches as u (stopTold i r how v) := by
  unfold stopTold
  rw [hm]
  exact h

theorem stopTold_completed {x : VoiceId} (hm : r.stopMark = some x) :
    stopTold i r (.completed b) s = stopCompleted x (some i) b s := by
  unfold stopTold
  rw [hm]

/-- The end of a stop fade that is not, or no more, its voice's stop record is ignored. -/
theorem Reaches.stopCompleted_ignored {x : VoiceId} (h : Reaches as u v)
    (hi : u.voices[x].state = .idle ∨ u.voices[x].stopRec ≠ some i) :
    Reaches as u (Machine.stopCompleted x (some i) false v) := by
  have hv : v.voices = u.voices := by rw [h.1]; rfl
  unfold Machine.stopCompleted
  rw [hv]
  split
  · exact h
  · next hs =>
    rw [if_neg fun hc => (hi.resolve_left hs) (hc.resolve_left Bool.false_ne_true).2]
    exact h

/-- A stop fade's end sends its voice, which stands alone, to IDLE, or is ignored. -/
theorem stopFade_endsAs {x : VoiceId} {voices : Vector Voice 16} {arb : Arbiter} (h : Reaches as u v) (hn : u.notes = [])
    (hm : r.stopMark = some x) (hv : u.voices = voices) (harb : (staleBurst x u).arb = arb) :
    (voices[x].state ≠ .idle → voices[x].stopRec = some i → u.VoiceAlone x →
      State.EndsAs (.voices :: as) { u with voices := voices.set x (Voice.idled voices[x]), arb := arb }
        (finish (stopTold i r (.completed false) v)))
    ∧ (voices[x].state = .idle ∨ voices[x].stopRec ≠ some i →
      u.EndsAs as (finish (stopTold i r (.completed false) v))) := by
  subst hv harb
  rw [stopTold_completed hm]
  refine ⟨fun hs hr ha => ?_, fun hi => (h.stopCompleted_ignored hi).endsAs hn⟩
  exact Reaches.endsAs_drained rfl ((h.stopCompleted hs (.inr ⟨Option.some_ne_none i, hr⟩)).drain_idle hn ha) hn

/-- Settles O52, first part: the owner of a completed fade, and the voice of a stop fade. -/
theorem fade_completes {e : Elem} {target : Level} {curve : Curve} (hruns : s.Runs) (hq : s.Quiet)
    (hr : s.fades[i] = some r) (hf : r.fading = true) (ht : r.time ≤ r.elapsed) (hz : frozen s r = false)
    (hc : r.content = .level e target curve) :
    let u := setFade i none (setElem e target s)
    ∃ t, exec (.fadeComplete i) s = .next t
      ∧ (r.stopMark = none → r.owner = .request → u.EndsAs [] t)
      ∧ (∀ x : RunEntry, r.stopMark = none → r.owner = .firing x.id → entryOf s x.id = some x →
          0 < x.pending → x.placing = false → State.EndsAs [.cue] { u with seq := s.seq.told x } t)
      ∧ (∀ (ro : RoleId) (k : TapId), r.stopMark = none → r.owner = .cast → e = .tap ro k →
          (target = .off → State.EndsAs [.roles] { u with
              roles := upd s.roles ro fun x => { x with taps := x.taps.set k .idle } } t)
          ∧ (target ≠ .off → State.EndsAs [.roles] { setElem e (.steps 0) u with
              roles := upd s.roles ro fun x => { x with taps := x.taps.set k .active } } t))
      ∧ ∀ v : VoiceId, r.stopMark = some v →
          let stops (areas : List Area) (w : State) : Prop :=
            (s.voices[v].state ≠ .idle → s.voices[v].stopRec = some i → s.VoiceAlone v →
              State.EndsAs (.voices :: areas) { w with
                voices := s.voices.set v (Voice.idled s.voices[v]), arb := (staleBurst v s).arb } t)
            ∧ (s.voices[v].state = .idle ∨ s.voices[v].stopRec ≠ some i → w.EndsAs areas t)
          (r.owner = .request → stops [] u)
          ∧ ∀ x : RunEntry, r.owner = .firing x.id → entryOf s x.id = some x → 0 < x.pending →
              x.placing = false → stops [.cue] { u with seq := s.seq.told x } := by
  intro u
  obtain ⟨hn, hm⟩ := hq
  have hset : setElem e target s = State.noted { s with levels := s.levels.put e target }
    (dirtied s e target s.mirror.dirty) s.mirror.inUseChanged := setElem_eq e target s
  have hu : Reaches [] u u := by
    refine Reaches.refl ?_
    unfold u
    rw [hset]
    exact hm
  have hun : u.notes = [] := by unfold u; rw [hset]; exact hn
  have huv : u.voices = s.voices ∧ u.seq = s.seq ∧ u.pages = s.pages ∧ u.calls = s.calls ∧ u.roles = s.roles
      ∧ (∀ x, (staleBurst x u).arb = (staleBurst x s).arb) ∧ u.level e = target := by
    unfold u
    rw [hset]
    exact ⟨rfl, rfl, rfl, rfl, rfl, fun _ => rfl, get_put_same ..⟩
  obtain ⟨huV, huS, huP, huC, huR, huA, huL⟩ := huv
  have hcue (x : RunEntry) (ho : r.owner = .firing x.id) (he : entryOf s x.id = some x) (hp : 0 < x.pending)
      (hpl : x.placing = false) :
      Reaches [.cue] { u with seq := s.seq.told x } (ownerTold r (.completed false) u) := by
    have he' : entryOf u x.id = some x := by unfold entryOf; rw [huS]; exact he
    unfold ownerTold
    rw [ho, ← huS]
    exact hu.tellCue he' hp hpl
  have hreq (ho : r.owner = .request) : Reaches [] u (ownerTold r (.completed false) u) := by
    unfold ownerTold
    rw [ho]
    exact hu
  refine ⟨_, (exec_fadeComplete hruns hr hf ht hz).trans (congrArg _ (congrArg finish (completeFade_eq hr hc))),
    fun hm ho => ((hreq ho).stopTold_none hm).endsAs hun,
    fun x hm ho he hp hpl => ((hcue x ho he hp hpl).stopTold_none hm).endsAs hun,
    fun ro k hm ho he => ?_, fun x hm => ⟨fun ho => ?_, fun y ho he hp hpl => ?_⟩⟩
  · subst he
    have hown : ownerTold r (.completed false) u = castEnd ro k target u := by
      unfold ownerTold
      rw [ho]
      dsimp only
      rw [hc]
    rw [show ownerTold r (.completed false) (setFade i none (setElem (.tap ro k) target s)) = _ from hown]
    unfold castEnd
    refine ⟨fun hoff => ?_, fun hoff => ?_⟩
    · rw [if_pos hoff]
      have h := ((hu.elem (.tap ro k) .off).plain (f := updRole ro fun o => { o with taps := o.taps.set k .idle })
        fun _ _ _ _ => rfl).area .roles
      refine ((h.congr ?_ fun _ => Iff.rfl).stopTold_none hm).endsAs hun
      have hlev : u.levels.put (.tap ro k) .off = u.levels := by
        rw [← hoff]
        unfold u
        rw [hset]
        exact put_put s.levels (.tap ro k) target target
      rw [hlev, ← huR]
      rfl
    · rw [if_neg hoff]
      have h := ((hu.elem_noted (.tap ro k) (.steps 0)).plain
        (f := updRole ro fun o => { o with taps := o.taps.set k .active }) fun _ _ _ _ => rfl).area .roles
      have hn' : (setElem (.tap ro k) (.steps 0) u).notes = [] := by rw [setElem_eq]; exact hun
      refine ((h.congr ?_ fun _ => Iff.rfl).stopTold_none hm).endsAs hn'
      rw [← huR, setElem_eq]
      rfl
  · obtain ⟨hidle, hign⟩ := stopFade_endsAs (i := i) (hreq ho) hun hm huV (huA x)
    refine ⟨fun hs hrec ha => hidle hs hrec ?_, hign⟩
    unfold State.VoiceAlone
    rw [huV, huP, huC]
    exact ha
  · obtain ⟨hidle, hign⟩ := stopFade_endsAs (i := i) (hcue y ho he hp hpl) hun hm huV (huA x)
    refine ⟨fun hs hrec ha => hidle hs hrec ?_, hign⟩
    show State.VoiceAlone u x
    unfold State.VoiceAlone
    rw [huV, huP, huC]
    exact ha

end Sys2Proof.Proofs.Ends
end

section
/-! PROOF. A stop ends the call whose voice it stops, and SET_LEVEL on a stopping voice (R130, R154, R161, R162). -/

namespace Sys2Proof.Proofs.Ends

open Sys2Proof.Machine

variable {s u v w q : State} {as : List Area} {i : RecId} {r : FadeRec} {b : Bool} {c : CallId} {x : VoiceId}
  {j : CallInst} {p : PageId} {pg : Page}

/-! ## A stop that sends a call's voice to IDLE -/

/-- What an event that ends in the entry to IDLE of a call's voice makes of voices, calls and pages. -/
def CallStopped (s : State) (c : CallId) (x : VoiceId) (i : CallInst) (p : PageId) (pg : Page) (t : State) : Prop :=
  t.voices = s.voices.set x (Voice.idled s.voices[x])
    ∧ t.calls = upd s.calls c (fun x => { x with
        inst := none
        outcome := if i.phase = .playing then .done false else .missed .voiceLost })
    ∧ t.missedCalls = (if i.phase = .playing then s.missedCalls else sat16 s.missedCalls)
    ∧ t.cutCalls = s.cutCalls ∧ t.pages = s.pages.set p none
    ∧ t.lastClosed = some { id := p, opener := .call c, reason := .voiceEnd, time := s.tod }
    ∧ (∀ z : ZoneId, (pg.zones.getLsbD z = true → t.zones[z].page = none)
        ∧ (pg.zones.getLsbD z = false → t.zones[z] = s.zones[z]))
    ∧ (i.phase = .playing → t.cells = s.cells)
    ∧ (i.phase = .waitZones → s.CellsKept [callCell] t
        ∧ s.Captured callCell (callWords c false (some .voiceLost) i .none) 2 t)

theorem Roomy.mono {q q' : WriteQueue} {n m : Nat} (h : Roomy q q' n) (hnm : n ≤ m) : Roomy q q' m := by
  intro hl hc
  obtain ⟨h1, l, h2, h3⟩ := h (by omega) hc
  exact ⟨h1, l, by omega, h3⟩

theorem Reaches.stopCompleted_call {k : Option RecId} (h : Reaches as u v) (hn : u.notes = [])
    (ho : u.voices[x].owner = .call c) (hs : u.voices[x].state ≠ .idle)
    (hd : b = true ∨ (k ≠ none ∧ u.voices[x].stopRec = k)) :
    Reaches (.voices :: as) { idledAt x u with notes := [.voiceIdle x (.call c)] } (Machine.stopCompleted x k b v) := by
  have h := h.stopCompleted hs hd
  rw [hn, ho] at h
  exact h

section

variable (ha : s.CallAlone c x (some p)) (hi : s.calls[c].inst = some j) (hph : j.phase ≠ .waitVoice)
  (hx : s.calls[c].cfg.voice = x) (hp : s.pages[p] = some pg) (hsrc : pg.source = .voice x)
  (hop : pg.opener = .call c)

include ha hi hph hx hp hsrc hop

/-- The voice enters IDLE, and its call and page hear of it. -/
theorem enterIdle_stops (hall : SameCalls s q) (hv : q.voices = s.voices) (hn : q.notes = []) (hwq : q.wq = s.wq) :
    CallStopped s c x j p pg (finish (enterIdle x q)) := by
  have h := (show Reaches q.marks q q from ⟨rfl, fun _ h => h, fun h => h, fun _ => Iff.rfl⟩).enterIdle x
  have h := h.congr (w := { idledAt x q with notes := [.voiceIdle x (.call c)] })
    (by rw [hn, hv, ha.1]; rfl) fun _ => Iff.rfl
  refine callGone_finished (s := s) (u := idledAt x q) (n := 2) (y := Voice.idled s.voices[x]) ?_ ?_ h ?_ rfl ha hi
    hph (fun _ => hx) hp hsrc hop
  · exact ⟨hall.calls, hall.pages, hall.zones, hall.header, hall.engine, hall.cells, hall.missed, hall.cuts, hall.tod⟩
  · show Roomy s.wq q.wq 2
    rw [hwq]
    exact (roomy_refl _).mono (by omega)
  · show q.voices.set x (Voice.idled q.voices[x]) = _
    rw [hv]

theorem stopFade_stops (hall : SameCalls s q) (hv : q.voices = s.voices) (hn : q.notes = []) (hwq : q.wq = s.wq)
    (hs : s.voices[x].state ≠ .idle) (hm : r.stopMark = some x) (hb : b = true ∨ s.voices[x].stopRec = some i) :
    CallStopped s c x j p pg (finish (stopTold i r (.completed b) (ownerTold r (.completed b) q))) := by
  obtain ⟨l, sq, roles, ms, m, hown⟩ := ownerTold_completed_eq r b q
  rw [stopTold_completed hm, hown, stopCompleted_idles (by rw [hv]; exact hs)
    (hb.imp id fun h => ⟨Option.some_ne_none i, by rw [hv]; exact h⟩)]
  obtain ⟨h1, h2, h3, h4, h5, h6, h7, h8, h9⟩ := hall
  exact enterIdle_stops ha hi hph hx hp hsrc hop ⟨h1, h2, h3, h4, h5, h6, h7, h8, h9⟩ hv hn hwq

/-- The end of a stop fade. -/
theorem fadeComplete_stops {target : Level} {curve : Curve} (hruns : s.Runs) (hq : s.Quiet) (hs : s.voices[x].state ≠ .idle)
    (hr : s.fades[i] = some r) (hf : r.fading = true) (ht : r.time ≤ r.elapsed) (hz : frozen s r = false)
    (hc : r.content = .level (.voice x) target curve) (hm : r.stopMark = some x) (hrec : s.voices[x].stopRec = some i) :
    ∃ t, exec (.fadeComplete i) s = .next t ∧ CallStopped s c x j p pg t := by
  refine ⟨_, (exec_fadeComplete hruns hr hf ht hz).trans (congrArg _ (congrArg finish (completeFade_eq hr hc))), ?_⟩
  rw [setElem_eq]
  exact stopFade_stops ha hi hph hx hp hsrc hop ⟨rfl, rfl, rfl, rfl, rfl, rfl, rfl, rfl, rfl⟩ rfl hq.1 rfl hs hm
    (.inr hrec)

/-- A STOP of time 0 acts. -/
theorem stop_stops (hruns : s.Runs) (hq : s.Quiet) (hs : s.voices[x].state ≠ .idle) (hr : s.fades[i] = some r)
    (hf : r.fading = false) (hd : r.delayLeft = 0) (hz : frozen s r = false) (hc : r.content = .stop x 0)
    (hnf : s.NotFading (.voice x)) :
    ∃ t, exec (.delayExpiry i) s = .next t ∧ CallStopped s c x j p pg t := by
  have hset : (setFade i (some (r.asStop x 0)) s).fades = s.fades.set i (some (r.asStop x 0)) := rfl
  have hnone : fadingOf (setFade i (some (r.asStop x 0)) s) (.voice x) (some i) = none :=
    (fadingOf_set hset (.inl rfl)).trans (fadingOf_except hnf _)
  have hact : actRecord none i s = stopTold i (r.asStop x 0) (.completed true) (ownerTold (r.asStop x 0)
      (.completed true) (setFade i none (setElem (.voice x) .off (setFade i (some (r.asStop x 0)) s)))) := by
    unfold actRecord
    rw [hr]
    dsimp only
    rw [hc]
    dsimp only
    rw [if_neg hs]
    unfold startStop
    rw [if_pos (clampTime_eq_zero.mpr rfl), clampTime_eq_zero.mpr rfl]
    unfold cutBy
    rw [takeOver_of_none hnone]
    refine leaveTable_completed ?_
    rw [setElem_eq]
    show (s.fades.set i _)[i] = _
    simp
  refine ⟨_, exec_delayExpiry hruns hr hf hd hz, ?_⟩
  rw [hact, setElem_eq]
  exact stopFade_stops ha hi hph hx hp hsrc hop ⟨rfl, rfl, rfl, rfl, rfl, rfl, rfl, rfl, rfl⟩ rfl hq.1 rfl hs rfl
    (.inl rfl)

/-- A VOICE_STOP made as a cut. -/
theorem voiceStop_stops (ht : s.Takes (.voiceStop x.val 0)) (hs : s.voices[x].state ≠ .idle)
    (hnf : s.NotFading (.voice x)) :
    ∃ t, exec (.voiceStop x.val 0) s = .next t ∧ CallStopped s c x j p pg t := by
  obtain ⟨hn, hm⟩ := ht.2.1
  have hop' := ownerOf_voiceStop (s := markHanded s) (time := 0) hs
  rw [stopVoice_cut (s := markHanded s) (.inl (clampTime_eq_zero.mpr rfl)), stopCut_eq (s := markHanded s) hs] at hop'
  have hreach := ((Reaches.refl (s := markHanded s) hm).cut_none .off hnf).stopCompleted_call hn ha.1 hs (k := none)
    (b := true) (.inl rfl)
  have hsl := congrArg State.slate hreach.1
  have hfc := congrArg State.freeCount hreach.1
  refine ⟨_, (exec_command (r := .voiceStop x.val 0) ht.1).trans (congrArg _ (request_eq ht hop' hsl hfc)), ?_⟩
  have h := hreach.plain (plain_answered (answer .ok (voiceStopWords s.voices[x] .set)) s)
  exact callGone_finished (s := s) (u := answered (answer .ok (voiceStopWords s.voices[x] .set)) s
      (idledAt x { markHanded s with levels := s.levels.put (.voice x) .off })) (y := Voice.idled s.voices[x])
    ⟨rfl, rfl, rfl, rfl, rfl, rfl, rfl, rfl, rfl⟩ (roomy_answeredQueue _ _ _) h rfl rfl ha hi hph (fun _ => hx) hp hsrc
    hop

end

/-! ## A SET_LEVEL that takes a stop over -/

/-- The voice resumes whose stop the record of a SET_LEVEL takes over. -/
theorem resumed_stop (hm : r.stopMark = some x) (hrec : s.voices[x].stopRec = some i)
    (hs : s.voices[x].state = .stopping) : s.resumed i r
      = s.voices.set x { s.voices[x] with state := s.voices[x].resume, stopRec := none } := by
  unfold State.resumed
  rw [hm]
  dsimp only
  rw [if_pos hrec, if_pos hs]

theorem elem?_voice (x : VoiceId) : ElemRef.elem? { kind := some .voice, index := x.val } = some (.voice x) := by
  unfold ElemRef.elem?
  dsimp only
  rw [fin?_val]
  rfl

/-- Settles O52. -/
theorem completedFadeTellsItsOwner : Obligations.CompletedFadeTellsItsOwner := by
  unfold Obligations.CompletedFadeTellsItsOwner
  refine ⟨fun s i r e target curve hruns hq hr hf ht hz hc => fade_completes hruns hq hr hf ht hz hc,
    fun s x c j p pg cmd hruns hq ha hx hi hph hp hsrc hop hs hcmd => ?_,
    fun s x i r field time k target curve => ?_⟩
  · rcases hcmd with ⟨rfl, ht, hnf⟩ | ⟨i, r, target, curve, rfl, hr, hf, ht, hz, hc, hm, hrec⟩
      | ⟨i, r, rfl, hr, hf, hd, hz, hc, hnf⟩
    · exact voiceStop_stops ha hi hph hx hp hsrc hop ht hs hnf
    · exact fadeComplete_stops ha hi hph hx hp hsrc hop hruns hq hs hr hf ht hz hc hm hrec
    · exact stop_stops ha hi hph hx hp hsrc hop hruns hq hs hr hf hd hz hc hnf
  · intro ref ht hf hexc hr hc hm hrec hs level a resumes
    have hcuts (h : k = .cut ∨ time = 0) : some k = some .cut ∨ (some k = some .steps ∧ time = 0) := by
      cases k with
      | cut => exact .inl rfl
      | steps => exact .inr ⟨rfl, h.resolve_left nofun⟩
    obtain ⟨_, hset⟩ := SetLevels.setLevelCutsOrFades
    obtain ⟨t, hexec, _, hset⟩ := hset s ref field time (some k) ht
    obtain ⟨_, _, _, htaken⟩ := hset (.voice x) (elem?_voice x)
    obtain ⟨hreq, hcue⟩ := htaken i r hf hr
    rw [resumed_stop hm hrec hs] at hreq hcue
    have hvoices : (match r.stopMark with
        | some v => if s.voices[v].stopRec = some i then [Area.voices] else []
        | none => []) = [.voices] := by
      rw [hm]
      dsimp only
      rw [if_pos hrec]
    have hareas : s.takeoverAreas i r = cueAreas r ++ [.voices] := by
      rw [takeoverAreas_eq, resumeAreas]
      exact congrArg _ hvoices
    rw [hareas] at hreq hcue
    refine ⟨t, hexec, fun ho => ?_, fun y ho hy hpn hpl => ?_⟩
    · obtain ⟨hcut, hfade⟩ := hreq ho
      rw [cueAreas, ho] at hcut hfade
      exact ⟨fun h => hcut (hcuts h), fun hk h0 => hfade ⟨congrArg some hk, h0⟩ hexc⟩
    · obtain ⟨hcut, hfade⟩ := hcue y ho hy hpn hpl
      rw [cueAreas, ho] at hcut hfade
      exact ⟨fun h => hcut (hcuts h), fun hk h0 => hfade ⟨congrArg some hk, h0⟩ hexc⟩

end Sys2Proof.Proofs.Ends
end

section
/-! PROOF. A PLAY takes its voice, with the fade of its level and the call it cuts off (R118, R121, R163). -/

namespace Sys2Proof.Proofs.Ends

open Sys2Proof.Machine

variable {s u v w : State} {as : List Area} {x : VoiceId} {snd : SoundCopy} {start : Level} {owner : VoiceOwner}
  {c : CallId} {i : CallInst} {p : PageId} {pg : Page}

/-! ## The sound record (R118) -/

theorem askSound_eq (n : Nat) (s : State) : askSound none n s = s.soundAsked n := by
  unfold askSound State.soundAsked
  by_cases h : n ≤ 1023 <;> simp [h, askRead]

theorem soundAsked_eq (n : Nat) (s : State) : s.soundAsked n = { s with arb := (s.soundAsked n).arb } := by
  unfold State.soundAsked
  split <;> rfl

theorem judgeSound_soundAsked (n k : Nat) (b : Bool) (s : State) :
    judgeSound (s.soundAsked n) (s.soundAsked n).mem k b = judgeSound s s.mem k b := by
  rw [soundAsked_eq]
  rfl

theorem plain_soundAsked (n : Nat) : Plain fun s => s.soundAsked n := by
  intro u d i ms
  unfold State.soundAsked
  split <;> rfl

/-- A usable sound has a record, whose turn is asked for. -/
theorem usable_number {size n : Nat} {b : Bool} {r : RawSound} (h : judgeRecord size n b r = .usable snd) : n ≤ 1023 := by
  unfold judgeRecord at h
  split at h
  · nomatch h
  · next hn => exact Nat.le_of_not_lt fun hlt => hn (.inl hlt)

/-! ## The taking of a voice (R121) -/

/-- What the call of a voice is told that another takes. -/
def cutNotes (old new : VoiceOwner) : List Note :=
  match old, new with
  | .call c, .cue id => [.callCut c (.cue id)]
  | .call c, .request => [.callCut c .request]
  | _, _ => []

theorem cutNotes_noCall {old new : VoiceOwner} (h : ∀ c, old ≠ .call c) : cutNotes old new = [] := by
  cases old with
  | call c => exact absurd rfl (h c)
  | none | cue _ | request => rfl

theorem tellCut_eq : tellCut x owner s = { s with notes := s.notes ++ cutNotes s.voices[x].owner owner } := by
  have hnil : s = { s with notes := s.notes ++ [] } := by rw [List.append_nil]
  unfold tellCut
  cases s.voices[x].owner with
  | call c =>
    cases owner with
    | cue | request => rfl
    | none | call => exact hnil
  | none | cue | request => exact hnil

/-- The voice emptied, with the sound it is to play. -/
def loaded (y : Voice) (snd : SoundCopy) (owner : VoiceOwner) : Voice :=
  { y with
    buffer := [], outstanding := none, stopRec := none, startPending := false
    sound := snd, playPos := 0, fetchPos := 0, owner := owner }

/-- The state before the level of a voice taken is cut. -/
def takenUp (x : VoiceId) (snd : SoundCopy) (owner : VoiceOwner) (s : State) : State := { s with
  voices := s.voices.set x (loaded s.voices[x] snd owner), arb := (staleBurst x s).arb
  notes := s.notes ++ cutNotes s.voices[x].owner owner }

theorem takePlay_eq : takePlay x snd start owner s = mark .voices (updVoice x (fun y =>
    { y with state := .priming, signal := 0#24 }.request) (cut (.voice x) start (takenUp x snd owner s))) := by
  have : updVoice x (fun y => { y with sound := snd, playPos := 0, fetchPos := 0, owner := owner })
      (flushVoice x (tellCut x owner s)) = takenUp x snd owner s := by
    rw [tellCut_eq]
    unfold flushVoice updVoice staleBurst takenUp loaded staleBurst
    dsimp only
    rw [upd_upd]
    rfl
  rw [← this]
  rfl

/-- The state once a PLAY has taken a voice. -/
def played (x : VoiceId) (snd : SoundCopy) (start : Level) (owner : VoiceOwner) (s : State) : State := { s with
  voices := s.voices.set x (Voice.restarted s.voices[x] snd owner).request
  levels := s.levels.put (.voice x) start, arb := (staleBurst x s).arb
  notes := s.notes ++ cutNotes s.voices[x].owner owner }

theorem updVoice_loaded (hw : w.voices = s.voices.set x (loaded s.voices[x] snd owner)) :
    updVoice x (fun y => { y with state := .priming, signal := 0#24 }.request) w
      = { w with voices := s.voices.set x (Voice.restarted s.voices[x] snd owner).request } := by
  unfold updVoice upd
  rw [hw]
  simp [loaded, Voice.restarted]

/-- No record moves the voice's level. -/
theorem Reaches.takePlay_none (h : Reaches as u v) (hf : u.NotFading (.voice x)) :
    Reaches (.voices :: as) (played x snd start owner u) (takePlay x snd start owner v) := by
  have hup := h.plain (f := takenUp x snd owner) fun _ _ _ _ => rfl
  have hcut := hup.cut_none (e := .voice x) start hf
  rw [takePlay_eq]
  refine ((hcut.plain (f := updVoice x _) fun _ _ _ _ => rfl).area .voices).congr ?_ fun _ => Iff.rfl
  exact updVoice_loaded rfl

/-- A voice that has been emptied has no stop to come back from. -/
theorem resumed_takenUp {j : RecId} {old : FadeRec} (ho : u.OwnStopOnly x) (hf : fadingOf u (.voice x) none = some j)
    (hold : u.fades[j] = some old) : (takenUp x snd owner u).resumed j old = (takenUp x snd owner u).voices := by
  unfold State.resumed
  cases hm : old.stopMark with
  | none => rfl
  | some y =>
    obtain rfl : y = x := ho j y hf (by rw [hold]; exact hm)
    refine if_neg fun hc => ?_
    have : (takenUp y snd owner u).voices[y].stopRec = none := by simp [takenUp, loaded]
    exact nomatch this.symm.trans hc

theorem takeoverAreas_takenUp {j : RecId} {old : FadeRec} (ho : u.OwnStopOnly x)
    (hf : fadingOf u (.voice x) none = some j) (hold : u.fades[j] = some old) :
    (takenUp x snd owner u).takeoverAreas j old = cueAreas old := by
  rw [takeoverAreas_eq]
  refine (congrArg (cueAreas old ++ ·) ?_).trans (List.append_nil _)
  unfold resumeAreas
  cases hm : old.stopMark with
  | none => rfl
  | some y =>
    obtain rfl : y = x := ho j y hf (by rw [hold]; exact hm)
    refine if_neg fun hc => ?_
    have : (takenUp y snd owner u).voices[y].stopRec = none := by simp [takenUp, loaded]
    exact nomatch this.symm.trans hc

/-- The record that moves the voice's level is taken over. -/
theorem Reaches.takePlay_some {j : RecId} {old : FadeRec} {q : Seq} (h : Reaches as u v) (ho : u.OwnStopOnly x)
    (hf : fadingOf u (.voice x) none = some j) (hold : u.fades[j] = some old) (ht : Tells u old q) :
    Reaches (.voices :: (cueAreas old ++ as)) { played x snd start owner u with
      seq := q, takenOver := min (u.takenOver + 1) 65535, fades := u.fades.set j none }
      (takePlay x snd start owner v) := by
  have hup := h.plain (f := takenUp x snd owner) fun _ _ _ _ => rfl
  have hcut := hup.cut_some (e := .voice x) start hf hold (ht.congr rfl)
  rw [takeoverAreas_takenUp ho hf hold, overtaken, resumed_takenUp ho hf hold] at hcut
  rw [takePlay_eq]
  refine ((hcut.plain (f := updVoice x _) fun _ _ _ _ => rfl).area .voices).congr ?_ fun _ => Iff.rfl
  exact updVoice_loaded rfl

/-! ## Whatever record is taken over -/

/-- What a taken-over record's owner and voice make of the state, the voice having no stop to come back from. -/
theorem cut_keepsVoices {e : Elem} (hs : ∀ (j : RecId) (y : VoiceId), fadingOf s e none = some j →
      s.fades[j].bind (·.stopMark) = some y → s.voices[y].stopRec ≠ some j) :
    ∃ q fs k ms m, cut e start s = { s with
      levels := s.levels.put e start, seq := q, fades := fs, takenOver := k, marks := ms, mirror := m } := by
  have htake : ∃ q fs k ms m, takeOver e none s = { s with
      seq := q, fades := fs, takenOver := k, marks := ms, mirror := m } := by
    cases hf : fadingOf s e none with
    | none => exact ⟨_, _, _, _, _, takeOver_of_none hf⟩
    | some j =>
      obtain ⟨old, _, _, hold, _⟩ := fadingOf_some hf
      rw [takeOver_of_some hf]
      unfold leaveTable
      rw [hold]
      dsimp only
      have hown : ∃ q ms, ownerTold old .takenOver { setFade j none s with takenOver := sat16 s.takenOver }
          = { setFade j none s with takenOver := sat16 s.takenOver, seq := q, marks := ms } := by
        unfold ownerTold
        cases old.owner with
        | request => exact ⟨s.seq, s.marks, rfl⟩
        | cast => exact ⟨s.seq, s.marks, rfl⟩
        | firing id => exact ⟨_, _, cueTold_eq id _⟩
      obtain ⟨q, ms, hown⟩ := hown
      refine ⟨q, s.fades.set j none, sat16 s.takenOver, ms, (setFade j none s).mirror, ?_⟩
      rw [if_pos rfl]
      refine (congrArg (stopTold j old .takenOver) hown).trans ?_
      unfold stopTold
      cases hm : old.stopMark with
      | none => rfl
      | some y => exact if_neg (hs j y hf (by rw [hold]; exact hm))
  obtain ⟨q, fs, k, ms, m, htake⟩ := htake
  unfold cut
  rw [htake, setElem_eq]
  exact ⟨_, _, _, _, _, rfl⟩

theorem takePlay_keeps (ho : s.OwnStopOnly x) : ∃ q fs k ms m, takePlay x snd start owner s
    = { played x snd start owner s with seq := q, fades := fs, takenOver := k, marks := ms, mirror := m } := by
  obtain ⟨q, fs, k, ms, m, hcut⟩ := cut_keepsVoices (s := takenUp x snd owner s) (e := .voice x) (start := start)
    fun j y hf hm hc => by
      obtain rfl : y = x := ho j y hf hm
      have : (takenUp y snd owner s).voices[y].stopRec = none := by simp [takenUp, loaded]
      exact nomatch this.symm.trans hc
  refine ⟨q, fs, k, (mark .voices { s with marks := ms }).marks, m, ?_⟩
  rw [takePlay_eq, hcut, updVoice_loaded rfl]
  rfl

/-! ## The call that is cut off (R163) -/

/-- One call more has been cut. -/
def countCut (s : State) : State := { s with cutCalls := sat16 s.cutCalls }

theorem cutCall_eq {by' : VoiceOwner} (hi : s.calls[c].inst = some i) (hip : i.page = some p) :
    cutCall c by' s = captureEvent callCell (callWords c true none i by')
      (Machine.closePage p .call (Machine.endInst c .cut (countCut s))) := by
  unfold cutCall
  rw [hi]
  dsimp only
  rw [closeOwnPage, hip, callDetails_eq]
  rfl

/-- The state once a call whose voice another has taken has ended. -/
def callCutOff (c : CallId) (i : CallInst) (p : PageId) (pg : Page) (by' : VoiceOwner) (s : State) : State :=
  captureEvent callCell (callWords c true none i by')
    (closed p pg .call (ended c .cut (countCut s)))

theorem Reaches.cutCall {by' : VoiceOwner} (h : Reaches as u v) (hi : u.calls[c].inst = some i)
    (hip : i.page = some p) (hp : u.pages[p] = some pg) :
    Reaches (closeAreas pg ++ .pages :: as) (callCutOff c i p pg by' u) (cutCall c by' v) := by
  have hc : v.calls = u.calls := by rw [h.1]; rfl
  have hcount : Reaches as (countCut u) (countCut v) := h.plain fun _ _ _ _ => rfl
  have hend : Reaches (.pages :: as) (ended c .cut (countCut u)) (Machine.endInst c .cut (countCut v)) := hcount.endInst
  rw [cutCall_eq (by rw [hc]; exact hi) hip]
  have hclose := Reaches.closePage (p := p) (pg := pg) .call hend hp
  unfold callCutOff
  exact Reaches.plain (plain_captureEvent callCell (callWords c true none i by')) hclose

theorem callCutOff_eq (by' : VoiceOwner) (hop : pg.opener = .call c) : callCutOff c i p pg by' s
    = { s with
      cutCalls := sat16 s.cutCalls
      pages := s.pages.set p none
      zones := uncarried s (zonesOf pg.zones)
      lastClosed := some { id := p, opener := .call c, reason := .call, time := s.tod }
      calls := upd s.calls c fun y => { y with inst := none, outcome := .cut }
      notes := s.notes ++ leaveNotes s (zonesOf pg.zones)
      cells := (capturing callCell (callWords c true none i by') s.cells s.tod s.wq).1
      wq := (capturing callCell (callWords c true none i by') s.cells s.tod s.wq).2 } := by
  unfold callCutOff
  rw [captureEvent_eq]
  unfold closed ended closeNotes withoutPage countCut
  rw [hop]
  dsimp only
  rw [upd_upd, if_pos rfl, List.append_nil]
  rfl

theorem Reaches.drain_callCut {by' : VoiceOwner} (h : Reaches as { u with notes := [.callCut c by'] } v)
    (hi : u.calls[c].inst = some i) (hip : i.page = some p) (hp : u.pages[p] = some pg) (hop : pg.opener = .call c) :
    Reaches (closeAreas pg ++ .pages :: as) { callCutOff c i p pg by' u with notes := [] } (drain v) := by
  have hlen : (leaveNotes { u with notes := [] } (zonesOf pg.zones)).length ≤ 24 :=
    (leaveNotes_length ..).trans (zonesOf_length pg.zones)
  have hsame : callCutOff c i p pg by' { u with notes := [] } = { callCutOff c i p pg by' u with
      notes := [] ++ leaveNotes { u with notes := [] } (zonesOf pg.zones) } := by
    rw [callCutOff_eq by' hop, callCutOff_eq by' hop]
    rfl
  have hidle : ∀ v', Reaches as { u with notes := [] } v' →
      Settles (leaveNotes { u with notes := [] } (zonesOf pg.zones)).length (closeAreas pg ++ .pages :: as)
        (handleNote (.callCut c by') v') { callCutOff c i p pg by' u with notes := [] } := by
    intro v' h'
    have hgone := (Reaches.cutCall (by' := by') h' hi hip hp).congr hsame fun _ => Iff.rfl
    refine hgone.idle_notes (k := []) (List.append_nil _).symm fun n hn => leaveNotes_idle hn ?_
    rw [callCutOff_eq by' hop]
    rfl
  exact (h.note rfl hidle).drained (by omega) rfl

/-- What is left of a call, its page and the cells once another has taken its voice. -/
def CallCut (s : State) (c : CallId) (i : CallInst) (p : PageId) (by' : VoiceOwner) (n : Nat) (t : State) : Prop :=
  t.calls = upd s.calls c (fun y => { y with inst := none, outcome := .cut })
    ∧ t.cutCalls = sat16 s.cutCalls ∧ t.missedCalls = s.missedCalls
    ∧ t.pages = s.pages.set p none
    ∧ t.lastClosed = some { id := p, opener := .call c, reason := .call, time := s.tod }
    ∧ s.Captured callCell (callWords c true none i by') n t ∧ s.CellsKept [callCell] t

/-- What an event that cuts a call off has made of the state. -/
theorem callCut_finished {n : Nat} {by' : VoiceOwner} (hall : SameCalls s u) (hr : Roomy s.wq u.wq n)
    (hv : v = { u with notes := [.callCut c by'] }) (hi : s.calls[c].inst = some i) (hip : i.page = some p)
    (hp : s.pages[p] = some pg) (hop : pg.opener = .call c) :
    let t := finish v
    t.voices = u.voices ∧ t.levels = u.levels ∧ CallCut s c i p by' n t := by
  intro t
  obtain ⟨hC, hP, hZ, hH, hE, hK, hM, hcut, htod⟩ := hall
  have h : Reaches u.marks { u with notes := [.callCut c by'] } v := by
    subst hv
    exact ⟨rfl, fun _ h => h, fun h => h, fun _ => Iff.rfl⟩
  have hdrain := h.drain_callCut (by rw [hC]; exact hi) hip (by rw [hP]; exact hp) hop
  rw [callCutOff_eq by' hop] at hdrain
  obtain ⟨l, m, hfin⟩ := hdrain.finished rfl
  have ht : t = _ := hfin
  rw [ht]
  refine ⟨rfl, rfl, by rw [← hC], by rw [← hcut], hM, by rw [← hP], by rw [← htod], ?_, fun cell hcell => ?_⟩
  · rw [hK, htod]
    exact captured_of (l := l) hr rfl rfl
  · rw [hK, htod]
    exact capturing_other fun h => hcell (List.mem_singleton.mpr h)

end Sys2Proof.Proofs.Ends
end

section
/-! PROOF. VOICE_START (R118, R121, R122). -/

namespace Sys2Proof.Proofs.Ends

open Sys2Proof.Machine

variable {s u v w : State} {as : List Area} {x : VoiceId} {snd : SoundCopy} {n : Nat} {field : BitVec 16} {loop : Bool}
  {c : CallId} {i : CallInst} {p : PageId} {pg : Page}

/-! ## Which sounds are usable (R118) -/

theorem judgeRecord_cases (size n : Nat) (loop : Bool) (r : RawSound) :
    let unknown : Prop := 1023 < n ∨ r.start % 4 ≠ 0 ∨ (0 < r.count ∧ size ≤ r.start + 4 * (r.count - 1))
    (unknown → judgeRecord size n loop r = .unknown)
      ∧ (¬ unknown → r.count = 0 → judgeRecord size n loop r = .empty)
      ∧ (¬ unknown → 0 < r.count → judgeRecord size n loop r = .usable
          { number := n, start := r.start, count := r.count, loopStart := r.loopStart.getD 0,
            loopEnd := r.loopEnd.getD 0, looping := loopInEffect loop r }) :=
  ⟨fun h => if_pos h, fun h h0 => (if_neg h).trans (if_pos h0),
    fun h h0 => (if_neg h).trans (if_neg (Nat.pos_iff_ne_zero.mp h0))⟩

theorem loopInEffect_iff {r : RawSound} : loopInEffect loop r = true ↔ loop = true ∧ ∃ a b, r.loopStart = some a
    ∧ r.loopEnd = some b ∧ a < b ∧ b ≤ r.count := by
  unfold loopInEffect
  cases r.loopStart <;> cases r.loopEnd <;> simp [and_assoc]

/-! ## VOICE_START (R122) -/

theorem ownerOf_voiceStart_bad (h : 16 ≤ n) {sound : Nat} :
    ownerOf (.voiceStart n sound field loop) s = (s, some (badVoiceArg .voice)) := by
  show later (voiceStartOwner n sound field loop s) = _
  unfold voiceStartOwner
  rw [fin?_none h]
  rfl

/-- The answer to a VOICE_START that its voice takes. -/
def startAnswer (y : Voice) (snd : SoundCopy) : Answer :=
  answer .ok (wordsOf (Config.code (.owner y.owner.kind)) (wordOf y.owner.number) (wordOf snd.count)
    (Config.code (.looping snd.looping)))

theorem voiceStartOwner_eq (x : VoiceId) (n : Nat) (field : BitVec 16) (loop : Bool) (s : State) :
    voiceStartOwner x.val n field loop s = match judgeSound s s.mem n loop with
      | .unknown => (s.soundAsked n, badVoiceArg .soundUnknown)
      | .empty => (s.soundAsked n, badVoiceArg .soundEmpty)
      | .usable snd => (takePlay x snd (levelOfField field) .request (s.soundAsked n), startAnswer s.voices[x] snd) := by
  unfold voiceStartOwner
  rw [fin?_val]
  dsimp only
  rw [askSound_eq, judgeSound_soundAsked]
  have hv : (s.soundAsked n).voices = s.voices := by rw [soundAsked_eq]
  rw [hv]
  rfl

theorem ownerOf_voiceStart (x : VoiceId) (n : Nat) (field : BitVec 16) (loop : Bool) (s : State) :
    ownerOf (.voiceStart x.val n field loop) s = later (voiceStartOwner x.val n field loop s) := rfl

theorem handed_soundAsked (n : Nat) (s : State) :
    (markHanded s).soundAsked n = { s.soundAsked n with slate := (markHanded s).slate } := by
  unfold State.soundAsked
  split <;> rfl

theorem Reaches.soundAsked (h : Reaches as u v) : Reaches as (u.soundAsked n) (v.soundAsked n) :=
  Reaches.plain (plain_soundAsked n) h

/-- A VOICE_START of a sound that is not usable. -/
theorem voiceStart_unusable {why : RefusedFor} (ht : s.Takes (.voiceStart x.val n field loop))
    (h : voiceStartOwner x.val n field loop (markHanded s) = ((markHanded s).soundAsked n, badVoiceArg why)) :
    (s.soundAsked n).Answered [] (badVoiceArg why) (request (.voiceStart x.val n field loop) s) := by
  obtain ⟨hn, hm⟩ := ht.2.1
  have hreach : Reaches [] ((markHanded s).soundAsked n) ((markHanded s).soundAsked n) :=
    (Reaches.refl (s := markHanded s) hm).soundAsked
  refine Reaches.answered ht ((ownerOf_voiceStart ..).trans (congrArg later h))
    (hreach.congr (handed_soundAsked n s) fun _ => Iff.rfl) ?_ ?_ ?_
  all_goals rw [soundAsked_eq]
  exact hn

section

variable (ht : s.Takes (.voiceStart x.val n field loop)) (hsnd : judgeSound s s.mem n loop = .usable snd)

include ht hsnd

theorem voiceStart_owner : ownerOf (.voiceStart x.val n field loop) (markHanded s)
    = (takePlay x snd (levelOfField field) .request ((markHanded s).soundAsked n),
        some (startAnswer s.voices[x] snd)) := by
  rw [ownerOf_voiceStart, voiceStartOwner_eq, show judgeSound (markHanded s) (markHanded s).mem n loop = _ from hsnd]
  rfl

theorem voiceStart_asked : s.soundAsked n = { s with arb := { s.arb with reads := s.arb.reads ++ [.record] } } :=
  if_pos (usable_number hsnd)

/-- A VOICE_START that its voice takes, no call being cut off. -/
theorem voiceStart_takes (hno : ∀ c, s.voices[x].owner ≠ .call c) {k : Nat} {q : Seq} {fs : Vector (Option FadeRec) 128}
    (h : Reaches as { played x snd (levelOfField field) .request ((markHanded s).soundAsked n) with
      seq := q, takenOver := k, fades := fs } (takePlay x snd (levelOfField field) .request ((markHanded s).soundAsked n))) :
    State.Answered as { s with
      seq := q, takenOver := k, fades := fs
      voices := s.voices.set x (Voice.restarted s.voices[x] snd .request).request
      levels := s.levels.put (.voice x) (levelOfField field), arb := s.playedArb x }
      (startAnswer s.voices[x] snd) (request (.voiceStart x.val n field loop) s) := by
  refine Reaches.answered ht (voiceStart_owner ht hsnd) (h.congr ?_ fun _ => Iff.rfl) rfl rfl ht.2.1.1
  rw [handed_soundAsked, voiceStart_asked ht hsnd]
  unfold played
  dsimp only
  rw [cutNotes_noCall hno, List.append_nil]
  rfl

/-- A VOICE_START that cuts a call off. -/
theorem voiceStart_cuts (ho : s.OwnStopOnly x) (hown : s.voices[x].owner = .call c) (hi : s.calls[c].inst = some i)
    (hip : i.page = some p) (hp : s.pages[p] = some pg) (hop : pg.opener = .call c) :
    ∃ t, exec (.voiceStart x.val n field loop) s = .next t
      ∧ t.voices = s.voices.set x (Voice.restarted s.voices[x] snd .request).request
      ∧ CallCut s c i p .request 2 t := by
  obtain ⟨hn, hm⟩ := ht.2.1
  have hasked := handed_soundAsked n s
  rw [voiceStart_asked ht hsnd] at hasked
  obtain ⟨q, fs, k, ms, m, hplay⟩ := takePlay_keeps (s := (markHanded s).soundAsked n) (x := x) (snd := snd)
    (start := levelOfField field) (owner := .request) (by rw [hasked]; exact ho)
  have howner := voiceStart_owner ht hsnd
  rw [hplay, hasked] at howner
  have hreq := request_eq ht howner rfl rfl
  let w : State := { played x snd (levelOfField field) .request
      { s with arb := { s.arb with reads := s.arb.reads ++ [.record] }, slate := (markHanded s).slate } with
    seq := q, fades := fs, takenOver := k, marks := ms, mirror := m }
  have hnotes : w.notes = [.callCut c .request] := by
    show s.notes ++ cutNotes s.voices[x].owner .request = _
    rw [hn, hown]
    rfl
  have hw : answered (startAnswer s.voices[x] snd) s w
      = { answered (startAnswer s.voices[x] snd) s { w with notes := [] } with notes := [.callCut c .request] } := by
    rw [← hnotes]
    rfl
  obtain ⟨hv, _, hcut⟩ := callCut_finished (s := s) (u := answered (startAnswer s.voices[x] snd) s { w with notes := [] })
    (v := answered (startAnswer s.voices[x] snd) s w) (by' := .request) (n := 2)
    ⟨rfl, rfl, rfl, rfl, rfl, rfl, rfl, rfl, rfl⟩ (roomy_answeredQueue _ _ _) hw hi hip hp hop
  refine ⟨_, exec_command (r := .voiceStart x.val n field loop) ht.1, ?_⟩
  rw [hreq]
  exact ⟨hv, hcut⟩

end

/-- Settles O34. -/
theorem voiceStartTakesTheVoice : Obligations.VoiceStartTakesTheVoice := by
  unfold Obligations.VoiceStartTakesTheVoice
  refine ⟨fun s voice n field loop ht => ?_, fun s x n field loop snd c i p pg ht hsnd ho hown hi hip hp hop =>
    voiceStart_cuts ht hsnd ho hown hi hip hp hop, fun size n loop r => ?_⟩
  · refine ⟨_, exec_command (r := .voiceStart voice n field loop) ht.1,
      fun hb => answered_same ht (ownerOf_voiceStart_bad hb), ?_⟩
    rintro x rfl
    have hown := voiceStartOwner_eq x n field loop (markHanded s)
    refine ⟨fun h => ?_, fun h => ?_, fun snd hsnd hno => ⟨fun hf => ?_, fun j old ho hf hold => ?_⟩⟩
    · rw [show judgeSound (markHanded s) (markHanded s).mem n loop = _ from h] at hown
      exact voiceStart_unusable ht hown
    · rw [show judgeSound (markHanded s) (markHanded s).mem n loop = _ from h] at hown
      exact voiceStart_unusable ht hown
    · have hreach : Reaches [] ((markHanded s).soundAsked n) ((markHanded s).soundAsked n) :=
        (Reaches.refl (s := markHanded s) ht.2.1.2).soundAsked
      have hsame : (markHanded s).soundAsked n = { markHanded s with arb := ((markHanded s).soundAsked n).arb } :=
        soundAsked_eq n (markHanded s)
      have hf' : ((markHanded s).soundAsked n).NotFading (.voice x) := by rw [hsame]; exact hf
      have h := (hreach.takePlay_none (snd := snd) (start := levelOfField field) (owner := .request) hf').congr
        (w := { played x snd (levelOfField field) .request ((markHanded s).soundAsked n) with
          seq := s.seq, takenOver := s.takenOver, fades := s.fades }) (by rw [hsame]; rfl) fun _ => Iff.rfl
      exact voiceStart_takes ht hsnd hno h
    · have hreach : Reaches [] ((markHanded s).soundAsked n) ((markHanded s).soundAsked n) :=
        (Reaches.refl (s := markHanded s) ht.2.1.2).soundAsked
      have hsame : (markHanded s).soundAsked n = { markHanded s with arb := ((markHanded s).soundAsked n).arb } :=
        soundAsked_eq n (markHanded s)
      have htakes {q : Seq} (htell : Tells s old q) : State.Answered (.voices :: cueAreas old) { s with
          seq := q, takenOver := min (s.takenOver + 1) 65535, fades := s.fades.set j none
          voices := s.voices.set x (Voice.restarted s.voices[x] snd .request).request
          levels := s.levels.put (.voice x) (levelOfField field), arb := s.playedArb x }
          (startAnswer s.voices[x] snd) (request (.voiceStart x.val n field loop) s) := by
        have h := hreach.takePlay_some (snd := snd) (start := levelOfField field) (owner := .request) (q := q)
          (by rw [hsame]; exact ho) (by rw [hsame]; exact hf) (by rw [hsame]; exact hold)
          (htell.congr (by rw [hsame]; rfl))
        have h := h.congr (bs := .voices :: cueAreas old) (w := { played x snd (levelOfField field) .request
            ((markHanded s).soundAsked n) with
          seq := q, takenOver := min (s.takenOver + 1) 65535, fades := s.fades.set j none }) (by rw [hsame]; rfl)
          (by simp)
        exact voiceStart_takes ht hsnd hno h
      refine ⟨fun hr => ?_, fun y hr hy hpn hpl => ?_⟩
      · have := htakes (.request hr)
        rw [cueAreas, hr] at this
        exact this
      · have := htakes (.cue y hr hy hpn hpl)
        rw [cueAreas, hr] at this
        exact this
  · obtain ⟨h1, h2, h3⟩ := judgeRecord_cases size n loop r
    refine ⟨h1, h2, fun h h0 => ⟨_, h3 h h0, rfl, rfl, rfl, loopInEffect_iff, fun hl => ?_⟩⟩
    obtain ⟨_, a, b, ha, hb, _⟩ := loopInEffect_iff.mp hl
    rw [ha, hb]
    exact ⟨rfl, rfl⟩

end Sys2Proof.Proofs.Ends
end

section
/-! PROOF. What a running cue's record does when its delay has run out: it leaves the table, cuts, or begins to fade
(R85, R87, R103 to R109, R130). -/

namespace Sys2Proof.Proofs.Ends

open Sys2Proof.Machine Sys2Proof.Proofs.Turns

variable {s t u v w : State} {as : List Area} {i j : RecId} {r old : FadeRec} {b : Bool} {x y : RunEntry} {q : Seq}

/-! ## The entries of the running list after a telling (R87) -/

theorem entryOf_congr {id : FiringId} (h : t.seq = s.seq) : entryOf t id = entryOf s id := by
  unfold entryOf
  rw [h]

/-- The telling of one cue does not touch another. -/
theorem entryOf_told_ne {id : FiringId} (h : id ≠ y.id) : entryOf { s with seq := s.seq.told y } id = entryOf s id := by
  unfold entryOf Seq.told
  dsimp only
  split
  · dsimp only
    induction s.seq.running with
    | nil => rfl
    | cons e l ih =>
      rw [List.map_cons, List.find?_cons, List.find?_cons, ih]
      by_cases he : e.id = y.id
      · rw [if_pos he]
        simp [he, h.symm]
      · rw [if_neg he]
  · dsimp only
    induction s.seq.running with
    | nil => rfl
    | cons e l ih =>
      rw [List.find?_cons]
      by_cases he : e.id = y.id
      · rw [List.filter_cons_of_neg (by simp [he]), ih]
        simp [he, h.symm]
      · rw [List.filter_cons_of_pos (by simp [he]), List.find?_cons, ih]

/-- A cue with two records or more keeps its entry, its pending count fallen. -/
theorem entryOf_told_self (he : entryOf s x.id = some x) (hp : 2 ≤ x.pending) :
    entryOf { s with seq := s.seq.told x } x.id = some { x with pending := x.pending - 1 } := by
  rw [told_of_pending hp, entryOf_updEntry (f := onePendingLess) fun _ => rfl, he]
  rfl

/-! ## A record of a running cue leaves (R103) -/

/-- The record is a running cue's. -/
structure OfCue (s : State) (r : FadeRec) (x : RunEntry) : Prop where
  owner : r.owner = .firing x.id
  entry : entryOf s x.id = some x
  pending : 0 < x.pending
  placed : x.placing = false

theorem OfCue.congr (h : OfCue s r x) (hs : t.seq = s.seq) : OfCue t r x :=
  ⟨h.owner, (entryOf_congr hs).trans h.entry, h.pending, h.placed⟩

theorem Reaches.ownerTold_cue (h : Reaches as u v) (hx : OfCue u r x) {how : Leave} :
    Reaches (.cue :: as) { u with seq := u.seq.told x } (ownerTold r how v) := by
  unfold ownerTold
  rw [hx.owner]
  exact h.tellCue hx.entry hx.pending hx.placed

/-- A record that is no stop fade leaves as completed. -/
theorem Reaches.leaveTable_cue (h : Reaches as u v) (hr : u.fades[i] = some r) (hx : OfCue u r x)
    (hm : r.stopMark = none) : Reaches (.cue :: as) { u with fades := u.fades.set i none, seq := u.seq.told x }
      (leaveTable i (.completed b) v) := by
  have hv : v.fades[i] = some r := by rw [h.1]; exact hr
  rw [leaveTable_completed hv]
  exact (Reaches.ownerTold_cue (h.fade i none) (hx.congr rfl)).stopTold_none hm

/-- A stop fade leaves as completed at once: its voice, which stands alone, enters IDLE. -/
theorem Reaches.leaveTable_stop {z : VoiceId} (h : Reaches as u v) (hr : u.fades[i] = some r) (hx : OfCue u r x)
    (hm : r.stopMark = some z) (hs : u.voices[z].state ≠ .idle) :
    Reaches (.voices :: .cue :: as) { idledAt z { u with fades := u.fades.set i none, seq := u.seq.told x } with
      notes := u.notes ++ [.voiceIdle z u.voices[z].owner] } (leaveTable i (.completed true) v) := by
  have hv : v.fades[i] = some r := by rw [h.1]; exact hr
  rw [leaveTable_completed hv, stopTold_completed hm]
  exact (Reaches.ownerTold_cue (h.fade i none) (hx.congr rfl)).stopCompleted hs (.inl rfl)

/-! ## Cuts and fades by a record (R107 to R109) -/

/-- What is taken over for a record of the cue `x`: nothing, or a record whose owner is told, `x` then having the
entry `x'`. -/
inductive Yields (s : State) (e : Elem) (i : RecId) (x : RunEntry) : State → RunEntry → List Area → Prop
  | nothing (hf : fadingOf s e (some i) = none) : Yields s e i x s x []
  | record {j : RecId} {old : FadeRec} {q : Seq} {x' : RunEntry} (hf : fadingOf s e (some i) = some j)
      (hold : s.fades[j] = some old) (ht : Tells s old q)
      (hx : entryOf { s with seq := q } x.id = some x') (hid : x'.id = x.id) (hp : 0 < x'.pending)
      (hpl : x'.placing = false) : Yields s e i x (overtaken s j old q) x' (s.takeoverAreas j old)

theorem Yields.reaches {e : Elem} {s' : State} {x' : RunEntry} {bs : List Area} (hy : Yields u e i x s' x' bs)
    (h : Reaches as u v) : Reaches (bs ++ as) s' (takeOver e (some i) v) := by
  cases hy with
  | nothing hf => exact h.takeOver_none hf
  | record hf hold ht => exact h.takeOver_some hf hold ht

/-- The record itself stays in its place. -/
theorem Yields.place {e : Elem} {s' : State} {x' : RunEntry} {bs : List Area} (hy : Yields s e i x s' x' bs) :
    s'.fades[i] = s.fades[i] := by
  cases hy with
  | nothing => rfl
  | @record j _ _ _ hf =>
    have hne : j ≠ i := fun h => (movesAt_of_fadingOf hf).1 (congrArg _ h)
    exact Vector.getElem_set_ne j.isLt i.isLt fun h => hne (Fin.ext h)

theorem Yields.ofCue {e : Elem} {s' : State} {x' : RunEntry} {bs : List Area} (hy : Yields s e i x s' x' bs)
    (hx : OfCue s r x) : OfCue s' r x' := by
  cases hy with
  | nothing => exact hx
  | record hf hold ht he hid hp hpl => exact ⟨by rw [hid]; exact hx.owner, by rw [hid]; exact he, hp, hpl⟩

/-- What a takeover leaves of a state does not depend on levels and on the record's own place. -/
theorem Yields.level {e : Elem} {s' : State} {x' : RunEntry} {bs : List Area} (hy : Yields s e i x s' x' bs)
    (l : Levels) (f : Option FadeRec) : Yields { s with levels := l, fades := s.fades.set i f } e i x
      { s' with levels := l, fades := s'.fades.set i f } x' bs := by
  have hset {q : Option RecId} (hq : some i = q) : fadingOf { s with levels := l, fades := s.fades.set i f } e q
      = fadingOf s e q := fadingOf_set rfl (.inl hq)
  cases hy with
  | nothing hf => exact .nothing ((hset rfl).trans hf)
  | @record j old q x' hf hold ht hx hid hp hpl =>
    have hne : j ≠ i := fun h => (movesAt_of_fadingOf hf).1 (congrArg _ h)
    have hold' : (s.fades.set i f)[j] = some old :=
      (Vector.getElem_set_ne i.isLt j.isLt fun h => hne (Fin.ext h.symm)).trans hold
    have := Yields.record (s := { s with levels := l, fades := s.fades.set i f }) (x := x) (x' := x')
      ((hset rfl).trans hf) hold' (ht.congr rfl) hx hid hp hpl
    have hcomm : (s.fades.set i f).set j none = (s.fades.set j none).set i f :=
      Vector.set_comm _ _ fun h => hne (Fin.ext h.symm)
    unfold overtaken at this ⊢
    rw [hcomm] at this
    exact this

section

variable {e : Elem} {target : Level} {curve : Curve} {s' : State} {x' : RunEntry} {bs : List Area}
  (hy : Yields u e i x s' x' bs) (h : Reaches as u v) (hr : u.fades[i] = some r) (hx : OfCue u r x)

include hy h hr hx

/-- A record cuts its element and leaves. -/
theorem Reaches.cutBy_cue (hm : r.stopMark = none) : Reaches (.cue :: (bs ++ as)) { s' with
      levels := s'.levels.put e target, fades := s'.fades.set i none, seq := s'.seq.told x' }
      (cutBy i e target v) :=
  ((hy.reaches h).elem e target).leaveTable_cue (hy.place.trans hr) ((hy.ofCue hx).congr rfl) hm

/-- A STOP's record cuts its voice's level and leaves, the voice entering IDLE. -/
theorem Reaches.cutBy_stop {z : VoiceId} (hm : r.stopMark = some z) (hs : s'.voices[z].state ≠ .idle) :
    Reaches (.voices :: .cue :: (bs ++ as)) { idledAt z { s' with
        levels := s'.levels.put e target, fades := s'.fades.set i none, seq := s'.seq.told x' } with
      notes := s'.notes ++ [.voiceIdle z s'.voices[z].owner] } (cutBy i e target v) :=
  ((hy.reaches h).elem e target).leaveTable_stop (hy.place.trans hr) ((hy.ofCue hx).congr rfl) hm hs

end

/-- A record begins to fade from its element's level. -/
theorem Reaches.startFade_cue {e : Elem} {target : Level} {curve : Curve} {s' : State} {x' : RunEntry} {bs : List Area}
    {a : Int} {T : Nat} (hy : Yields u e i x s' x' bs) (h : Reaches as u v)
    (ha : (u.level e).orFloor e.floor = a) (hT : r.chosenTime a (target.orFloor e.floor) = T)
    (hc : ¬ (curve = .cut ∨ T = 0)) : Reaches (bs ++ as) { s' with
      levels := u.levels.put e (.steps a)
      fades := s'.fades.set i (some { r with fading := true, delayLeft := 0, start := a, time := T, elapsed := 0 }) }
      (startFade i r e target curve v) := by
  rw [startFade_steps (by rw [h.same_level]; exact ha) hT hc]
  have hy' := hy.level (u.levels.put e (.steps a)) u.fades[i]
  have hself : u.fades.set i u.fades[i] = u.fades := set_self ..
  rw [hself] at hy'
  refine ((hy'.reaches (h.elem e (.steps a))).fade i _).congr ?_ fun _ => Iff.rfl
  simp only [Vector.set_set]

end Sys2Proof.Proofs.Ends
end

section
/-! PROOF. DELAY_EXPIRY of a running cue's record, for each content (R105 to R109, R121). -/

namespace Sys2Proof.Proofs.Ends

open Sys2Proof.Machine Sys2Proof.Proofs.Turns

variable {s t u v w : State} {as : List Area} {i j : RecId} {r old : FadeRec} {b : Bool} {x y : RunEntry} {q : Seq}
  {e : Elem}

/-! ## What a record of the cue may take over -/

theorem Yields.of_request (hf : fadingOf s e (some i) = some j) (hold : s.fades[j] = some old) (ho : old.owner = .request)
    (hx : OfCue s r x) : Yields s e i x (overtaken s j old s.seq) x (s.takeoverAreas j old) :=
  .record hf hold (.request ho) hx.entry rfl hx.pending hx.placed

/-- The record taken over is the same cue's. -/
theorem Yields.of_self (hf : fadingOf s e (some i) = some j) (hold : s.fades[j] = some old)
    (ho : old.owner = .firing x.id) (h2 : 2 ≤ x.pending) (hx : OfCue s r x) :
    Yields s e i x (overtaken s j old (s.seq.told x)) { x with pending := x.pending - 1 } (s.takeoverAreas j old) :=
  .record hf hold (.cue x ho hx.entry hx.pending hx.placed) (entryOf_told_self hx.entry h2) rfl
    (by show 0 < x.pending - 1; omega) hx.placed

/-- The record taken over is another cue's. -/
theorem Yields.of_other (hf : fadingOf s e (some i) = some j) (hold : s.fades[j] = some old)
    (ho : old.owner = .firing y.id) (hne : y.id ≠ x.id) (hy : entryOf s y.id = some y) (hp : 0 < y.pending)
    (hpl : y.placing = false) (hx : OfCue s r x) :
    Yields s e i x (overtaken s j old (s.seq.told y)) x (s.takeoverAreas j old) :=
  .record hf hold (.cue y ho hy hp hpl) ((entryOf_told_ne hne.symm).trans hx.entry) rfl hx.pending hx.placed

/-! ## The record leaves with nothing taken over -/

theorem Reaches.leaveTable_cue_noted (h : Reaches as u v) (hr : u.fades[i] = some r) (hx : OfCue u r x)
    (hm : r.stopMark = none) : Reaches (.cue :: as) { setFade i none u with seq := u.seq.told x }
      (leaveTable i (.completed b) v) := by
  have hv : v.fades[i] = some r := by rw [h.1]; exact hr
  rw [leaveTable_completed hv]
  exact (Reaches.ownerTold_cue (h.fade_noted i none) (hx.congr rfl)).stopTold_none hm

/-- The state once a record of the cue has left the table, with what is noted of the records in use. -/
def toldOff (i : RecId) (x : RunEntry) (s : State) : State := { setFade i none s with seq := s.seq.told x }

/-- The same, but for what is noted. -/
def leftTable (i : RecId) (x : RunEntry) (s : State) : State := { s with
  fades := s.fades.set i none, seq := s.seq.told x }

/-! ## LEVEL -/

section

variable {target : Level} {curve : Curve} (hr : s.fades[i] = some r) (hc : r.content = .level e target curve)

include hr hc

theorem actRecord_level : actRecord none i s = startFade i r e target curve s := by
  unfold actRecord
  rw [hr]
  dsimp only
  rw [hc]

end

/-! ## RELAY -/

theorem actRecord_relay {g : Fin 8} {on : Bool} (hr : s.fades[i] = some r) (hc : r.content = .relay g on) :
    actRecord none i s = relayAction g on (leaveTable i (.completed false) s) := by
  unfold actRecord
  rw [hr]
  dsimp only
  rw [hc]

theorem relay_acts {g : Fin 8} {on : Bool} (hq : s.Quiet) (hr : s.fades[i] = some r) (hx : OfCue s r x)
    (hm : r.stopMark = none) (hc : r.content = .relay g on) :
    let t := finish (actRecord none i s)
    t.fades = s.fades.set i none ∧ t.seq = s.seq.told x
      ∧ ∀ z : ZoneId, (s.zoneGroups[g].getLsbD z = true → t.zones[z].relay = on)
        ∧ (s.zoneGroups[g].getLsbD z = false → t.zones[z] = s.zones[z]) := by
  intro t
  obtain ⟨hn, hms⟩ := hq
  obtain ⟨ns, bs, hreach, hben, _⟩ :=
    ((Reaches.refl hms).leaveTable_cue (b := false) hr hx hm).relayAction (g := g) (on := on)
  obtain ⟨⟨P, C, V, wq, m, hf⟩, _⟩ := finish_benign (s := actRecord none i s) (by
    rw [actRecord_relay hr hc, hreach.1]
    show ∀ n ∈ s.notes ++ ns, Benign n
    rw [hn]
    exact hben)
  have ht : t = _ := hf
  have hmem (z : ZoneId) : z ∈ membersOf s g ↔ s.zoneGroups[g].getLsbD z = true := mem_zonesOf
  rw [ht, actRecord_relay hr hc, hreach.1]
  refine ⟨rfl, rfl, fun z => ?_⟩
  have hzone : (tabulate fun z => if z ∈ membersOf s g then switched (s.engine == .stopped) on s.zones[z]
      else s.zones[z])[z] = if z ∈ membersOf s g then switched (s.engine == .stopped) on s.zones[z] else s.zones[z] :=
    tabulate_get _ _ _
  refine ⟨fun hz => ?_, fun hz => ?_⟩
  · refine (congrArg Zone.relay (hzone.trans (if_pos ((hmem z).mpr hz)))).trans ?_
    exact (switched_same s.zones[z]).1
  · exact hzone.trans (if_neg (by rw [hmem, hz]; nofun))

/-! ## PLAY -/

section

variable {z : VoiceId} {n : Nat} {start : Level} {loop : Bool} {id : FiringId}

theorem playMove_usable {snd : SoundCopy} (h : judgeSound s s.mem n loop = .usable snd) :
    playMove none z n start loop (.firing id) s = takePlay z snd start (.cue id) (s.soundAsked n) := by
  have hplay : play none z n start loop (.cue id) s = (takePlay z snd start (.cue id) (s.soundAsked n), .taken) := by
    unfold play
    dsimp only [Option.getD]
    rw [askSound_eq, judgeSound_soundAsked, h]
    rfl
  unfold playMove
  rw [show Owner.voiceOwner (.firing id) = .cue id from rfl, hplay]

theorem playMove_fails (h : judgeSound s s.mem n loop = .unknown ∨ judgeSound s s.mem n loop = .empty) :
    playMove none z n start loop (.firing id) s = cueFailed id (s.soundAsked n) := by
  have hplay : ∃ e, e ≠ .taken ∧ play none z n start loop (.cue id) s = (s.soundAsked n, e) := by
    unfold play
    dsimp only [Option.getD]
    rw [askSound_eq, judgeSound_soundAsked]
    rcases h with h | h <;> rw [h]
    · exact ⟨.unknown, nofun, rfl⟩
    · exact ⟨.empty, nofun, rfl⟩
  obtain ⟨e, he, hplay⟩ := hplay
  unfold playMove
  rw [show Owner.voiceOwner (.firing id) = .cue id from rfl, hplay]
  cases e with
  | taken => exact absurd rfl he
  | busy | unknown | empty => rfl

end

theorem actRecord_play {z : VoiceId} {n : Nat} {start : Level} {loop : Bool} (hr : s.fades[i] = some r)
    (hc : r.content = .play z n start loop) (ho : r.owner = .firing x.id) :
    actRecord none i s = playMove none z n start loop (.firing x.id) (leaveTable i (.completed false) s) := by
  unfold actRecord
  rw [hr]
  dsimp only
  rw [hc, ← ho]

/-! ## STOP -/

theorem actRecord_stop_idle {z : VoiceId} {time : Nat} (hr : s.fades[i] = some r) (hc : r.content = .stop z time)
    (hs : s.voices[z].state = .idle) : actRecord none i s = leaveTable i (.completed false) s := by
  unfold actRecord
  rw [hr]
  dsimp only
  rw [hc]
  exact if_pos hs

theorem actRecord_stop {z : VoiceId} {time : Nat} (hr : s.fades[i] = some r) (hc : r.content = .stop z time)
    (hs : s.voices[z].state ≠ .idle) : actRecord none i s = startStop i r z time s := by
  unfold actRecord
  rw [hr]
  dsimp only
  rw [hc]
  exact if_neg hs

/-! ## What each content comes to -/

theorem Yields.same {s' : State} {x' : RunEntry} {bs : List Area} (hy : Yields s e i x s' x' bs) :
    s'.levels = s.levels ∧ s'.notes = s.notes ∧ s'.pages = s.pages ∧ s'.calls = s.calls ∧ s'.arb = s.arb := by
  cases hy with
  | nothing => exact ⟨rfl, rfl, rfl, rfl, rfl⟩
  | record => exact ⟨rfl, rfl, rfl, rfl, rfl⟩

section

variable (hq : s.Quiet) (hr : s.fades[i] = some r) (hx : OfCue s r x) (hm : r.stopMark = none)

section

variable {target : Level} {curve : Curve} {s' : State} {x' : RunEntry} {bs : List Area} {a : Int} {T : Nat}
  (hc : r.content = .level e target curve) (ha : (s.level e).orFloor e.floor = a)
  (hT : r.chosenTime a (target.orFloor e.floor) = T) (hy : Yields s e i x s' x' bs)

include hq hr hc ha hT hy

theorem level_fades (hcut : ¬ (curve = .cut ∨ T = 0)) : State.EndsAs bs { s' with
      levels := s.levels.put e (.steps a)
      fades := s'.fades.set i (some { r with fading := true, delayLeft := 0, start := a, time := T, elapsed := 0 }) }
      (finish (actRecord none i s)) := by
  rw [actRecord_level hr hc]
  have h := (Reaches.refl hq.2).startFade_cue hy ha hT hcut
  rw [List.append_nil] at h
  exact h.endsAs (hy.same.2.1.trans hq.1)

include hx hm

theorem level_cuts (hcut : curve = .cut ∨ T = 0) : State.EndsAs (.cue :: bs) { s' with
      levels := s.levels.put e target, fades := s'.fades.set i none, seq := s'.seq.told x' }
      (finish (actRecord none i s)) := by
  rw [actRecord_level hr hc, startFade_cut ha hT hcut]
  have h := (Reaches.refl hq.2).cutBy_cue (e := e) (target := target) hy hr hx hm
  obtain ⟨hl, hn, _⟩ := hy.same
  rw [List.append_nil, hl] at h
  exact h.endsAs (hn.trans hq.1)

end

/-- A record cuts its element, and takes no other over. -/
theorem level_cuts_alone {target : Level} {curve : Curve} (hq : s.Quiet) (hr : s.fades[i] = some r) (hx : OfCue s r x)
    (hm : r.stopMark = none) (hc : r.content = .level e target curve) (hf : s.NotFading e)
    (hcut : curve = .cut ∨ r.chosenTime ((s.level e).orFloor e.floor) (target.orFloor e.floor) = 0) :
    State.EndsAs [.cue] { setFade i none s with seq := s.seq.told x, levels := s.levels.put e target }
      (finish (actRecord none i s)) := by
  rw [actRecord_level hr hc, startFade_cut rfl rfl hcut]
  have h := (((Reaches.refl hq.2).takeOver_none (fadingOf_except hf (some i))).elem e target).leaveTable_cue_noted
    (b := true) hr (hx.congr rfl) hm
  exact h.endsAs hq.1

include hq hr hx hm

/-! ### PLAY -/

/-- The record of a PLAY has left the table. -/
theorem play_told : Reaches [.cue] (toldOff i x s) (leaveTable i (.completed false) s) :=
  (Reaches.refl hq.2).leaveTable_cue_noted hr hx hm

theorem play_left : Reaches [.cue] (leftTable i x s) (leaveTable i (.completed false) s) :=
  (Reaches.refl hq.2).leaveTable_cue hr hx hm

end

end Sys2Proof.Proofs.Ends
end

section
/-! PROOF. PLAY and STOP of a running cue's record, and the statement of O51 (R105 to R109, R121, R130). -/

namespace Sys2Proof.Proofs.Ends

open Sys2Proof.Machine Sys2Proof.Proofs.Turns

variable {s t u v w : State} {as : List Area} {i j : RecId} {r old : FadeRec} {b : Bool} {x y : RunEntry} {q : Seq}
  {e : Elem} {z : VoiceId} {n : Nat} {start : Level} {loop : Bool} {snd : SoundCopy} {time : Nat}

/-- A DELAYED record moves nothing. -/
theorem movesAt_delayed (hr : s.fades[i] = some r) (hf : r.fading = false) (e : Elem) : movesAt s.fades[i] e = false := by
  rw [hr, movesAt, hf, Bool.false_and]

/-- Without a DELAYED record the element is moved as before. -/
theorem fadingOf_without (hr : s.fades[i] = some r) (hf : r.fading = false) (ht : t.fades = s.fades.set i none) :
    fadingOf t e none = fadingOf s e none :=
  fadingOf_set ht (.inr ⟨movesAt_delayed hr hf e, rfl⟩)

theorem ne_of_fadingOf {k : Option RecId} (hr : s.fades[i] = some r) (hf : r.fading = false)
    (hj : fadingOf s e k = some j) : (i : Nat) ≠ j := by
  intro h
  obtain rfl : i = j := Fin.ext h
  have := (movesAt_of_fadingOf hj).2
  rw [movesAt_delayed hr hf e] at this
  exact nomatch this

theorem ownStopOnly_without (hr : s.fades[i] = some r) (hf : r.fading = false) (ht : t.fades = s.fades.set i none)
    (h : s.OwnStopOnly z) : t.OwnStopOnly z := by
  intro k y hk hy
  have hk : fadingOf s (.voice z) none = some k := (fadingOf_without hr hf ht).symm.trans hk
  have hget : t.fades[k] = s.fades[k] := by
    rw [ht]
    exact Vector.getElem_set_ne i.isLt k.isLt (ne_of_fadingOf hr hf hk)
  rw [hget] at hy
  exact h k y hk hy

/-! ## PLAY -/

theorem played_asked (hn : n ≤ 1023) {o : VoiceOwner} (hno : ∀ c, w.voices[z].owner ≠ .call c) :
    played z snd start o (w.soundAsked n) = { w with
      voices := w.voices.set z (Voice.restarted w.voices[z] snd o).request
      levels := w.levels.put (.voice z) start, arb := w.playedArb z } := by
  have hasked : w.soundAsked n = { w with arb := { w.arb with reads := w.arb.reads ++ [.record] } } := if_pos hn
  rw [hasked]
  unfold played
  dsimp only
  rw [cutNotes_noCall hno, List.append_nil]
  rfl

/-- What is marked and noted does not matter to a sound. -/
theorem Reaches.same_judge (h : Reaches as u v) (n : Nat) (loop : Bool) :
    judgeSound v v.mem n loop = judgeSound u u.mem n loop := by
  obtain ⟨d, c, ms, rfl, _⟩ := reaches_iff.mp h
  rfl

section

variable (hq : s.Quiet) (hr : s.fades[i] = some r) (hx : OfCue s r x) (hm : r.stopMark = none)
  (hc : r.content = .play z n start loop)

include hq hr hx hm hc

/-- The sound is judged as before the record has left the table. -/
theorem judgeSound_left : judgeSound (leaveTable i (.completed false) s) (leaveTable i (.completed false) s).mem n loop
    = judgeSound s s.mem n loop := by
  exact (play_told hq hr hx hm).same_judge n loop

theorem actRecord_usable (hsnd : judgeSound s s.mem n loop = .usable snd) : actRecord none i s
    = takePlay z snd start (.cue x.id) ((leaveTable i (.completed false) s).soundAsked n) := by
  rw [actRecord_play hr hc hx.owner]
  exact playMove_usable ((judgeSound_left hq hr hx hm hc).trans hsnd)

theorem actRecord_fails (hsnd : judgeSound s s.mem n loop = .unknown ∨ judgeSound s s.mem n loop = .empty) :
    actRecord none i s = cueFailed x.id ((leaveTable i (.completed false) s).soundAsked n) := by
  rw [actRecord_play hr hc hx.owner]
  refine playMove_fails ?_
  rw [judgeSound_left hq hr hx hm hc]
  exact hsnd

theorem play_alone (hsnd : judgeSound s s.mem n loop = .usable snd) (hno : ∀ c, s.voices[z].owner ≠ .call c)
    (hf : r.fading = false) (hnf : s.NotFading (.voice z)) :
    State.EndsAs [.cue, .voices] { setFade i none s with
      seq := s.seq.told x
      voices := s.voices.set z (Voice.restarted s.voices[z] snd (.cue x.id)).request
      levels := s.levels.put (.voice z) start, arb := s.playedArb z } (finish (actRecord none i s)) := by
  rw [actRecord_usable hq hr hx hm hc hsnd]
  have hasked : State.soundAsked (toldOff i x s) n = _ := if_pos (usable_number hsnd)
  have hnf' : (State.soundAsked (toldOff i x s) n).NotFading (.voice z) := by
    rw [hasked]
    exact (fadingOf_without hr hf rfl).trans hnf
  have h := (play_told hq hr hx hm).soundAsked.takePlay_none (snd := snd) (start := start) (owner := .cue x.id) hnf'
  rw [played_asked (w := toldOff i x s) (usable_number hsnd) hno] at h
  exact (h.congr rfl (bs := [.cue, .voices]) (by simp [or_comm])).endsAs hq.1

/-- A PLAY that takes a record of its voice's level over. -/
theorem play_takesOver (hsnd : judgeSound s s.mem n loop = .usable snd) (hno : ∀ c, s.voices[z].owner ≠ .call c)
    (hf : r.fading = false) (hown : s.OwnStopOnly z) (hj : fadingOf s (.voice z) none = some j)
    (hold : s.fades[j] = some old) (ht : Tells { s with seq := s.seq.told x } old q) :
    State.EndsAs [.cue, .voices] { s with
      seq := q, takenOver := min (s.takenOver + 1) 65535, fades := (s.fades.set i none).set j none
      voices := s.voices.set z (Voice.restarted s.voices[z] snd (.cue x.id)).request
      levels := s.levels.put (.voice z) start, arb := s.playedArb z } (finish (actRecord none i s)) := by
  rw [actRecord_usable hq hr hx hm hc hsnd]
  have hasked : State.soundAsked (leftTable i x s) n = _ :=
    if_pos (usable_number hsnd)
  have hj' : fadingOf (State.soundAsked (leftTable i x s) n) (.voice z) none
      = some j := by
    rw [hasked]
    exact (fadingOf_without hr hf rfl).trans hj
  have hold' : (State.soundAsked (leftTable i x s) n).fades[j] = some old := by
    rw [hasked]
    exact (Vector.getElem_set_ne i.isLt j.isLt (ne_of_fadingOf hr hf hj)).trans hold
  have hown' : (State.soundAsked (leftTable i x s) n).OwnStopOnly z :=
    ownStopOnly_without hr hf (by rw [hasked]; rfl) hown
  have hleft := play_left hq hr hx hm
  have h := hleft.soundAsked.takePlay_some (snd := snd) (start := start) (owner := .cue x.id) (q := q) hown' hj' hold'
    (ht.congr (by rw [hasked]; rfl))
  rw [played_asked (w := leftTable i x s) (usable_number hsnd) hno, hasked] at h
  have hareas (a : Area) : a ∈ Area.voices :: (cueAreas old ++ [.cue]) ↔ a ∈ [Area.cue, .voices] := by
    unfold cueAreas
    split <;> simp <;> tauto
  exact (h.congr rfl hareas).endsAs hq.1

/-- A PLAY that cuts a call off. -/
theorem play_cuts {c : CallId} {k : CallInst} {p : PageId} {pg : Page} (hsnd : judgeSound s s.mem n loop = .usable snd)
    (hf : r.fading = false) (hown : s.OwnStopOnly z) (hcall : s.voices[z].owner = .call c)
    (hi : s.calls[c].inst = some k) (hip : k.page = some p) (hp : s.pages[p] = some pg) (hop : pg.opener = .call c) :
    let t := finish (actRecord none i s)
    t.voices = s.voices.set z (Voice.restarted s.voices[z] snd (.cue x.id)).request
      ∧ t.level (.voice z) = start ∧ CallCut s c k p (.cue x.id) 0 t := by
  intro t
  have hP : ∃ A M K, (leaveTable i (.completed false) s).soundAsked n
      = { leftTable i x s with arb := A, mirror := M, marks := K } := by
    obtain ⟨d, c, ms, hv, _⟩ := reaches_iff.mp (play_left hq hr hx hm)
    rw [hv]
    exact ⟨_, _, _, if_pos (usable_number hsnd)⟩
  obtain ⟨A, M, K, hP⟩ := hP
  obtain ⟨q, fs, m, ms, mir, hplay⟩ := takePlay_keeps (s := { leftTable i x s with arb := A, mirror := M, marks := K })
    (x := z) (snd := snd) (start := start) (owner := .cue x.id) (ownStopOnly_without hr hf rfl hown)
  have htaken := actRecord_usable hq hr hx hm hc hsnd
  have hact := htaken.trans ((congrArg (takePlay z snd start (.cue x.id)) hP).trans hplay)
  let w : State := { played z snd start (.cue x.id) { leftTable i x s with arb := A, mirror := M, marks := K } with
    seq := q, fades := fs, takenOver := m, marks := ms, mirror := mir }
  have hnotes : w.notes = [.callCut c (.cue x.id)] := by
    show s.notes ++ cutNotes s.voices[z].owner (.cue x.id) = _
    rw [hq.1, hcall]
    rfl
  have hw : actRecord none i s = { { w with notes := [] } with notes := [.callCut c (.cue x.id)] } := by
    rw [hact, ← hnotes]
  obtain ⟨hv, hl, hcut⟩ := callCut_finished (s := s) (u := { w with notes := [] }) (n := 0)
    ⟨rfl, rfl, rfl, rfl, rfl, rfl, rfl, rfl, rfl⟩ (roomy_refl _) hw hi hip hp hop
  refine ⟨hv, ?_, hcut⟩
  exact (congrArg (fun l => Levels.get l (.voice z)) hl).trans (get_put_same s.levels (.voice z) start)

theorem play_fails (hsnd : judgeSound s s.mem n loop = .unknown ∨ judgeSound s s.mem n loop = .empty)
    (h2 : 2 ≤ x.pending) : State.EndsAs [.cue] { setFade i none s with
      arb := (s.soundAsked n).arb
      seq := { s.seq with
        running := s.seq.running.map fun y => if y.id = x.id
          then { y with pending := y.pending - 1, failed := y.failed + 1 } else y } } (finish (actRecord none i s)) := by
  have hact := actRecord_fails hq hr hx hm hc hsnd
  have h := ((play_told hq hr hx hm).soundAsked (n := n)).plain
    (f := updEntry x.id fun e => { e with failed := e.failed + 1 }) fun _ _ _ _ => rfl
  have h := h.area_of_mem (List.mem_singleton_self Area.cue)
  rw [hact]
  refine (h.congr ?_ fun _ => Iff.rfl).endsAs hq.1
  rw [soundAsked_eq]
  have harb : (State.soundAsked (toldOff i x s) n).arb = (s.soundAsked n).arb := by
    unfold State.soundAsked
    split <;> rfl
  have hseq : (s.seq.told x).running.map (fun e => if e.id = x.id then { e with failed := e.failed + 1 } else e)
      = s.seq.running.map fun y => if y.id = x.id
          then { y with pending := y.pending - 1, failed := y.failed + 1 } else y := by
    unfold Seq.told
    rw [if_pos h2]
    dsimp only
    rw [List.map_map]
    refine List.map_congr_left fun e _ => ?_
    dsimp only [Function.comp]
    by_cases he : e.id = x.id
    · simp [he]
    · simp [he]
  have hfull : { s.seq.told x with running := (s.seq.told x).running.map fun e : RunEntry =>
        if e.id = x.id then { e with failed := e.failed + 1 } else e }
      = { s.seq with running := s.seq.running.map fun y : RunEntry => if y.id = x.id
          then { y with pending := y.pending - 1, failed := y.failed + 1 } else y } := by
    rw [hseq]
    unfold Seq.told
    rw [if_pos h2]
  refine Eq.trans ?_ (congrArg (fun q : Machine.Seq => ({ setFade i none s with arb := (s.soundAsked n).arb, seq := q } : State)) hfull)
  rw [harb]
  rfl

end

/-! ## STOP -/

section

variable (hq : s.Quiet) (hr : s.fades[i] = some r) (hx : OfCue s r x) (hm : r.stopMark = none)
  (hc : r.content = .stop z time)

include hq hr hx hm hc

theorem stop_idle (hs : s.voices[z].state = .idle) :
    State.EndsAs [.cue] { setFade i none s with seq := s.seq.told x } (finish (actRecord none i s)) := by
  rw [actRecord_stop_idle hr hc hs]
  exact (play_told hq hr hx hm).endsAs hq.1

variable {s' : State} {x' : RunEntry} {bs : List Area} (hs : s.voices[z].state ≠ .idle)
  (hy : Yields s (.voice z) i x s' x' bs) (hs' : s'.voices[z].state ≠ .idle)

include hs hy hs'

/-- A STOP of time 0 cuts its voice, which stands alone, to IDLE. -/
theorem stop_cuts (h0 : time = 0) (ha : s'.VoiceAlone z) : State.EndsAs (.cue :: .voices :: bs) { s' with
      seq := s'.seq.told x'
      voices := s'.voices.set z (Voice.idled s'.voices[z])
      fades := s'.fades.set i none
      levels := s.levels.put (.voice z) .off
      arb := (staleBurst z s).arb } (finish (actRecord none i s)) := by
  obtain ⟨hl, hn, _, _, harb⟩ := hy.same
  have hclamp : clampTime time = 0 := clampTime_eq_zero.mpr h0
  have hact : actRecord none i s = cutBy i (.voice z) .off (setFade i (some (r.asStop z 0)) s) := by
    rw [actRecord_stop hr hc hs]
    unfold startStop
    dsimp only
    rw [hclamp, if_pos rfl]
  have hfade := (Reaches.refl hq.2).fade i (some (r.asStop z 0))
  have hcut := Reaches.cutBy_stop (target := .off) (r := r.asStop z 0) (hy.level s.levels (some (r.asStop z 0))) hfade
    (by simp) ⟨hx.owner, hx.entry, hx.pending, hx.placed⟩ rfl hs'
  have hidle := Reaches.drain_idle hcut (hn.trans hq.1) ha
  rw [hact]
  refine Reaches.endsAs_drained rfl (hidle.congr ?_ fun a => ?_) (hn.trans hq.1)
  · unfold idledAt staleBurst
    simp only [Vector.set_set]
    rw [harb]
  · simp only [List.mem_cons, List.append_nil]
    tauto

theorem stop_fades {a : Int} (h0 : 0 < time) (hd : r.delayLeft = 0) (ha : (s.level (.voice z)).orFloor (-480) = a) :
    State.EndsAs (.voices :: bs) { s' with
      voices := s'.voices.set z { s'.voices[z] with
        state := .stopping
        resume := if s'.voices[z].state = .stopping then s'.voices[z].resume else s'.voices[z].state
        stopRec := some i }
      levels := s.levels.put (.voice z) (.steps a)
      fades := s'.fades.set i (some { r with
        fading := true, content := .level (.voice z) .off .steps
        upTime := min time 600000, downTime := min time 600000
        ownUp := none, ownDown := none, start := a, time := min time 600000, elapsed := 0
        stopMark := some z }) } (finish (actRecord none i s)) := by
  obtain ⟨hl, hn, _⟩ := hy.same
  have hclamp : clampTime time ≠ 0 := mt clampTime_eq_zero.mp (by omega)
  have hact : actRecord none i s = voiceStopping z i (startFade i (r.asStop z (clampTime time)) (.voice z) .off .steps
      (setFade i (some (r.asStop z (clampTime time))) s)) := by
    rw [actRecord_stop hr hc hs]
    exact if_neg hclamp
  have hT (b : Int) : (r.asStop z (clampTime time)).chosenTime a b = min time 600000 := by
    unfold FadeRec.chosenTime FadeRec.asStop clampTime
    split <;> dsimp only [Option.getD] <;> omega
  have hfade := ((Reaches.refl hq.2).fade i (some (r.asStop z (clampTime time)))).startFade_cue (e := .voice z)
    (target := .off) (curve := .steps) (r := r.asStop z (clampTime time))
    (hy.level s.levels (some (r.asStop z (clampTime time)))) ha (hT _)
    (not_or.mpr ⟨nofun, fun h => hclamp h⟩)
  rw [hact]
  refine ((hfade.voiceStopping (i := i) hs').congr ?_ fun a => ?_).endsAs (hn.trans hq.1)
  · simp only [Vector.set_set]
    unfold stoppingBy FadeRec.asStop clampTime
    dsimp only
    rw [hd]
  · rw [List.append_nil]

end

/-- A voice that stands alone does so whatever is taken over. -/
theorem Yields.alone {s' : State} {x' : RunEntry} {bs : List Area} (hy : Yields s e i x s' x' bs) (ha : s.VoiceAlone z) :
    s'.VoiceAlone z := by
  cases hy with
  | nothing => exact ha
  | record => exact ⟨fun c => (resumed_owner _ _ z).symm ▸ ha.1 c, ha.2⟩

/-- A STOP whose record takes the fade of its voice's level over. -/
theorem stop_takesOver {x' : RunEntry} (hq : s.Quiet) (hr : s.fades[i] = some r) (hx : OfCue s r x)
    (hm : r.stopMark = none) (hc : r.content = .stop z time) (hd : r.delayLeft = 0) (hs : s.voices[z].state ≠ .idle)
    (hy : Yields s (.voice z) i x (overtaken s j old q) x' (s.takeoverAreas j old)) :
    let w : State := { s with
      takenOver := min (s.takenOver + 1) 65535, voices := s.resumed j old, fades := s.fades.set j none }
    let y := w.voices[z]
    y.state ≠ .idle →
      (time = 0 → s.VoiceAlone z → State.EndsAs (.cue :: .voices :: s.takeoverAreas j old) { w with
        seq := q.told x'
        voices := w.voices.set z (Voice.idled w.voices[z])
        fades := w.fades.set i none
        levels := s.levels.put (.voice z) .off
        arb := (staleBurst z s).arb } (finish (actRecord none i s)))
      ∧ (0 < time → State.EndsAs (.voices :: s.takeoverAreas j old) { w with
        seq := q
        voices := w.voices.set z { y with
          state := .stopping, resume := if y.state = .stopping then y.resume else y.state, stopRec := some i }
        levels := s.levels.put (.voice z) (.steps ((s.level (.voice z)).orFloor (-480)))
        fades := w.fades.set i (some { r with
          fading := true, content := .level (.voice z) .off .steps
          upTime := min time 600000, downTime := min time 600000
          ownUp := none, ownDown := none, start := (s.level (.voice z)).orFloor (-480), time := min time 600000
          elapsed := 0, stopMark := some z }) } (finish (actRecord none i s))) := by
  intro w y hs'
  exact ⟨fun h0 ha => stop_cuts hq hr hx hm hc hs hy hs' h0 (hy.alone ha),
    fun h0 => stop_fades hq hr hx hm hc hs hy hs' h0 hd rfl⟩

/-- Settles O51: each content of a record whose delay has run out. -/
theorem expiredDelayActs : Obligations.ExpiredDelayActs := by
  unfold Obligations.ExpiredDelayActs
  intro s i r x hruns hq hr hf hd hpause hown hentry hpn hpl hm told
  have hx : OfCue s r x := ⟨hown, hentry, hpn, hpl⟩
  have hz : frozen s r = false := by rw [frozen, hpause, Bool.false_and]
  refine ⟨_, exec_delayExpiry hruns hr hf hd hz, fun e target curve hc => ?_, fun g on hc => relay_acts hq hr hx hm hc,
    fun z n start loop hc => ⟨fun snd hsnd hno => ⟨fun hnf => ?_, fun j old hos hj hold => ?_⟩,
      fun snd c k p pg hsnd hos hcall hi hip hp hop => play_cuts hq hr hx hm hc hsnd hf hos hcall hi hip hp hop,
      fun hbad h2 => play_fails hq hr hx hm hc hbad h2⟩, fun z time hc => ?_⟩
  · refine ⟨fun hnf => ⟨fun hcut => level_cuts_alone hq hr hx hm hc hnf hcut,
      fun hcut => level_fades (x := x) (x' := x) hq hr hc rfl rfl (.nothing (fadingOf_except hnf _)) hcut⟩, fun j old hj hold => ?_⟩
    have hacts {q : Seq} {x' : RunEntry} (hy : Yields s e i x (overtaken s j old q) x' (s.takeoverAreas j old)) :=
      And.intro (fun hcut => level_cuts hq hr hx hm hc rfl rfl hy hcut)
        (fun hcut => level_fades hq hr hc rfl rfl hy hcut)
    exact ⟨fun ho => hacts (.of_request hj hold ho hx), fun ho h2 => hacts (.of_self hj hold ho h2 hx),
      fun y ho hne hy hp hpl => hacts (.of_other hj hold ho hne hy hp hpl hx)⟩
  · exact play_alone hq hr hx hm hc hsnd hno hf hnf
  · have htakes {q : Seq} (ht : Tells { s with seq := s.seq.told x } old q) :=
      play_takesOver hq hr hx hm hc hsnd hno hf hos hj hold ht
    exact ⟨fun ho => htakes (.request ho),
      fun ho h2 => htakes (.cue { x with pending := x.pending - 1 } ho (entryOf_told_self hentry h2)
        (by show 0 < x.pending - 1; omega) hpl),
      fun y ho hne hy hp hpl => htakes (.cue y ho ((entryOf_told_ne hne).trans hy) hp hpl)⟩
  · refine ⟨fun hs => stop_idle hq hr hx hm hc hs, fun hs hnf => ?_, fun j old hs hj hold => ?_⟩
    · have hy : Yields s (.voice z) i x s x [] := .nothing (fadingOf_except hnf _)
      exact ⟨fun h0 ha => stop_cuts hq hr hx hm hc hs hy hs h0 ha,
        fun h0 => stop_fades hq hr hx hm hc hs hy hs h0 hd rfl⟩
    · exact ⟨fun ho => stop_takesOver hq hr hx hm hc hd hs (.of_request hj hold ho hx),
        fun ho h2 => stop_takesOver hq hr hx hm hc hd hs (.of_self hj hold ho h2 hx),
        fun y ho hne hy hp hpl => stop_takesOver hq hr hx hm hc hd hs (.of_other hj hold ho hne hy hp hpl hx)⟩

end Sys2Proof.Proofs.Ends
end

section
/-! PROOF. A millisecond tick: the fade table record by record, the clock, the time of day, and each block's own
timers (R1, R105, R110, R149). -/

namespace Sys2Proof.Proofs.Ticks

open Sys2Proof.Machine
open Sys2Proof.Proofs.Steps Sys2Proof.Proofs.Ends

variable {s t u : State} {i j : RecId} {e : Elem} {r : FadeRec}

/-! ## One record -/

theorem get_put_ne (l : Levels) {e e' : Elem} (x : Level) (h : e ≠ e') : (l.put e x).get e' = l.get e' := by
  cases e with
  | tap r k =>
    cases e' with
    | tap r' k' =>
      show (upd l.tap r fun v => v.set k x)[r'][k'] = l.tap[r'][k']
      by_cases hr : r = r'
      · subst hr
        have hk : (k : Nat) ≠ k' := fun hk => h (by rw [Fin.ext hk])
        rw [upd_get_self, Fin.getElem_fin, Vector.getElem_set_ne _ _ hk]
        rfl
      · rw [upd_get_ne _ _ _ _ hr]
    | _ => rfl
  | _ => cases e' <;> simp_all [Levels.put, Levels.get, Vector.getElem_set, Fin.ext_iff]

/-- A record after a tick (R105, R110, R111). -/
def ticked (s : State) (r : FadeRec) : FadeRec :=
  if frozen s r then r
  else if r.fading then (if r.elapsed < r.time then { r with elapsed := r.elapsed + 1 } else r)
  else { r with delayLeft := r.delayLeft - 1 }

/-- The tick has moved the fade table and the levels alone; what it has noted is for the ticks. -/
def Moved (s t : State) : Prop :=
  t = { s with fades := t.fades, levels := t.levels, mirror := t.mirror }
    ∧ t.mirror.levelsDue = s.mirror.levelsDue ∧ t.mirror.metersDue = s.mirror.metersDue

theorem Moved.refl : Moved s s := ⟨rfl, rfl, rfl⟩

theorem Moved.trans (h : Moved s t) (h' : Moved t u) : Moved s u := by
  obtain ⟨ht, hl, hm⟩ := h
  obtain ⟨hu, hl', hm'⟩ := h'
  refine ⟨?_, hl'.trans hl, hm'.trans hm⟩
  rw [ht] at hu
  exact hu

theorem Moved.frozen_eq (h : Moved s t) : frozen t = frozen s := by
  rw [h.1]
  rfl

theorem Moved.ticked_eq (h : Moved s t) : ticked t = ticked s := by
  funext r
  unfold ticked
  rw [h.frozen_eq]

theorem moved_setFade (i : RecId) (x : Option FadeRec) (s : State) : Moved s (setFade i x s) := ⟨rfl, rfl, rfl⟩

theorem moved_setElem (e : Elem) (x : Level) (s : State) : Moved s (setElem e x s) := by
  rw [setElem_eq]
  exact ⟨rfl, rfl, rfl⟩

/-- A level record that has not run out puts the value of the fade law (R110). -/
theorem tickRecord_level {target : Level} {curve : Curve} (hr : s.fades[i] = some r) (hz : frozen s r = false)
    (hf : r.fading = true) (he : r.elapsed + 1 < r.time) (hc : r.content = .level e target curve) :
    tickRecord i s = setElem e (.steps (fadeValue r.start (target.orFloor e.floor) r.time (r.elapsed + 1)))
      (setFade i (some { r with elapsed := r.elapsed + 1 }) s) := by
  unfold tickRecord
  rw [hr]
  dsimp only
  rw [hz, hf, if_neg Bool.false_ne_true, if_pos rfl, if_pos (Nat.lt_of_succ_lt he), hc]
  dsimp only
  rw [if_pos he]

theorem tickRecord_moved (i : RecId) (s : State) : Moved s (tickRecord i s) := by
  unfold tickRecord
  split
  · exact .refl
  · split
    · exact .refl
    · split
      · split
        · dsimp only
          split
          · split
            · exact (moved_setFade ..).trans (moved_setElem ..)
            · exact moved_setFade ..
          · exact moved_setFade ..
        · exact .refl
      · exact moved_setFade ..

theorem tickRecord_fades (i : RecId) (s : State) : (tickRecord i s).fades = upd s.fades i (·.map (ticked s)) := by
  unfold tickRecord
  cases hr : s.fades[i] with
  | none => exact (upd_of_eq (by rw [hr]; rfl)).symm
  | some r =>
    have hput : upd s.fades i (·.map (ticked s)) = s.fades.set i (some (ticked s r)) :=
      congrArg (fun x => s.fades.set i (Option.map (ticked s) x)) hr
    have hself : s.fades = s.fades.set i (some r) := by rw [← hr]; exact (set_self s.fades i).symm
    rw [hput]
    unfold ticked
    dsimp only
    split
    · exact hself
    · split
      · split
        · split
          · split <;> rfl
          · rfl
        · exact hself
      · rfl

/-- A record moves the level of its own element alone. -/
theorem tickRecord_other (h : ∀ q, s.fades[i] = some q → q.elem? ≠ some e) :
    (tickRecord i s).level e = s.level e := by
  unfold tickRecord
  cases hr : s.fades[i] with
  | none => rfl
  | some r =>
    dsimp only
    split
    · rfl
    · split
      · split
        · split
          · next e' _ _ hc =>
            have hne : e' ≠ e := fun he => h r hr (by unfold FadeRec.elem?; rw [hc, he])
            split
            · exact get_put_ne s.levels _ hne
            · rfl
          · rfl
        · rfl
      · rfl

/-! ## All records -/

theorem foldl_moved (l : List RecId) (s : State) : Moved s (l.foldl (fun s i => tickRecord i s) s) := by
  induction l generalizing s with
  | nil => exact .refl
  | cons i l ih => exact (tickRecord_moved i s).trans (ih _)

theorem foldl_fades (l : List RecId) (s : State) : (l.foldl (fun s i => tickRecord i s) s).fades
    = l.foldl (fun v i => upd v i (·.map (ticked s))) s.fades := by
  induction l generalizing s with
  | nil => rfl
  | cons i l ih =>
    rw [List.foldl_cons, ih, tickRecord_fades, (tickRecord_moved i s).ticked_eq]
    rfl

theorem foldl_other {l : List RecId} (hl : l.Nodup) {s : State}
    (h : ∀ j ∈ l, ∀ q, s.fades[j] = some q → q.elem? ≠ some e) :
    (l.foldl (fun s i => tickRecord i s) s).level e = s.level e := by
  induction l generalizing s with
  | nil => rfl
  | cons i l ih =>
    obtain ⟨hi, hl⟩ := List.nodup_cons.mp hl
    rw [List.foldl_cons, ih hl fun j hj q hq => h j (List.mem_cons_of_mem i hj) q ?_]
    · exact tickRecord_other (h i List.mem_cons_self)
    · rw [tickRecord_fades, upd_get_ne _ _ _ _ fun (he : i = j) => hi (he ▸ hj)] at hq
      exact hq

theorem forEach_moved (s : State) : Moved s (forEach 128 tickRecord s) := foldl_moved _ s

theorem forEach_fades (i : RecId) (s : State) :
    (forEach 128 tickRecord s).fades[i] = s.fades[i].map (ticked s) := by
  have h := foldl_upd_get (fun _ => Option.map (ticked s)) (List.finRange 128) (List.nodup_finRange 128) s.fades i
  rw [if_pos (List.mem_finRange i)] at h
  exact (congrArg (fun v : Vector (Option FadeRec) 128 => v[i]) (foldl_fades _ s)).trans h

/-- A level moved by one record alone takes that record's value (R110). -/
theorem forEach_level {target : Level} {curve : Curve} (hr : s.fades[i] = some r) (hz : frozen s r = false)
    (hf : r.fading = true) (he : r.elapsed + 1 < r.time) (hc : r.content = .level e target curve)
    (ho : ∀ j : RecId, j ≠ i → ∀ q, s.fades[j] = some q → q.elem? ≠ some e) :
    (forEach 128 tickRecord s).level e
      = .steps (fadeValue r.start (target.orFloor e.floor) r.time (r.elapsed + 1)) := by
  obtain ⟨l, l', hll⟩ := List.append_of_mem (List.mem_finRange i)
  have hnd : (l ++ i :: l').Nodup := hll ▸ List.nodup_finRange 128
  obtain ⟨hl, hl', hdis⟩ := List.nodup_append.mp hnd
  obtain ⟨hi', hl'⟩ := List.nodup_cons.mp hl'
  have hi : i ∉ l := fun hin => hdis i hin i List.mem_cons_self rfl
  unfold forEach
  rw [hll, List.foldl_append, List.foldl_cons]
  have hm : Moved s (l.foldl (fun s i => tickRecord i s) s) := foldl_moved l s
  have hget : ∀ j, j ∉ l → (l.foldl (fun s i => tickRecord i s) s).fades[j] = s.fades[j] := fun j hj => by
    have h := foldl_upd_get (fun _ => Option.map (ticked s)) l hl s.fades j
    rw [if_neg hj] at h
    exact (congrArg (fun v : Vector (Option FadeRec) 128 => v[j]) (foldl_fades l s)).trans h
  generalize l.foldl (fun s i => tickRecord i s) s = v at hm hget
  have hstep := tickRecord_level (s := v) ((hget i hi).trans hr) (hm.frozen_eq ▸ hz) hf he hc
  rw [foldl_other hl' fun j hj q hq => ?_, hstep]
  · exact get_put_same ..
  · have hne : j ≠ i := fun h => hi' (h ▸ hj)
    have hjl : j ∉ l := fun hin => hdis j hin j (List.mem_cons_of_mem i hj) rfl
    rw [tickRecord_fades, upd_get_ne _ _ _ _ fun h => hne h.symm, hget j hjl] at hq
    exact ho j hne q hq

/-! ## The timers -/

/-- The state whose records a tick moves: the clock, the time of day and the timers have been moved. -/
def timed (hold : BitVec 4) (ampOk : BitVec 24) (s : State) : State :=
  tickClock (tickTime (tickTimers hold ampOk s))

/-- The false ticks of a LIVE and supervised zone are counted up to 100 (R139). -/
theorem zone_tick_falseRun {z : Zone} (b : Bool) (hl : z.state = .live) (hs : z.cfg.sample ≠ 255) :
    (z.tick b).falseRun = if b then 0 else min (z.falseRun + 1) 100 := by
  unfold Zone.tick Zone.supervised
  simp [hl, hs]

/-- The end of a tick hands over what it marked; the ticks to be taken stay. -/
theorem finish_moved (hm : Moved s u) (hn : s.notes = []) (hk : s.marks = []) :
    ∃ q m, finish u = { s with fades := u.fades, levels := u.levels, wq := q, mirror := m }
      ∧ m.levelsDue = s.mirror.levelsDue ∧ m.metersDue = s.mirror.metersDue := by
  obtain ⟨hu, hl, hd⟩ := hm
  have hum : u.marks = [] := by rw [hu]; exact hk
  have hun : u.notes = [] := by rw [hu]; exact hn
  obtain ⟨q, m, hf, _, _, _, hl', hd'⟩ := EndsAs.law ((Reaches.refl hum).endsAs hun)
  refine ⟨{ u.wq with queue := u.wq.queue ++ q, began := false }, m, ?_, hl'.trans hl, hd'.trans hd⟩
  rw [hf, hu, ← hk]

/-- Settles O58: a tick moves each timer once, and the fade table record by record. -/
theorem millisecondTickMovesEveryTimer : Obligations.MillisecondTickMovesEveryTimer := by
  unfold Obligations.MillisecondTickMovesEveryTimer
  refine ⟨fun s hold ampOk hr hlt => ?_, fun s hold ampOk hr hq hd => ?_⟩
  · have hn : tickDue s = false := decide_eq_false (by omega)
    refine (running_next (millisecondTick hold ampOk) hr).trans (congrArg Host.Outcome.next ?_)
    unfold millisecondTick
    rw [if_neg (ne_true_of_eq_false hn)]
  · have ht : tickDue s = true := decide_eq_true (le_of_eq hd.symm)
    have hm := forEach_moved (timed hold ampOk s)
    obtain ⟨q, m, hf, hl, hme⟩ := finish_moved hm hq.1 hq.2
    have hfade := fun i => forEach_fades i (timed hold ampOk s)
    have hlev := fun i r e target curve => forEach_level (s := timed hold ampOk s) (i := i) (r := r) (e := e)
      (target := target) (curve := curve)
    refine ⟨finish (forEach 128 tickRecord (timed hold ampOk s)), ?_, ?_⟩
    · refine (running_next (millisecondTick hold ampOk) hr).trans (congrArg Host.Outcome.next ?_)
      unfold millisecondTick
      rw [if_pos ht]
      rfl
    · generalize forEach 128 tickRecord (timed hold ampOk s) = v at *
      rw [hf]
      refine ⟨rfl, rfl, rfl, rfl, rfl, hme, hl, rfl, fun l => ?_, rfl, rfl, fun z => ?_, fun p => ?_, fun c => ?_,
        fun i r hr => ?_, rfl, rfl, rfl⟩
      · have h : (timed hold ampOk s).hold[l] = s.hold[l].read (hold.getLsbD l) := tabulate_get ..
        exact ⟨congrArg HoldLine.raw h, (congrArg HoldLine.accepted h).trans rfl, (congrArg HoldLine.run h).trans rfl⟩
      · have h : (timed hold ampOk s).zones[z] = s.zones[z].tick (ampOk.getLsbD z) := tabulate_get ..
        refine ⟨(congrArg Zone.timer h).trans rfl, congrArg Zone.ampOk h, (congrArg Zone.state h).trans rfl,
          fun hlive hsup => ?_⟩
        exact (congrArg Zone.falseRun h).trans (zone_tick_falseRun _ hlive hsup)
      · exact mapVec_get ..
      · exact (mapVec_get ..).trans (by cases s.calls[c].inst <;> rfl)
      · have hget : v.fades[i] = some (ticked s r) := (hfade i).trans (congrArg (Option.map (ticked s)) hr)
        refine ⟨fun hz => hget.trans (congrArg some ?_), fun hz hnf => hget.trans (congrArg some ?_),
          fun hz hfa he => hget.trans (congrArg some ?_),
          fun e target curve hz hfa he hc ho => hlev i r e target curve hr hz hfa he hc ho⟩
        · exact if_pos hz
        · exact (if_neg (ne_true_of_eq_false hz)).trans (if_neg (ne_true_of_eq_false hnf))
        · exact (if_neg (ne_true_of_eq_false hz)).trans ((if_pos hfa).trans (if_pos he))

end Sys2Proof.Proofs.Ticks
end

section
/-! PROOF. Where the statement about the mirror's offers fails: in a state whose lag is above 65 535, which no
reachable state has, a dropped offer lowers the lag to the count's end (R173). -/

namespace Sys2Proof.Proofs.Lag

open Sys2Proof.Machine

/-- The counters as a hand-over of a lag of 65 535 shows them, all else being 0. -/
def shownCounters : CountersView :=
  { guarded := 0, takenOver := 0, inUse := 0, overlapped := 0, missedCalls := 0, cutCalls := 0, lag := 65535 }

/-- A 20 ms tick finds the queue full, the engine area pending, a lag above its end, and counters that were last
handed over with the lag at its end. -/
def lagging : State :=
  { State.reset with
    phase := .running
    wq := { State.reset.wq with queue := List.replicate 16 (.cellFull 3) }
    mirror := { State.reset.mirror with
      base := some 0x8000, levelsDue := true, lag := 65536
      areas := (State.reset.mirror.areas.set 0 { count := 0, pending := true, last := none }).set 10
        { count := 0, pending := false, last := some (.counters shownCounters) } } }

theorem lagging_offers : offeredAtTick lagging .counters = true := by decide +kernel

/-- The engine area's dropped offer leaves a lag of 65 535, so that at their turn the counters are not offered. -/
theorem lagging_turn : (lagging.turnAtTick .counters).mirror.lag = 65535
    ∧ offeredAtTick (lagging.turnAtTick .counters) .counters = false := by decide +kernel

theorem lagging_tick : (mirrorTick lagging).notes = [] ∧ (mirrorTick lagging).marks = []
    ∧ (mirrorTick lagging).mirror.areas[Area.counters.index].pending = false := by decide +kernel

/-- Refutes O56: the counters differ from what was last handed over when the tick begins, and no longer do when
their turn comes, the engine area's dropped offer having lowered a lag of 65 536 to 65 535. -/
theorem not_mirrorOffersAreWholeOrDropped : ¬ Obligations.MirrorOffersAreWholeOrDropped := by
  unfold Obligations.MirrorOffersAreWholeOrDropped
  intro h
  obtain ⟨-, -, -, htick⟩ := h
  obtain ⟨-, hmirror⟩ := htick lagging 0x8000 rfl ⟨rfl, rfl⟩ rfl
  obtain ⟨t, ht, -, hfull, -⟩ := hmirror rfl
  obtain ⟨-, -, hoffered, -⟩ := hfull (by decide +kernel)
  have hlag : ∀ k, lagging.mirror.areas[(10 : Fin 11)].last = some (.counters k) → k.lag ≤ lagging.mirror.lag := by
    intro k hk
    have : k = shownCounters := by
      have h0 : lagging.mirror.areas[(10 : Fin 11)].last = some (.counters shownCounters) := by decide +kernel
      exact AreaData.counters.inj (Option.some.inj (hk.symm.trans h0))
    subst this
    decide +kernel
  have hpending := hoffered .counters lagging_offers fun k _ => hlag k
  obtain ⟨hn, hm, hkept⟩ := lagging_tick
  have hnext : exec .mirrorTick lagging = .next (finish (mirrorTick lagging)) :=
    (running_next (s := lagging) mirrorEvent rfl).trans
      (congrArg Host.Outcome.next (event_due (due := lagging.mirror.levelsDue) rfl))
  obtain rfl := Host.Outcome.next.inj (hnext.symm.trans ht)
  have hend := Ends.endsAs_other ((Ends.Reaches.refl hm).endsAs hn) (a := .counters) (List.not_mem_nil)
  rw [hend, hkept] at hpending
  exact Bool.false_ne_true hpending

end Sys2Proof.Proofs.Lag
end

section
/-! PROOF. Where the statement about a frame of the sample clock fails: a LOCKED receiver with a run of more than
four bad frames, which no reachable state has, is unlocked by the next frame that it misses (R9). -/

namespace Sys2Proof.Proofs.BadRun

open Sys2Proof.Machine

/-- The part runs; on link 3, LOCKED after a run of five bad frames, no frame has completed. -/
def overrun : State :=
  { State.reset with
    phase := .running, memSize := 0x100000
    rx := (Vector.replicate 4 { Receiver.reset with completed := true }).set 3
      { Receiver.reset with locked := true, bad := 5 } }

theorem settle_overrun : settle overrun = overrun := by
  refine settle_same _ ?_ ?_ ?_ (forall_gate ?_ ?_ ?_ ?_ ?_) ?_ ?_ ?_ ?_ <;> decide +kernel

/-- The links of the state are as the statement asks. -/
theorem overrun_links (l : Link) : overrun.rx[l].lockDue = false ∧ overrun.rx[l].unlockDue = false
    ∧ (overrun.rx[l].completed = false → overrun.rx[l].locked = true → overrun.rx[l].bad ≠ 3) := by
  revert l
  decide +kernel

/-- The missed frame counts as a fourth bad one, and the link unlocks as the frame ends. -/
theorem overrun_unlocks : (beginFrame true 0#4 (endFrame (formFrame overrun))).rx[(3 : Link)].locked = false
    ∧ (beginFrame true 0#4 (endFrame (formFrame overrun))).notes = [] := by decide +kernel

/-- Refutes O57: by the statement a receiver with five bad frames would stay LOCKED with four, by the model it
unlocks. -/
theorem not_sampleFrameIsSentAndBegun : ¬ Obligations.SampleFrameIsSentAndBegun := by
  unfold Obligations.SampleFrameIsSentAndBegun
  intro h
  obtain ⟨-, -, -, -, -, -, hframe⟩ := h
  obtain ⟨t, ht, -, hrx, -⟩ := hframe overrun true 0#4 rfl ⟨rfl, rfl⟩ (by decide +kernel) settle_overrun overrun_links
  obtain ⟨hlocked, hnotes⟩ := overrun_unlocks
  have hdue : tickDue overrun = false := by decide +kernel
  have hsent : sampleFrame true 0#4 overrun = finish (beginFrame true 0#4 (endFrame (formFrame overrun))) := by
    unfold sampleFrame
    rw [if_neg (ne_true_of_eq_false hdue), settle_overrun]
  have hnext : exec (.sampleFrame true 0#4) overrun = .next (sampleFrame true 0#4 overrun) :=
    running_next (s := overrun) (sampleFrame true 0#4) rfl
  obtain rfl := Host.Outcome.next.inj (hnext.symm.trans ht)
  have hstays : (sampleFrame true 0#4 overrun).rx[(3 : Link)].locked = true :=
    (congrArg Receiver.locked (hrx 3)).trans (by decide +kernel)
  obtain ⟨q, m, hf⟩ := finish_eq hnotes
  rw [hsent, hf] at hstays
  exact Bool.false_ne_true (hlocked.symm.trans hstays)

end Sys2Proof.Proofs.BadRun
end

section
/-! PROOF. A call's instance starts, and offers its voice a PLAY (R158, R159). -/

namespace Sys2Proof.Proofs.Ends

open Sys2Proof.Machine

variable {s u v : State} {as : List Area} {c : CallId} {snd : SoundCopy}

/-! ## A new instance -/

/-- The instance that a start of a call makes (R159). -/
def newInst (c : CallId) (byCallNow : Bool) (s : State) : CallInst :=
  { phase := .waitVoice, patience := s.calls[c].cfg.patience * 1000, page := none, started := s.tod,
    byCallNow := byCallNow }

/-- The state in which the new instance offers its PLAY. -/
def instanced (c : CallId) (byCallNow : Bool) (s : State) : State :=
  { s with calls := upd s.calls c fun x => { x with inst := some (newInst c byCallNow s) } }

theorem instanced_call (c : CallId) (b : Bool) (s : State) :
    (instanced c b s).calls[c] = { s.calls[c] with inst := some (newInst c b s) } := upd_get_self ..

theorem newInst_same (c : CallId) (b : Bool) (hc : v.calls = u.calls) (ht : v.tod = u.tod) :
    newInst c b v = newInst c b u := by
  unfold newInst
  rw [hc, ht]

theorem startInstance_eq (c : CallId) (b : Bool) (s : State) : startInstance c b s =
    if (offerPlay c (mark .pages (instanced c b s))).calls[c].patienceOut then
      patienceEnds c (offerPlay c (mark .pages (instanced c b s)))
    else offerPlay c (mark .pages (instanced c b s)) := rfl

theorem Reaches.instanced (c : CallId) (b : Bool) (h : Reaches as u v) :
    Reaches (.pages :: as) (instanced c b u) (mark .pages (Ends.instanced c b v)) :=
  (h.plain (f := Ends.instanced c b) fun _ _ _ _ => rfl).area .pages

/-! ## The offer of the PLAY -/

theorem play_unusable {x : VoiceId} {n : Nat} {start : Level} {loop : Bool} {owner : VoiceOwner}
    (h : judgeSound s s.mem n loop = .unknown ∨ judgeSound s s.mem n loop = .empty) :
    ∃ e, (e = .unknown ∨ e = .empty) ∧ play none x n start loop owner s = (s.soundAsked n, e) := by
  unfold play
  dsimp only [Option.getD]
  rw [askSound_eq, judgeSound_soundAsked]
  rcases h with h | h <;> rw [h]
  · exact ⟨.unknown, .inl rfl, rfl⟩
  · exact ⟨.empty, .inr rfl, rfl⟩

theorem play_call {x : VoiceId} {n : Nat} {start : Level} {loop : Bool}
    (h : judgeSound s s.mem n loop = .usable snd) : play none x n start loop (.call c) s =
      if s.voices[x].state ≠ .idle then (s.soundAsked n, .busy)
      else (takePlay x snd start (.call c) (s.soundAsked n), .taken) := by
  have hv : (s.soundAsked n).voices = s.voices := by rw [soundAsked_eq]
  unfold play
  dsimp only [Option.getD]
  rw [askSound_eq, judgeSound_soundAsked, h]
  dsimp only
  rw [hv]
  by_cases hs : s.voices[x].state = .idle
  · rw [if_neg fun hc => hc.2 hs, if_neg fun hc => hc hs]
  · rw [if_pos ⟨rfl, hs⟩, if_pos hs]

/-- The voice is taken by another: the instance waits for it. -/
theorem offerPlay_busy (h : judgeSound s s.mem s.calls[c].cfg.sound false = .usable snd)
    (hs : s.voices[s.calls[c].cfg.voice].state ≠ .idle) : offerPlay c s = s.soundAsked s.calls[c].cfg.sound := by
  have hplay := play_call (c := c) (x := s.calls[c].cfg.voice) (start := .off) h
  rw [if_pos hs] at hplay
  unfold offerPlay
  dsimp only
  rw [hplay]

theorem offerPlay_unusable (h : judgeSound s s.mem s.calls[c].cfg.sound false = .unknown
      ∨ judgeSound s s.mem s.calls[c].cfg.sound false = .empty) :
    offerPlay c s = missCall c .sound (s.soundAsked s.calls[c].cfg.sound) := by
  obtain ⟨e, he, hplay⟩ := play_unusable (x := s.calls[c].cfg.voice) (start := .off) (owner := .call c) h
  unfold offerPlay
  dsimp only
  rw [hplay]
  rcases he with rfl | rfl <;> rfl

theorem offerPlay_taken (h : judgeSound s s.mem s.calls[c].cfg.sound false = .usable snd)
    (hs : s.voices[s.calls[c].cfg.voice].state = .idle) : offerPlay c s = enterWaitZones c
      (takePlay s.calls[c].cfg.voice snd .off (.call c) (s.soundAsked s.calls[c].cfg.sound)) := by
  have hplay := play_call (c := c) (x := s.calls[c].cfg.voice) (start := .off) h
  rw [if_neg fun hc => hc hs] at hplay
  unfold offerPlay
  dsimp only
  rw [hplay]

/-! ## A start that waits -/

theorem patienceOut_newInst (y : Call) (b : Bool) (s : State) :
    { y with inst := some (newInst c b s) : Call }.patienceOut = decide (s.calls[c].cfg.patience = 0) := by
  unfold Call.patienceOut newInst
  dsimp only
  rw [show (CallPhase.waitVoice != .playing) = true from rfl, Bool.and_true]
  exact Bool.eq_iff_iff.mpr (by simp)

/-- The instance has offered its PLAY to a voice that is not IDLE. -/
theorem Reaches.offer_busy {b : Bool} (h : Reaches as u v)
    (hj : judgeSound u u.mem u.calls[c].cfg.sound false = .usable snd)
    (hs : u.voices[u.calls[c].cfg.voice].state ≠ .idle) :
    Reaches (.pages :: as) ((Ends.instanced c b u).soundAsked u.calls[c].cfg.sound)
      (offerPlay c (mark .pages (Ends.instanced c b v))) := by
  have h' := h.instanced c b
  generalize mark .pages (Ends.instanced c b v) = w at h'
  have hcalls : w.calls = (Ends.instanced c b u).calls := by rw [h'.1]; rfl
  have hcfg : w.calls[c].cfg = u.calls[c].cfg := by rw [hcalls, instanced_call]
  have hjudge : judgeSound w w.mem w.calls[c].cfg.sound false = .usable snd := by
    rw [hcfg, h'.1]
    exact hj
  have hvoices : w.voices = u.voices := by rw [h'.1]; rfl
  have hbusy : w.voices[w.calls[c].cfg.voice].state ≠ .idle := by
    rw [hvoices]
    exact fun hi => hs ((congrArg (fun k : CallCfg => u.voices[k.voice].state) hcfg).symm.trans hi)
  rw [offerPlay_busy hjudge hbusy, hcfg]
  exact h'.soundAsked

/-- The instance waits for its voice, having patience. -/
theorem Reaches.startInstance_waits {b : Bool} (h : Reaches as u v)
    (hj : judgeSound u u.mem u.calls[c].cfg.sound false = .usable snd)
    (hs : u.voices[u.calls[c].cfg.voice].state ≠ .idle) (hp : 0 < u.calls[c].cfg.patience) :
    Reaches (.pages :: as) ((Ends.instanced c b u).soundAsked u.calls[c].cfg.sound) (startInstance c b v) := by
  have hoff := h.offer_busy (b := b) hj hs
  rw [startInstance_eq]
  generalize offerPlay c (mark .pages (Ends.instanced c b v)) = w at hoff
  have hcall : w.calls[c] = { u.calls[c] with inst := some (newInst c b u) } := by
    rw [hoff.1, soundAsked_eq]
    exact instanced_call c b u
  rw [hcall, patienceOut_newInst, if_neg (ne_true_of_eq_false (decide_eq_false (Nat.ne_of_gt hp)))]
  exact hoff

/-! ## A rollover (R158) -/

/-- The fields compared, by the mask level. -/
theorem matchesAt_iff (k : CallCfg) (d : TimeOfDay) : k.matchesAt d = true ↔ d.seconds = k.seconds
    ∧ (k.maskLevel = .every10Min → d.minutes % 10 = k.minutes % 10)
    ∧ (k.maskLevel = .everyHour ∨ k.maskLevel = .everyDay ∨ k.maskLevel = .everyWeek → d.minutes = k.minutes)
    ∧ (k.maskLevel = .everyDay ∨ k.maskLevel = .everyWeek → d.hours = k.hours)
    ∧ (k.maskLevel = .everyWeek → d.day = k.day) := by
  unfold CallCfg.matchesAt
  cases k.maskLevel <;> simp [and_assoc]

theorem compareCall_not (h : ¬ (s.calls[c].enabled = true ∧ s.calls[c].cfg.matchesAt s.tod = true)) :
    compareCall c s = s := if_neg h

theorem compareCall_overlaps (h : s.calls[c].enabled = true ∧ s.calls[c].cfg.matchesAt s.tod = true)
    (hi : s.calls[c].inst ≠ none) : compareCall c s = { s with overlapped := sat16 s.overlapped } := by
  unfold compareCall
  rw [if_pos h, if_pos (Option.isSome_iff_ne_none.mpr hi)]

theorem compareCall_fires (h : s.calls[c].enabled = true ∧ s.calls[c].cfg.matchesAt s.tod = true)
    (hi : s.calls[c].inst = none) :
    compareCall c s = drain (startInstance c false (mark .pages (updCall c Call.countFiring s))) := by
  unfold compareCall
  rw [if_pos h, if_neg (by rw [hi]; exact Bool.false_ne_true)]

theorem countFiring_eq (x : Call) : x.countFiring = { x with
    remaining := if x.remaining - 1 = 0 ∧ x.cfg.chime = true then 255 else x.remaining - 1
    enabled := if x.remaining - 1 = 0 ∧ x.cfg.chime = false then false else x.enabled } := by
  unfold Call.countFiring
  by_cases hn : x.remaining - 1 = 0
  · cases hc : x.cfg.chime <;> simp [hn]
  · simp [hn]

end Sys2Proof.Proofs.Ends
end

section
/-! PROOF. What a second rollover makes of the calls (R158). -/

namespace Sys2Proof.Proofs.Rollovers

open Sys2Proof.Machine
open Sys2Proof.Proofs.Steps Sys2Proof.Proofs.Ends

variable {s t u v : State} {c : CallId} {snd : SoundCopy}

/-- The call matches at the rollover. -/
def Hit (s : State) (c : CallId) : Prop := s.calls[c].enabled = true ∧ s.calls[c].cfg.matchesAt s.tod = true

/-- The state in which the calls are compared. -/
def rolled (s : State) : State := { s with rollover := false }

theorem compareCall_notHit {d : CallId} (h : ¬ Hit s d) (hc : v.calls[d] = s.calls[d]) (ht : v.tod = s.tod) :
    compareCall d v = v := compareCall_not (by rw [hc, ht]; exact h)

theorem secondRollover_idle (h : s.engine ≠ .loaded ∨ ∀ c, ¬ Hit s c) :
    secondRollover s = mark .pages (rolled s) := by
  unfold secondRollover
  dsimp only
  split
  · next hl => exact forEach_same fun c => compareCall_notHit (h.resolve_left (not_not_intro hl) c) rfl rfl
  · rfl

/-- One call alone matches: it alone acts. -/
theorem secondRollover_single (hl : s.engine = .loaded) (ho : ∀ d, d ≠ c → ¬ Hit s d)
    (hw : compareCall c (mark .pages (rolled s)) = v)
    (hc : ∀ d : CallId, d ≠ c → v.calls[d] = s.calls[d]) (ht : v.tod = s.tod) : secondRollover s = v := by
  have hs := forEach_single (f := compareCall) (s := mark .pages (rolled s)) c
    (fun d hd => compareCall_notHit (ho d hd) rfl rfl)
    (fun d hd => by rw [hw]; exact compareCall_notHit (ho d hd) (hc d hd) ht)
  exact (if_pos hl).trans (hs.trans hw)

/-- The state in which the match has been counted. -/
def counted (c : CallId) (s : State) : State := { rolled s with calls := upd s.calls c Call.countFiring }

/-- The calls once the match has been counted and its instance waits. -/
def firedCalls (c : CallId) (s : State) : Vector Call 16 :=
  let n := s.calls[c].remaining - 1
  let chime := s.calls[c].cfg.chime
  upd s.calls c fun x => { x with
    remaining := if n = 0 ∧ chime = true then 255 else n
    enabled := if n = 0 ∧ chime = false then false else x.enabled
    inst := some { phase := .waitVoice, patience := x.cfg.patience * 1000, page := none,
                   started := s.tod, byCallNow := false } }

/-- The state once the match has been counted and its instance waits. -/
def fired (c : CallId) (s : State) : State :=
  { rolled s with arb := (s.soundAsked s.calls[c].cfg.sound).arb, calls := firedCalls c s }

theorem counted_cfg (c : CallId) (s : State) : (counted c s).calls[c].cfg = s.calls[c].cfg := by
  show (upd s.calls c Call.countFiring)[c].cfg = _
  rw [upd_get_self, countFiring_eq]

theorem counted_waits (c : CallId) (s : State) :
    (instanced c false (counted c s)).soundAsked s.calls[c].cfg.sound = fired c s := by
  have harb : ((instanced c false (counted c s)).soundAsked s.calls[c].cfg.sound).arb
      = (s.soundAsked s.calls[c].cfg.sound).arb := by
    unfold State.soundAsked
    split <;> rfl
  have hinst : newInst c false (counted c s)
      = { phase := .waitVoice, patience := s.calls[c].cfg.patience * 1000, page := none, started := s.tod,
          byCallNow := false } := by
    unfold newInst
    rw [counted_cfg]
    rfl
  have hcall (x : Call) (i : CallInst) : { x.countFiring with inst := some i : Call } = { x with
      remaining := if x.remaining - 1 = 0 ∧ x.cfg.chime = true then 255 else x.remaining - 1
      enabled := if x.remaining - 1 = 0 ∧ x.cfg.chime = false then false else x.enabled
      inst := some i } := by rw [countFiring_eq]
  have hcalls : (instanced c false (counted c s)).calls = firedCalls c s := by
    show upd (upd s.calls c Call.countFiring) c (fun x => { x with inst := some (newInst c false (counted c s)) }) = _
    rw [upd_upd, hinst]
    exact congrArg (s.calls.set c) (hcall _ _)
  rw [soundAsked_eq, harb]
  rw [hcalls]
  rfl

/-- A match without an instance is counted, and its instance waits for a busy voice. -/
theorem compareCall_waits (hq : s.Quiet) (hh : Hit s c) (hi : s.calls[c].inst = none)
    (hj : judgeSound s s.mem s.calls[c].cfg.sound false = .usable snd)
    (hv : s.voices[s.calls[c].cfg.voice].state ≠ .idle) (hp : 0 < s.calls[c].cfg.patience) :
    Reaches [.pages] (fired c s) (compareCall c (mark .pages (rolled s))) := by
  have hcfg := counted_cfg c s
  have hcount : Reaches [.pages, .pages] (counted c s) (mark .pages (updCall c Call.countFiring (mark .pages (rolled s)))) :=
    (((Reaches.refl (s := rolled s) hq.2).area .pages).plain (f := updCall c Call.countFiring)
      fun _ _ _ _ => rfl).area .pages
  have hstart := hcount.startInstance_waits (c := c) (b := false) (snd := snd) (by rw [hcfg]; exact hj)
    (fun hidle => hv ((congrArg (fun k : CallCfg => s.voices[k.voice].state) hcfg).symm.trans hidle))
    (by rw [hcfg]; exact hp)
  rw [compareCall_fires (s := mark .pages (rolled s)) hh hi]
  have hreach : Reaches [.pages] (fired c s)
      (startInstance c false (mark .pages (updCall c Call.countFiring (mark .pages (rolled s))))) :=
    hstart.congr (by rw [hcfg]; exact counted_waits c s) (by simp)
  have hnotes : (startInstance c false (mark .pages (updCall c Call.countFiring (mark .pages (rolled s))))).notes = [] := by
    rw [hreach.1]
    exact hq.1
  rw [drain_nil hnotes]
  exact hreach

/-- Settles O55: only the matching call acts, counting an overlap or starting an instance. -/
theorem rolloverFiresTheMatchingCall : Obligations.RolloverFiresTheMatchingCall := by
  unfold Obligations.RolloverFiresTheMatchingCall
  refine ⟨matchesAt_iff, fun s hr hq hroll => ?_⟩
  have hexec : exec .secondRollover s = .next (finish (secondRollover s)) :=
    (running_next rolloverEvent hr).trans (congrArg Host.Outcome.next (event_due hroll))
  have hbase : Reaches [.pages] (rolled s) (mark .pages (rolled s)) := (Reaches.refl (s := rolled s) hq.2).area .pages
  refine ⟨_, hexec, fun h => ?_, fun c hl hh ho => ⟨fun hi => ?_, fun snd hi hj hv hp => ?_⟩⟩
  · rw [secondRollover_idle h]
    exact hbase.endsAs hq.1
  · have hw := compareCall_overlaps (s := mark .pages (rolled s)) (c := c) hh hi
    rw [secondRollover_single hl ho hw (fun _ _ => rfl) rfl]
    exact (hbase.plain (f := fun s => { s with overlapped := sat16 s.overlapped }) fun _ _ _ _ => rfl).endsAs hq.1
  · have hreach := compareCall_waits hq hh hi hj hv hp
    generalize hv' : compareCall c (mark .pages (rolled s)) = v at hreach
    have hcalls : ∀ d : CallId, d ≠ c → v.calls[d] = s.calls[d] := fun d hd => by
      rw [hreach.1]
      exact upd_get_ne _ _ _ _ fun he => hd he.symm
    rw [secondRollover_single hl ho hv' hcalls (by rw [hreach.1]; rfl)]
    have hend := hreach.endsAs (show (fired c s).notes = [] from hq.1)
    exact hend

end Sys2Proof.Proofs.Rollovers
end

section
/-! PROOF. A page is offered to the members of a group (R152): where none of them carries one, and where all are in
FAULT. -/

namespace Sys2Proof.Proofs.Ends

open Sys2Proof.Machine

variable {s u v : State} {as : List Area} {g : Fin 8} {p : PageId} {prio : Fin 4} {z : ZoneId} {k : Claim}
  {opener : Opener} {source : PageSource} {level : Level}

/-! ## Sets of zones -/

/-- The zones of a list, added to a set. -/
def withZones (b : BitVec 24) (l : List ZoneId) : BitVec 24 := l.foldl (fun b z => b ||| zoneBit z) b

theorem zoneBit_getLsbD (z y : ZoneId) : (zoneBit z).getLsbD y = decide (z = y) := by
  revert z y
  decide

theorem withZones_getLsbD (l : List ZoneId) (b : BitVec 24) (y : ZoneId) :
    (withZones b l).getLsbD y = (b.getLsbD y || decide (y ∈ l)) := by
  induction l generalizing b with
  | nil => simp [withZones]
  | cons z l ih =>
    refine (ih (b ||| zoneBit z)).trans ?_
    rw [BitVec.getLsbD_or, zoneBit_getLsbD, Bool.or_assoc]
    refine congrArg (b.getLsbD y || ·) ?_
    rw [← Bool.decide_or, decide_eq_decide, List.mem_cons, eq_comm]

theorem zones_ext {a b : BitVec 24} (h : ∀ z : ZoneId, a.getLsbD z = b.getLsbD z) : a = b :=
  BitVec.eq_of_getLsbD_eq fun i hi => h ⟨i, hi⟩

theorem withZones_zonesOf (b : BitVec 24) : withZones 0#24 (zonesOf b) = b :=
  zones_ext fun z => by
    rw [withZones_getLsbD, Bool.eq_iff_iff]
    simp [mem_zonesOf]

/-! ## Offers -/

theorem offerZone_fault (hf : s.zones[z].state = .fault) :
    offerZone p prio z (s, k) = (s, { k with declined := k.declined + 1 }) := if_pos hf

theorem offerZone_free (hf : s.zones[z].state ≠ .fault) (hp : s.zones[z].page = none) :
    offerZone p prio z (s, k) = (Machine.beginCarry z p prio s, { k with won := k.won ||| zoneBit z }) := by
  unfold offerZone
  dsimp only
  rw [if_neg hf, hp]

/-- A zone that has begun to carry a page leaves the others as they are. -/
theorem beginCarry_other {y : ZoneId} (hy : y ≠ z) (s : State) :
    (Machine.beginCarry z p prio s).zones[y] = s.zones[y] := by
  have h := (show Reaches s.marks s s from ⟨rfl, fun _ h => h, fun h => h, fun _ => Iff.rfl⟩).beginCarry (z := z) p prio
  rw [h.1]
  exact Vector.getElem_set_ne z.isLt y.isLt fun he => hy (Fin.ext he.symm)

/-- Members that carry no page take it one after the other. -/
theorem offers_free {l : List ZoneId} (hl : l.Nodup) {s : State} {k : Claim}
    (hfree : ∀ z ∈ l, s.zones[z].state ≠ .fault ∧ s.zones[z].page = none) :
    l.foldl (fun x z => offerZone p prio z x) (s, k)
      = (l.foldl (fun s z => Machine.beginCarry z p prio s) s, { k with won := withZones k.won l }) := by
  induction l generalizing s k with
  | nil => rfl
  | cons z l ih =>
    obtain ⟨hz, hl⟩ := List.nodup_cons.mp hl
    obtain ⟨hf, hp⟩ := hfree z List.mem_cons_self
    rw [List.foldl_cons, offerZone_free hf hp, ih hl fun y hy => ?_]
    · rfl
    · rw [beginCarry_other fun (he : y = z) => hz (he ▸ hy)]
      exact hfree y (List.mem_cons_of_mem z hy)

/-- Members in FAULT decline. -/
theorem offers_fault {l : List ZoneId} {k : Claim} (hf : ∀ z ∈ l, s.zones[z].state = .fault) :
    l.foldl (fun x z => offerZone p prio z x) (s, k) = (s, { k with declined := k.declined + l.length }) := by
  induction l generalizing k with
  | nil => rfl
  | cons z l ih =>
    rw [List.foldl_cons, offerZone_fault (hf z List.mem_cons_self),
      ih fun y hy => hf y (List.mem_cons_of_mem z hy), List.length_cons]
    have hn : k.declined + 1 + l.length = k.declined + (l.length + 1) := by omega
    exact congrArg (fun n => (s, { k with declined := n })) hn

/-! ## The page -/

/-- The page that an open brings into use. -/
def opened (s : State) (opener : Opener) (source : PageSource) (prio : Fin 4) (level : Level) (won : BitVec 24)
    (st : PageState) : Page :=
  { state := st, opener := opener, source := source, priority := prio, level := level, zones := won,
    opened := s.tod, limit := if s.header.pageLimit = 0 then none else some (s.header.pageLimit * 1000) }

/-- The state once the zones of a list have taken a page. -/
def pageTaken (p : PageId) (prio : Fin 4) (l : List ZoneId) (s : State) : State :=
  { s with zones := recarried (some p) (some prio) s l
           notes := s.notes ++ carryNotes (some p) (some prio) s l }

/-- The state once a page has been brought into use with the zones it has won (R152, R156). -/
def entered (p : PageId) (pg : Page) (k : Claim) (s : State) : State :=
  captureEvent pageCell (pageDetails p pg k) { s with pages := s.pages.set p (some pg) }

theorem plain_entered (p : PageId) (pg : Page) (k : Claim) : Plain (entered p pg k) :=
  (plain_captureEvent pageCell (pageDetails p pg k)).comp (f := fun s => { s with pages := s.pages.set p (some pg) })
    fun _ _ _ _ => rfl

theorem Reaches.enterPage (h : Reaches as u v) : Reaches (.pages :: as)
    (entered p (opened u opener source prio level k.won (pageStateOf u k.won)) k u)
    (enterPage p opener source prio level k v) := by
  have hv : pageStateOf v k.won = pageStateOf u k.won ∧ v.tod = u.tod ∧ v.header = u.header := by
    rw [h.1]
    exact ⟨rfl, rfl, rfl⟩
  obtain ⟨hst, htod, hheader⟩ := hv
  unfold Machine.enterPage
  rw [hst, htod, hheader]
  exact ((h.plain (f := setPage p (some (opened u opener source prio level k.won (pageStateOf u k.won))))
    fun _ _ _ _ => rfl).area .pages).plain (plain_captureEvent pageCell _)

theorem openPage_busy (h : freePage s = none) : openPage g opener source prio level s = (s, .busy) := by
  unfold openPage
  rw [h]

theorem openPage_fault (h : freePage s = some p) (hf : ∀ z ∈ membersOf s g, s.zones[z].state = .fault) :
    openPage g opener source prio level s
      = (s, .noZone (membersOf s g).length 0 (0 + (membersOf s g).length)) := by
  unfold openPage
  rw [h]
  dsimp only
  rw [offers_fault hf]
  exact if_pos rfl

/-- The claim of members that carry no page. -/
def claimed (b : BitVec 24) : Claim := { Claim.start with won := b }

theorem openPage_free (h : freePage s = some p) (hm : membersOf s g ≠ [])
    (hfree : ∀ z ∈ membersOf s g, s.zones[z].state ≠ .fault ∧ s.zones[z].page = none) :
    openPage g opener source prio level s =
      (enterPage p opener source prio level (claimed s.zoneGroups[g])
          ((membersOf s g).foldl (fun s z => Machine.beginCarry z p prio s) s),
        .opened p s.zoneGroups[g] 0
          (pageStateOf ((membersOf s g).foldl (fun s z => Machine.beginCarry z p prio s) s) s.zoneGroups[g])) := by
  have hwon : withZones Claim.start.won (membersOf s g) = s.zoneGroups[g] := withZones_zonesOf _
  have hne : s.zoneGroups[g] ≠ 0#24 := fun h0 => hm (by unfold membersOf; rw [h0]; rfl)
  unfold openPage
  rw [h]
  dsimp only
  rw [offers_free (l := membersOf s g) (zonesOf_nodup _) hfree]
  dsimp only
  rw [hwon, if_neg hne]
  rfl

/-- The state once the members of a group have taken a page that none of them was carrying. -/
def pageOpened (g : Fin 8) (p : PageId) (opener : Opener) (source : PageSource) (prio : Fin 4) (level : Level)
    (s : State) : State :=
  entered p (opened s opener source prio level s.zoneGroups[g]
    (pageStateOf (pageTaken p prio (membersOf s g) s) s.zoneGroups[g])) (claimed s.zoneGroups[g])
    (pageTaken p prio (membersOf s g) s)

theorem Reaches.openPage_free (h : Reaches as u v) (hp : freePage u = some p) (hm : membersOf u g ≠ [])
    (hfree : ∀ z ∈ membersOf u g, u.zones[z].state ≠ .fault ∧ u.zones[z].page = none) :
    ∃ w, openPage g opener source prio level v = (w, .opened p u.zoneGroups[g] 0
        (pageStateOf (pageTaken p prio (membersOf u g) u) u.zoneGroups[g]))
      ∧ Reaches (.pages :: ((membersOf u g).map (fun _ => Area.zones) ++ as))
          (pageOpened g p opener source prio level u) w := by
  have hv : freePage v = freePage u ∧ membersOf v g = membersOf u g ∧ v.zones = u.zones
      ∧ v.zoneGroups = u.zoneGroups := by
    rw [h.1]
    exact ⟨rfl, rfl, rfl, rfl⟩
  obtain ⟨hfp, hmem, hz, hzg⟩ := hv
  have hopen := Ends.openPage_free (s := v) (g := g) (opener := opener) (source := source) (prio := prio)
    (level := level) (hfp.trans hp) (by rw [hmem]; exact hm) (by rw [hmem, hz]; exact hfree)
  rw [hmem, hzg] at hopen
  have hcarry : Reaches ((membersOf u g).map (fun _ => Area.zones) ++ as) (pageTaken p prio (membersOf u g) u)
      ((membersOf u g).foldl (fun s z => Machine.beginCarry z p prio s) v) :=
    h.carries (fun h => h.beginCarry p prio) (zonesOf_nodup _)
  generalize (membersOf u g).foldl (fun s z => Machine.beginCarry z p prio s) v = w at hopen hcarry
  have hstate : pageStateOf w u.zoneGroups[g] = pageStateOf (pageTaken p prio (membersOf u g) u) u.zoneGroups[g] := by
    unfold pageStateOf allLive
    rw [show w.zones = (pageTaken p prio (membersOf u g) u).zones from by rw [hcarry.1]; rfl]
  rw [hstate] at hopen
  have henter := hcarry.enterPage (p := p) (opener := opener) (source := source) (prio := prio) (level := level)
    (k := claimed u.zoneGroups[g])
  exact ⟨_, hopen, henter⟩

end Sys2Proof.Proofs.Ends
end

section
/-! PROOF. CALL_NOW and the end of a call's patience, where no page opens (R159, R162, R163). -/

namespace Sys2Proof.Proofs.Ends

open Sys2Proof.Machine
open Sys2Proof.Proofs.Steps

variable {s u v w U : State} {as : List Area} {c : CallId} {snd : SoundCopy} {i : CallInst} {x : VoiceId} {b : Bool}

theorem Reaches.calls_eq (h : Reaches as u v) : v.calls = u.calls := by rw [h.1]; rfl

theorem Reaches.voices_eq (h : Reaches as u v) : v.voices = u.voices := by rw [h.1]; rfl

/-! ## The answer -/

theorem callNowOwner_starts (hi : s.calls[c].inst = none) : callNowOwner c.val s
    = (startInstance c true s, answer .ok (callNowWords (startInstance c true s) (startInstance c true s).calls[c])) := by
  unfold callNowOwner
  rw [fin?_val]
  dsimp only
  rw [hi]

theorem callNowOwner_runs (hi : s.calls[c].inst = some i) : callNowOwner c.val s
    = (s, answer .busy (wordsOf (phaseWord (some i.phase)) (rest s 1) (rest s 2) (rest s 3))) := by
  unfold callNowOwner
  rw [fin?_val]
  dsimp only
  rw [hi]

theorem callNowOwner_none {n : Nat} (h : 16 ≤ n) : callNowOwner n s = (s, answer .badArgument (restWords s)) := by
  unfold callNowOwner
  rw [fin?_none h]

theorem callNowWords_same (hf : v.freeCount = s.freeCount) (y : Call) : callNowWords v y = callNowWords s y := by
  unfold callNowWords rest
  rw [hf]

theorem callNowWords_inst (y : Call) (i : CallInst) : callNowWords s { y with inst := some i }
    = wordsOf (Config.code (.phase (some i.phase))) 0#32 (rest s 2) (rest s 3) := rfl

theorem callNowWords_missed (y : Call) (why : MissReason) :
    callNowWords s { y with inst := none, outcome := .missed why }
      = wordsOf (Config.code (.phase none)) (Config.code (.missReason (some why))) (rest s 2) (rest s 3) := rfl

/-- A CALL_NOW whose instance has started without a notice. -/
theorem Reaches.callStarted (ht : s.Takes (.callNow c.val)) (hi : s.calls[c].inst = none)
    (h : Reaches as { U with slate := (markHanded s).slate } (startInstance c true (markHanded s)))
    (hs : U.slate = s.slate) (hf : U.freeCount = s.freeCount) (hn : U.notes = []) :
    State.Answered as U { code := .ok, words := callNowWords s U.calls[c] } (request (.callNow c.val) s) := by
  have hcalls : (startInstance c true (markHanded s)).calls = U.calls := h.calls_eq
  have hfree : (startInstance c true (markHanded s)).freeCount = s.freeCount := h.freeCount_eq.trans hf
  refine Reaches.answered ht ?_ h hs hf hn
  show later (callNowOwner c.val (markHanded s)) = _
  rw [callNowOwner_starts (s := markHanded s) hi, callNowWords_same hfree, hcalls]
  rfl

/-! ## Instances that wait or are missed at once -/

theorem handed_instanced (n : Nat) : (instanced c b (markHanded s)).soundAsked n
    = { (instanced c b s).soundAsked n with slate := (markHanded s).slate } := by
  unfold State.soundAsked
  split <;> rfl

theorem soundAsked_instanced (n : Nat) : (instanced c b s).soundAsked n = { s.soundAsked n with
    calls := upd s.calls c fun y => { y with inst := some (newInst c b s) } } := by
  unfold State.soundAsked
  split <;> rfl

/-- The state once a call has been missed before it took its voice. -/
def missedEarly (c : CallId) (why : MissReason) (i : CallInst) (holder : VoiceOwner) (s : State) : State :=
  captureEvent callCell (callWords c false (some why) i holder) { s with
    calls := upd s.calls c fun y => { y with inst := none, outcome := .missed why }
    missedCalls := sat16 s.missedCalls }

theorem missed_early (why : MissReason) (holder : VoiceOwner) : missed c why i holder s = missedEarly c why i holder s := rfl

theorem missedEarly_calls (why : MissReason) (holder : VoiceOwner) : (missedEarly c why i holder s).calls
    = upd s.calls c fun y => { y with inst := none, outcome := .missed why } := by
  unfold missedEarly
  rw [captureEvent_eq]

theorem missedEarly_handed (why : MissReason) (holder : VoiceOwner) (q : Slate) :
    missedEarly c why i holder { s with slate := q } = { missedEarly c why i holder s with slate := q } := by
  unfold missedEarly
  rw [captureEvent_eq, captureEvent_eq]

theorem missedEarly_instanced (n : Nat) (why : MissReason) (holder : VoiceOwner) :
    missedEarly c why i holder ((instanced c b s).soundAsked n) = missedEarly c why i holder (s.soundAsked n) := by
  have hcalls : upd (upd s.calls c fun y => { y with inst := some (newInst c b s) }) c
      (fun y => { y with inst := none, outcome := .missed why })
      = upd s.calls c fun y => { y with inst := none, outcome := .missed why } := upd_upd ..
  rw [soundAsked_instanced, soundAsked_eq]
  unfold missedEarly
  dsimp only
  rw [hcalls]

theorem missedEarly_keeps (why : MissReason) (holder : VoiceOwner) : (missedEarly c why i holder s).voices = s.voices
    ∧ (missedEarly c why i holder s).slate = s.slate ∧ (missedEarly c why i holder s).freeCount = s.freeCount
    ∧ (missedEarly c why i holder s).notes = s.notes := by
  unfold missedEarly
  rw [captureEvent_eq]
  exact ⟨rfl, rfl, rfl, rfl⟩

theorem Reaches.missCall_early {why : MissReason} (h : Reaches as u v) (hi : u.calls[c].inst = some i) (hp : i.page = none)
    (hx : u.calls[c].cfg.voice = x) (ho : u.voices[x].owner ≠ .call c) : Reaches (.pages :: as)
      (missedEarly c why i (if why = .voiceBusy then u.voices[x].owner else .none) u) (Machine.missCall c why v) :=
  h.missCall hi hx hp fun _ h' => h'.releaseVoice_not (by
    rw [missed_early, (missedEarly_keeps ..).1]
    exact ho)

theorem patienceEnds_waits (hi : s.calls[c].inst = some i) (hp : i.phase = .waitVoice) :
    patienceEnds c s = missCall c .voiceBusy s := by
  unfold patienceEnds
  rw [hi]
  dsimp only
  rw [hp]

theorem patienceEnds_plays (hi : s.calls[c].inst = some i) (hp : i.phase = .waitZones) :
    patienceEnds c s = beginPlaying c s := by
  unfold patienceEnds
  rw [hi]
  dsimp only
  rw [hp]

/-- Without patience the instance that would wait is missed. -/
theorem Reaches.startInstance_impatient (h : Reaches as u v)
    (hj : judgeSound u u.mem u.calls[c].cfg.sound false = .usable snd)
    (hs : u.voices[u.calls[c].cfg.voice].state ≠ .idle) (hp : u.calls[c].cfg.patience = 0)
    (ho : u.voices[u.calls[c].cfg.voice].owner ≠ .call c) : Reaches (.pages :: .pages :: as)
      (missedEarly c .voiceBusy (newInst c b u) u.voices[u.calls[c].cfg.voice].owner (u.soundAsked u.calls[c].cfg.sound))
      (startInstance c b v) := by
  have hoff := h.offer_busy (b := b) hj hs
  rw [startInstance_eq]
  generalize offerPlay c (mark .pages (Ends.instanced c b v)) = w at hoff
  have hcalls : ((Ends.instanced c b u).soundAsked u.calls[c].cfg.sound).calls[c]
      = { u.calls[c] with inst := some (newInst c b u) } := by
    rw [soundAsked_eq]
    exact instanced_call c b u
  have hvoices : ((Ends.instanced c b u).soundAsked u.calls[c].cfg.sound).voices = u.voices := by
    rw [soundAsked_eq]
    rfl
  have hcall : w.calls[c] = { u.calls[c] with inst := some (newInst c b u) } := by
    rw [hoff.calls_eq]
    exact hcalls
  rw [hcall, patienceOut_newInst, if_pos (decide_eq_true hp),
    patienceEnds_waits (i := newInst c b u) (by rw [hcall]) rfl]
  have hmiss := hoff.missCall_early (why := .voiceBusy) (i := newInst c b u) (x := u.calls[c].cfg.voice)
    (by rw [hcalls]) rfl (by rw [hcalls]) (by rw [hvoices]; exact ho)
  rw [if_pos rfl, hvoices, missedEarly_instanced] at hmiss
  exact hmiss

/-- An instance whose sound is not usable is missed. -/
theorem Reaches.startInstance_soundless (h : Reaches as u v)
    (hj : judgeSound u u.mem u.calls[c].cfg.sound false = .unknown
      ∨ judgeSound u u.mem u.calls[c].cfg.sound false = .empty)
    (ho : u.voices[u.calls[c].cfg.voice].owner ≠ .call c) : Reaches (.pages :: .pages :: as)
      (missedEarly c .sound (newInst c b u) .none (u.soundAsked u.calls[c].cfg.sound)) (startInstance c b v) := by
  have hinst := h.instanced c b
  rw [startInstance_eq]
  generalize mark .pages (Ends.instanced c b v) = w at hinst
  have hcall : w.calls[c] = { u.calls[c] with inst := some (newInst c b u) } := by
    rw [hinst.calls_eq]
    exact instanced_call c b u
  have hsame : judgeSound w w.mem = judgeSound u u.mem := by rw [hinst.1]; rfl
  rw [offerPlay_unusable (by rw [hcall, hsame]; exact hj), hcall]
  have hcalls : ((Ends.instanced c b u).soundAsked u.calls[c].cfg.sound).calls[c]
      = { u.calls[c] with inst := some (newInst c b u) } := by
    rw [soundAsked_eq]
    exact instanced_call c b u
  have hvoices : ((Ends.instanced c b u).soundAsked u.calls[c].cfg.sound).voices = u.voices := by
    rw [soundAsked_eq]
    rfl
  have hmiss := (hinst.soundAsked (n := u.calls[c].cfg.sound)).missCall_early (why := .sound) (i := newInst c b u)
    (x := u.calls[c].cfg.voice) (by rw [hcalls]) rfl (by rw [hcalls]) (by rw [hvoices]; exact ho)
  rw [if_neg nofun, missedEarly_instanced] at hmiss
  dsimp only
  have hgone : (Machine.missCall c .sound (w.soundAsked u.calls[c].cfg.sound)).calls[c].patienceOut = false := by
    rw [hmiss.calls_eq, missedEarly_calls, upd_get_self]
    rfl
  rw [if_neg (ne_true_of_eq_false hgone)]
  exact hmiss

end Sys2Proof.Proofs.Ends
end

section
/-! PROOF. A call takes its voice and opens its page, or finds no zone for it (R152, R159, R161). -/

namespace Sys2Proof.Proofs.Ends

open Sys2Proof.Machine
open Sys2Proof.Proofs.Steps

variable {s u v w : State} {as : List Area} {c : CallId} {snd : SoundCopy} {i : CallInst} {x : VoiceId} {b : Bool}
  {p : PageId}

/-! ## The voice taken -/

theorem request_same (y : Voice) : y.request.state = y.state ∧ y.request.owner = y.owner := by
  unfold Voice.request
  split <;> exact ⟨rfl, rfl⟩

/-- The call as its instance waits for its zones. -/
def zonesAwaited (c : CallId) (s : State) : State := mark .pages (updCall c (inPhase .waitZones) s)

/-- The instance with which a call opens its page. -/
def openingInst (c : CallId) (b : Bool) (s : State) : CallInst := { newInst c b s with phase := .waitZones }

/-- The state in which a call that has taken its voice opens its page. -/
def callTaken (c : CallId) (x : VoiceId) (snd : SoundCopy) (b : Bool) (s : State) : State := { s with
  calls := upd s.calls c fun y => { y with inst := some (openingInst c b s) }
  voices := s.voices.set x (Voice.restarted s.voices[x] snd (.call c)).request
  levels := s.levels.put (.voice x) .off, arb := s.playedArb x }

/-- What remains of a start once the page has been offered. -/
def afterOpen (c : CallId) (r : State × OpenEnd) : State :=
  match r with
  | (s, .busy) => missCall c .busy s
  | (s, .noZone ..) => missCall c .noZone s
  | (s, .opened p _ _ st) =>
    let s := updCall c (fun x => { x with inst := x.inst.map fun i => { i with page := some p } }) s
    if st = .live then beginPlaying c s else s

theorem enterWaitZones_eq (c : CallId) (s : State) : enterWaitZones c s = afterOpen c
    (openPage s.calls[c].cfg.group (.call c) (.voice s.calls[c].cfg.voice) s.calls[c].cfg.priority
      s.calls[c].cfg.level (zonesAwaited c s)) := rfl

/-- A start whose voice is IDLE comes to the opening of its page. -/
theorem Reaches.offerPlay_taken (h : Reaches as u v)
    (hj : judgeSound u u.mem u.calls[c].cfg.sound false = .usable snd) (hx : u.calls[c].cfg.voice = x)
    (hs : u.voices[x].state = .idle) (hf : u.NotFading (.voice x)) :
    ∃ w, Reaches (.pages :: .voices :: .pages :: as) (callTaken c x snd b u) w
      ∧ offerPlay c (mark .pages (Ends.instanced c b v)) = afterOpen c
          (openPage u.calls[c].cfg.group (.call c) (.voice x) u.calls[c].cfg.priority u.calls[c].cfg.level w) := by
  subst hx
  have hinst := h.instanced c b
  generalize mark .pages (Ends.instanced c b v) = w at hinst
  have hcall : w.calls[c] = { u.calls[c] with inst := some (newInst c b u) } := by
    rw [hinst.calls_eq]
    exact instanced_call c b u
  have hcfg : w.calls[c].cfg = u.calls[c].cfg := (congrArg Call.cfg hcall).trans rfl
  have hjudge : judgeSound w w.mem w.calls[c].cfg.sound false = .usable snd := by
    rw [hcfg, hinst.1]
    exact hj
  have hidle : w.voices[w.calls[c].cfg.voice].state = .idle := by
    rw [hinst.voices_eq]
    exact (congrArg (fun k : CallCfg => u.voices[k.voice].state) hcfg).trans hs
  have hoff := Ends.offerPlay_taken hjudge hidle
  rw [hcfg] at hoff
  have hasked := hinst.soundAsked (n := u.calls[c].cfg.sound)
  have hn : u.soundAsked u.calls[c].cfg.sound = { u with arb := { u.arb with reads := u.arb.reads ++ [.record] } } :=
    if_pos (usable_number hj)
  rw [soundAsked_instanced, hn] at hasked
  have htake := hasked.takePlay_none (x := u.calls[c].cfg.voice) (snd := snd) (start := .off) (owner := .call c) hf
  generalize takePlay u.calls[c].cfg.voice snd .off (.call c) (w.soundAsked u.calls[c].cfg.sound) = w' at hoff htake
  have hcfg' : w'.calls[c].cfg = u.calls[c].cfg := by
    rw [htake.calls_eq]
    show (upd u.calls c fun y => { y with inst := some (newInst c b u) })[c].cfg = _
    rw [upd_get_self]
  rw [enterWaitZones_eq, hcfg'] at hoff
  refine ⟨zonesAwaited c w', ?_, hoff⟩
  refine ((htake.plain (f := updCall c (inPhase .waitZones)) fun _ _ _ _ => rfl).area .pages).congr ?_ fun _ => Iff.rfl
  have hnone : cutNotes u.voices[u.calls[c].cfg.voice].owner (.call c) = [] := by
    unfold cutNotes
    cases u.voices[u.calls[c].cfg.voice].owner <;> rfl
  have hcalls : upd (upd u.calls c fun y => { y with inst := some (newInst c b u) }) c (inPhase .waitZones)
      = upd u.calls c fun y => { y with inst := some (openingInst c b u) } := upd_upd ..
  unfold played updCall callTaken
  dsimp only
  rw [hcalls, hnone, List.append_nil]
  rfl

/-! ## No zone for the page -/

/-- The state once a call that has taken its voice has been missed, its voice released again. -/
def missedOpening (c : CallId) (x : VoiceId) (snd : SoundCopy) (why : MissReason) (b : Bool) (s : State) : State :=
  captureEvent callCell (callWords c false (some why) (openingInst c b s) .none) { s with
    calls := upd s.calls c fun y => { y with inst := none, outcome := .missed why }
    missedCalls := sat16 s.missedCalls
    voices := s.voices.set x (Voice.restarted s.voices[x] snd (.call c)).request.idled
    levels := s.levels.put (.voice x) .off, arb := s.playedArb x }

/-- A burst that is stale stays so. -/
theorem playedArb_idled (x : VoiceId) (hs : v.arb = u.playedArb x) : (staleBurst x v).arb = u.playedArb x := by
  unfold staleBurst
  dsimp only
  rw [hs]
  unfold State.playedArb staleBurst
  cases u.arb.busy with
  | none => rfl
  | some k => cases k <;> simp

theorem missedOpening_eq (why : MissReason) :
    idledAt x (missedEarly c why (openingInst c b s) .none (callTaken c x snd b s)) = missedOpening c x snd why b s := by
  have hcalls : upd (upd s.calls c fun y => { y with inst := some (openingInst c b s) }) c
      (fun y => { y with inst := none, outcome := .missed why })
      = upd s.calls c fun y => { y with inst := none, outcome := .missed why } := upd_upd ..
  have hvoices : (s.voices.set x (Voice.restarted s.voices[x] snd (.call c)).request).set x
      (s.voices.set x (Voice.restarted s.voices[x] snd (.call c)).request)[x].idled
      = s.voices.set x (Voice.restarted s.voices[x] snd (.call c)).request.idled := by simp
  have harb : (staleBurst x (missedEarly c why (openingInst c b s) .none (callTaken c x snd b s))).arb
      = s.playedArb x := playedArb_idled x (by unfold missedEarly; rw [captureEvent_eq]; rfl)
  unfold idledAt
  rw [harb]
  unfold missedEarly missedOpening callTaken
  simp only [captureEvent_eq, hcalls, hvoices]

theorem Reaches.callMisses {why : MissReason} (hw : why ≠ .voiceBusy) (h : Reaches as (callTaken c x snd b u) w)
    (hx : u.calls[c].cfg.voice = x) : Reaches (.voices :: .pages :: as)
      { missedOpening c x snd why b u with notes := u.notes ++ [.voiceIdle x (.call c)] } (Machine.missCall c why w) := by
  have hcall : (callTaken c x snd b u).calls[c] = { u.calls[c] with inst := some (openingInst c b u) } := upd_get_self ..
  have hvoice : (callTaken c x snd b u).voices[x] = (Voice.restarted u.voices[x] snd (.call c)).request := by
    simp [callTaken]
  refine h.missCall (i := openingInst c b u) (x := x) (by rw [hcall]) (by rw [hcall]; exact hx) rfl fun v' h' => ?_
  rw [if_neg hw, missed_early] at h'
  have hkeeps := (missedEarly_keeps (c := c) (i := openingInst c b u) (s := callTaken c x snd b u) why .none)
  obtain ⟨hvoices, _, _, hnotes⟩ := hkeeps
  have hrel := h'.releaseVoice (c := c) (x := x) (by rw [hvoices, hvoice, (request_same _).2]; rfl)
    (by rw [hvoices, hvoice, (request_same _).1]; nofun)
  rw [missedOpening_eq, hnotes] at hrel
  exact hrel

/-! ## The page opened -/

/-- The call with its page. -/
def withPageOf (p : PageId) (y : Call) : Call := { y with inst := y.inst.map fun i => { i with page := some p } }

/-- The state once a call has opened its page, waiting for its zones. -/
def callPaged (c : CallId) (x : VoiceId) (p : PageId) (snd : SoundCopy) (b : Bool) (s : State) : State :=
  let u := pageOpened s.calls[c].cfg.group p (.call c) (.voice x) s.calls[c].cfg.priority s.calls[c].cfg.level
    (callTaken c x snd b s)
  { u with calls := upd u.calls c (withPageOf p) }

/-- The state of the page that a call opens. -/
def callPageState (c : CallId) (p : PageId) (s : State) : PageState :=
  pageStateOf (pageTaken p s.calls[c].cfg.priority (membersOf s s.calls[c].cfg.group) s)
    s.zoneGroups[s.calls[c].cfg.group]

theorem entered_eq (p : PageId) (pg : Page) (k : Claim) (s : State) : ∃ e q, entered p pg k s
    = { s with pages := s.pages.set p (some pg), cells := e, wq := q } := by
  unfold entered
  rw [captureEvent_eq]
  exact ⟨_, _, rfl⟩

theorem pageOpened_eq (g : Fin 8) (p : PageId) (opener : Opener) (source : PageSource) (prio : Fin 4) (level : Level)
    (s : State) : ∃ e q, pageOpened g p opener source prio level s = { s with
      zones := recarried (some p) (some prio) s (membersOf s g)
      notes := s.notes ++ carryNotes (some p) (some prio) s (membersOf s g)
      pages := s.pages.set p (some (opened s opener source prio level s.zoneGroups[g]
        (pageStateOf (pageTaken p prio (membersOf s g) s) s.zoneGroups[g]))), cells := e, wq := q } :=
  entered_eq ..

theorem pageOpened_calls (g : Fin 8) (p : PageId) (opener : Opener) (source : PageSource) (prio : Fin 4) (level : Level)
    (s : State) : (pageOpened g p opener source prio level s).calls = s.calls
      ∧ (pageOpened g p opener source prio level s).voices = s.voices := by
  obtain ⟨e, q, h⟩ := pageOpened_eq g p opener source prio level s
  rw [h]
  exact ⟨rfl, rfl⟩

theorem callPaged_parts (c : CallId) (x : VoiceId) (p : PageId) (snd : SoundCopy) (b : Bool) (s : State) :
    (callPaged c x p snd b s).calls
        = (upd s.calls c fun y => { y with inst := some { openingInst c b s with page := some p } })
      ∧ (callPaged c x p snd b s).voices = s.voices.set x (Voice.restarted s.voices[x] snd (.call c)).request := by
  obtain ⟨hc, hv⟩ := pageOpened_calls s.calls[c].cfg.group p (.call c) (.voice x) s.calls[c].cfg.priority
    s.calls[c].cfg.level (callTaken c x snd b s)
  refine ⟨?_, hv⟩
  unfold callPaged
  dsimp only
  rw [hc]
  exact upd_upd ..

/-- The start of the voice of a call whose page is open. -/
def callSounding (c : CallId) (x : VoiceId) (p : PageId) (snd : SoundCopy) (b : Bool) (s : State) : State :=
  { callPaged c x p snd b s with
    calls := upd (callPaged c x p snd b s).calls c (inPhase .playing)
    voices := upd (callPaged c x p snd b s).voices x Voice.started }

theorem Reaches.callSounds (h : Reaches as (callPaged c x p snd b u) w) (hx : u.calls[c].cfg.voice = x) :
    Reaches (.pages :: as) (callSounding c x p snd b u) (Machine.beginPlaying c w) := by
  obtain ⟨hcalls, hvoices⟩ := callPaged_parts c x p snd b u
  have hvoice : (callPaged c x p snd b u).voices[x] = (Voice.restarted u.voices[x] snd (.call c)).request := by
    rw [hvoices]
    simp
  have hstate : (callPaged c x p snd b u).voices[x].state = .priming := by rw [hvoice, (request_same _).1]; rfl
  have hbegin := h.beginPlaying (c := c) (x := x) (by rw [hcalls, upd_get_self]; exact hx)
    (by rw [hvoice, (request_same _).2]; rfl)
  unfold startAreas at hbegin
  rw [hstate, if_neg (by simp)] at hbegin
  exact hbegin

/-- A call whose page finds its zones opens it, and its voice starts when all are LIVE, or at the end of its
patience. -/
theorem Reaches.startInstance_opens (h : Reaches as u v)
    (hj : judgeSound u u.mem u.calls[c].cfg.sound false = .usable snd) (hx : u.calls[c].cfg.voice = x)
    (hs : u.voices[x].state = .idle) (hf : u.NotFading (.voice x)) (hp : freePage u = some p)
    (hm : membersOf u u.calls[c].cfg.group ≠ [])
    (hfree : ∀ z ∈ membersOf u u.calls[c].cfg.group, u.zones[z].state ≠ .fault ∧ u.zones[z].page = none) :
    ∃ bs, Reaches bs (if callPageState c p u = .live ∨ u.calls[c].cfg.patience = 0 then callSounding c x p snd b u
      else callPaged c x p snd b u) (startInstance c b v) := by
  obtain ⟨w, hw, hoff⟩ := h.offerPlay_taken (b := b) hj hx hs hf
  obtain ⟨w', hopen, hw'⟩ := hw.openPage_free (g := u.calls[c].cfg.group) (opener := .call c) (source := .voice x)
    (prio := u.calls[c].cfg.priority) (level := u.calls[c].cfg.level) hp hm hfree
  have hpaged := hw'.plain (f := fun s => { s with calls := upd s.calls c (withPageOf p) }) fun _ _ _ _ => rfl
  change Reaches _ (callPaged c x p snd b u) (updCall c (withPageOf p) w') at hpaged
  rw [hopen] at hoff
  change offerPlay c (mark .pages (Ends.instanced c b v)) = if callPageState c p u = .live then
    Machine.beginPlaying c (updCall c (withPageOf p) w') else updCall c (withPageOf p) w' at hoff
  obtain ⟨hcalls, _⟩ := callPaged_parts c x p snd b u
  rw [startInstance_eq, hoff]
  by_cases hl : callPageState c p u = .live
  · have hsound := hpaged.callSounds hx
    have hcall : (Machine.beginPlaying c (updCall c (withPageOf p) w')).calls[c].patienceOut = false := by
      rw [hsound.calls_eq]
      show (upd (callPaged c x p snd b u).calls c (inPhase .playing))[c].patienceOut = false
      rw [upd_get_self, hcalls, upd_get_self]
      unfold Call.patienceOut inPhase
      exact Bool.and_false _
    rw [if_pos hl, if_neg (ne_true_of_eq_false hcall), if_pos (.inl hl)]
    exact ⟨_, hsound⟩
  · have hcall : (updCall c (withPageOf p) w').calls[c]
        = { u.calls[c] with inst := some { openingInst c b u with page := some p } } := by
      rw [hpaged.calls_eq, hcalls, upd_get_self]
    have hout : (updCall c (withPageOf p) w').calls[c].patienceOut = decide (u.calls[c].cfg.patience = 0) := by
      rw [hcall]
      exact patienceOut_newInst u.calls[c] b u
    rw [if_neg hl, hout]
    by_cases hpat : u.calls[c].cfg.patience = 0
    · rw [if_pos (decide_eq_true hpat), if_pos (.inr hpat),
        patienceEnds_plays (i := { openingInst c b u with page := some p }) (by rw [hcall]) rfl]
      exact ⟨_, hpaged.callSounds hx⟩
    · rw [if_neg (ne_true_of_eq_false (decide_eq_false hpat)), if_neg (not_or.mpr ⟨hl, hpat⟩)]
      exact ⟨_, hpaged⟩

end Sys2Proof.Proofs.Ends
end

section
/-! PROOF. CALL_NOW from its taking to the end of its event, and the end of a call's patience (R159 to R163). -/

namespace Sys2Proof.Proofs.Calls

open Sys2Proof.Machine
open Sys2Proof.Proofs.Steps Sys2Proof.Proofs.Ends

variable {s t u v w : State} {as : List Area} {c : CallId} {snd : SoundCopy} {i : CallInst} {x : VoiceId} {b : Bool}
  {p : PageId}

/-! ## A start that opens its page -/

/-- The state once a call has opened its page, its voice starting at once or when its zones are LIVE. -/
def callOpening (c : CallId) (x : VoiceId) (p : PageId) (snd : SoundCopy) (b : Bool) (s : State) : State :=
  if callPageState c p s = .live ∨ s.calls[c].cfg.patience = 0 then callSounding c x p snd b s else callPaged c x p snd b s

/-- The phase of a call that has opened its page. -/
def openPhase (c : CallId) (p : PageId) (s : State) : CallPhase :=
  if callPageState c p s = .live ∨ s.calls[c].cfg.patience = 0 then .playing else .waitZones

theorem callPaged_eq (c : CallId) (x : VoiceId) (p : PageId) (snd : SoundCopy) (b : Bool) (s : State) :
    ∃ C V e q, callPaged c x p snd b s = { s with
      zones := recarried (some p) (some s.calls[c].cfg.priority) s (membersOf s s.calls[c].cfg.group)
      notes := s.notes ++ carryNotes (some p) (some s.calls[c].cfg.priority) s (membersOf s s.calls[c].cfg.group)
      pages := s.pages.set p (some (opened s (.call c) (.voice x) s.calls[c].cfg.priority s.calls[c].cfg.level
        s.zoneGroups[s.calls[c].cfg.group] (callPageState c p s)))
      levels := s.levels.put (.voice x) .off, arb := s.playedArb x, calls := C, voices := V, cells := e, wq := q } := by
  obtain ⟨e, q, h⟩ := pageOpened_eq s.calls[c].cfg.group p (.call c) (.voice x) s.calls[c].cfg.priority
    s.calls[c].cfg.level (callTaken c x snd b s)
  unfold callPaged
  dsimp only
  rw [h]
  exact ⟨_, _, e, q, rfl⟩

theorem callOpening_eq (c : CallId) (x : VoiceId) (p : PageId) (snd : SoundCopy) (b : Bool) (s : State) :
    ∃ C V e q, callOpening c x p snd b s = { s with
      zones := recarried (some p) (some s.calls[c].cfg.priority) s (membersOf s s.calls[c].cfg.group)
      notes := s.notes ++ carryNotes (some p) (some s.calls[c].cfg.priority) s (membersOf s s.calls[c].cfg.group)
      pages := s.pages.set p (some (opened s (.call c) (.voice x) s.calls[c].cfg.priority s.calls[c].cfg.level
        s.zoneGroups[s.calls[c].cfg.group] (callPageState c p s)))
      levels := s.levels.put (.voice x) .off, arb := s.playedArb x, calls := C, voices := V, cells := e, wq := q } := by
  obtain ⟨C, V, e, q, h⟩ := callPaged_eq c x p snd b s
  unfold callOpening callSounding
  split
  · rw [h]
    exact ⟨_, _, _, _, rfl⟩
  · exact ⟨C, V, e, q, h⟩

theorem callOpening_calls : (callOpening c x p snd b s).calls = upd s.calls c fun y => { y with
    inst := some { newInst c b s with phase := openPhase c p s, page := some p } } := by
  obtain ⟨hcalls, _⟩ := callPaged_parts c x p snd b s
  unfold callOpening openPhase
  by_cases hs : callPageState c p s = .live ∨ s.calls[c].cfg.patience = 0
  · rw [if_pos hs, if_pos hs]
    show upd (callPaged c x p snd b s).calls c (inPhase .playing) = _
    rw [hcalls, upd_upd]
    rfl
  · rw [if_neg hs, if_neg hs, hcalls]
    rfl

theorem restarted_pending (y : Voice) (snd : SoundCopy) (o : VoiceOwner) :
    (Voice.restarted y snd o).request.startPending = false := by
  unfold Voice.request
  split <;> rfl

theorem started_priming {y : Voice} (h : y.state = .priming) : y.started = { y with startPending := true } := by
  cases y
  cases h
  rfl

theorem callOpening_voices : (callOpening c x p snd b s).voices = s.voices.set x
    { (Voice.restarted s.voices[x] snd (.call c)).request with
      startPending := decide (callPageState c p s = .live ∨ s.calls[c].cfg.patience = 0) } := by
  obtain ⟨_, hvoices⟩ := callPaged_parts c x p snd b s
  have hstate : (Voice.restarted s.voices[x] snd (.call c)).request.state = .priming := (request_same _).1.trans rfl
  have hpending := restarted_pending s.voices[x] snd (.call c)
  unfold callOpening
  by_cases hs : callPageState c p s = .live ∨ s.calls[c].cfg.patience = 0
  · rw [if_pos hs, decide_eq_true hs]
    show upd (callPaged c x p snd b s).voices x Voice.started = _
    rw [hvoices]
    exact (set_upd ..).trans (congrArg (s.voices.set x) (started_priming hstate))
  · rw [if_neg hs, decide_eq_false hs, hvoices]
    refine congrArg (s.voices.set x) ?_
    generalize (Voice.restarted s.voices[x] snd (.call c)).request = y at hpending
    cases y
    cases hpending
    rfl

/-- The zones that become LIVE as they take a page that is judged as it comes into use leave it as it is. -/
theorem callOpening_idle {n : Note}
    (hn : n ∈ carryNotes (some p) (some s.calls[c].cfg.priority) s (membersOf s s.calls[c].cfg.group))
    (hz : u.zones = recarried (some p) (some s.calls[c].cfg.priority) s (membersOf s s.calls[c].cfg.group))
    (hp : u.pages = s.pages.set p (some (opened s (.call c) (.voice x) s.calls[c].cfg.priority s.calls[c].cfg.level
        s.zoneGroups[s.calls[c].cfg.group] (callPageState c p s)))) : Idle n u := by
  obtain ⟨z, hmem, rfl⟩ := mem_carryNotes hn
  intro q pg hq hpg
  rw [hz, recarried_get, if_pos hmem, carried_page] at hq
  obtain rfl := Option.some.inj hq
  rw [hp, Fin.getElem_fin, Vector.getElem_set_self] at hpg
  obtain rfl := Option.some.inj hpg
  rintro ⟨hopen, hlive⟩
  have hall : allLive u = allLive (pageTaken p s.calls[c].cfg.priority (membersOf s s.calls[c].cfg.group) s) := by
    unfold allLive
    rw [hz]
    rfl
  have hst : callPageState c p s = .live := by
    unfold callPageState pageStateOf
    rw [← hall]
    exact if_pos hlive
  exact nomatch hst.symm.trans hopen

theorem handed_recarried (q : Option PageId) (k : Option (Fin 4)) (l : List ZoneId) :
    recarried q k (markHanded s) l = recarried q k s l := rfl

theorem handed_carryNotes (q : Option PageId) (k : Option (Fin 4)) (l : List ZoneId) :
    carryNotes q k (markHanded s) l = carryNotes q k s l := rfl

theorem handed_pageState : callPageState c p (markHanded s) = callPageState c p s := rfl

theorem handed_newInst : newInst c b (markHanded s) = newInst c b s := rfl

theorem handed_openPhase : openPhase c p (markHanded s) = openPhase c p s := by
  unfold openPhase
  rw [handed_pageState]
  rfl

/-- What a CALL_NOW that opens its page makes of the calls and voices does not go by the slate. -/
theorem handed_callOpening : (callOpening c x p snd b (markHanded s)).calls = (callOpening c x p snd b s).calls
    ∧ (callOpening c x p snd b (markHanded s)).voices = (callOpening c x p snd b s).voices := by
  rw [callOpening_calls, callOpening_calls, callOpening_voices, callOpening_voices, handed_pageState, handed_openPhase,
    handed_newInst]
  exact ⟨rfl, rfl⟩

/-- The state of a CALL_NOW that opens its page, at the end of its owner's turn. -/
theorem handed_opening : ∃ e q, callOpening c x p snd b (markHanded s) = { s with
    zones := recarried (some p) (some s.calls[c].cfg.priority) s (membersOf s s.calls[c].cfg.group)
    notes := s.notes ++ carryNotes (some p) (some s.calls[c].cfg.priority) s (membersOf s s.calls[c].cfg.group)
    pages := s.pages.set p (some (opened s (.call c) (.voice x) s.calls[c].cfg.priority s.calls[c].cfg.level
      s.zoneGroups[s.calls[c].cfg.group] (callPageState c p s)))
    levels := s.levels.put (.voice x) .off, arb := s.playedArb x, cells := e, wq := q
    calls := (callOpening c x p snd b s).calls, voices := (callOpening c x p snd b s).voices
    slate := (markHanded s).slate } := by
  obtain ⟨hc, hv⟩ := handed_callOpening (c := c) (x := x) (p := p) (snd := snd) (b := b) (s := s)
  obtain ⟨C, V, e, q, hF⟩ := callOpening_eq c x p snd b (markHanded s)
  rw [hF] at hc hv
  dsimp only at hc hv
  rw [hc, hv, handed_recarried, handed_carryNotes, handed_pageState] at hF
  exact ⟨e, q, hF⟩

/-- The end of a CALL_NOW whose instance opens its page. -/
theorem callNow_opens (ht : s.Takes (.callNow c.val)) (hi : s.calls[c].inst = none)
    (hj : judgeSound s s.mem s.calls[c].cfg.sound false = .usable snd) (hx : s.calls[c].cfg.voice = x)
    (hs : s.voices[x].state = .idle) (hf : s.NotFading (.voice x)) (hp : freePage s = some p)
    (hm : membersOf s s.calls[c].cfg.group ≠ [])
    (hfree : ∀ z ∈ membersOf s s.calls[c].cfg.group, s.zones[z].state ≠ .fault ∧ s.zones[z].page = none)
    (hreq : request (.callNow c.val) s = t) :
    t.zones = recarried (some p) (some s.calls[c].cfg.priority) s (membersOf s s.calls[c].cfg.group)
      ∧ t.calls = (callOpening c x p snd true s).calls ∧ t.voices = (callOpening c x p snd true s).voices
      ∧ t.levels = s.levels.put (.voice x) .off
      ∧ t.pages = s.pages.set p (some (opened s (.call c) (.voice x) s.calls[c].cfg.priority s.calls[c].cfg.level
          s.zoneGroups[s.calls[c].cfg.group] (callPageState c p s)))
      ∧ t.slate.lastAnswer = some
          { code := .ok
            words := wordsOf (Config.code (.phase (some (openPhase c p s)))) 0#32 (rest s 2) (rest s 3) } := by
  obtain ⟨hn, hmk⟩ := ht.2.1
  obtain ⟨bs, h⟩ := (Reaches.refl (s := markHanded s) hmk).startInstance_opens (c := c) (b := true) hj hx hs hf hp hm hfree
  change Reaches bs (callOpening c x p snd true (markHanded s)) _ at h
  generalize hv : startInstance c true (markHanded s) = v at h
  have hcalls' := callOpening_calls (c := c) (x := x) (p := p) (snd := snd) (b := true) (s := s)
  obtain ⟨e, q, hF⟩ := handed_opening (c := c) (x := x) (p := p) (snd := snd) (b := true) (s := s)
  rw [hF] at h
  generalize (callOpening c x p snd true s).calls = C at *
  generalize (callOpening c x p snd true s).voices = V at *
  have hslate : v.slate = (markHanded s).slate := h.slate_eq
  have hfree : v.freeCount = s.freeCount := h.freeCount_eq
  have hcall : v.calls[c] = { s.calls[c] with
      inst := some { newInst c true s with phase := openPhase c p s, page := some p } } := by
    rw [h.calls_eq]
    show C[c] = _
    rw [hcalls', upd_get_self]
  let a : Answer :=
    { code := .ok
      words := wordsOf (Config.code (.phase (some (openPhase c p s)))) 0#32 (rest s 2) (rest s 3) }
  have howner : ownerOf (.callNow c.val) (markHanded s) = (v, some a) := by
    show later (callNowOwner c.val (markHanded s)) = _
    rw [callNowOwner_starts (s := markHanded s) hi, hv, callNowWords_same hfree, hcall]
    rfl
  have hanswered := h.plain (plain_answered a s)
  have hdrain := (hanswered.idle_notes (l := carryNotes (some p) (some s.calls[c].cfg.priority) s
      (membersOf s s.calls[c].cfg.group)) (k := []) (by
        show s.notes ++ _ = _
        rw [hn, List.nil_append, List.append_nil]) fun n hmem => callOpening_idle hmem rfl rfl).drained
    ((carryNotes_length ..).trans ((zonesOf_length _).trans (by omega))) rfl
  obtain ⟨W, m, hfin⟩ := hdrain.finished rfl
  rw [← hreq, request_eq ht howner hslate hfree, hfin]
  exact ⟨rfl, rfl, rfl, rfl, rfl, rfl⟩

theorem callPageState_live : callPageState c p s = .live ↔ ∀ z ∈ membersOf s s.calls[c].cfg.group,
    (recarried (some p) (some s.calls[c].cfg.priority) s (membersOf s s.calls[c].cfg.group))[z].state = .live := by
  refine Iff.trans ?_ (allLive_iff (s := pageTaken p s.calls[c].cfg.priority (membersOf s s.calls[c].cfg.group) s)
    (b := s.zoneGroups[s.calls[c].cfg.group]))
  unfold callPageState pageStateOf
  split
  · next h => exact iff_of_true rfl h
  · next h => exact iff_of_false nofun h

/-! ## A start that finds no zone -/

theorem missedOpening_parts (why : MissReason) : (missedOpening c x snd why b s).calls
      = (upd s.calls c fun y => { y with inst := none, outcome := .missed why })
    ∧ (missedOpening c x snd why b s).pages = s.pages := by
  unfold missedOpening
  rw [captureEvent_eq]
  exact ⟨rfl, rfl⟩

theorem handed_missedOpening (why : MissReason) : missedOpening c x snd why b (markHanded s)
    = { missedOpening c x snd why b s with slate := (markHanded s).slate } := by
  unfold missedOpening
  rw [captureEvent_eq, captureEvent_eq]
  rfl

theorem missedOpening_keeps (why : MissReason) : (missedOpening c x snd why b s).slate = s.slate
    ∧ (missedOpening c x snd why b s).freeCount = s.freeCount ∧ (missedOpening c x snd why b s).notes = s.notes := by
  unfold missedOpening
  rw [captureEvent_eq]
  exact ⟨rfl, rfl, rfl⟩

/-- A page that finds no free entry, or whose members are all in FAULT, misses its call. -/
theorem afterOpen_misses {g : Fin 8} {source : PageSource} {prio : Fin 4} {level : Level} {why : MissReason}
    (h : (freePage s = none ∧ why = .busy)
      ∨ (freePage s ≠ none ∧ (∀ z ∈ membersOf s g, s.zones[z].state = .fault) ∧ why = .noZone)) :
    why ≠ .voiceBusy ∧ afterOpen c (openPage g (.call c) source prio level s) = missCall c why s := by
  rcases h with ⟨hf, rfl⟩ | ⟨hf, hfault, rfl⟩
  · refine ⟨nofun, ?_⟩
    rw [openPage_busy hf]
    rfl
  · obtain ⟨p, hp⟩ := Option.ne_none_iff_exists'.mp hf
    refine ⟨nofun, ?_⟩
    rw [openPage_fault hp hfault]
    rfl

/-- A start whose page finds no zone misses its call, and its voice is released. -/
theorem startInstance_misses {why : MissReason} (h : Reaches as u v)
    (hj : judgeSound u u.mem u.calls[c].cfg.sound false = .usable snd) (hx : u.calls[c].cfg.voice = x)
    (hs : u.voices[x].state = .idle) (hf : u.NotFading (.voice x))
    (hw : (freePage u = none ∧ why = .busy) ∨ (freePage u ≠ none
      ∧ (∀ z ∈ membersOf u u.calls[c].cfg.group, u.zones[z].state = .fault) ∧ why = .noZone)) :
    Reaches (.voices :: .pages :: .pages :: .voices :: .pages :: as)
      { missedOpening c x snd why b u with notes := u.notes ++ [.voiceIdle x (.call c)] } (startInstance c b v) := by
  obtain ⟨w, h', hoff⟩ := h.offerPlay_taken (b := b) hj hx hs hf
  have hsame : freePage w = freePage u ∧ membersOf w u.calls[c].cfg.group = membersOf u u.calls[c].cfg.group
      ∧ w.zones = u.zones := by
    rw [h'.1]
    exact ⟨rfl, rfl, rfl⟩
  obtain ⟨hfp, hmem, hz⟩ := hsame
  obtain ⟨hne, hmiss⟩ := afterOpen_misses (s := w) (c := c) (g := u.calls[c].cfg.group) (source := .voice x)
    (prio := u.calls[c].cfg.priority) (level := u.calls[c].cfg.level) (why := why)
    (by rw [hfp, hmem, hz]; exact hw)
  rw [hmiss] at hoff
  have hend := h'.callMisses hne hx
  rw [startInstance_eq, hoff]
  generalize missCall c why w = w' at hend
  have hgone : w'.calls[c].patienceOut = false := by
    rw [hend.calls_eq]
    show (missedOpening c x snd why b u).calls[c].patienceOut = false
    rw [(missedOpening_parts why).1, upd_get_self]
    rfl
  rw [if_neg (ne_true_of_eq_false hgone)]
  exact hend

theorem callNow_misses {why : MissReason} (ht : s.Takes (.callNow c.val)) (hi : s.calls[c].inst = none)
    (hj : judgeSound s s.mem s.calls[c].cfg.sound false = .usable snd) (hx : s.calls[c].cfg.voice = x)
    (hs : s.voices[x].state = .idle) (hf : s.NotFading (.voice x))
    (hw : (freePage s = none ∧ why = .busy) ∨ (freePage s ≠ none
      ∧ (∀ z ∈ membersOf s s.calls[c].cfg.group, s.zones[z].state = .fault) ∧ why = .noZone))
    (hp : ∀ q : PageId, s.pages[q].map (·.source) ≠ some (.voice x))
    (hc : ∀ d : CallId, Call.waitsFor s.calls[d] x = false) :
    State.Answered [.pages, .voices] (missedOpening c x snd why true s)
      { code := .ok, words := wordsOf (Config.code (.phase none)) (Config.code (.missReason (some why)))
          (rest s 2) (rest s 3) } (request (.callNow c.val) s) := by
  obtain ⟨hn, hmk⟩ := ht.2.1
  have h := startInstance_misses (b := true) (Reaches.refl (s := markHanded s) hmk) hj hx hs hf hw
  rw [handed_missedOpening] at h
  obtain ⟨hslate, hfree, hnotes⟩ := missedOpening_keeps (c := c) (x := x) (snd := snd) (b := true) (s := s) why
  obtain ⟨hcalls, hpages⟩ := missedOpening_parts (c := c) (x := x) (snd := snd) (b := true) (s := s) why
  generalize missedOpening c x snd why true s = U at *
  generalize hv : startInstance c true (markHanded s) = v at h
  have hvfree : v.freeCount = s.freeCount := h.freeCount_eq.trans hfree
  let a : Answer :=
    { code := .ok, words := wordsOf (Config.code (.phase none)) (Config.code (.missReason (some why)))
                              (rest s 2) (rest s 3) }
  have howner : ownerOf (.callNow c.val) (markHanded s) = (v, some a) := by
    have hcall : v.calls[c] = { s.calls[c] with inst := none, outcome := .missed why } := by
      rw [h.calls_eq]
      show U.calls[c] = _
      rw [hcalls, upd_get_self]
    show later (callNowOwner c.val (markHanded s)) = _
    rw [callNowOwner_starts (s := markHanded s) hi, hv, callNowWords_same hvfree, hcall]
    rfl
  have hanswered := h.plain (plain_answered a s)
  have hidle : Idle (.voiceIdle x (.call c)) (answered a s { U with
      slate := (markHanded s).slate, notes := (markHanded s).notes ++ [.voiceIdle x (.call c)] }) := by
    refine ⟨fun d hd => ?_, ?_, ?_⟩
    · obtain rfl := VoiceOwner.call.inj hd
      show U.calls[c].inst = none
      rw [hcalls, upd_get_self]
    · show ∀ q : PageId, U.pages[q].map _ ≠ _
      rw [hpages]
      exact hp
    · show ∀ d : CallId, Call.waitsFor U.calls[d] x = false
      rw [hcalls]
      exact waitsFor_upd (waitsFor_of_inst_none rfl x) hc
  have hdrain := (hanswered.idle_notes (l := [.voiceIdle x (.call c)]) (k := []) (by
      show s.notes ++ _ = _
      rw [hn]
      rfl) (List.forall_mem_singleton.mpr hidle)).drained (by simp) rfl
  refine Reaches.answered_drained ht howner h.slate_eq hvfree rfl ?_ hslate hfree (hnotes.trans hn)
  refine hdrain.congr ?_ (by simp; tauto)
  have hself : { answered a s U with notes := [] } = answered a s U := notes_self (s := answered a s U) (hnotes.trans hn)
  exact hself

/-! ## Patience -/

/-- Patience that ends in WAIT_VOICE misses the call. -/
theorem patience_misses (hr : s.Runs) (hq : s.Quiet) (hi : s.calls[c].inst = some i) (hp : i.patience = 0)
    (hph : i.phase = .waitVoice) (hpage : i.page = none) (ho : s.voices[s.calls[c].cfg.voice].owner ≠ .call c) :
    State.EndsAs [.pages] (missedEarly c .voiceBusy i s.voices[s.calls[c].cfg.voice].owner s)
      (patienceEvent c s) := by
  have hdue : Call.patienceOut s.calls[c] = true := by
    unfold Call.patienceOut
    rw [hi]
    dsimp only
    rw [hp, hph]
    rfl
  have h := (Reaches.refl hq.2).missCall_early (why := .voiceBusy) hi hpage rfl ho
  rw [if_pos rfl, ← patienceEnds_waits hi hph] at h
  exact h.event_endsAs hdue ((missedEarly_keeps ..).2.2.2.trans hq.1)

/-- Patience that ends in WAIT_ZONES starts the voice. -/
theorem patience_plays {bs : List Area} {f : Voice → Voice} (hq : s.Quiet) (hi : s.calls[c].inst = some i) (hp : i.patience = 0)
    (hph : i.phase = .waitZones) (ho : s.voices[s.calls[c].cfg.voice].owner = .call c)
    (hv : Voice.started s.voices[s.calls[c].cfg.voice] = f s.voices[s.calls[c].cfg.voice])
    (ha : ∀ a, a ∈ startAreas s.voices[s.calls[c].cfg.voice] ++ [.pages] ↔ a ∈ bs) : State.EndsAs bs { s with
      calls := upd s.calls c fun x => { x with inst := some { i with phase := .playing } }
      voices := upd s.voices s.calls[c].cfg.voice f } (patienceEvent c s) := by
  have hdue : Call.patienceOut s.calls[c] = true := by
    unfold Call.patienceOut
    rw [hi]
    dsimp only
    rw [hp, hph]
    rfl
  have h := (Reaches.refl hq.2).beginPlaying (c := c) rfl ho
  rw [← patienceEnds_plays hi hph] at h
  have hcalls : upd s.calls c (inPhase .playing)
      = upd s.calls c fun x => { x with inst := some { i with phase := .playing } } :=
    congrArg (s.calls.set c) (by unfold inPhase; rw [hi]; rfl)
  have hvoices : upd s.voices s.calls[c].cfg.voice Voice.started = upd s.voices s.calls[c].cfg.voice f :=
    congrArg (s.voices.set s.calls[c].cfg.voice) hv
  rw [hcalls, hvoices] at h
  exact (h.congr rfl ha).event_endsAs hdue hq.1

/-! ## The statement -/

theorem missedEarly_asked (n : Nat) (why : MissReason) (holder : VoiceOwner) :
    missedEarly c why i holder (s.soundAsked n) = captureEvent callCell (callWords c false (some why) i holder)
      { s.soundAsked n with
        calls := upd s.calls c fun y => { y with inst := none, outcome := .missed why }
        missedCalls := sat16 s.missedCalls } := by
  unfold missedEarly
  rw [soundAsked_eq]

/-- A CALL_NOW of a call that has no instance. -/
theorem callNow_starts (ht : s.Takes (.callNow c.val)) (hi : s.calls[c].inst = none)
    (ho : s.voices[s.calls[c].cfg.voice].owner ≠ .call c) :
    (∀ snd, judgeSound s s.mem s.calls[c].cfg.sound false = .usable snd →
        s.voices[s.calls[c].cfg.voice].state ≠ .idle → s.calls[c].cfg.patience = 0 →
        State.Answered [.pages] (missedEarly c .voiceBusy (newInst c true s) s.voices[s.calls[c].cfg.voice].owner
            (s.soundAsked s.calls[c].cfg.sound))
          { code := .ok, words := wordsOf (Config.code (.phase none)) (Config.code (.missReason (some .voiceBusy)))
              (rest s 2) (rest s 3) } (request (.callNow c.val) s))
      ∧ (judgeSound s s.mem s.calls[c].cfg.sound false = .unknown
          ∨ judgeSound s s.mem s.calls[c].cfg.sound false = .empty →
        State.Answered [.pages] (missedEarly c .sound (newInst c true s) .none (s.soundAsked s.calls[c].cfg.sound))
          { code := .ok, words := wordsOf (Config.code (.phase none)) (Config.code (.missReason (some .sound)))
              (rest s 2) (rest s 3) } (request (.callNow c.val) s)) := by
  obtain ⟨hn, hmk⟩ := ht.2.1
  have hbase := Reaches.refl (s := markHanded s) hmk
  have hanswer (why : MissReason) (holder : VoiceOwner)
      (h : Reaches [.pages, .pages] (missedEarly c why (newInst c true s) holder ((markHanded s).soundAsked s.calls[c].cfg.sound))
        (startInstance c true (markHanded s))) : State.Answered [.pages]
      (missedEarly c why (newInst c true s) holder (s.soundAsked s.calls[c].cfg.sound))
      { code := .ok, words := wordsOf (Config.code (.phase none)) (Config.code (.missReason (some why)))
          (rest s 2) (rest s 3) } (request (.callNow c.val) s) := by
    obtain ⟨_, hslate, hfree, hnotes⟩ := missedEarly_keeps (c := c) (i := newInst c true s)
      (s := s.soundAsked s.calls[c].cfg.sound) why holder
    have hasked := soundAsked_eq s.calls[c].cfg.sound s
    rw [handed_soundAsked, missedEarly_handed] at h
    have hend := (h.congr (bs := [.pages]) rfl (by simp)).callStarted ht hi (hslate.trans (by rw [hasked])) (hfree.trans (by rw [hasked]))
      (hnotes.trans (by rw [hasked]; exact hn))
    rw [missedEarly_calls, upd_get_self, callNowWords_missed] at hend
    exact hend
  exact ⟨fun snd hj hs hp => hanswer .voiceBusy _ (hbase.startInstance_impatient hj hs hp ho),
    fun hj => hanswer .sound .none (hbase.startInstance_soundless hj ho)⟩

/-- A CALL_NOW whose instance waits for its voice. -/
theorem callNow_waits (ht : s.Takes (.callNow c.val)) (hi : s.calls[c].inst = none)
    (hj : judgeSound s s.mem s.calls[c].cfg.sound false = .usable snd)
    (hs : s.voices[s.calls[c].cfg.voice].state ≠ .idle) (hp : 0 < s.calls[c].cfg.patience) :
    State.Answered [.pages] { s.soundAsked s.calls[c].cfg.sound with
        calls := upd s.calls c fun x => { x with inst := some (newInst c true s) } }
      { code := .ok, words := wordsOf (Config.code (.phase (some .waitVoice))) 0#32 (rest s 2) (rest s 3) }
      (request (.callNow c.val) s) := by
  obtain ⟨hn, hmk⟩ := ht.2.1
  have h := (Reaches.refl (s := markHanded s) hmk).startInstance_waits (c := c) (b := true) hj hs hp
  change Reaches _ ((instanced c true (markHanded s)).soundAsked s.calls[c].cfg.sound) _ at h
  have hasked := soundAsked_eq s.calls[c].cfg.sound s
  rw [handed_instanced, soundAsked_instanced] at h
  have hend := h.callStarted (U := { s.soundAsked s.calls[c].cfg.sound with
      calls := upd s.calls c fun x => { x with inst := some (newInst c true s) } }) ht hi
    (by rw [hasked]) (by rw [hasked]) (by rw [hasked]; exact hn)
  have hcall : (upd s.calls c fun x => { x with inst := some (newInst c true s) })[c]
      = { s.calls[c] with inst := some (newInst c true s) } := upd_get_self ..
  dsimp only at hend
  rw [hcall, callNowWords_inst] at hend
  exact hend

/-- Settles O39: each start by its sound, its voice and its zones, and each end of patience by its phase. -/
theorem callsStartWaitAndMiss : Obligations.CallsStartWaitAndMiss := by
  unfold Obligations.CallsStartWaitAndMiss
  refine ⟨fun s n ht => ⟨_, exec_command (r := .callNow n) ht.1, fun hn => ?_, fun c hc => ?_⟩,
    fun s c i hr hq hi hp => ⟨_, running_next (patienceEvent c) hr, fun hph hpage ho => ?_, fun hph ho hv => ?_,
      fun hph ho hv => ?_⟩⟩
  · exact answered_same ht (congrArg later (callNowOwner_none hn))
  · subst hc
    refine ⟨fun i hi => ?_, fun snd hi hj hs hp => ?_, fun snd hi hj hs hp ho => ?_, fun hi hj ho => ?_,
      fun snd hi hj hs hf hno => ⟨fun p hp hm hfree => ?_, fun why hw hpages hwaits => ?_⟩⟩
    · exact answered_same ht (congrArg later (callNowOwner_runs (s := markHanded s) hi))
    · exact callNow_waits ht hi hj hs hp
    · have hend := (callNow_starts ht hi ho).1 snd hj hs hp
      rw [missedEarly_asked] at hend
      exact hend
    · have hend := (callNow_starts ht hi ho).2 hj
      rw [missedEarly_asked] at hend
      exact hend
    · obtain ⟨hz, hcalls, hvoices, hlevels, hpages, hans⟩ := callNow_opens ht hi hj rfl hs hf hp hm hfree rfl
      refine ⟨callPageState c p s, openPhase c p s, ?_, rfl, hcalls.trans callOpening_calls,
        hvoices.trans callOpening_voices, ?_, hpages, fun z hmem => ?_, hans⟩
      · rw [hz]
        exact callPageState_live
      · show (request _ _).levels.get _ = _
        rw [hlevels, get_put_same]
      · rw [hz, recarried_get, if_pos hmem, carried_page]
    · exact callNow_misses ht hi hj rfl hs hf hw hpages hwaits
  · exact patience_misses hr hq hi hp hph hpage ho
  · refine patience_plays hq hi hp hph ho (by unfold Voice.started; rw [hv]) fun a => ?_
    rw [startAreas, if_pos (.inl hv)]
    simp [or_comm]
  · refine patience_plays hq hi hp hph ho (started_priming hv) fun a => ?_
    rw [startAreas, if_neg (by rw [hv]; simp)]
    rfl

end Sys2Proof.Proofs.Calls
end

section
/-! PROOF. STOP_SHOW finishes the crossfades (R36). -/

namespace Sys2Proof.Proofs.Ends

open Sys2Proof.Machine
open Sys2Proof.Proofs.Ticks

variable {s u v w : State} {as : List Area}

/-- A tap once every crossfade has been finished. -/
def finishedTap (x : TapState) : TapState :=
  match x with
  | .fadingOut => .idle
  | .fadingIn => .active
  | x => x

/-- The level of a tap once every crossfade has been finished. -/
def finishedLevel (x : TapState) (y : Level) : Level :=
  match x with
  | .fadingOut => .off
  | .fadingIn => .steps 0
  | _ => y

/-- What the finishing of the crossfades of some taps makes of the roles and levels. -/
structure Finished (u : State) (l : List (RoleId × TapId)) (R : Vector Role 96) (L : Levels) : Prop where
  taps : ∀ r k, R[r].taps[k] = if (r, k) ∈ l then finishedTap u.roles[r].taps[k] else u.roles[r].taps[k]
  rest : ∀ r : RoleId, R[r] = { u.roles[r] with taps := R[r].taps }
  level : ∀ r k, L.get (.tap r k) = if (r, k) ∈ l then finishedLevel u.roles[r].taps[k] (u.level (.tap r k))
    else u.level (.tap r k)
  other : ∀ e : Elem, (∀ r k, e ≠ .tap r k) → L.get e = u.level e

/-- One tap's crossfade finished. -/
def tapFinished (r : RoleId) (k : TapId) (u : State) : State := { u with
  roles := upd u.roles r fun y => { y with taps := y.taps.set k (finishedTap u.roles[r].taps[k]) }
  levels := u.levels.put (.tap r k) (finishedLevel u.roles[r].taps[k] (u.level (.tap r k))) }

/-- The finishing of one tap's crossfade. -/
theorem Reaches.finishTap (r : RoleId) (k : TapId) (h : Reaches as u v) : ∃ bs, (∀ a ∈ as, a ∈ bs)
    ∧ Reaches bs (tapFinished r k u) (finishTap r k v) := by
  have hroles : v.roles = u.roles := by rw [h.1]; rfl
  have hset (x : TapState) (y : Level) : Reaches (.roles :: as) { u with
      roles := upd u.roles r fun o => { o with taps := o.taps.set k x }, levels := u.levels.put (.tap r k) y }
      (setTap r k x (setElem (.tap r k) y v)) :=
    ((h.elem (.tap r k) y).plain (f := updRole r fun o => { o with taps := o.taps.set k x }) fun _ _ _ _ => rfl).area _
  have hsame {x : TapState} (hx : u.roles[r].taps[k] = x) (hf : finishedTap x = x)
      (hl : finishedLevel x (u.level (.tap r k)) = u.level (.tap r k)) : Reaches as { u with
        roles := upd u.roles r fun y => { y with taps := y.taps.set k (finishedTap x) }
        levels := u.levels.put (.tap r k) (finishedLevel x (u.level (.tap r k))) } v := by
    have hr : upd u.roles r (fun y => { y with taps := y.taps.set k x }) = u.roles :=
      upd_of_eq (by rw [← hx]; simp)
    have hp : u.levels.put (.tap r k) (u.level (.tap r k)) = u.levels := by
      simp [Levels.put, State.level, Levels.get, upd]
    rw [hf, hl, hr, hp]
    exact h
  unfold Machine.finishTap tapFinished
  rw [hroles]
  cases hx : u.roles[r].taps[k] with
  | fadingOut => exact ⟨_, fun a ha => List.mem_cons_of_mem _ ha, hset .idle .off⟩
  | fadingIn => exact ⟨_, fun a ha => List.mem_cons_of_mem _ ha, hset .active (.steps 0)⟩
  | idle => exact ⟨as, fun _ ha => ha, hsame hx rfl rfl⟩
  | active => exact ⟨as, fun _ ha => ha, hsame hx rfl rfl⟩

theorem tapFinished_roles (r r' : RoleId) (k k' : TapId) (u : State) :
    (tapFinished r k u).roles[r'].taps[k'] = if (r', k') = (r, k) then finishedTap u.roles[r].taps[k]
      else u.roles[r'].taps[k'] := by
  unfold tapFinished
  dsimp only
  by_cases hr : r = r'
  · subst hr
    rw [upd_get_self]
    by_cases hk : k = k'
    · subst hk
      rw [if_pos rfl, Fin.getElem_fin, Vector.getElem_set_self]
    · rw [if_neg fun he => hk (Prod.mk.inj he).2.symm, Fin.getElem_fin, Vector.getElem_set_ne _ _ (mt Fin.ext hk)]
      rfl
  · rw [upd_get_ne _ _ _ _ hr, if_neg fun he => hr (Prod.mk.inj he).1.symm]

theorem tapFinished_self (r : RoleId) (k : TapId) (u : State) :
    (tapFinished r k u).roles[r].taps[k] = finishedTap u.roles[r].taps[k]
      ∧ (tapFinished r k u).level (.tap r k) = finishedLevel u.roles[r].taps[k] (u.level (.tap r k)) :=
  ⟨(tapFinished_roles ..).trans (if_pos rfl), get_put_same u.levels (.tap r k) _⟩

theorem tapFinished_other {r r' : RoleId} {k k' : TapId} (h : (r', k') ≠ (r, k)) (u : State) :
    (tapFinished r k u).roles[r'].taps[k'] = u.roles[r'].taps[k']
      ∧ (tapFinished r k u).level (.tap r' k') = u.level (.tap r' k') := by
  have he : Elem.tap r k ≠ Elem.tap r' k' := fun he => h (by
    obtain ⟨hr, hk⟩ := Elem.tap.inj he
    rw [hr, hk])
  exact ⟨(tapFinished_roles ..).trans (if_neg h), get_put_ne u.levels _ he⟩

theorem tapFinished_rest (r r' : RoleId) (k : TapId) (u : State) :
    (tapFinished r k u).roles[r'] = { u.roles[r'] with taps := (tapFinished r k u).roles[r'].taps } := by
  by_cases hr : r = r'
  · subst hr
    simp only [tapFinished, upd_get_self]
  · simp only [tapFinished, upd_get_ne _ _ _ _ hr]

theorem Finished.cons {r : RoleId} {k : TapId} {l : List (RoleId × TapId)} {R : Vector Role 96} {L : Levels}
    (hx : (r, k) ∉ l) (h : Finished (tapFinished r k u) l R L) : Finished u ((r, k) :: l) R L := by
  obtain ⟨htaps, hrest, hlevel, hother⟩ := h
  obtain ⟨hself, hlself⟩ := tapFinished_self r k u
  refine ⟨fun r' k' => ?_, fun r' => ?_, fun r' k' => ?_, fun e he => ?_⟩
  · rw [htaps]
    by_cases hrk : (r', k') = (r, k)
    · obtain ⟨rfl, rfl⟩ := Prod.mk.inj hrk
      rw [if_neg hx, if_pos List.mem_cons_self, hself]
    · rw [(tapFinished_other hrk u).1]
      simp only [List.mem_cons, hrk, false_or]
  · rw [hrest, tapFinished_rest]
  · rw [hlevel]
    by_cases hrk : (r', k') = (r, k)
    · obtain ⟨rfl, rfl⟩ := Prod.mk.inj hrk
      rw [if_neg hx, if_pos List.mem_cons_self, hlself]
    · obtain ⟨htap, hlev⟩ := tapFinished_other hrk u
      rw [htap, hlev]
      simp only [List.mem_cons, hrk, false_or]
  · exact (hother e he).trans (get_put_ne _ _ fun h => he r k h.symm)

theorem Reaches.finishTaps {l : List (RoleId × TapId)} (hl : l.Nodup) (h : Reaches as u v) :
    ∃ bs R L, (∀ a ∈ as, a ∈ bs) ∧ Finished u l R L
      ∧ Reaches bs { u with roles := R, levels := L } (l.foldl (fun s x => Machine.finishTap x.1 x.2 s) v) := by
  induction l generalizing u v as with
  | nil => exact ⟨as, u.roles, u.levels, fun _ ha => ha,
      ⟨fun _ _ => rfl, fun _ => rfl, fun _ _ => rfl, fun _ _ => rfl⟩, h⟩
  | cons x l ih =>
    obtain ⟨r, k⟩ := x
    obtain ⟨hx, hl⟩ := List.nodup_cons.mp hl
    obtain ⟨bs, hb, h'⟩ := h.finishTap r k
    obtain ⟨cs, R, L, hc, hfin, h''⟩ := ih hl h'
    exact ⟨cs, R, L, fun a ha => hc a (hb a ha), hfin.cons hx, h''⟩

/-- Every crossfade is finished. -/
theorem Reaches.finishCrossfades (h : Reaches as u v) : ∃ bs R L, (∀ a ∈ as, a ∈ bs)
    ∧ (∀ r : RoleId, R[r] = { u.roles[r] with taps := tabulate fun k => finishedTap u.roles[r].taps[k] })
    ∧ (∀ r k, L.get (.tap r k) = finishedLevel u.roles[r].taps[k] (u.level (.tap r k)))
    ∧ (∀ e : Elem, (∀ r k, e ≠ .tap r k) → L.get e = u.level e)
    ∧ Reaches bs { u with roles := R, levels := L } (finishCrossfades v) := by
  let l : List (RoleId × TapId) := (List.finRange 96).flatMap fun r => (List.finRange 4).map fun k => (r, k)
  have hmem (r : RoleId) (k : TapId) : (r, k) ∈ l := by simp [l]
  have hl : l.Nodup := by decide +kernel
  have hfold : l.foldl (fun s x => Machine.finishTap x.1 x.2 s) v = Machine.finishCrossfades v := by
    unfold Machine.finishCrossfades forEach
    simp only [l, List.foldl_flatMap, List.foldl_map]
  obtain ⟨bs, R, L, hb, ⟨htaps, hrest, hlevel, hother⟩, h'⟩ := h.finishTaps hl
  rw [hfold] at h'
  refine ⟨bs, R, L, hb, fun r => ?_, fun r k => (hlevel r k).trans (if_pos (hmem r k)), hother, h'⟩
  have : R[r].taps = tabulate fun k => finishedTap u.roles[r].taps[k] := vec_ext fun k => by
    rw [htaps, if_pos (hmem r k)]
    exact (tabulate_get (fun k : TapId => finishedTap u.roles[r].taps[k]) k k.isLt).symm
  rw [hrest, this]

end Sys2Proof.Proofs.Ends
end

section
/-! PROOF. STOP_SHOW ends the pages and calls and sends the voices and zones to IDLE and OFF (R132, R147, R165), after
which no notice says anything. -/

namespace Sys2Proof.Proofs.Ends

open Sys2Proof.Machine

variable {s u v w : State} {as : List Area}

/-! ## Notices with no page open and no instance -/

/-- No page is open and no call has an instance. -/
def Blank (s : State) : Prop := (∀ p : PageId, s.pages[p] = none) ∧ ∀ c : CallId, s.calls[c].inst = none

theorem Blank.idle (h : Blank u) (x : Note) : Idle x u := by
  obtain ⟨hp, hc⟩ := h
  cases x with
  | zoneLive z => exact fun p pg _ hpg => nomatch (hp p).symm.trans hpg
  | pageClosed c r => exact .inr (.inr (.inr (hc c)))
  | voiceIdle y o =>
    refine ⟨fun c _ => hc c, fun p h => ?_, fun c => waitsFor_of_inst_none (hc c) y⟩
    rw [hp p] at h
    exact nomatch h
  | pageLive c => exact fun i hi => nomatch (hc c).symm.trans hi
  | zoneLost p z => exact hp p
  | callCut c d => exact hc c

/-- With no page open and no instance all notices are worked off to no effect. -/
theorem Reaches.drain_blank (h : Reaches as u v) (hb : Blank u) (hn : u.notes.length ≤ 256) :
    Reaches as { u with notes := [] } (drain v) :=
  (h.idle_notes (l := u.notes) (k := []) (List.append_nil _).symm fun x _ => hb.idle x).drained hn rfl

/-! ## Steps for each entry of a list, whose areas matter only so far -/

/-- Steps that keep the areas that have been marked, and mark `a` where they are needed. -/
theorem Reaches.folds {α : Type} {a : Area} {g step : α → State → State} {needs : α → State → Prop}
    (hstep : ∀ {x : α} {u v : State} {as : List Area}, Reaches as u v →
      ∃ bs, (∀ a ∈ as, a ∈ bs) ∧ (needs x u → a ∈ bs) ∧ Reaches bs (g x u) (step x v))
    (hneeds : ∀ {x y : α} {u : State}, x ≠ y → needs x u → needs x (g y u))
    {l : List α} (hl : l.Nodup) (h : Reaches as u v) :
    ∃ bs, (∀ a ∈ as, a ∈ bs) ∧ ((∃ x ∈ l, needs x u) → a ∈ bs)
      ∧ Reaches bs (l.foldl (fun s x => g x s) u) (l.foldl (fun s x => step x s) v) := by
  induction l generalizing u v as with
  | nil => exact ⟨as, fun _ ha => ha, fun ⟨_, hx, _⟩ => absurd hx List.not_mem_nil, h⟩
  | cons x l ih =>
    obtain ⟨hx, hl⟩ := List.nodup_cons.mp hl
    obtain ⟨bs, hab, hone, h'⟩ := hstep (x := x) h
    obtain ⟨cs, hbc, hrest, h''⟩ := ih hl h'
    refine ⟨cs, fun a ha => hbc a (hab a ha), ?_, h''⟩
    rintro ⟨y, hy, hn⟩
    by_cases hyx : y = x
    · exact hbc _ (hone (hyx ▸ hn))
    · exact hrest ⟨y, (List.mem_cons.mp hy).resolve_left hyx, hneeds hyx hn⟩

/-! ## Instances (R165) -/

/-- The instance of a call ends with no outcome. -/
def withoutInst (x : Call) : Call := { x with inst := none }

/-- The calls with no instance. -/
def uncalled (calls : Vector Call 16) : Vector Call 16 := tabulate fun c => withoutInst calls[c]

theorem uncalled_get (calls : Vector Call 16) (c : CallId) : (uncalled calls)[c] = withoutInst calls[c] :=
  tabulate_get _ _ _

theorem withoutPage_of_inst {o : Opener} {calls : Vector Call 16} (h : ∀ c : CallId, calls[c].inst = none) :
    withoutPage o calls = calls := by
  cases o with
  | request => rfl
  | call c =>
    unfold withoutPage
    refine upd_of_eq ?_
    rw [h c]
    exact congrArg (fun i => { calls[c] with inst := i }) (h c).symm

theorem Reaches.endInstances (h : Reaches as u v) : ∃ bs, (∀ a ∈ as, a ∈ bs)
    ∧ ((∃ c : CallId, u.calls[c].inst ≠ none) → .pages ∈ bs)
    ∧ Reaches bs { u with calls := uncalled u.calls }
      (forEach 16 (fun c s => if s.calls[c].inst.isSome then setInst c none s else s) v) := by
  obtain ⟨bs, hab, hone, h'⟩ := h.folds (a := .pages) (g := fun c s => { s with calls := upd s.calls c withoutInst })
    (step := fun c s => if s.calls[c].inst.isSome then setInst c none s else s)
    (needs := fun c s => s.calls[c].inst ≠ none) (l := List.finRange 16)
    (fun {c u v as} h => by
      rw [congrArg (fun k : Vector Call 16 => k[c].inst) h.calls_eq]
      cases hi : u.calls[c].inst with
      | none =>
        refine ⟨as, fun _ ha => ha, fun hne => absurd rfl hne, h.congr ?_ fun _ => Iff.rfl⟩
        have : upd u.calls c withoutInst = u.calls := upd_of_eq (by unfold withoutInst; rw [← hi])
        rw [this]
      | some i =>
        exact ⟨.pages :: as, fun a ha => List.mem_cons_of_mem _ ha, fun _ => List.mem_cons_self,
          (h.plain (f := updCall c withoutInst) fun _ _ _ _ => rfl).area .pages⟩)
    (fun {c d u} hne hn => by
      dsimp only
      rwa [upd_get_ne _ _ _ _ hne.symm])
    (List.nodup_finRange 16)
  refine ⟨bs, hab, fun ⟨c, hc⟩ => hone ⟨c, List.mem_finRange c, hc⟩, h'.congr ?_ fun _ => Iff.rfl⟩
  exact forEach_upd (fun _ => withoutInst) (fun calls => { u with calls := calls })
    (step := fun c s => { s with calls := upd s.calls c withoutInst }) (fun _ _ => rfl) u.calls

/-! ## Zones (R147) -/

/-- A zone set OFF, its duck gate commanded toward 0. -/
def hushed (s : State) (x : Zone) : Zone :=
  { x with
    state := .off, ampen := false, timer := none, falseRun := 0
    duck := x.duck.command 0 (rampFrames s x.cfg.duckRamp) }

/-- A zone that carries no page, its page hold gate set. -/
def unpaged (x : Zone) : Zone := { x with page := none, pageHold := Gate.setTo (!x.held) }

theorem hushed_rejudged (s : State) (before stopped : Bool) (x : Zone) :
    hushed s (rejudged before stopped x) = hushed s x := by
  unfold rejudged Zone.poweredUp
  repeat' split
  all_goals rfl

/-- A zone that stops carrying a page and is then set OFF. -/
theorem hushed_carried (s : State) (x : Zone) : hushed s (carried s none none x) = unpaged (hushed s x) := by
  unfold carried
  rw [hushed_rejudged]
  unfold hushed carrying unpaged pageHoldClosed
  dsimp only
  rw [show (none : Option PageId).isSome = false from rfl, if_neg Bool.false_ne_true, command_command]
  rw [show ((none : Option (Fin 4)) != some 3) = true from rfl, Bool.and_true]

theorem Reaches.hush (z : ZoneId) (h : Reaches as u v) :
    Reaches (.zones :: as) { u with zones := upd u.zones z (hushed u) } (zoneOff z (commandDuck z false v)) := by
  have hstep : ∀ s : State, zoneOff z (commandDuck z false s)
      = mark .zones { s with zones := upd s.zones z (hushed s) } := fun s => by
    unfold zoneOff commandDuck commandGate updGate updZone
    dsimp only
    rw [upd_upd]
    rfl
  rw [hstep]
  exact (h.plain (f := fun s => { s with zones := upd s.zones z (hushed s) }) fun _ _ _ _ => rfl).area .zones

theorem Reaches.stopZones (h : Reaches as u v) : ∃ bs, (∀ a ∈ as, a ∈ bs) ∧ .zones ∈ bs
    ∧ Reaches bs { u with zones := tabulate fun z => hushed u u.zones[z] } (stopZones v) := by
  obtain ⟨bs, hab, hone, h'⟩ := h.folds (a := .zones) (g := fun z s => { s with zones := upd s.zones z (hushed s) })
    (step := fun z s => zoneOff z (commandDuck z false s)) (needs := fun _ _ => True) (l := List.finRange 24)
    (fun {z u v as} h => ⟨_, fun a ha => List.mem_cons_of_mem _ ha, fun _ => List.mem_cons_self, h.hush z⟩)
    (fun _ _ => trivial) (List.nodup_finRange 24)
  refine ⟨bs, hab, hone ⟨0, List.mem_finRange _, trivial⟩, h'.congr ?_ fun _ => Iff.rfl⟩
  exact forEach_upd (fun _ => hushed u) (fun zones => { u with zones := zones })
    (step := fun z s => { s with zones := upd s.zones z (hushed s) }) (fun _ _ => rfl) u.zones

/-! ## Voices (R132) -/

/-- The voices of a list that are not IDLE have entered IDLE. -/
def idledVoices (s : State) (l : List VoiceId) : Vector Voice 16 :=
  tabulate fun x => if x ∈ l ∧ s.voices[x].state ≠ .idle then s.voices[x].idled else s.voices[x]

theorem idledVoices_get (s : State) (l : List VoiceId) (x : VoiceId) : (idledVoices s l)[x]
    = if x ∈ l ∧ s.voices[x].state ≠ .idle then s.voices[x].idled else s.voices[x] := tabulate_get _ _ _

/-- The arbiter once the voices of a list that are not IDLE have entered IDLE: a burst granted to one is stale. -/
def idledArb (s : State) (l : List VoiceId) : Arbiter :=
  { s.arb with busy := match s.arb.busy with
    | some (.fetch x a n stale) => some (.fetch x a n (stale || (l.contains x && s.voices[x].state != .idle)))
    | x => x }

/-- The entry to IDLE of a voice that is not. -/
def idledStep (x : VoiceId) (s : State) : State :=
  if s.voices[x].state = .idle then s
  else { idledAt x s with notes := s.notes ++ [.voiceIdle x s.voices[x].owner] }

theorem idledStep_voice (x y : VoiceId) (s : State) : (idledStep x s).voices[y]
    = if y = x ∧ s.voices[y].state ≠ .idle then s.voices[y].idled else s.voices[y] := by
  unfold idledStep
  by_cases hs : s.voices[x].state = .idle
  · rw [if_pos hs, if_neg]
    rintro ⟨rfl, hn⟩
    exact hn hs
  · rw [if_neg hs]
    by_cases hy : y = x
    · subst hy
      rw [if_pos ⟨rfl, hs⟩]
      exact Vector.getElem_set_self _
    · rw [if_neg fun h => hy h.1]
      exact Vector.getElem_set_ne x.isLt y.isLt fun he => hy (Fin.ext he.symm)

theorem idledVoices_cons (x : VoiceId) (l : List VoiceId) (hx : x ∉ l) (s : State) :
    idledVoices (idledStep x s) l = idledVoices s (x :: l) := by
  refine vec_ext fun y => ?_
  rw [idledVoices_get, idledVoices_get, idledStep_voice]
  by_cases hy : y = x
  · subst hy
    rw [if_neg fun h => hx h.1]
    simp
  · simp [hy]

theorem idledStep_arb (x : VoiceId) (s : State) : (idledStep x s).arb = idledArb s [x] := by
  have hturn : ∀ b : Bool, (s.voices[x].state != .idle) = b → (idledStep x s).arb = { s.arb with
      busy := match s.arb.busy with
        | some (.fetch y a n stale) => some (.fetch y a n (stale || (y == x && b)))
        | x => x } := by
    rintro (_ | _) hb
    · rw [show idledStep x s = s from if_pos (by simpa using hb)]
      simp only [Bool.and_false, Bool.or_false]
      cases s.arb with
      | mk busy => cases busy with
        | none => rfl
        | some g => cases g <;> rfl
    · rw [show idledStep x s = _ from if_neg (by simpa using hb)]
      simp only [Bool.and_true]
      rfl
  rw [hturn _ rfl]
  unfold idledArb
  cases s.arb.busy with
  | none => rfl
  | some g =>
    cases g with
    | fetch y a n stale =>
      by_cases hy : y = x
      · subst hy; simp
      · simp [hy]
    | _ => rfl

theorem idledArb_cons (x : VoiceId) (l : List VoiceId) (hx : x ∉ l) (s : State) :
    idledArb (idledStep x s) l = idledArb s (x :: l) := by
  unfold idledArb
  rw [idledStep_arb]
  unfold idledArb
  cases s.arb.busy with
  | none => rfl
  | some g =>
    cases g with
    | fetch y a n stale =>
      dsimp only
      rw [idledStep_voice]
      by_cases hy : y = x
      · subst hy; simp [hx]
      · simp [hy]
    | _ => rfl

/-- The voices of a list have entered IDLE, one after the other. -/
theorem idledSteps {l : List VoiceId} (hl : l.Nodup) (u : State) : ∃ N, N.length ≤ u.notes.length + l.length
    ∧ l.foldl (fun s x => idledStep x s) u = { u with
      voices := idledVoices u l, arb := idledArb u l, notes := N } := by
  induction l generalizing u with
  | nil =>
    refine ⟨u.notes, Nat.le_refl _, ?_⟩
    have hv : idledVoices u [] = u.voices := vec_ext fun x => by rw [idledVoices_get, if_neg (fun h => List.not_mem_nil h.1)]
    have ha : idledArb u [] = u.arb := by
      refine congrArg (fun b => { u.arb with busy := b }) ?_
      cases u.arb.busy with
      | none => rfl
      | some g =>
        cases g with
        | fetch y a n stale => simp
        | _ => rfl
    rw [hv, ha]
    rfl
  | cons x l ih =>
    obtain ⟨hx, hl⟩ := List.nodup_cons.mp hl
    obtain ⟨N, hN, heq⟩ := ih hl (idledStep x u)
    refine ⟨N, ?_, ?_⟩
    · have : (idledStep x u).notes.length ≤ u.notes.length + 1 := by
        unfold idledStep
        split
        · omega
        · simp
      rw [List.length_cons]
      omega
    · rw [List.foldl_cons, heq, idledVoices_cons x l hx, idledArb_cons x l hx]
      unfold idledStep
      split <;> rfl

theorem Reaches.stopVoices (h : Reaches as u v) : ∃ bs N, (∀ a ∈ as, a ∈ bs)
    ∧ ((∃ x : VoiceId, u.voices[x].state ≠ .idle) → .voices ∈ bs) ∧ N.length ≤ u.notes.length + 16
    ∧ Reaches bs { u with
        voices := idledVoices u (List.finRange 16), arb := idledArb u (List.finRange 16), notes := N }
      (stopVoices v) := by
  obtain ⟨bs, hab, hone, h'⟩ := h.folds (a := .voices) (g := idledStep)
    (step := fun x s => if s.voices[x].state = .idle then s else Machine.enterIdle x s)
    (needs := fun x s => s.voices[x].state ≠ .idle) (l := List.finRange 16)
    (fun {x u v as} h => by
      rw [congrArg (fun k : Vector Voice 16 => k[x].state) h.voices_eq]
      unfold idledStep
      by_cases hs : u.voices[x].state = .idle
      · rw [if_pos hs, if_pos hs]
        exact ⟨as, fun _ ha => ha, fun hn => absurd hs hn, h⟩
      · rw [if_neg hs, if_neg hs]
        exact ⟨_, fun a ha => List.mem_cons_of_mem _ ha, fun _ => List.mem_cons_self, h.enterIdle x⟩)
    (fun {x y u} hne hn => by rwa [idledStep_voice, if_neg fun h => hne h.1])
    (List.nodup_finRange 16)
  obtain ⟨N, hN, heq⟩ := idledSteps (List.nodup_finRange 16) u
  exact ⟨bs, N, hab, fun ⟨x, hx⟩ => hone ⟨x, List.mem_finRange x, hx⟩, hN, h'.congr heq fun _ => Iff.rfl⟩

/-! ## Pages (R165) -/

/-- Some page of the list has the zone. -/
def paged (s : State) (l : List PageId) (z : ZoneId) : Prop :=
  ∃ p ∈ l, (s.pages[p].map fun g => g.zones.getLsbD z) = some true

/-- The close of a page, where there is one. -/
def closeStep (p : PageId) (s : State) : State :=
  match s.pages[p] with
  | none => s
  | some pg => closed p pg .stopped s

/-- What the close of the pages of some list, in ascending order, has made of the state. -/
structure Closed (u : State) (l : List PageId) (w : State) : Prop where
  pages : ∀ p : PageId, w.pages[p] = if p ∈ l then none else u.pages[p]
  carry : ∀ z : ZoneId, paged u l z → hushed u w.zones[z] = unpaged (hushed u u.zones[z])
  apart : ∀ z : ZoneId, ¬ paged u l z → hushed u w.zones[z] = hushed u u.zones[z]
  last : ∀ (p : PageId) (pg : Page), p ∈ l → u.pages[p] = some pg → (∀ q ∈ l, p < q → u.pages[q] = none) →
    w.lastClosed = some { id := p, opener := pg.opener, reason := .stopped, time := u.tod }
  kept : (∀ p ∈ l, u.pages[p] = none) → w.lastClosed = u.lastClosed
  told : w.notes.length ≤ u.notes.length + 25 * l.length
  rest : w = { u with pages := w.pages, zones := w.zones, lastClosed := w.lastClosed, notes := w.notes }

theorem closeStep_pages (p q : PageId) (s : State) :
    (closeStep p s).pages[q] = if q = p then none else s.pages[q] := by
  unfold closeStep
  by_cases hq : q = p
  · subst hq
    rw [if_pos rfl]
    split
    · next hp => exact hp
    · exact Vector.getElem_set_self _
  · rw [if_neg hq]
    split
    · rfl
    · exact Vector.getElem_set_ne p.isLt q.isLt fun he => hq (Fin.ext he.symm)

theorem Closed.nil (u : State) : Closed u [] u :=
  ⟨fun _ => rfl, fun _ ⟨_, hp, _⟩ => absurd hp List.not_mem_nil, fun _ _ => rfl,
    fun _ _ hp => absurd hp List.not_mem_nil, fun _ => rfl, Nat.le_refl _, rfl⟩

theorem paged_cons {p : PageId} {l : List PageId} (hp : p ∉ l) (z : ZoneId) : paged u (p :: l) z
    ↔ (u.pages[p].map fun g => g.zones.getLsbD z) = some true ∨ paged (closeStep p u) l z := by
  have hsame : paged (closeStep p u) l z ↔ paged u l z := by
    refine exists_congr fun q => and_congr_right fun hq => ?_
    rw [closeStep_pages, if_neg fun h : q = p => hp (h ▸ hq)]
  rw [hsame]
  unfold paged
  simp

/-- The zones of a page that closes, as they will be once they are OFF. -/
theorem closeStep_zone (p : PageId) (z : ZoneId) (u : State) : hushed u (closeStep p u).zones[z]
    = if (u.pages[p].map fun g => g.zones.getLsbD z) = some true then unpaged (hushed u u.zones[z])
      else hushed u u.zones[z] := by
  unfold closeStep
  cases hp : u.pages[p] with
  | none => rw [if_neg (fun h => nomatch h)]
  | some pg =>
    have hget : (closed p pg .stopped u).zones[z] = _ := uncarried_get u (zonesOf pg.zones) z
    dsimp only [Option.map_some]
    rw [hget]
    by_cases hz : pg.zones.getLsbD z = true
    · rw [if_pos (mem_zonesOf.mpr hz), if_pos (congrArg some hz), hushed_carried]
    · rw [if_neg (mt mem_zonesOf.mp hz), if_neg (mt Option.some.inj hz)]

/-- With no instance the close of a page changes pages, zones, the last-closed record and notices alone. -/
theorem closeStep_rest (p : PageId) (hc : ∀ c : CallId, u.calls[c].inst = none) : closeStep p u = { u with
    pages := (closeStep p u).pages, zones := (closeStep p u).zones, lastClosed := (closeStep p u).lastClosed
    notes := (closeStep p u).notes } := by
  unfold closeStep
  split
  · rfl
  · next pg hp =>
    unfold closed
    rw [withoutPage_of_inst hc]

theorem closeStep_notes (p : PageId) (u : State) : (closeStep p u).notes.length ≤ u.notes.length + 25 := by
  unfold closeStep
  split
  · omega
  · next pg hp =>
    have hone : (closeNotes pg.opener .stopped).length ≤ 1 := by
      unfold closeNotes
      split
      · exact Nat.zero_le 1
      · exact Nat.le_refl 1
    have hzones := (leaveNotes_length u (zonesOf pg.zones)).trans (zonesOf_length pg.zones)
    simp only [closed, List.length_append]
    omega

/-- One page more, below the others, has closed before them. -/
theorem Closed.cons {p : PageId} {l : List PageId} (hl : ∀ q ∈ l, p < q) (hc : ∀ c : CallId, u.calls[c].inst = none)
    (h : Closed (closeStep p u) l w) : Closed u (p :: l) w := by
  obtain ⟨hpages, hcarry, hapart, hlast, hkept, htold, hrest⟩ := h
  have hp : p ∉ l := fun h => Nat.lt_irrefl _ (hl p h)
  have hbase := closeStep_rest p hc
  have hush : ∀ x, hushed (closeStep p u) x = hushed u x := fun x => by rw [hbase]; rfl
  simp only [hush] at hcarry hapart
  have htod : (closeStep p u).tod = u.tod := (congrArg State.tod hbase).trans rfl
  have hpage : ∀ q ∈ l, (closeStep p u).pages[q] = u.pages[q] := fun q hq => by
    rw [closeStep_pages, if_neg fun h : q = p => hp (h ▸ hq)]
  refine ⟨fun q => ?_, fun z hz => ?_, fun z hz => ?_, fun q pg hq hpg habove => ?_, fun hnone => ?_, ?_, ?_⟩
  · rw [hpages, closeStep_pages]
    by_cases hq : q = p <;> simp [hq]
  · by_cases hzl : paged (closeStep p u) l z
    · rw [hcarry z hzl, closeStep_zone]
      split <;> rfl
    · rw [hapart z hzl, closeStep_zone, if_pos (((paged_cons hp z).mp hz).resolve_right hzl)]
  · rw [paged_cons hp] at hz
    rw [hapart z fun h => hz (.inr h), closeStep_zone, if_neg fun h => hz (.inl h)]
  · rcases List.mem_cons.mp hq with rfl | hql
    · rw [hkept fun r hr => (hpage r hr).trans (habove r (List.mem_cons_of_mem _ hr) (hl r hr))]
      unfold closeStep
      rw [hpg]
      rfl
    · rw [← htod]
      exact hlast q pg hql ((hpage q hql).trans hpg) fun r hr hqr =>
        (hpage r hr).trans (habove r (List.mem_cons_of_mem _ hr) hqr)
  · rw [hkept fun r hr => (hpage r hr).trans (hnone r (List.mem_cons_of_mem _ hr))]
    unfold closeStep
    rw [hnone p List.mem_cons_self]
  · have := closeStep_notes p u
    rw [List.length_cons]
    omega
  · rw [hrest, hbase]

theorem closeSteps {l : List PageId} (hl : l.Pairwise (· < ·)) (hc : ∀ c : CallId, u.calls[c].inst = none) :
    Closed u l (l.foldl (fun s p => closeStep p s) u) := by
  induction l generalizing u with
  | nil => exact .nil u
  | cons p l ih =>
    obtain ⟨hp, hl⟩ := List.pairwise_cons.mp hl
    exact (ih hl fun c => by rw [closeStep_rest p hc]; exact hc c).cons hp hc

theorem Reaches.stopPages (h : Reaches as u v) (hc : ∀ c : CallId, u.calls[c].inst = none) : ∃ bs w,
    (∀ a ∈ as, a ∈ bs) ∧ ((∃ p : PageId, u.pages[p] ≠ none) → .pages ∈ bs) ∧ Closed u (List.finRange 4) w
      ∧ Reaches bs w (forEach 4 (fun p s => Machine.closePage p .stopped s) v) := by
  obtain ⟨bs, hab, hone, h'⟩ := h.folds (a := .pages) (g := closeStep)
    (step := fun p s => Machine.closePage p .stopped s) (needs := fun p s => s.pages[p] ≠ none) (l := List.finRange 4)
    (fun {p u v as} h => by
      unfold closeStep
      cases hp : u.pages[p] with
      | none =>
        have hv : v.pages[p] = none := by rw [h.1]; exact hp
        refine ⟨as, fun _ ha => ha, fun hn => absurd rfl hn, ?_⟩
        unfold Machine.closePage
        rw [hv]
        exact h
      | some pg => exact ⟨_, fun a ha => List.mem_append_right _ ha, fun _ => List.mem_cons_self, h.closePage .stopped hp⟩)
    (fun {p q u} hne hn => by rwa [closeStep_pages, if_neg hne])
    (List.nodup_finRange 4)
  exact ⟨bs, _, hab, fun ⟨p, hp⟩ => hone ⟨p, List.mem_finRange p, hp⟩,
    closeSteps (by decide) hc, h'⟩

end Sys2Proof.Proofs.Ends
end

section
/-! PROOF. STOP_SHOW (R185). -/

namespace Sys2Proof.Proofs.StopShow

open Sys2Proof.Machine
open Sys2Proof.Proofs.Ends

variable {s u v w : State} {as : List Area}

/-- STOP_SHOW's answer. -/
def stopAnswer (s : State) : Answer :=
  answer .ok (wordsOf (wordOf s.seq.running.length) (wordOf (pagesOpen s)) 0#32 0#32)

/-- The state once the fade table and the sequencer have been emptied and the engine has stopped, with these roles
and levels. -/
def halted (R : Vector Role 96) (L : Levels) (s : State) : State := { s with
  fades := Vector.replicate 128 none, roles := R, levels := L
  seq := { s.seq with follow := none, running := [], pause := false, guard := none }
  engine := .stopped }

theorem Reaches.emptyFades (h : Reaches as u v) :
    Reaches as { u with fades := Vector.replicate 128 none } (emptyFades v) :=
  (h.plain (f := fun s => { s with fades := Vector.replicate 128 none }) fun _ _ _ _ => rfl).inUse _

/-- The state once the instances have ended, too. -/
def silenced (R : Vector Role 96) (L : Levels) (s : State) : State :=
  { halted R L s with calls := uncalled s.calls }

/-- The state once every block has been stopped, the pages having left the state `w`. -/
def stopped (R : Vector Role 96) (L : Levels) (w : State) (N : List Note) (s : State) : State :=
  { silenced R L s with
    pages := w.pages, lastClosed := w.lastClosed, zones := tabulate fun z => hushed s w.zones[z]
    voices := idledVoices s (List.finRange 16), arb := idledArb s (List.finRange 16), notes := N }

/-- The areas that STOP_SHOW hands over. -/
def Marks (u : State) (bs : List Area) : Prop :=
  (∀ a ∈ [Area.engine, .cue, .roles, .zones], a ∈ bs)
    ∧ ((∃ x : VoiceId, u.voices[x].state ≠ .idle) → .voices ∈ bs)
    ∧ ((∃ p : PageId, u.pages[p] ≠ none) ∨ (∃ c : CallId, u.calls[c].inst ≠ none) → .pages ∈ bs)

/-- The roles and levels once the crossfades have been finished. -/
def Crossed (u : State) (R : Vector Role 96) (L : Levels) : Prop :=
  (∀ r : RoleId, R[r] = { u.roles[r] with taps := tabulate fun k => finishedTap u.roles[r].taps[k] })
    ∧ (∀ r k, L.get (.tap r k) = finishedLevel u.roles[r].taps[k] (u.level (.tap r k)))
    ∧ (∀ e : Elem, (∀ r k, e ≠ .tap r k) → L.get e = u.level e)

theorem stopped_eq {R : Vector Role 96} {L : Levels} {N : List Note} (hw : w = { silenced R L u with
      pages := w.pages, zones := w.zones, lastClosed := w.lastClosed, notes := w.notes }) :
    { w with
      voices := idledVoices w (List.finRange 16), arb := idledArb w (List.finRange 16), notes := N
      zones := tabulate fun z => hushed w w.zones[z] } = stopped R L w N u := by
  generalize w.pages = P, w.zones = Z, w.lastClosed = C, w.notes = M at hw
  subst hw
  rfl

theorem Reaches.stopShow (h : Reaches as u v) : ∃ bs R L w N, Marks u bs ∧ Crossed u R L
    ∧ Closed (silenced R L u) (List.finRange 4) w ∧ N.length ≤ u.notes.length + 116
    ∧ Reaches bs (stopped R L w N u) (stopShowOwner v).1 := by
  obtain ⟨as₁, R, L, hin₁, hroles, htaps, helse, h₁⟩ := (Reaches.emptyFades h).finishCrossfades
  have h₂ : Reaches (.engine :: .cue :: as₁) (halted R L u)
      (setEngine .stopped (stopSequencer (finishCrossfades (Machine.emptyFades v)))) :=
    ((((h₁.plain (f := updSeq fun q => { q with follow := none, running := [], pause := false, guard := none })
      fun _ _ _ _ => rfl).area .cue).plain (f := fun s => { s with engine := .stopped })) fun _ _ _ _ => rfl).area .engine
  obtain ⟨as₂, hin₂, hinst, h₃⟩ := h₂.endInstances
  obtain ⟨as₃, w, hin₃, hpages, hclosed, h₄⟩ := Ends.Reaches.stopPages (u := silenced R L u) h₃ fun c =>
    congrArg Call.inst (uncalled_get u.calls c)
  obtain ⟨as₄, N, hin₄, hvoices, hN, h₅⟩ := h₄.stopVoices
  obtain ⟨as₅, hin₅, hzones, h₆⟩ := h₅.stopZones
  have hvs : w.voices = u.voices := by rw [hclosed.rest]; rfl
  rw [hvs] at hvoices
  refine ⟨_, R, L, w, N, ⟨?_, fun hx => ?_, fun hx => ?_⟩, ⟨hroles, htaps, helse⟩, hclosed, ?_,
    (h₆.congr (stopped_eq hclosed.rest) fun _ => Iff.rfl).area .roles⟩
  · have hengine : Area.engine ∈ as₅ := hin₅ _ (hin₄ _ (hin₃ _ (hin₂ _ (by simp))))
    have hcue : Area.cue ∈ as₅ := hin₅ _ (hin₄ _ (hin₃ _ (hin₂ _ (by simp))))
    simp [hengine, hcue, hzones]
  · exact List.mem_cons_of_mem _ (hin₅ _ (hvoices hx))
  · refine List.mem_cons_of_mem _ (hin₅ _ (hin₄ _ ?_))
    exact hx.elim hpages fun hc => hin₃ _ (hinst hc)
  · have htold : w.notes.length ≤ u.notes.length + 100 := hclosed.told
    omega

theorem stopped_blank {R : Vector Role 96} {L : Levels} {N : List Note}
    (hw : Closed (silenced R L u) (List.finRange 4) w) : Blank (stopped R L w N u) :=
  ⟨fun p => (hw.pages p).trans (if_pos (List.mem_finRange p)), fun c => congrArg Call.inst (uncalled_get u.calls c)⟩

/-- STOP_SHOW is answered once every block has been stopped. -/
theorem stopShow_answered (ht : s.Takes .stopShow) : ∃ bs R L w, Marks s bs ∧ Crossed s R L
    ∧ Closed (silenced R L (markHanded s)) (List.finRange 4) w
    ∧ State.Answered bs (stopped R L w [] s) (stopAnswer s) (request .stopShow s) := by
  obtain ⟨hn, hm⟩ := ht.2.1
  obtain ⟨bs, R, L, w, N, hmarks, hcrossed, hclosed, hN, h⟩ := Reaches.stopShow (Reaches.refl (s := markHanded s) hm)
  have hnotes : (markHanded s).notes = [] := hn
  rw [hnotes, List.length_nil] at hN
  refine ⟨bs, R, L, w, hmarks, hcrossed, hclosed, ?_⟩
  refine Reaches.answered_drained ht (v := (stopShowOwner (markHanded s)).1) rfl h.slate_eq h.freeCount_eq rfl ?_ rfl rfl
    rfl
  have hblank : Blank (answered (stopAnswer s) s (stopped R L w N (markHanded s))) := by
    have := stopped_blank (N := N) hclosed
    exact this
  exact ((h.plain (plain_answered (stopAnswer s) s)).drain_blank hblank (hN.trans (by decide))).congr rfl
    fun _ => Iff.rfl

theorem idledArb_all (s : State) : idledArb s (List.finRange 16) = { s.arb with
    busy := match s.arb.busy with
      | some (.fetch v a n stale) => some (.fetch v a n (stale || s.voices[v].state != .idle))
      | x => x } := by
  refine congrArg (fun b => { s.arb with busy := b }) ?_
  cases s.arb.busy with
  | none => rfl
  | some g =>
    cases g with
    | fetch v a n stale =>
      have : (List.finRange 16).contains v = true := List.contains_iff_mem.mpr (List.mem_finRange v)
      dsimp only
      rw [this, Bool.true_and]
    | _ => rfl

/-- Settles O27: each block's own stop, and a drain in which no notice says anything. -/
theorem stopShowStopsEveryUnit : Obligations.StopShowStopsEveryUnit := by
  unfold Obligations.StopShowStopsEveryUnit
  intro s ht
  obtain ⟨bs, R, L, w, ⟨hareas, hvoices, hpages⟩, ⟨hroles, htaps, hothers⟩, hclosed, hans⟩ := stopShow_answered ht
  have hends : State.EndsAs bs (answered (stopAnswer s) s (stopped R L w [] s)) (request .stopShow s) :=
    (answered_iff rfl rfl).mp hans
  have hover : ∀ base, s.mirror.base = some base → ∀ a ∈ bs, s.HandedOver base a (request .stopShow s) :=
    fun base hb a ha => by
      have := endsAs_handsOver hends ha hb
      exact this
  obtain ⟨l, m, ht', -⟩ := EndsAs.law hends
  have hmem : ∀ p : PageId, p ∈ List.finRange 4 := List.mem_finRange
  refine ⟨_, exec_command (r := .stopShow) ht.1, ?_⟩
  dsimp only
  generalize request .stopShow s = t at ht' hover
  subst ht'
  refine ⟨rfl, fun i => ?_, rfl, rfl, rfl, rfl, rfl, rfl, rfl, fun x => ⟨fun hx => ?_, fun hx => ?_⟩, ?_, fun p => ?_,
    fun p pg hp hq => ?_, fun hp => ?_, fun c => ?_, rfl, rfl, rfl, fun z => ?_, fun r => ?_, fun r k => ?_,
    fun e he => ?_, ?_, rfl, rfl, rfl, rfl, rfl, rfl, rfl, rfl, rfl, rfl, rfl, rfl, rfl, rfl, rfl,
    fun base hb => ⟨fun a ha => hover base hb a (hareas a ha), fun hv => hover base hb _ (hvoices hv),
      fun hp => hover base hb _ (hpages hp)⟩⟩
  · exact Vector.getElem_replicate i.isLt
  · exact (idledVoices_get s _ x).trans (if_pos ⟨List.mem_finRange x, hx⟩)
  · exact (idledVoices_get s _ x).trans (if_neg fun h => hx h.2)
  · exact idledArb_all s
  · exact (hclosed.pages p).trans (if_pos (hmem p))
  · exact hclosed.last p pg (hmem p) hp fun q _ hpq => hq q hpq
  · exact hclosed.kept fun p _ => hp p
  · exact uncalled_get s.calls c
  · refine (tabulate_get (fun z : ZoneId => hushed s w.zones[z]) z z.isLt).trans ?_
    have hpaged : paged (silenced R L (markHanded s)) (List.finRange 4) z
        ↔ ∃ p : PageId, (s.pages[p].map fun g => g.zones.getLsbD z) = some true :=
      exists_congr fun p => and_iff_right (hmem p)
    by_cases hz : ∃ p : PageId, (s.pages[p].map fun g => g.zones.getLsbD z) = some true
    · rw [if_pos hz, if_pos hz]
      exact hclosed.carry z (hpaged.mpr hz)
    · rw [if_neg hz, if_neg hz]
      exact hclosed.apart z (mt hpaged.mp hz)
  · exact hroles r
  · exact htaps r k
  · exact hothers e he
  · rfl

end Sys2Proof.Proofs.StopShow
end

section
/-! PROOF. INSTALL (R184), block by block. -/

namespace Sys2Proof.Proofs.Ends

open Sys2Proof.Machine
open Sys2Proof.Proofs.Holds

variable {s u v w : State} {as : List Area}

theorem Reaches.seq_eq (h : Reaches as u v) : v.seq = u.seq := by rw [h.1]; rfl

/-! ## One change for each zone -/

/-- Steps that each change their own zone, and may tell of it. -/
theorem Reaches.rezones {f : ZoneId → Zone → Zone} {step : ZoneId → State → State}
    (hstep : ∀ {z : ZoneId} {Z : Vector Zone 24} {N : List Note} {v : State} {as : List Area},
      Reaches as { u with zones := Z, notes := N } v → ∃ bs M, (∀ a ∈ as, a ∈ bs) ∧ M.length ≤ N.length + 1
        ∧ Reaches bs { u with zones := upd Z z (f z), notes := M } (step z v))
    (h : Reaches as u v) : ∃ bs N, (∀ a ∈ as, a ∈ bs) ∧ N.length ≤ u.notes.length + 24
      ∧ Reaches bs { u with zones := tabulate fun z => f z u.zones[z], notes := N } (forEach 24 step v) := by
  have hfold : ∀ (l : List ZoneId) (Z : Vector Zone 24) (N : List Note) (v : State) (as : List Area),
      Reaches as { u with zones := Z, notes := N } v → ∃ bs M, (∀ a ∈ as, a ∈ bs) ∧ M.length ≤ N.length + l.length
        ∧ Reaches bs { u with zones := l.foldl (fun Z z => upd Z z (f z)) Z, notes := M }
          (l.foldl (fun s z => step z s) v) := by
    intro l
    induction l with
    | nil => exact fun Z N v as h => ⟨as, N, fun _ ha => ha, Nat.le_refl _, h⟩
    | cons z l ih =>
      intro Z N v as h
      obtain ⟨bs, M, hab, hM, h'⟩ := hstep (z := z) h
      obtain ⟨cs, K, hbc, hK, h''⟩ := ih _ _ _ _ h'
      refine ⟨cs, K, fun a ha => hbc a (hab a ha), ?_, h''⟩
      rw [List.length_cons]
      omega
  obtain ⟨bs, N, hab, hN, h'⟩ := hfold (List.finRange 24) u.zones u.notes v as h
  refine ⟨bs, N, hab, hN, h'.congr ?_ fun _ => Iff.rfl⟩
  have : (List.finRange 24).foldl (fun Z z => upd Z z (f z)) u.zones = tabulate fun z => f z u.zones[z] :=
    vec_ext fun z => by
      rw [foldl_upd_get f _ (List.nodup_finRange 24), if_pos (List.mem_finRange z)]
      exact (tabulate_get (fun z : ZoneId => f z u.zones[z]) z z.isLt).symm
  rw [this]

/-! ## The install of a zone (R136) -/

/-- A zone that has taken its record and, where it is wanted, been powered. -/
def settledZone (cfg : ZoneCfg) (x : Zone) : Zone :=
  let y := x.install cfg
  if y.state = .fault then y else if y.demand ∨ y.alwaysPowered then y.poweredUp else y

theorem Zone.install_state (x : Zone) (cfg : ZoneCfg) (h : (x.install cfg).state ≠ .fault) :
    (x.install cfg).state = .off := by
  unfold Zone.install at h ⊢
  split at h
  · next hx => exact absurd hx h
  · next hx => rw [if_neg hx]

theorem rezoned_notes_length (z : ZoneId) (y : Zone) (s : State) :
    (rezoned z y s).notes.length ≤ s.notes.length + 1 := by
  have : (liveNotes z s.zones[z] y).length ≤ 1 := by
    unfold liveNotes
    split <;> simp
  unfold rezoned
  rw [List.length_append]
  omega

theorem Reaches.settleZone {cfg : ZoneCfg} {z : ZoneId} (h : Reaches as u v) (he : u.engine ≠ .stopped) :
    ∃ bs N, (∀ a ∈ as, a ∈ bs) ∧ N.length ≤ u.notes.length + 1
      ∧ Reaches bs { u with zones := upd u.zones z (settledZone cfg), notes := N }
        (if (updZone z (·.install cfg) v).zones[z].state = .fault then updZone z (·.install cfg) v
          else powerIfWanted z (updZone z (·.install cfg) v)) := by
  have h' := h.plain (f := updZone z (·.install cfg)) fun _ _ _ _ => rfl
  have hget : ∀ s : State, (updZone z (·.install cfg) s).zones[z] = s.zones[z].install cfg := fun s => updZone_zone ..
  have hv : v.zones = u.zones := by rw [h.1]; rfl
  have hsame (y : Zone) (hy : settledZone cfg u.zones[z] = y) :
      upd u.zones z (settledZone cfg) = u.zones.set z y := by rw [upd, hy]
  rw [hget, hv]
  by_cases hf : (u.zones[z].install cfg).state = .fault
  · rw [if_pos hf, hsame _ (if_pos hf)]
    exact ⟨as, u.notes, fun _ ha => ha, Nat.le_succ _, h'⟩
  · unfold powerIfWanted
    rw [if_neg hf, hget, hv]
    by_cases hw : (u.zones[z].install cfg).demand ∨ (u.zones[z].install cfg).alwaysPowered
    · rw [if_pos hw, hsame _ ((if_neg hf).trans (if_pos hw))]
      have hp := h'.powerZone (z := z) he (by rw [hget, Zone.install_state _ _ hf]; nofun)
      rw [hget] at hp
      refine ⟨.zones :: as, (rezoned z (u.zones[z].install cfg).poweredUp (updZone z (·.install cfg) u)).notes,
        fun a ha => List.mem_cons_of_mem _ ha, rezoned_notes_length .., hp.congr ?_ fun _ => Iff.rfl⟩
      show ({ u with zones := (upd u.zones z _).set z _, notes := _ } : State) = _
      rw [upd, Vector.set_set]
      rfl
    · rw [if_neg hw, hsame _ ((if_neg hf).trans (if_neg hw))]
      exact ⟨as, u.notes, fun _ ha => ha, Nat.le_succ _, h'⟩

/-- The duck gate and the hold gates of a zone commanded. -/
def gatedZone (s : State) (x : Zone) : Zone :=
  { heldZone s x (x.page.bind fun p => s.pages[p].map (·.priority)) with
    duck := x.duck.command 0 (rampFrames s x.cfg.duckRamp) }

theorem Reaches.gateZone {z : ZoneId} (h : Reaches as u v) :
    Reaches as { u with zones := upd u.zones z (gatedZone u) } (commandDuck z false (zoneHold z v)) := by
  have heq : ∀ s : State, commandDuck z false (zoneHold z s) = { s with zones := upd s.zones z (gatedZone s) } := by
    intro s
    rw [zoneHold_eq]
    unfold commandDuck commandGate updGate updZone carriedPriority
    dsimp only
    rw [set_upd]
    simp only [Fin.getElem_fin, Vector.getElem_set_self]
    rfl
  rw [heq]
  exact h.plain (f := fun s => { s with zones := upd s.zones z (gatedZone s) }) fun _ _ _ _ => rfl

theorem Reaches.installZones {x : Show} (h : Reaches as u v) (he : u.engine ≠ .stopped) :
    ∃ bs N, (∀ a ∈ as, a ∈ bs) ∧ N.length ≤ u.notes.length + 24
      ∧ Reaches bs { u with
          zoneGroups := x.zoneGroups
          zones := tabulate fun z => gatedZone u (settledZone x.zones[z] u.zones[z]), notes := N }
        (installZones x v) := by
  refine (h.plain (f := fun s => { s with zoneGroups := x.zoneGroups }) fun _ _ _ _ => rfl).rezones
    (f := fun z y => gatedZone u (settledZone x.zones[z] y)) fun {z Z N v as} h => ?_
  obtain ⟨bs, M, hab, hM, h'⟩ := h.settleZone (cfg := x.zones[z]) (z := z) he
  refine ⟨bs, M, hab, hM, (h'.gateZone (z := z)).congr ?_ fun _ => Iff.rfl⟩
  dsimp only
  rw [upd_upd]
  rfl

/-! ## The mixes (R62, R71) -/

/-- A mix once it has been installed and its gate commanded. -/
def installedMix (s : State) (cfg : MixCfg) (x : Mix) : Mix :=
  heldMix s { x with cfg := cfg, clips := 0, renewed := true }

theorem installMixes_eq (x : Show) (s : State) : installMixes x s = { s with
    mixes := tabulate fun m => installedMix s x.mixes[m] s.mixes[m] } := by
  unfold installMixes
  have h := forEach_upd (fun _ => heldMix s) (fun v => { s with mixes := v }) (step := mixHold)
    (fun m v => rfl) (tabulate fun m => { s.mixes[m] with cfg := x.mixes[m], clips := 0, renewed := true })
  refine h.trans ?_
  have : (tabulate fun m : MixId => heldMix s (tabulate fun m : MixId => { s.mixes[m] with
      cfg := x.mixes[m], clips := 0, renewed := true } : Vector Mix 40)[m])
      = tabulate fun m => installedMix s x.mixes[m] s.mixes[m] :=
    congrArg tabulate (funext fun m => by
      have := tabulate_get (fun m : MixId => ({ s.mixes[m] with cfg := x.mixes[m], clips := 0, renewed := true } : Mix))
        m m.isLt
      exact congrArg (heldMix s) this)
  rw [this]

/-! ## The install -/

/-- The state once the blocks before mixes and zones have been installed. -/
def reloaded (x : Show) (s : State) : State := { installChannels x (installTables x (installClock x s)) with
  fades := Vector.replicate 128 none, load := none, engine := .loaded }

/-- The state once mixes, zones, sequencer and mirror writer have been installed over `r`, the zones' notices still
to be worked off. -/
def installedOver (x : Show) (N : List Note) (r : State) : State := { r with
  mixes := tabulate fun m => installedMix r x.mixes[m] r.mixes[m]
  zoneGroups := x.zoneGroups
  zones := tabulate fun z => gatedZone r (settledZone x.zones[z] r.zones[z])
  seq := { r.seq with
    standby := (firstCue r.mem (x.base 10)).map standbyOf
    parent := none, follow := none, running := [], pause := false, guard := none, last := none }
  arb := { r.arb with reads := r.arb.reads ++ [.record] }
  mirror := { r.mirror with
    base := some x.dir.mirror.toNat
    shown := if r.mirror.base = some x.dir.mirror.toNat then r.mirror.shown
      else Vector.replicate 11 { count := none, bursts := [] } }
  notes := N }

/-- The state once every block has been installed. -/
def installed (x : Show) (N : List Note) (s : State) : State := installedOver x N (reloaded x s)

/-- The mirror writer once it has taken its new base. -/
def rebased (x : Show) (s : State) : State := { s with mirror := { s.mirror with
  base := some x.dir.mirror.toNat
  shown := if s.mirror.base = some x.dir.mirror.toNat then s.mirror.shown
    else Vector.replicate 11 { count := none, bursts := [] } } }

/-- Every area is handed over. -/
theorem Reaches.handOverAll (h : Reaches as u v) : Reaches Area.all u (handOverAll v) := by
  obtain ⟨d, i, ms, rfl, hd, hi, ha⟩ := reaches_iff.mp h
  exact reaches_iff.mpr ⟨Vector.replicate 25 true, i, Area.all, rfl,
    fun b _ => Vector.getElem_replicate b.isLt, hi, fun _ => Iff.rfl⟩

theorem Reaches.install {x : Show} (h : Reaches as u v) : ∃ N, N.length ≤ u.notes.length + 24
    ∧ Reaches Area.all (installed x N u) (install x v) := by
  have h₁ : Reaches (.engine :: as) (reloaded x u)
      (setEngine .loaded { installChannels x (installTables x (installClock x (emptyFades v))) with load := none }) :=
    (((h.plain (f := fun s => { s with fades := Vector.replicate 128 none }) fun _ _ _ _ => rfl).inUse
      (v.fades.toList.any Option.isSome)).plain (f := fun s =>
        { installChannels x (installTables x (installClock x s)) with load := none, engine := .loaded })
      fun _ _ _ _ => rfl).area .engine
  have h₂ := h₁.plain (f := installMixes x) fun u d i ms => by
    rw [installMixes_eq, installMixes_eq]
    rfl
  rw [installMixes_eq x (reloaded x u)] at h₂
  unfold installed
  have hnotes : (reloaded x u).notes = u.notes := rfl
  rw [← hnotes]
  have he : (reloaded x u).engine ≠ .stopped := nofun
  unfold Machine.install
  dsimp only
  generalize setEngine .loaded _ = v' at h₂ ⊢
  generalize reloaded x u = r at h₂ he ⊢
  obtain ⟨bs, N, -, hN, h₃⟩ := h₂.installZones (x := x) he
  have h₄ := h₃.plain (f := installSequencer x) fun _ _ _ _ => rfl
  have h₅ := h₄.plain (f := rebased x) fun _ _ _ _ => rfl
  exact ⟨N, hN, h₅.handOverAll.congr rfl fun _ => Iff.rfl⟩

/-! ## The event -/

/-- INSTALL's answer, for the number of the standby. -/
def installAnswer (x : Show) (s : State) : Answer :=
  answer .ok (wordsOf (wordOf x.cues.length)
    (wordOf ((((firstCue s.mem (x.base 10)).map standbyOf).map (·.number)).getD 0)) (wordOf (usedChannels x)) 0#32)

theorem plain_finishRequest (a : Answer) : Plain (finishRequest a) := fun u d i ms => by
  rw [finishRequest_eq, finishRequest_eq]
  rfl

theorem reloaded_mem (x : Show) (s : State) : (reloaded x s).mem = s.mem := rfl

theorem installed_standby (x : Show) (N : List Note) (s : State) :
    (installed x N s).seq.standby = (firstCue s.mem (x.base 10)).map standbyOf := by
  unfold installed
  rw [← reloaded_mem x s]
  generalize reloaded x s = r
  unfold installedOver
  with_reducible rfl

theorem installed_notes (x : Show) (N : List Note) (s : State) :
    { installed x N s with notes := [] } = installed x [] s := rfl

theorem answered_notes (a : Answer) (s v : State) :
    { answered a s v with notes := [] } = answered a s { v with notes := [] } := rfl

theorem installed_blank {x : Show} {N : List Note} (hp : ∀ p : PageId, s.pages[p] = none) : Blank (installed x N s) :=
  ⟨hp, fun c => congrArg Call.inst (mapVec_get installCall x.calls c c.isLt)⟩

theorem answered_blank {a : Answer} (h : Blank v) : Blank (answered a s v) := h

theorem installAnswer_of {x : Show} (h : v.seq.standby = (firstCue s.mem (x.base 10)).map standbyOf) :
    answer .ok (wordsOf (wordOf x.cues.length) (wordOf (standbyNumberOrZero v)) (wordOf (usedChannels x)) 0#32)
      = installAnswer x s := by
  unfold installAnswer standbyNumberOrZero
  rw [h]

theorem installLoad_eq {job : LoadJob} (hl : s.load = some job) : installLoad s
    = finishRequest (answer .ok (wordsOf (wordOf job.staging.cues.length)
        (wordOf (standbyNumberOrZero (Machine.install job.staging s))) (wordOf (usedChannels job.staging)) 0#32))
      (Machine.install job.staging s) := by
  unfold installLoad
  rw [hl]

/-- The slate and the count of free values that a request finds. -/
def Awaits (s v : State) : Prop := v.slate = s.slate ∧ v.freeCount = s.freeCount

theorem finishRequest_awaits {a : Answer} (h : Awaits s v) : finishRequest a v = answered a s v := by
  obtain ⟨hs, hf⟩ := h
  rw [finishRequest_eq]
  unfold answered
  rw [hs, hf]

theorem install_ends {job : LoadJob} (hq : s.Quiet) (hl : s.load = some job) (hf : job.fail = none)
    (ht : job.todo = []) (hp : ∀ p : PageId, s.pages[p] = none) :
    State.EndsAs Area.all (answered (installAnswer job.staging s) s (installed job.staging [] s))
      (event (installDue s) installLoad s) := by
  obtain ⟨hn, hm⟩ := hq
  have hdue : installDue s = true := by
    unfold installDue
    rw [hl]
    dsimp only
    rw [hf, ht]
    rfl
  obtain ⟨N, hN, h⟩ := (Reaches.refl hm).install (x := job.staging)
  rw [hn, List.length_nil] at hN
  have hawaits : Awaits s (Machine.install job.staging s) := ⟨h.slate_eq, h.freeCount_eq⟩
  rw [event_due hdue, installLoad_eq hl,
    installAnswer_of ((congrArg Seq.standby h.seq_eq).trans (installed_standby job.staging N s)),
    finishRequest_awaits hawaits]
  have h' := h.plain (plain_answered (installAnswer job.staging s) s)
  have hd := h'.drain_blank (answered_blank (installed_blank hp)) (hN.trans (by decide))
  rw [answered_notes, installed_notes] at hd
  exact Reaches.endsAs_drained rfl hd rfl

/-! ## What has been installed, block by block -/

section

variable {x : Show} (N : List Note) (s : State)

theorem installed_channel (c : Channel) : (installed x N s).channels[c]
    = s.channels[c].install x.channels[c] s.rx[linkOf c] (slotOf c) := tabulate_get _ _ _

theorem installed_role (r : RoleId) : (installed x N s).roles[r] = installRole x.roles[r] := mapVec_get _ _ _ _

theorem installed_voice (v : VoiceId) : (installed x N s).voices[v] = { s.voices[v] with underruns := 0 } :=
  mapVec_get _ _ _ _

theorem installed_call (c : CallId) : (installed x N s).calls[c] = installCall x.calls[c] := mapVec_get _ _ _ _

theorem installed_mix (m : MixId) : (installed x N s).mixes[m]
    = installedMix (reloaded x s) x.mixes[m] s.mixes[m] := tabulate_get _ _ _

theorem installed_zone (z : ZoneId) : (installed x N s).zones[z]
    = gatedZone (reloaded x s) (settledZone x.zones[z] s.zones[z]) := tabulate_get _ _ _

/-- What an install leaves as it was. -/
theorem installed_kept (a : Answer) : (answered a s (installed x N s)).mem = s.mem
    ∧ (answered a s (installed x N s)).lock = s.lock ∧ (answered a s (installed x N s)).notice = s.notice
    ∧ (answered a s (installed x N s)).cells = s.cells ∧ (answered a s (installed x N s)).tod = s.tod
    ∧ (answered a s (installed x N s)).rx = s.rx
    ∧ (answered a s (installed x N s)).clock.present = s.clock.present := by
  unfold answered installed installedOver reloaded installChannels installTables installClock
  exact ⟨rfl, rfl, rfl, rfl, rfl, rfl, rfl⟩

end

theorem installed_clock (x : Show) (N : List Note) (s : State) : (installed x N s).clock.inUse
    = if x.header.source = .wclk ∧ 1000 ≤ s.clock.presentRun then .wclk else .internal := by
  unfold installed installedOver reloaded installChannels installTables installClock
  dsimp only
  simp only [Bool.and_eq_true, beq_iff_eq, decide_eq_true_eq]

/-! ## The levels -/

section

variable (x : Show)

theorem installLevels_role (r : RoleId) : (installLevels x).get (.role r) = x.roles[r].level := mapVec_get _ _ _ _

theorem installLevels_tap (r : RoleId) (k : TapId) : (installLevels x).get (.tap r k)
    = if x.roles[r].initial = some k then .steps 0 else .off := by
  have htaps : (installLevels x).tap[r] = tabulate fun t => if x.roles[r].initial = some t then .steps 0 else .off :=
    mapVec_get _ _ _ _
  refine (congrArg (fun v : Vector Level 4 => v[k]) htaps).trans ?_
  exact tabulate_get (fun t : TapId => if x.roles[r].initial = some t then Level.steps 0 else .off) k k.isLt

theorem installLevels_voice (v : VoiceId) : (installLevels x).get (.voice v) = .off := Vector.getElem_replicate v.isLt

theorem installLevels_send (i : SendId) : (installLevels x).get (.send i) = x.sends[i].level := mapVec_get _ _ _ _

theorem installLevels_master (m : MixId) : (installLevels x).get (.master m) = x.mixes[m].master := mapVec_get _ _ _ _

theorem installLevels_zone (z : ZoneId) : (installLevels x).get (.zone z) = x.zones[z].relayLevel := mapVec_get _ _ _ _

end

/-! ## One channel, mix and zone -/

theorem gateFor_eq (b : Bool) (st : ChannelState) : gateFor b st
    = { value := if b && (st == .lost || st == .returning) then .off else .steps 0, ramp := none } := by
  unfold gateFor Gate.setTo
  cases b && (st == .lost || st == .returning) <;> rfl

section

variable (x : ChannelRec) {cfg : ChannelCfg} (rx : Receiver) (slot : Fin 16)

theorem ChannelRec.install_cfg : (x.install cfg rx slot).cfg = cfg := by
  unfold ChannelRec.install
  split
  · rfl
  · split <;> rfl

theorem ChannelRec.install_unused (h : cfg.used = false) : (x.install cfg rx slot).state = .unused
    ∧ (x.install cfg rx slot).timer = none ∧ (x.install cfg rx slot).gate = { value := .steps 0, ramp := none } := by
  unfold ChannelRec.install
  rw [if_pos h]
  exact ⟨rfl, rfl, rfl⟩

theorem ChannelRec.install_new (h : cfg.used = true) (hs : x.state = .unused) : (x.install cfg rx slot).state
      = (if rx.locked = true ∧ rx.presented.status.getLsbD (2 * slot.val) = true then .live else .lost)
    ∧ (x.install cfg rx slot).timer = none
    ∧ (x.install cfg rx slot).gate = gateFor cfg.autoMute (x.install cfg rx slot).state := by
  unfold ChannelRec.install
  rw [if_neg (by simp [h]), if_pos hs]
  refine ⟨?_, rfl, rfl⟩
  simp only [Bool.and_eq_true]
  rfl

theorem ChannelRec.install_kept (h : cfg.used = true) (hs : x.state ≠ .unused) :
    (x.install cfg rx slot).state = x.state ∧ (x.install cfg rx slot).timer = x.timer
      ∧ (x.install cfg rx slot).gate
        = if x.cfg.autoMute = cfg.autoMute then x.gate else gateFor cfg.autoMute x.state := by
  unfold ChannelRec.install
  rw [if_neg (by simp [h]), if_neg hs]
  exact ⟨rfl, rfl, rfl⟩

end

theorem installedMix_eq (s : State) (cfg : MixCfg) (x : Mix) : installedMix s cfg x = { x with
    cfg := cfg, clips := 0, renewed := true, held := heldBy s cfg.holdMask
    gate := if x.gate.endDue = true ∧ x.gate.target = (if heldBy s cfg.holdMask then -480 else 0) then x.gate
      else Gate.command ((x.rested.map fun v => Gate.mk v none).getD x.gate)
        (if heldBy s cfg.holdMask then -480 else 0) (rampFrames s cfg.holdRamp) } :=
  Mix.command_eq { x with cfg := cfg, clips := 0, renewed := true } _ _ _

/-- A zone's record, flags and gates once it has been installed. -/
theorem settledZone_same (cfg : ZoneCfg) (x : Zone) : settledZone cfg x = { settledZone cfg x with
    cfg := cfg, relay := cfg.relayFlag, page := x.page, clips := 0, faults := x.faults, held := x.held
    relayHold := x.relayHold, pageHold := x.pageHold, duck := x.duck } := by
  unfold settledZone Zone.install Zone.poweredUp
  dsimp only
  repeat' split
  all_goals rfl

theorem settledZone_fault {cfg : ZoneCfg} {x : Zone} (h : x.state = .fault) :
    (settledZone cfg x).state = .fault ∧ (settledZone cfg x).ampen = x.ampen := by
  unfold settledZone Zone.install
  rw [if_pos h]
  dsimp only
  rw [if_pos h]
  exact ⟨h, rfl⟩

theorem settledZone_off {cfg : ZoneCfg} {x : Zone} (h : x.state ≠ .fault) (hr : cfg.relayFlag = false)
    (hs : cfg.stability ≠ 255) (hp : x.page = none) : (settledZone cfg x).state = .off
      ∧ (settledZone cfg x).ampen = false ∧ (settledZone cfg x).timer = none ∧ (settledZone cfg x).falseRun = 0 := by
  unfold settledZone Zone.install
  rw [if_neg h]
  dsimp only
  rw [if_neg nofun, if_neg (by simp [Zone.demand, Zone.alwaysPowered, hr, hs, hp])]
  exact ⟨rfl, rfl, rfl, rfl⟩

theorem settledZone_on {cfg : ZoneCfg} {x : Zone} (h : x.state ≠ .fault)
    (hw : cfg.relayFlag = true ∨ cfg.stability = 255) (hp : x.page = none) :
    let on := Zone.poweredUp { x with cfg := cfg, relay := cfg.relayFlag, page := none }
    (settledZone cfg x).state = on.state ∧ (settledZone cfg x).ampen = on.ampen
      ∧ (settledZone cfg x).timer = on.timer ∧ (settledZone cfg x).falseRun = 0 := by
  unfold settledZone Zone.install
  rw [if_neg h]
  dsimp only
  rw [if_neg nofun, if_pos (hw.imp (fun hr => by simp [Zone.demand, hr]) fun hs => by simp [Zone.alwaysPowered, hs])]
  unfold Zone.poweredUp
  dsimp only
  rw [hp]
  split
  · exact ⟨rfl, rfl, rfl, rfl⟩
  · split <;> exact ⟨rfl, rfl, rfl, rfl⟩

theorem gatedZone_settled (r : State) (cfg : ZoneCfg) {x : Zone} (hp : x.page = none) :
    gatedZone r (settledZone cfg x) = { settledZone cfg x with
      cfg := cfg, relay := cfg.relayFlag, page := none, clips := 0, faults := x.faults
      held := heldBy r cfg.holdMask
      relayHold := x.relayHold.command (if heldBy r cfg.holdMask then -480 else 0) (rampFrames r cfg.holdRamp)
      pageHold := x.pageHold.command (if heldBy r cfg.holdMask then -480 else 0) (rampFrames r cfg.holdRamp)
      duck := x.duck.command 0 (rampFrames r cfg.duckRamp) } := by
  rw [settledZone_same cfg x, hp]
  have hclosed : ∀ b : Bool, pageHoldClosed b none = b := fun b => by cases b <;> rfl
  unfold gatedZone heldZone
  dsimp only [Option.bind_none]
  simp only [hclosed]

/-- The state after the install, but for what its mirror bursts and its answer concern. -/
theorem install_leads {job : LoadJob} (hq : s.Quiet) (hl : s.load = some job) (hf : job.fail = none)
    (ht : job.todo = []) (hp : ∀ p : PageId, s.pages[p] = none) : ∃ (l : List Burst) (m : Mirror),
    event (installDue s) installLoad s = { answered (installAnswer job.staging s) s (installed job.staging [] s) with
      wq := { (answered (installAnswer job.staging s) s (installed job.staging [] s)).wq with
        queue := (answered (installAnswer job.staging s) s (installed job.staging [] s)).wq.queue ++ l, began := false }
      mirror := m, marks := [] }
    ∧ m.base = some job.staging.dir.mirror.toNat
    ∧ ∀ a : Area, s.HandedOver job.staging.dir.mirror.toNat a (event (installDue s) installLoad s) := by
  have hends := install_ends hq hl hf ht hp
  obtain ⟨l, m, ht', -, hbase, -⟩ := EndsAs.law hends
  refine ⟨l, m, ht', hbase, fun a => ?_⟩
  exact handedOver_of_areas (endsAs_handsOver hends (mem_all a) (base := job.staging.dir.mirror.toNat) rfl) rfl

/-- Settles O26: each block takes its part of the staged show, and no zone that enters LIVE carries a page. -/
theorem installReplacesTheShow : Obligations.InstallReplacesTheShow := by
  unfold Obligations.InstallReplacesTheShow
  intro s job hr hq hl hf ht hp hz
  obtain ⟨l, m, ht', hbase, hover⟩ := install_leads hq hl hf ht hp
  refine ⟨_, running_next (fun s => event (installDue s) installLoad s) hr, ?_⟩
  generalize event (installDue s) installLoad s = t at ht' hover
  generalize hU : answered (installAnswer job.staging s) s (installed job.staging [] s) = U at ht'
  have h {α : Type} (f : State → α) {y : α} (hy : f (answered (installAnswer job.staging s) s
      (installed job.staging [] s)) = y) : f U = y := hU ▸ hy
  have hstandby : U.seq.standby = (firstCue s.mem (job.staging.dir.bases[(10 : Fin 13)]).toNat).map standbyOf := by
    rw [h (·.seq) rfl]
    exact installed_standby job.staging [] s
  subst ht'
  dsimp only
  have hchannels : U.channels = (installed job.staging [] s).channels := h (·.channels) rfl
  have hroles : U.roles = (installed job.staging [] s).roles := h (·.roles) rfl
  have hmixes : U.mixes = (installed job.staging [] s).mixes := h (·.mixes) rfl
  have hzones : U.zones = (installed job.staging [] s).zones := h (·.zones) rfl
  have hkept := installed_kept (x := job.staging) [] s (installAnswer job.staging s)
  have hlevels : U.levels = installLevels job.staging := h (·.levels) rfl
  have hvoices : U.voices = (installed job.staging [] s).voices := h (·.voices) rfl
  have hcalls : U.calls = (installed job.staging [] s).calls := h (·.calls) rfl
  have hlevel (e : Elem) : U.levels.get e = (installLevels job.staging).get e := by rw [hlevels]
  refine ⟨h (·.engine) rfl, h (·.load) rfl, h (·.header) rfl, h (·.regions) rfl, h (·.sends) rfl, h (·.outMap) rfl,
    h (·.voiceGroups) rfl, h (·.zoneGroups) rfl, h (·.tables) rfl, fun c => ?_, fun r => ?_, fun k => ?_, fun z => ?_,
    fun v => ?_, fun c => ?_, fun r k => ?_, fun v => ?_, fun g => ?_, fun i => ?_, fun k => ?_, fun z => ?_,
    fun i => ?_, h (·.seq.running) rfl, h (·.seq.pause) rfl, h (·.seq.guard) rfl, h (·.seq.follow) rfl,
    h (·.seq.parent) rfl, h (·.seq.last) rfl, hstandby, h (·.arb.reads) rfl, hbase, hover, ?_, ?_, hU ▸ hkept⟩
  · rw [hchannels, installed_channel]
    refine ⟨ChannelRec.install_cfg .., ChannelRec.install_unused _ _ _, fun hu ho => ?_, fun hu ho => ?_⟩
    · obtain ⟨hst, htm, hg⟩ := ChannelRec.install_new s.channels[c] s.rx[linkOf c] (slotOf c) hu ho
      exact ⟨hst, htm, hg.trans (gateFor_eq ..)⟩
    · obtain ⟨hst, htm, hg⟩ := ChannelRec.install_kept s.channels[c] s.rx[linkOf c] (slotOf c) hu ho
      rw [gateFor_eq] at hg
      exact ⟨hst, htm, hg⟩
  · rw [hroles, installed_role]
    exact ⟨rfl, rfl, rfl, fun k => tabulate_get _ _ _⟩
  · rw [hmixes, installed_mix, installedMix_eq]
    exact ⟨rfl, rfl, rfl, rfl, rfl, rfl⟩
  · rw [hzones, installed_zone, gatedZone_settled _ _ (hz z)]
    exact ⟨rfl, rfl, rfl, rfl, rfl, rfl, rfl, rfl, rfl, settledZone_fault, fun ho hr hs => settledZone_off ho hr hs (hz z),
      fun ho hw => settledZone_on ho hw (hz z)⟩
  · rw [hvoices, installed_voice]
  · rw [hcalls, installed_call]
    rfl
  · exact ⟨(hlevel _).trans (installLevels_role _ r), (hlevel _).trans (installLevels_tap _ r k)⟩
  · exact (hlevel _).trans (installLevels_voice _ v)
  · exact hlevel _
  · exact (hlevel _).trans (installLevels_send _ i)
  · exact (hlevel _).trans (installLevels_master _ k)
  · exact (hlevel _).trans (installLevels_zone _ z)
  · rw [h (·.fades) rfl]
    exact Vector.getElem_replicate i.isLt
  · rw [h (·.clock) rfl]
    exact installed_clock job.staging [] s
  · rw [hstandby]
    exact h (·.slate.lastAnswer) rfl

end Sys2Proof.Proofs.Ends
end

section
/-! PROOF. What each table's check says of its records (R183), and what a good record is staged as. -/

namespace Sys2Proof.Proofs.Loads

open Sys2Proof.Machine
open Sys2Proof.Proofs.Ends

/-! ## The lowest index that fails a check -/

theorem find_finRange_some {n : Nat} {p : Fin n → Bool} {i : Fin n} (h : p i = true) (hlow : ∀ j < i, ¬ p j = true) :
    (List.finRange n).find? p = some i := by
  rw [List.find?_eq_some_iff_getElem]
  refine ⟨h, i.val, by simp, by simp, fun j hj => ?_⟩
  rw [List.getElem_finRange, Bool.not_eq_true', ← Bool.not_eq_true]
  exact hlow ⟨j, by omega⟩ hj

theorem find_finRange_none {n : Nat} {p : Fin n → Bool} (h : ∀ i, ¬ p i = true) : (List.finRange n).find? p = none :=
  List.find?_eq_none.mpr fun i _ => h i

theorem firstBad_some {n : Nat} {bad : Fin n → Bool} {i : Fin n} (h : bad i = true) (hlow : ∀ j < i, ¬ bad j = true) :
    firstBad bad = some (wordOf i.val) := by
  unfold firstBad
  rw [find_finRange_some h hlow]
  rfl

theorem firstBad_none {n : Nat} {bad : Fin n → Bool} (h : ∀ i, ¬ bad i = true) : firstBad bad = none := by
  unfold firstBad
  rw [find_finRange_none h]
  rfl

theorem lowestBad_firstBad {n : Nat} {bad : Fin n → Bool} {P : Fin n → Prop} (h : ∀ i, bad i = true ↔ P i) :
    LowestBad P (firstBad bad) :=
  ⟨fun i hi hlow => firstBad_some ((h i).mpr hi) fun j hj => mt (h j).mp (hlow j hj),
    fun hno => firstBad_none fun i => mt (h i).mp (hno i)⟩

theorem any_finRange {n : Nat} {p : Fin n → Bool} : (List.finRange n).any p = true ↔ ∃ i, p i = true := by
  simp

theorem some_elim_iff {α : Type} {o : Option α} {p : α → Bool} :
    (match o with | none => false | some x => p x) = true ↔ ∃ x, o = some x ∧ p x = true := by
  cases o <;> simp

theorem fin?_eq_none {k n : Nat} : fin? k n = none ↔ k ≤ n := by
  unfold fin?
  split <;> simp <;> omega

/-! ## Two byte ranges -/

/-- Two ranges of bytes meet. -/
def Meets (a la b lb : Nat) : Prop := 0 < la ∧ 0 < lb ∧ a < b + lb ∧ b < a + la

theorem rangesMeet_iff {a la b lb : Nat} : rangesMeet a la b lb = true ↔ Meets a la b lb := by
  unfold rangesMeet Meets
  simp only [Bool.and_eq_true, decide_eq_true_eq, and_assoc]

/-! ## The checks, record by record -/

theorem badBase_iff {n base extent : Nat} :
    badBase n base extent = true ↔ base % 4 ≠ 0 ∨ base < 0x780 ∨ n < base + extent := by
  unfold badBase
  simp only [Bool.or_eq_true, bne_iff_ne, decide_eq_true_eq, or_assoc]

theorem badRegion_iff {n : Nat} {v : Vector RawRegion 8} {i : Fin 8} : badRegion n v i = true
    ↔ v[i].kind ≠ 0 ∧ (3 < v[i].kind ∨ v[i].base % 4 ≠ 0 ∨ v[i].length % 4 ≠ 0 ∨ n < v[i].base + v[i].length
      ∨ Meets v[i].base v[i].length 0 0x780
      ∨ ∃ j, j ≠ i ∧ 1 ≤ v[j].kind ∧ v[j].kind ≤ 3 ∧ Meets v[i].base v[i].length v[j].base v[j].length) := by
  unfold badRegion RawRegion.used
  simp only [Bool.and_eq_true, Bool.or_eq_true, bne_iff_ne, decide_eq_true_eq, any_finRange, rangesMeet_iff, or_assoc,
    and_assoc]

theorem mirrorInside_iff {v : Vector RawRegion 8} {a : Nat} : mirrorInside v a = true
    ↔ ∃ i : Fin 8, v[i].kind = 2 ∧ v[i].base ≤ a ∧ a + 0x4000 ≤ v[i].base + v[i].length := by
  unfold mirrorInside
  rw [List.any_eq_true]
  simp only [Vector.mem_toList_iff, Vector.mem_iff_getElem, Bool.and_eq_true, beq_iff_eq, decide_eq_true_eq, and_assoc]
  constructor
  · rintro ⟨r, ⟨i, hi, rfl⟩, hr⟩
    exact ⟨⟨i, hi⟩, hr⟩
  · rintro ⟨i, hi⟩
    exact ⟨v[i], ⟨i.val, i.isLt, rfl⟩, hi⟩

theorem rawInitial_eq (r : RawRole) : rawInitial r = (r.initial.bind (fin? 4)).bind fun t => r.taps[t] := by
  unfold rawInitial
  cases r.initial.bind (fin? 4) <;> rfl

theorem badTaps_iff {taps : Vector (Option Nat) 4} : taps.toList.any badTap = true
    ↔ ∃ (t : TapId) (c : Nat), taps[t] = some c ∧ 63 < c := by
  have hbad (o : Option Nat) : badTap o = true ↔ ∃ c, o = some c ∧ 63 < c := by
    unfold badTap
    cases o <;> simp
  rw [List.any_eq_true]
  simp only [Vector.mem_toList_iff, Vector.mem_iff_getElem, hbad]
  constructor
  · rintro ⟨_, ⟨i, hi, rfl⟩, c, hc⟩
    exact ⟨⟨i, hi⟩, c, hc⟩
  · rintro ⟨t, c, hc⟩
    exact ⟨_, ⟨t.val, t.isLt, rfl⟩, c, hc⟩

theorem badRole_iff {v : Vector RawRole 96} {i : RoleId} : badRole v i = true
    ↔ (∃ (t : TapId) (c : Nat), v[i].taps[t] = some c ∧ 63 < c)
      ∨ (∃ t, v[i].initial = some t ∧ (3 < t ∨ rawInitial v[i] = none))
      ∨ (∃ g, v[i].group = some g ∧ 15 < g)
      ∨ ∃ (c : Nat) (q : RoleId), rawInitial v[i] = some c ∧ q < i ∧ rawInitial v[q] = some c := by
  unfold badRole
  simp only [Bool.or_eq_true, badTaps_iff, or_assoc]
  refine or_congr Iff.rfl (or_congr ?_ (or_congr ?_ ?_))
  · cases v[i].initial <;> simp
  · cases v[i].group <;> simp
  · simp only [Bool.and_eq_true, any_finRange, decide_eq_true_eq, beq_iff_eq]
    cases h : rawInitial v[i] with
    | none => simp
    | some c => simp

theorem badMix_iff {v : Vector RawMix 40} {i : MixId} : badMix v i = true
    ↔ v[i].kind = none ∨ 3 < v[i].holdRamp ∨ 1023 < v[i].first ∨ 1024 < v[i].first + v[i].count
      ∨ ∃ j < i, Meets v[i].first v[i].count v[j].first v[j].count := by
  unfold badMix
  simp only [Bool.or_eq_true, Bool.and_eq_true, decide_eq_true_eq, any_finRange, rangesMeet_iff, or_assoc,
    Option.isNone_iff_eq_none]

theorem runOf_some {mixes : Vector MixCfg 40} {i : Nat} {j : MixId} (h : runOf mixes i = some j) :
    mixes[j].first ≤ i ∧ i < mixes[j].first + mixes[j].count := by
  have := List.find?_some h
  simpa only [Bool.and_eq_true, decide_eq_true_eq] using this

theorem runOf_none {mixes : Vector MixCfg 40} {i : Nat} (h : runOf mixes i = none) (j : MixId) :
    ¬ (mixes[j].first ≤ i ∧ i < mixes[j].first + mixes[j].count) := by
  have := List.find?_eq_none.mp h j (List.mem_finRange j)
  simpa only [Bool.and_eq_true, decide_eq_true_eq] using this

theorem elemOr_eq {α : Type} {n : Nat} [Inhabited α] (v : Vector α n) (i : Fin n) : elemOr v i.val = v[i] := by
  unfold elemOr
  simp

/-- An entry of a run has a source that an earlier entry of the run has. -/
theorem sourceTwice_iff {v : Vector RawSend 1024} {i : SendId} {first count : Nat} (h : first ≤ i.val ∧ i.val < first + count) :
    ((List.range (i.val - first)).any fun k => (elemOr v (first + k)).source == v[i].source) = true
      ↔ ∃ h < i, (first ≤ h.val ∧ h.val < first + count) ∧ v[h].source = v[i].source := by
  simp only [List.any_eq_true, List.mem_range, beq_iff_eq]
  constructor
  · rintro ⟨k, hk, he⟩
    refine ⟨⟨first + k, by omega⟩, ?_, ⟨by simp, by simp; omega⟩, ?_⟩
    · show first + k < i.val
      omega
    · rw [← elemOr_eq]
      exact he
  · rintro ⟨h, hi, hh, he⟩
    have hlt : h.val < i.val := hi
    refine ⟨h.val - first, by omega, ?_⟩
    rw [show first + (h.val - first) = h.val by omega, elemOr_eq]
    exact he

theorem badSend_iff {mixes : Vector MixCfg 40} {v : Vector RawSend 1024} {i : SendId}
    (huniq : ∀ (i : SendId) (j j' : MixId), (mixes[j].first ≤ i.val ∧ i.val < mixes[j].first + mixes[j].count) →
      (mixes[j'].first ≤ i.val ∧ i.val < mixes[j'].first + mixes[j'].count) → j = j') : badSend mixes v i = true
    ↔ (∃ k, v[i].mix = some k ∧ 39 < k) ∨ 111 < v[i].source
      ∨ (∃ j : MixId, (mixes[j].first ≤ i.val ∧ i.val < mixes[j].first + mixes[j].count)
          ∧ (v[i].mix ≠ some j.val
            ∨ ∃ h < i, (mixes[j].first ≤ h.val ∧ h.val < mixes[j].first + mixes[j].count) ∧ v[h].source = v[i].source))
      ∨ ((∀ j : MixId, ¬ (mixes[j].first ≤ i.val ∧ i.val < mixes[j].first + mixes[j].count)) ∧ v[i].mix ≠ none) := by
  unfold badSend
  simp only [Bool.or_eq_true, decide_eq_true_eq, or_assoc]
  refine or_congr ?_ (or_congr Iff.rfl ?_)
  · cases v[i].mix <;> simp
  · cases hr : runOf mixes i.val with
    | none =>
      dsimp only
      rw [Option.isSome_iff_ne_none]
      exact ⟨fun h => .inr ⟨runOf_none hr, h⟩, fun h => h.elim (fun ⟨j, hj, _⟩ => absurd hj (runOf_none hr j)) fun h => h.2⟩
    | some j =>
      have hj := runOf_some hr
      dsimp only
      rw [Bool.or_eq_true, bne_iff_ne, sourceTwice_iff hj]
      constructor
      · exact fun h => .inl ⟨j, hj, h⟩
      · rintro (⟨j', hj', h⟩ | ⟨hno, _⟩)
        · exact huniq i j j' hj hj' ▸ h
        · exact absurd hj (hno j)

theorem badVoiceGroup_iff {v : Vector (Option Nat) 16} {i : VoiceId} : badVoiceGroup v i = true
    ↔ ∃ g, v[i] = some g ∧ 15 < g := by
  unfold badVoiceGroup
  cases v[i] <;> simp

theorem badZone_iff {mixes : Vector MixCfg 40} {r : RawZone} : badZone mixes r = true
    ↔ (∃ j, r.relayMix = some j ∧ ∀ k : MixId, k.val = j → mixes[k].kind ≠ .relay)
      ∨ 3 < r.duckRamp ∨ 3 < r.holdRamp := by
  unfold badZone
  simp only [Bool.or_eq_true, decide_eq_true_eq, or_assoc]
  refine or_congr ?_ Iff.rfl
  cases r.relayMix with
  | none => simp
  | some j =>
    dsimp only
    by_cases hj : j < 40
    · have : fin? 40 j = some ⟨j, hj⟩ := dif_pos hj
      simp only [this, bne_iff_ne, Option.some.injEq, exists_eq_left']
      exact ⟨fun h k hk => Fin.ext (b := k) (a := ⟨j, hj⟩) hk.symm ▸ h, fun h => h ⟨j, hj⟩ rfl⟩
    · have : fin? 40 j = none := fin?_eq_none.mpr (by omega)
      simp only [this, Option.some.injEq, exists_eq_left', true_iff]
      exact fun k hk => absurd (hk ▸ k.isLt) hj

theorem badCall_iff {mask : BitVec 16} {r : RawCall} : badCall mask r = true
    ↔ 6 < r.day ∨ 23 < r.hours ∨ 59 < r.minutes ∨ 59 < r.seconds ∨ r.maskLevel = none ∨ 7 < r.group
      ∨ 1023 < r.sound ∨ 15 < r.voice ∨ mask.getLsbD r.voice = false := by
  unfold badCall
  simp only [Bool.or_eq_true, decide_eq_true_eq, or_assoc, Option.isNone_iff_eq_none, Bool.not_eq_true']

end Sys2Proof.Proofs.Loads
end

section
/-! PROOF. LOAD_SHOW, its table turns and its refusal (R182, R183). -/

namespace Sys2Proof.Proofs.Loads

open Sys2Proof.Machine
open Sys2Proof.Proofs.Ends Sys2Proof.Proofs.Turns Sys2Proof.Proofs.Steps

variable {s : State}

/-! ## The request (R182) -/

theorem any_vector {α : Type} {n : Nat} {v : Vector α n} {p : α → Bool} :
    v.toList.any p = true ↔ ∃ i : Fin n, p v[i] = true := by
  rw [List.any_eq_true]
  simp only [Vector.mem_toList_iff, Vector.mem_iff_getElem]
  constructor
  · rintro ⟨_, ⟨i, hi, rfl⟩, h⟩
    exact ⟨⟨i, hi⟩, h⟩
  · rintro ⟨i, h⟩
    exact ⟨_, ⟨i.val, i.isLt, rfl⟩, h⟩

theorem voicesBusy_iff : s.voices.toList.any (·.state != .idle) = true ↔ ∃ v : VoiceId, s.voices[v].state ≠ .idle := by
  rw [any_vector]
  simp only [bne_iff_ne]

theorem pagesBusy_iff : s.pages.toList.any Option.isSome = true ↔ ∃ p : PageId, s.pages[p] ≠ none := by
  rw [any_vector]
  simp only [Option.isSome_iff_ne_none]

theorem callsBusy_iff : s.calls.toList.any (·.inst.isSome) = true ↔ ∃ c : CallId, s.calls[c].inst ≠ none := by
  rw [any_vector]
  simp only [Option.isSome_iff_ne_none]

/-- The first of the conditions that refuses a load of a LOADED engine. -/
theorem loadBusy_eq (he : s.engine = .loaded) : loadBusy s =
    if s.seq.running ≠ [] then some .cues
    else if s.voices.toList.any (·.state != .idle) then some .voices
    else if s.pages.toList.any Option.isSome then some .pages
    else if s.calls.toList.any (·.inst.isSome) then some .calls
    else none := by
  unfold loadBusy
  rw [if_neg (not_not_intro he)]

theorem loadBusy_none (h : s.engine = .stopped ∨ (¬ s.seq.running ≠ [] ∧ ¬ (∃ v : VoiceId, s.voices[v].state ≠ .idle)
    ∧ ¬ (∃ p : PageId, s.pages[p] ≠ none) ∧ ¬ ∃ c : CallId, s.calls[c].inst ≠ none)) : loadBusy s = none := by
  by_cases he : s.engine = .loaded
  · obtain ⟨hc, hv, hp, hcl⟩ := h.resolve_left (by rw [he]; nofun)
    rw [loadBusy_eq he, if_neg hc, if_neg (mt voicesBusy_iff.mp hv), if_neg (mt pagesBusy_iff.mp hp),
      if_neg (mt callsBusy_iff.mp hcl)]
  · exact if_pos he

theorem loadShow_locked (h : s.lock ≠ .off) : ownerOf .loadShow s = (s, some (answer .locked (restWords s))) := if_pos h

theorem loadShow_busy {r : RefusedFor} (hl : s.lock = .off) (h : loadBusy s = some r) : ownerOf .loadShow s
    = (s, some (answer .busy (wordsOf (Config.code (.refusedFor r)) (rest s 1) (rest s 2) (rest s 3)))) := by
  show loadShowOwner s = _
  unfold loadShowOwner
  rw [if_neg (not_not_intro hl), h]

/-- LOAD_SHOW begins. -/
def loadBegun (s : State) : State := { s with
  load := some { origin := s.engine, todo := tableOrder, fail := none, staging := emptyShow }
  engine := .loading
  arb := { s.arb with reads := s.arb.reads ++ [.table .directory] } }

theorem loadShow_begins (hl : s.lock = .off) (h : loadBusy s = none) :
    ownerOf .loadShow s = (mark .engine (loadBegun s), none) := by
  show loadShowOwner s = _
  unfold loadShowOwner
  rw [if_neg (not_not_intro hl), h]
  rfl

/-- A request whose owner has it and will answer later. -/
theorem request_later {r : Request} {v : State} (ht : s.Takes r) (ho : ownerOf r (markHanded s) = (v, none)) :
    request r s = finish v := by
  obtain ⟨hr, _, hd, he⟩ := ht
  unfold request handOver
  rw [event_due hd, if_neg (by rcases he with he | he <;> simp [he]), ho]

theorem loadShow_begun (ht : s.Takes .loadShow) (hl : s.lock = .off) (h : loadBusy s = none) :
    State.EndsAs [.engine] (loadBegun (markHanded s)) (request .loadShow s) := by
  rw [request_later ht (loadShow_begins (s := markHanded s) hl h)]
  exact ((Reaches.refl (s := loadBegun (markHanded s)) ht.2.1.2).area .engine).endsAs ht.2.1.1

/-! ## A table's turn (R183, R178) -/

theorem loadTable_eq {job : LoadJob} {k : TableKind} (h : s.load = some job) : loadTable k s = { s with
    load := some { job with
      staging := (stage s.mem s.memSize k job.staging).1, todo := job.todo.tail
      fail := (stage s.mem s.memSize k job.staging).2.map fun w => (k, w) }
    arb := { s.arb with reads := s.arb.reads ++ (match (stage s.mem s.memSize k job.staging).2, job.todo.tail with
      | none, next :: _ => [.table next]
      | _, _ => []) } } := by
  unfold loadTable
  rw [h]
  dsimp only
  generalize stage s.mem s.memSize k job.staging = x
  obtain ⟨staging, bad⟩ := x
  cases bad with
  | none =>
    cases job.todo.tail with
    | nil =>
      dsimp only
      rw [List.append_nil]
    | cons k' l => rfl
  | some w =>
    dsimp only
    rw [List.append_nil]

theorem tableTurn {job : LoadJob} {k : TableKind} {l : List EngineRead} (hr : s.Runs) (hq : s.Quiet)
    (hb : s.arb.busy = none) (hu : nextUser s = some (.read (.table k))) (hl : s.arb.reads = .table k :: l)
    (hj : s.load = some job) : ∃ t, exec .memoryGrant s = .next t ∧ State.EndsAs [] { s with
      load := some { job with
        staging := (stage s.mem s.memSize k job.staging).1, todo := job.todo.tail
        fail := (stage s.mem s.memSize k job.staging).2.map fun w => (k, w) }
      arb := { s.arb with
        reads := l ++ (match (stage s.mem s.memSize k job.staging).2, job.todo.tail with
          | none, next :: _ => [.table next]
          | _, _ => [])
        hostWait := if hostWaits s then min (s.arb.hostWait + 1) 2 else s.arb.hostWait } } t := by
  refine ⟨_, exec_grant hr hb hu nofun, ?_⟩
  have hcount : countTurn { s with arb := { s.arb with reads := s.arb.reads.tail } } = { s with
      arb := { s.arb with reads := l, hostWait := if hostWaits s then min (s.arb.hostWait + 1) 2 else s.arb.hostWait } } := by
    rw [countTurn_eq, hl]
    rfl
  have hgrant : grant (.read (.table k)) s = _ :=
    (congrArg (loadTable k) hcount).trans (loadTable_eq (job := job) hj)
  rw [hgrant]
  exact endsAs_unmarked hq.1 hq.2

/-! ## The refusal (R183) -/

theorem loadRefused {job : LoadJob} {k : TableKind} {w : Word} (hr : s.Runs) (hq : s.Quiet)
    (hl : s.load = some job) (hf : job.fail = some (k, w)) : ∃ t, exec .loadRefused s = .next t
      ∧ State.Answered [.engine] { s with load := none, engine := job.origin }
        { code := .badTable, words := wordsOf (wordOf (tableCode k)) w (rest s 2) (rest s 3) } t := by
  have hdue : refusedDue s = true := by
    unfold refusedDue
    rw [hl]
    dsimp only
    rw [hf]
    rfl
  refine ⟨_, running_next (fun s => event (refusedDue s) refuseLoad s) hr, ?_⟩
  have hop : refuseLoad s = finishRequest
      (answer .badTable (wordsOf (wordOf (tableCode k)) w (rest s 2) (rest s 3)))
      (mark .engine { s with load := none, engine := job.origin }) := by
    unfold refuseLoad
    rw [hl]
    dsimp only
    rw [hf]
    rfl
  rw [event_due hdue, hop]
  have h := ((Reaches.refl (s := { s with load := none, engine := job.origin }) hq.2).area .engine).plain
    (plain_finishRequest (answer .badTable (wordsOf (wordOf (tableCode k)) w (rest s 2) (rest s 3))))
  exact h.endsAs ((finishRequest_notes _ _).trans hq.1)

/-! ## The staging (R183) -/

section

variable (m : Memory) (n : Nat) (x : Show)

theorem readTable_get {α : Type} {k words : Nat} (base : Nat) (decode : Vector Word words → α) (i : Fin k) :
    (readTable m base k words decode)[i] = decode (Memory.readWords m (base + 4 * words * i.val) words) :=
  tabulate_get _ _ _

theorem readWords_get (a : Nat) {k : Nat} (i : Fin k) : (Memory.readWords m a k)[i] = Memory.readWord m (a + 4 * i.val) :=
  tabulate_get _ _ _

theorem mapVec_tabulate {α β : Type} {k : Nat} {f : α → β} {g : Fin k → α} :
    mapVec f (tabulate g) = tabulate fun i => f (g i) := vec_ext fun i => by
  refine (mapVec_get _ _ _ _).trans ?_
  exact (congrArg f (tabulate_get g i i.isLt)).trans (tabulate_get (fun i => f (g i)) i i.isLt).symm

theorem directory_checked : LowestBad (fun i : Fin 13 => (Memory.readWord m (4 * i.val)).toNat % 4 ≠ 0
      ∨ (Memory.readWord m (4 * i.val)).toNat < 0x780
      ∨ n < (Memory.readWord m (4 * i.val)).toNat + [512, 1536, 640, 8192, 128, 256, 384, 32, 256, 16384, 8192,
          131072, 96].getD i.val 0) (stage m n .directory x).2 :=
  lowestBad_firstBad fun i => by
    have hbase : (readDirectory m).base i = (Memory.readWord m (4 * i.val)).toNat := by
      unfold Directory.base readDirectory
      dsimp only
      rw [readWords_get, Nat.zero_add]
    rw [hbase]
    exact badBase_iff

theorem directory_staged : (stage m n .directory x).1 = { x with
    dir := { bases := tabulate fun i => Memory.readWord m (4 * i.val), mirror := Memory.readWord m 0x34 }
    header :=
      { source := if (Memory.readWord m 0x100).getLsbD 0 then .wclk else .internal
        guard := min (Memory.readWord m 0x104).toNat 2000
        ramps := tabulate fun i => min (Memory.readWord m (0x108 + 4 * i.val)).toNat 250
        pageLimit := min (Memory.readWord m 0x118).toNat 600
        inputMask := (Memory.readWord m 0x11C).getLsbD 0
        zoneMask := (Memory.readWord m 0x11C).getLsbD 1
        captureMasks := (Memory.readWord m 0x120).extractLsb' 0 12
        callCapable := (Memory.readWord m 0x124).extractLsb' 0 16 } } := by
  have hbases : Memory.readWords m 0 13 = tabulate fun i => Memory.readWord m (4 * i.val) :=
    congrArg tabulate (funext fun i => by rw [Nat.zero_add])
  unfold stage readDirectory readHeader
  dsimp only
  rw [hbases, Memory.readWords, mapVec_tabulate]

/-- The region entries as read. -/
def rawRegions : Vector RawRegion 8 := readTable m (x.base 12) 8 3 regionOfWords

theorem rawRegions_get (i : Fin 8) : (rawRegions m x)[i] = { base := (Memory.readWord m (x.base 12 + 12 * i.val)).toNat
                                                             length := (Memory.readWord m (x.base 12 + 12 * i.val + 4)).toNat
                                                             kind := (Memory.readWord m (x.base 12 + 12 * i.val + 8)).toNat } := by
  refine (readTable_get m _ _ i).trans ?_
  rfl

theorem installRegion_eq (r : RawRegion) : installRegion r = match (r.base, r.length, r.kind) with
    | (b, len, 1) => { base := b, length := len, kind := .openRegion }
    | (b, len, 2) => { base := b, length := len, kind := .mirror }
    | (b, len, 3) => { base := b, length := len, kind := .lockable }
    | _ => { base := 0, length := 0, kind := .unused } := by
  obtain ⟨b, len, kind⟩ := r
  rcases kind with _ | _ | _ | _ | k
  case succ.succ.succ.succ => exact if_neg (by simp [RawRegion.used])
  all_goals rfl

theorem regions_staged : (stage m n .region x).1 = { x with
    regions := tabulate fun i => match ((Memory.readWord m (x.base 12 + 12 * i.val)).toNat,
        (Memory.readWord m (x.base 12 + 12 * i.val + 4)).toNat, (Memory.readWord m (x.base 12 + 12 * i.val + 8)).toNat) with
      | (b, len, 1) => { base := b, length := len, kind := .openRegion }
      | (b, len, 2) => { base := b, length := len, kind := .mirror }
      | (b, len, 3) => { base := b, length := len, kind := .lockable }
      | _ => { base := 0, length := 0, kind := .unused } } := by
  have : mapVec installRegion (rawRegions m x) = tabulate fun i => installRegion (rawRegions m x)[i] :=
    vec_ext fun i => (mapVec_get _ _ _ _).trans (tabulate_get (fun i : Fin 8 => installRegion (rawRegions m x)[i]) i i.isLt).symm
  refine (congrArg (fun v => { x with regions := v }) this).trans ?_
  simp only [installRegion_eq, rawRegions_get]

theorem regions_checked : (stage m n .region x).2 = checkRegions n (rawRegions m x) x.dir.mirror.toNat := rfl

theorem checkRegions_good {v : Vector RawRegion 8} {mirror : Nat} (h : ∀ i, ¬ badRegion n v i = true) :
    checkRegions n v mirror = if mirrorInside v mirror = true then none else some 0#32 := by
  unfold checkRegions
  rw [firstBad_none h]

theorem tabulate_toList {α : Type} {k : Nat} (f : Fin k → α) : (tabulate f).toList = (List.finRange k).map f := rfl

theorem cues_staged : (stage m n .cue x).1 = { x with
    cues := (List.finRange 512).filterMap fun i => (readCue m (x.base 10) i.val).sound? } := by
  show { x with cues := (tabulate fun i : Fin 512 => readCue m (x.base 10) i.val).toList.filterMap CueRead.sound? } = _
  rw [tabulate_toList, List.filterMap_map]
  rfl

theorem cues_checked : (stage m n .cue x).2 = checkCues (readCues m (x.base 10)) := by
  unfold stage
  dsimp only

theorem readCues_get (base : Nat) (i : Fin 512) : (readCues m base)[i] = readCue m base i.val := by
  unfold readCues
  simp only [Fin.getElem_fin, tabulate_get]

theorem checkCues_unsound {m : Memory} {base : Nat} {i : Fin 512} (hi : readCue m base i.val = .unsound)
    (hlow : ∀ j < i, readCue m base j.val ≠ .unsound) : checkCues (readCues m base) = some (wordOf i.val) := by
  have hbad : firstUnsound (readCues m base) = some (wordOf i.val) := by
    unfold firstUnsound
    refine firstBad_some ?_ fun j hj => ?_
    · rw [readCues_get, hi]
      rfl
    · rw [readCues_get, beq_iff_eq]
      exact hlow j hj
  unfold checkCues
  rw [hbad]
  rfl

theorem checkCues_sound {m : Memory} {base : Nat} (hno : ∀ i : Fin 512, readCue m base i.val ≠ .unsound) :
    checkCues (readCues m base) = none ↔ ∃ (i : Fin 512) (c : CueRec), readCue m base i.val = .sound c := by
  have hgood : firstUnsound (readCues m base) = none := by
    unfold firstUnsound
    refine firstBad_none fun i => ?_
    rw [readCues_get, beq_iff_eq]
    exact hno i
  have hsound : (readCues m base).toList.any (·.sound?.isSome) = true
      ↔ ∃ (i : Fin 512) (c : CueRec), readCue m base i.val = .sound c := by
    rw [any_vector]
    refine exists_congr fun i => ?_
    rw [readCues_get]
    cases readCue m base i.val <;> simp [CueRead.sound?]
  unfold checkCues noSoundCue
  rw [hgood, Option.none_or, ← hsound]
  split
  · next h => exact iff_of_true rfl h
  · next h => exact iff_of_false nofun h

theorem moves_checked : LowestBad (fun i : Fin 8192 => (∃ c ∈ x.cues, c.first ≤ i.val ∧ i.val < c.first + c.count)
    ∧ readMove m (x.base 11) i.val = none) (stage m n .move x).2 := by
  have hbad (i : Nat) : (inSomeRun x.cues i && (readMove m (x.base 11) i).isNone) = true
      ↔ (∃ c ∈ x.cues, c.first ≤ i ∧ i < c.first + c.count) ∧ readMove m (x.base 11) i = none := by
    unfold inSomeRun
    simp only [Bool.and_eq_true, List.any_eq_true, decide_eq_true_eq, Option.isNone_iff_eq_none]
  have hcheck : (stage m n .move x).2 = ((List.range 8192).find? fun i =>
      inSomeRun x.cues i && (readMove m (x.base 11) i).isNone).map wordOf := by
    unfold stage checkMoves
    dsimp only
  rw [hcheck]
  refine ⟨fun i hi hlow => ?_, fun hno => ?_⟩
  · have : (List.range 8192).find? (fun i => inSomeRun x.cues i && (readMove m (x.base 11) i).isNone) = some i.val := by
      rw [List.find?_eq_some_iff_getElem]
      refine ⟨(hbad i).mpr hi, i.val, by simp, by simp, fun j hj => ?_⟩
      rw [List.getElem_range, Bool.not_eq_true', ← Bool.not_eq_true]
      exact mt (hbad j).mp (hlow ⟨j, hj.trans i.isLt⟩ hj)
    rw [this]
    rfl
  · have : (List.range 8192).find? (fun i => inSomeRun x.cues i && (readMove m (x.base 11) i).isNone) = none :=
      List.find?_eq_none.mpr fun i hi => mt (hbad i).mp (hno ⟨i, List.mem_range.mp hi⟩)
    rw [this]
    rfl

theorem mapVec_words {β : Type} {k : Nat} (f : Word → β) (base : Nat) (i : Fin k) :
    (mapVec f (Memory.readWords m base k))[i] = f (Memory.readWord m (base + 4 * i.val)) :=
  (mapVec_get _ _ _ _).trans (congrArg f (readWords_get m base i))

/-- The send entries as read. -/
def rawSends : Vector RawSend 1024 := readTable m (x.base 3) 1024 2 Config.sendRecord

theorem rawSends_get (i : SendId) : (rawSends m x)[i] = Config.sendRecord (Memory.readWords m (x.base 3 + 8 * i.val) 2) :=
  readTable_get m (x.base 3) Config.sendRecord i

theorem sends_checked : (stage m n .send x).2 = firstBad (badSend x.mixes (rawSends m x)) := by
  unfold stage rawSends
  dsimp only

/-- What the staging of a show's tables comes to. -/
theorem staged_records : (stage m n .channel x).1 = { x with
        channels := tabulate fun i => channelCfg (Config.channelRecord (Memory.readWords m (x.base 0 + 8 * i.val) 2)) }
    ∧ (stage m n .role x).1 = { x with
        roles := tabulate fun i => roleCfg (Config.roleRecord (Memory.readWords m (x.base 1 + 16 * i.val) 4)) }
    ∧ (stage m n .mix x).1 = { x with
        mixes := tabulate fun i => mixCfg (Config.mixRecord (Memory.readWords m (x.base 2 + 16 * i.val) 4)) }
    ∧ (stage m n .send x).1 = { x with
        sends := tabulate fun i => sendOf (Config.sendRecord (Memory.readWords m (x.base 3 + 8 * i.val) 2)) }
    ∧ (stage m n .outputMap x).1 = { x with
        outMap := tabulate fun i => outputOf (Config.outputWord (Memory.readWord m (x.base 5 + 4 * i.val))) }
    ∧ (stage m n .zone x).1 = { x with
        zones := tabulate (fun i => zoneCfg (Config.zoneRecord (Memory.readWords m (x.base 6 + 16 * i.val) 4)))
        zoneGroups := tabulate fun g => (Memory.readWord m (x.base 7 + 4 * g.val)).extractLsb' 0 24 }
    ∧ (stage m n .call x).1 = { x with
        calls := tabulate fun i => callCfg (Config.callRecord (Memory.readWords m (x.base 8 + 16 * i.val) 4)) } := by
  have hwords {β : Type} {k : Nat} (f : Word → β) (base : Nat) : mapVec f (Memory.readWords m base k)
      = tabulate fun i => f (Memory.readWord m (base + 4 * i.val)) := mapVec_tabulate
  have houts : mapVec outputOf (mapVec Config.outputWord (Memory.readWords m (x.base 5) 64))
      = tabulate fun i : Fin 64 => outputOf (Config.outputWord (Memory.readWord m (x.base 5 + 4 * i.val))) := by
    rw [hwords, mapVec_tabulate]
  refine ⟨congrArg (fun v => { x with channels := v }) mapVec_tabulate,
    congrArg (fun v => { x with roles := v }) mapVec_tabulate, congrArg (fun v => { x with mixes := v }) mapVec_tabulate,
    congrArg (fun v => { x with sends := v }) mapVec_tabulate, congrArg (fun v => { x with outMap := v }) houts,
    ?_, congrArg (fun v => { x with calls := v }) mapVec_tabulate⟩
  exact congr (congrArg (fun v w => { x with zones := v, zoneGroups := w }) mapVec_tabulate) (hwords _ _)

end

end Sys2Proof.Proofs.Loads
end

section
/-! PROOF. What a good record is staged as (1.4 to 9.3, 11.7), and LOAD_SHOW as a whole. -/

namespace Sys2Proof.Proofs.Loads

open Sys2Proof.Machine
open Sys2Proof.Proofs.Ends Sys2Proof.Proofs.Steps

/-! ## Good records -/

theorem ramp_val (k : Fin 4) : ramp k.val = k := Fin.ext (Nat.mod_eq_of_lt k.isLt)

theorem bind_fin {k : Nat} (o : Option (Fin k)) : (o.map (·.val)).bind (fin? k) = o := by
  cases o with
  | none => rfl
  | some i => exact fin?_val i

theorem channelCfg_good {r : RawChannel} {k : Fin 4} (h : r.ramp = k.val) : channelCfg r =
    { used := r.used, autoMute := r.autoMute, ramp := k, confirm := min r.confirm 255
      hold := min r.hold 255, lossMask := r.lossMask, batteryMask := r.batteryMask } := by
  unfold channelCfg
  rw [h, ramp_val]

theorem roleCfg_good {r : RawRole} {taps : Vector (Option Channel) 4} {initial : Option TapId} {group : Option GroupId}
    (ht : ∀ t : TapId, r.taps[t] = (taps[t]).map (·.val)) (hi : r.initial = initial.map (·.val))
    (hg : r.group = group.map (·.val)) : roleCfg r =
      { taps := taps, initial := initial, level := levelOfField r.level, group := group
        autoSpare := r.autoSpare, spareTime := min r.spareTime 600000 } := by
  have htaps : mapVec (fun t => t.bind (fin? 64)) r.taps = taps := vec_ext fun t => by
    refine (mapVec_get _ _ _ _).trans ?_
    exact (congrArg (fun o : Option Nat => o.bind (fin? 64)) (ht t)).trans (bind_fin _)
  unfold roleCfg
  rw [htaps, hi, hg, bind_fin, bind_fin]
  rfl

theorem mixCfg_good {r : RawMix} {kind : MixKind} {k : Fin 4} (hk : r.kind = some kind) (h : r.holdRamp = k.val) :
    mixCfg r = { kind := kind, master := levelOfField r.master, ceiling := ceilingOfField kind r.ceiling
                 holdMask := r.holdMask, holdRamp := k, first := r.first, count := r.count } := by
  unfold mixCfg
  rw [hk, h, ramp_val]
  rfl

theorem sendOf_good {r : RawSend} {mix : Option MixId} {source : SourceId} (hm : r.mix = mix.map (·.val))
    (hs : r.source = source.val) : sendOf r = { mix := mix, source := source, level := levelOfField r.level, on := r.on } := by
  have hsource : (⟨source.val % 112, Nat.mod_lt _ (by decide)⟩ : SourceId) = source :=
    Fin.ext (Nat.mod_eq_of_lt source.isLt)
  unfold sendOf
  simp only [hm, hs, hsource, bind_fin]

theorem zoneCfg_good {r : RawZone} {mix : Option MixId} {duck hold : Fin 4} (hm : r.relayMix = mix.map (·.val))
    (hd : r.duckRamp = duck.val) (hh : r.holdRamp = hold.val) : zoneCfg r =
      { relayMix := mix, relayLevel := levelOfField r.relayLevel, relayFlag := r.relayFlag
        duckDepth := min r.duckDepth 480, duckRamp := duck, holdMask := r.holdMask, holdRamp := hold
        stability := r.stability.toNat, sample := r.sample.toNat, idle := r.idle.toNat
        faultMask := r.faultMask } := by
  unfold zoneCfg
  rw [hm, hd, hh, ramp_val, ramp_val, bind_fin]

theorem callCfg_good {r : RawCall} {mask : MaskLevel} {group : Fin 8} {voice : VoiceId} (hm : r.maskLevel = some mask)
    (hg : r.group = group.val) (hv : r.voice = voice.val) : callCfg r =
      { enabled := r.enabled, day := r.day, hours := r.hours, minutes := r.minutes, seconds := r.seconds
        maskLevel := mask, group := group, sound := r.sound, voice := voice
        level := levelOfField r.level, priority := r.priority, repeatCount := r.repeatCount.toNat
        chime := r.chime, patience := min r.patience 60 } := by
  have hgroup : (⟨group.val % 8, Nat.mod_lt _ (by decide)⟩ : Fin 8) = group := Fin.ext (Nat.mod_eq_of_lt group.isLt)
  have hvoice : (⟨voice.val % 16, Nat.mod_lt _ (by decide)⟩ : VoiceId) = voice := Fin.ext (Nat.mod_eq_of_lt voice.isLt)
  unfold callCfg
  simp only [hm, hg, hv, hgroup, hvoice]
  rfl

theorem badOutput_iff (r : RawOutput) : badOutput r = true ↔ match r with
    | .none => False
    | .mix j => 39 < j
    | .zone z => 23 < z
    | .other => True := by
  unfold badOutput
  cases r <;> simp

/-- Settles O25: the request by the first condition that fails, each table by its own check, and the refusal. -/
theorem loadIsCheckedBegunOrRefused : Obligations.LoadIsCheckedBegunOrRefused := by
  unfold Obligations.LoadIsCheckedBegunOrRefused
  refine ⟨⟨rfl, rfl⟩, fun s ht => ⟨_, exec_command (r := .loadShow) ht.1, fun hl => ?_, fun hl he hc => ?_,
      fun hl he hc hv => ?_, fun hl he hc hv hp => ?_, fun hl he hc hv hp hcl => ?_, fun hl hno => ?_⟩,
    fun s job k l hr hq hb hu hl hj => tableTurn hr hq hb hu hl hj, fun m n x => ?_, fun r k => channelCfg_good,
    fun r taps initial group => roleCfg_good, fun r kind k hk h => (mixCfg_good hk h).trans ?_, fun r mix source => sendOf_good,
    ⟨rfl, fun j => ?_, fun z => ?_⟩, fun r mix duck hold => zoneCfg_good, fun r mask group voice => callCfg_good,
    fun s job k w => loadRefused⟩
  · exact answered_same ht (loadShow_locked hl)
  · exact answered_same ht (loadShow_busy hl ((loadBusy_eq he).trans (if_pos hc)))
  · refine answered_same ht (loadShow_busy hl ((loadBusy_eq he).trans ((if_neg hc).trans ?_)))
    exact if_pos (voicesBusy_iff.mpr hv)
  · refine answered_same ht (loadShow_busy hl ((loadBusy_eq he).trans ((if_neg hc).trans ((if_neg ?_).trans ?_))))
    · exact mt voicesBusy_iff.mp hv
    · exact if_pos (pagesBusy_iff.mpr hp)
  · refine answered_same ht (loadShow_busy hl ((loadBusy_eq he).trans ((if_neg hc).trans ((if_neg ?_).trans
      ((if_neg ?_).trans ?_)))))
    · exact mt voicesBusy_iff.mp hv
    · exact mt pagesBusy_iff.mp hp
    · exact if_pos (callsBusy_iff.mpr hcl)
  · obtain ⟨b, mir, hs, -⟩ := EndsAs.law (loadShow_begun ht hl (loadBusy_none hno))
    generalize request .loadShow s = t at hs
    subst hs
    exact ⟨rfl, hl, rfl, rfl, rfl, rfl⟩
  · obtain ⟨hchannel, hrole, hmix, hsend, hout, hzone, hcall⟩ := staged_records m n x
    have hregion := fun i => badRegion_iff (n := n) (v := rawRegions m x) (i := i)
    simp only [rawRegions_get] at hregion
    dsimp only
    refine ⟨directory_checked m n x, directory_staged m n x, fun i => ?_, fun hno => ?_, regions_staged m n x,
      lowestBad_firstBad fun i => ?_, hchannel, lowestBad_firstBad fun i => ?_, hrole, lowestBad_firstBad fun i => ?_,
      hmix, fun huniq => ?_, hsend, lowestBad_firstBad fun i => ?_, ⟨rfl, fun g => ?_, fun v => ?_⟩,
      lowestBad_firstBad fun i => ?_, hout, lowestBad_firstBad fun i => ?_, hzone, lowestBad_firstBad fun i => ?_, hcall,
      fun i => ?_, fun hno => ?_, ?_, rfl, moves_checked m n x⟩
    · intro hi hlow
      rw [regions_checked]
      unfold checkRegions
      rw [firstBad_some ((hregion i).mpr hi) fun j hj => mt (hregion j).mp (hlow j hj)]
    · rw [regions_checked, checkRegions_good n fun i => mt (hregion i).mp (hno i)]
      refine if_congr (mirrorInside_iff.trans ?_) rfl rfl
      simp only [rawRegions_get]
    · exact decide_eq_true_iff.trans (by rw [readTable_get])
    · refine badRole_iff.trans ?_
      simp only [rawInitial_eq, readTable_get]
    · refine badMix_iff.trans ?_
      simp only [readTable_get]
      exact Iff.rfl
    · rw [sends_checked]
      refine lowestBad_firstBad fun i => (badSend_iff huniq).trans ?_
      simp only [rawSends_get]
    · refine badVoiceGroup_iff.trans ?_
      rw [mapVec_words]
    · exact (mapVec_words _ _ _ _).trans rfl
    · have hgroup : (stage m n .group x).1.voiceGroups[v]
          = (Config.voiceGroupWord (Memory.readWord m (x.base 4 + 64 + 4 * v.val))).bind (fin? 16) :=
        (mapVec_get _ _ _ _).trans (congrArg (fun o : Option Nat => o.bind (fin? 16)) (mapVec_words _ _ _ v))
      rw [hgroup]
      cases Config.voiceGroupWord (Memory.readWord m (x.base 4 + 64 + 4 * v.val)) with
      | none => rfl
      | some k => exact fun hk => congrArg (Option.map (·.val)) (fin?_val (⟨k, by omega⟩ : GroupId))
    · rw [mapVec_words]
      exact badOutput_iff _
    · refine badZone_iff.trans ?_
      rw [readTable_get]
    · refine badCall_iff.trans ?_
      rw [readTable_get]
    · intro hi hlow
      rw [cues_checked, checkCues_unsound hi hlow]
    · rw [cues_checked]
      exact checkCues_sound hno
    · refine (cues_staged m n x).trans (congrArg (fun f => { x with cues := (List.finRange 512).filterMap f }) ?_)
      funext i
      cases readCue m (x.base 10) i.val <;> rfl
  · cases kind <;> rfl
  · exact congrArg (fun o : Option MixId => (o.map OutSource.mix).getD .none) (fin?_val j)
  · exact congrArg (fun o : Option ZoneId => (o.map OutSource.zone).getD .none) (fin?_val z)

end Sys2Proof.Proofs.Loads
end

section
/-! PROOF. What the manual's invariants and COMPLETE_ALL look at, and which operations of voices, zones, pages and
calls leave it as it is. -/

namespace Sys2Proof.Proofs.Kept

open Sys2Proof.Machine
open Sys2Proof.Proofs.Ends

variable {s t u v : State}

/-! ## The core of a state -/

/-- A zone that enters FAULT while it carries a page. -/
def isLost (x : Note) : Bool :=
  match x with
  | .zoneLost .. => true
  | _ => false

/-- The part of the state that the sequencer, the fade table, the cast table, the pages and the slate are bound
by, with the show header and the tables that a firing goes by. -/
structure Core where
  fades : Vector (Option FadeRec) 128
  seq : Seq
  cast : RoleId → RoleCfg × Vector TapState 4
  carried : ZoneId → Option PageId
  pages : PageId → Option (BitVec 24)
  slate : Slate
  view : Vector SlotState 16
  freeCount : Nat
  header : Header
  tables : Tables
  lost : List Note

def core (s : State) : Core :=
  { fades := s.fades, seq := s.seq, cast := fun r => (s.roles[r].cfg, s.roles[r].taps)
    carried := fun z => s.zones[z].page, pages := fun p => s.pages[p].map (·.zones), slate := s.slate
    view := s.port.view, freeCount := s.freeCount, header := s.header, tables := s.tables
    lost := s.notes.filter isLost }

/-! ## Operations that leave the core as it is -/

@[simp] theorem core_mark (a : Area) (s : State) : core (mark a s) = core s := rfl

@[simp] theorem core_setElem (e : Elem) (x : Level) (s : State) : core (setElem e x s) = core s := by
  rw [setElem_eq]
  rfl

@[simp] theorem core_captureEvent (c : CellId) (ds : List Word) (s : State) : core (captureEvent c ds s) = core s := by
  rw [captureEvent_eq]
  rfl

@[simp] theorem core_updVoice (x : VoiceId) (f : Voice → Voice) (s : State) : core (updVoice x f s) = core s := rfl

@[simp] theorem core_updCall (c : CallId) (f : Call → Call) (s : State) : core (updCall c f s) = core s := rfl

@[simp] theorem core_staleBurst (x : VoiceId) (s : State) : core (staleBurst x s) = core s := rfl

theorem core_tell {n : Note} (h : isLost n = false) (s : State) : core (tell n s) = core s := by
  have : (s.notes ++ [n]).filter isLost = s.notes.filter isLost := by simp [h]
  unfold Machine.tell core
  dsimp only
  rw [this]

theorem core_updZone {z : ZoneId} {f : Zone → Zone} (h : (f s.zones[z]).page = s.zones[z].page) :
    core (updZone z f s) = core s := by
  have : (fun x : ZoneId => (updZone z f s).zones[x].page) = fun x : ZoneId => s.zones[x].page := by
    funext x
    unfold updZone
    dsimp only
    by_cases hx : z = x
    · subst hx
      rw [upd_get_self, h]
    · rw [upd_get_ne _ _ _ _ hx]
  unfold core
  rw [this]
  rfl

/-! ## Voices -/

@[simp] theorem core_flushVoice (x : VoiceId) (s : State) : core (flushVoice x s) = core s := rfl

@[simp] theorem core_enterIdle (x : VoiceId) (s : State) : core (enterIdle x s) = core s := by
  unfold enterIdle
  rw [core_mark, core_tell rfl, core_updVoice, core_flushVoice]

@[simp] theorem core_releaseVoice (c : CallId) (x : VoiceId) (s : State) : core (releaseVoice c x s) = core s := by
  unfold releaseVoice
  split
  · exact core_enterIdle x s
  · rfl

@[simp] theorem core_startVoice (c : CallId) (x : VoiceId) (s : State) : core (startVoice c x s) = core s := by
  unfold startVoice
  split
  · split <;> rfl
  · rfl

@[simp] theorem core_stopCompleted (x : VoiceId) (i : Option RecId) (b : Bool) (s : State) :
    core (stopCompleted x i b s) = core s := by
  unfold stopCompleted
  split
  · rfl
  · split
    · exact core_enterIdle x s
    · rfl

@[simp] theorem core_stopTakenOver (x : VoiceId) (i : RecId) (s : State) : core (stopTakenOver x i s) = core s := by
  unfold stopTakenOver
  split <;> rfl

@[simp] theorem core_askSound (view : Option Memory) (n : Nat) (s : State) : core (askSound view n s) = core s := by
  unfold askSound
  split <;> rfl

@[simp] theorem core_tellCut (x : VoiceId) (o : VoiceOwner) (s : State) : core (tellCut x o s) = core s := by
  unfold tellCut
  split
  · exact core_tell rfl s
  · exact core_tell rfl s
  · rfl

/-! ## Zones, but for the page they carry -/

@[simp] theorem core_zoneEnterLive (z : ZoneId) (s : State) : core (zoneEnterLive z s) = core s := by
  unfold zoneEnterLive
  rw [core_mark, core_tell rfl, core_updZone rfl]

@[simp] theorem core_stabilityEnd (z : ZoneId) (s : State) : core (stabilityEnd z s) = core s := by
  unfold stabilityEnd
  dsimp only
  split
  · exact core_zoneEnterLive z s
  · rw [core_mark, core_updZone rfl]

@[simp] theorem core_powerZone (z : ZoneId) (s : State) : core (powerZone z s) = core s := by
  unfold powerZone
  split
  · rfl
  · dsimp only
    split
    · rw [core_stabilityEnd, core_mark, core_updZone rfl]
    · rw [core_mark, core_updZone rfl]

@[simp] theorem core_rejudge (z : ZoneId) (b : Bool) (s : State) : core (rejudge z b s) = core s := by
  unfold rejudge
  dsimp only
  split
  · split
    · exact core_powerZone z s
    · rfl
  · split
    · exact core_updZone rfl
    · split
      · exact core_updZone rfl
      · rfl
  · rfl

@[simp] theorem core_commandDuck (z : ZoneId) (b : Bool) (s : State) : core (commandDuck z b s) = core s := core_updZone rfl

@[simp] theorem core_setRelay (b : Bool) (z : ZoneId) (s : State) : core (setRelay b z s) = core s := by
  unfold setRelay
  split
  · rfl
  · rw [core_mark, core_rejudge, core_updZone rfl]

/-- Steps that each leave the core as it is. -/
theorem core_foldl {α : Type} {f : State → α → State} (h : ∀ s x, core (f s x) = core s) (l : List α) (s : State) :
    core (l.foldl f s) = core s := by
  induction l generalizing s with
  | nil => rfl
  | cons x l ih => exact (ih _).trans (h s x)

@[simp] theorem core_relayAction (g : Fin 8) (b : Bool) (s : State) : core (relayAction g b s) = core s :=
  core_foldl (fun s z => by
    dsimp only
    split
    · exact core_setRelay b z s
    · rfl) _ s

/-! ## Instances -/

@[simp] theorem core_setInst (c : CallId) (i : Option CallInst) (s : State) : core (setInst c i s) = core s := rfl

@[simp] theorem core_endInst (c : CallId) (o : CallOutcome) (s : State) : core (endInst c o s) = core s := rfl

@[simp] theorem core_beginPlaying (c : CallId) (s : State) : core (beginPlaying c s) = core s := by
  unfold beginPlaying
  rw [core_startVoice, core_mark, core_updCall]

@[simp] theorem core_judgePage (p : PageId) (s : State) : core (judgePage p s) = core s := by
  unfold judgePage
  split
  · rfl
  · next pg hp =>
    have hset : core (setPage p (some { pg with state := .live }) s) = core s := by
      have : (fun q : PageId => (setPage p (some { pg with state := .live }) s).pages[q].map (·.zones))
          = fun q : PageId => s.pages[q].map (·.zones) := by
        funext q
        unfold setPage
        dsimp only
        by_cases hq : q = p
        · subst hq
          rw [Fin.getElem_fin, Vector.getElem_set_self, hp]
          rfl
        · have hne : (p : Nat) ≠ q := fun he => hq (Fin.ext he.symm)
          rw [Fin.getElem_fin, Vector.getElem_set_ne _ _ hne]
          rfl
      unfold core
      rw [this]
      rfl
    split
    · dsimp only
      split
      · exact hset
      · exact (core_tell rfl _).trans hset
    · rfl

/-! ## What is closed under the operations that do not -/

/-- A property of states that looks at the core alone, and that the leaving of a record, the failure of a PLAY, the
close and the opening of a page keep. -/
structure Closed (R : State → Prop) : Prop where
  same : ∀ {s t : State}, core t = core s → R s → R t
  leave : ∀ {s : State} (i : RecId) (how : Leave), R s → R (leaveTable i how s)
  failed : ∀ {s : State} (id : FiringId), R s → R (cueFailed id s)
  close : ∀ {s : State} (p : PageId) (reason : CloseReason), R s → R (closePage p reason s)
  opens : ∀ {s : State} (g : Fin 8) (o : Opener) (src : PageSource) (prio : Fin 4) (x : Level),
    R s → R (openPage g o src prio x s).1
  calm : ∀ {s : State}, R s → s.notes.filter isLost = []

section

variable {R : State → Prop} (hR : Closed R)

include hR

theorem Closed.takeOver (e : Elem) (i : Option RecId) (h : R s) : R (takeOver e i s) := by
  unfold Machine.takeOver
  split
  · exact h
  · exact hR.leave _ _ h

theorem Closed.cut (e : Elem) (x : Level) (h : R s) : R (cut e x s) := hR.same (core_setElem ..) (hR.takeOver e none h)

theorem Closed.cutBy (i : RecId) (e : Elem) (x : Level) (h : R s) : R (cutBy i e x s) :=
  hR.leave _ _ (hR.same (core_setElem ..) (hR.takeOver e (some i) h))

theorem Closed.takePlay (x : VoiceId) (snd : SoundCopy) (y : Level) (o : VoiceOwner) (h : R s) :
    R (takePlay x snd y o s) := by
  unfold Machine.takePlay
  refine hR.same (core_mark ..) (hR.same (core_updVoice ..) (hR.cut _ _ (hR.same ?_ h)))
  rw [core_updVoice, core_flushVoice, core_tellCut]

theorem Closed.play (view : Option Memory) (x : VoiceId) (n : Nat) (y : Level) (b : Bool) (o : VoiceOwner) (h : R s) :
    R (play view x n y b o s).1 := by
  have h' := hR.same (core_askSound view n s) h
  unfold Machine.play
  dsimp only
  split
  · exact h'
  · exact h'
  · split
    · exact h'
    · exact hR.takePlay _ _ _ _ h'

theorem Closed.playMove (view : Option Memory) (x : VoiceId) (n : Nat) (y : Level) (b : Bool) (o : Owner) (h : R s) :
    R (playMove view x n y b o s) := by
  have h' := hR.play view x n y b o.voiceOwner h
  unfold Machine.playMove
  generalize Machine.play view x n y b o.voiceOwner s = z at h' ⊢
  obtain ⟨v, e⟩ := z
  cases e with
  | taken => exact h'
  | busy | unknown | empty =>
    dsimp only
    split
    · exact hR.failed _ h'
    · exact h'

theorem Closed.stopCut (x : VoiceId) (h : R s) : R (stopCut x s) := by
  unfold Machine.stopCut
  split
  · exact h
  · exact hR.same (core_stopCompleted ..) (hR.cut _ _ h)

/-! ### Calls -/

theorem Closed.closeOwnPage (i : CallInst) (h : R s) : R (closeOwnPage i s) := by
  unfold Machine.closeOwnPage
  split
  · exact h
  · exact hR.close _ _ h

theorem Closed.missCall (c : CallId) (reason : MissReason) (h : R s) : R (missCall c reason s) := by
  unfold Machine.missCall
  split
  · exact h
  · exact hR.same (core_releaseVoice ..) (hR.same (core_captureEvent ..) (hR.closeOwnPage _ (hR.same (core_endInst c (.missed reason) s) h)))

theorem Closed.cutCall (c : CallId) (o : VoiceOwner) (h : R s) : R (cutCall c o s) := by
  unfold Machine.cutCall
  split
  · exact h
  · exact hR.same (core_captureEvent ..) (hR.closeOwnPage _ (hR.same (core_endInst c .cut s) h))

theorem Closed.enterWaitZones (c : CallId) (h : R s) : R (enterWaitZones c s) := by
  unfold Machine.enterWaitZones
  dsimp only
  generalize hu : mark .pages _ = u
  have h' : R u := hR.same (by rw [← hu, core_mark, core_updCall]) h
  have h'' := hR.opens s.calls[c].cfg.group (.call c) (.voice s.calls[c].cfg.voice) s.calls[c].cfg.priority
    s.calls[c].cfg.level h'
  generalize openPage s.calls[c].cfg.group (.call c) (.voice s.calls[c].cfg.voice) s.calls[c].cfg.priority
    s.calls[c].cfg.level u = z at h'' ⊢
  obtain ⟨v, e⟩ := z
  cases e with
  | busy => exact hR.missCall _ _ h''
  | noZone => exact hR.missCall _ _ h''
  | opened =>
    dsimp only
    split
    · exact hR.same (core_beginPlaying ..) (hR.same (core_updCall ..) h'')
    · exact hR.same (core_updCall ..) h''

theorem Closed.offerPlay (c : CallId) (h : R s) : R (offerPlay c s) := by
  have h' := hR.play none s.calls[c].cfg.voice s.calls[c].cfg.sound .off false (.call c) h
  unfold Machine.offerPlay
  dsimp only
  generalize Machine.play none s.calls[c].cfg.voice s.calls[c].cfg.sound .off false (.call c) s = z at h' ⊢
  obtain ⟨v, e⟩ := z
  cases e with
  | taken => exact hR.enterWaitZones _ h'
  | busy => exact h'
  | unknown => exact hR.missCall _ _ h'
  | empty => exact hR.missCall _ _ h'

theorem Closed.patienceEnds (c : CallId) (h : R s) : R (patienceEnds c s) := by
  unfold Machine.patienceEnds
  split
  · exact h
  · split
    · exact hR.missCall _ _ h
    · exact hR.same (core_beginPlaying ..) h
    · exact h

theorem Closed.startInstance (c : CallId) (b : Bool) (h : R s) : R (startInstance c b s) := by
  unfold Machine.startInstance
  dsimp only
  have h' := hR.offerPlay c (hR.same (core_setInst c (some { phase := .waitVoice, patience := s.calls[c].cfg.patience * 1000
                                                             page := none, started := s.tod, byCallNow := b }) s) h)
  split
  · exact hR.patienceEnds _ h'
  · exact h'

/-! ### Notices -/

theorem Closed.foldl {α : Type} {f : State → α → State} (hf : ∀ {s} x, R s → R (f s x)) (l : List α) (h : R s) :
    R (l.foldl f s) := by
  induction l generalizing s with
  | nil => exact h
  | cons x l ih => exact ih (hf x h)

theorem Closed.ownPageClosed (c : CallId) (reason : CloseReason) (h : R s) : R (ownPageClosed c reason s) := by
  unfold Machine.ownPageClosed
  split
  · exact h
  · split
    · exact h
    · split
      · exact hR.missCall _ _ h
      · exact hR.same (by rw [core_releaseVoice, core_endInst]) h
      · exact h

theorem Closed.ownVoiceIdle (c : CallId) (h : R s) : R (ownVoiceIdle c s) := by
  unfold Machine.ownVoiceIdle
  split
  · exact h
  · split
    · exact hR.missCall _ _ h
    · exact hR.same (core_endInst ..) h
    · exact h

theorem Closed.voiceIdleNote (x : VoiceId) (o : VoiceOwner) (h : R s) : R (voiceIdleNote x o s) := by
  have hclose : R (forEach 4 (closeIfFrom x) s) := hR.foldl (fun {s} p h => by
    unfold closeIfFrom
    split
    · exact hR.close _ _ h
    · exact h) _ h
  have howner : R (o.call?.elim (forEach 4 (closeIfFrom x) s) fun c =>
      Machine.ownVoiceIdle c (forEach 4 (closeIfFrom x) s)) := by
    cases o.call? with
    | none => exact hclose
    | some c => exact hR.ownVoiceIdle c hclose
  exact hR.foldl (fun {s} c h => by
    unfold reoffer
    split
    · exact hR.offerPlay _ h
    · exact h) _ howner

theorem Closed.handleNote {x : Note} (hx : isLost x = false) (h : R s) : R (handleNote x s) := by
  cases x with
  | voiceIdle y o => exact hR.voiceIdleNote y o h
  | callCut c o => exact hR.cutCall c o h
  | pageClosed c reason => exact hR.ownPageClosed c reason h
  | pageLive c =>
    unfold Machine.handleNote
    dsimp only
    split
    · split
      · exact hR.same (core_beginPlaying ..) h
      · exact h
    · exact h
  | zoneLive z =>
    unfold Machine.handleNote
    dsimp only
    split
    · exact hR.same (core_judgePage ..) h
    · exact h
  | zoneLost p z => exact nomatch hx

theorem Closed.drainN (n : Nat) (h : R s) : R (drainN n s) := by
  induction n generalizing s with
  | zero => exact h
  | succ n ih =>
    unfold Machine.drainN
    split
    · exact h
    · next x l hn =>
      have hcalm := hR.calm h
      rw [hn] at hcalm
      have hx : isLost x = false := by
        by_contra hx
        rw [List.filter_cons_of_pos (by simpa using hx)] at hcalm
        exact nomatch hcalm
      rw [List.filter_cons_of_neg (by simp [hx])] at hcalm
      refine ih (hR.handleNote hx (hR.same ?_ h))
      unfold core
      dsimp only
      rw [hcalm, hR.calm h]

theorem Closed.drain (h : R s) : R (drain s) := hR.drainN 256 h

end

end Sys2Proof.Proofs.Kept
end

section
/-! PROOF. Which parts of the core the pages and the records of the fade table move, and what therefore stays of the
sequencer and the slate while a cue's records are executed (R96, R112). -/

namespace Sys2Proof.Proofs.Kept

open Sys2Proof.Machine
open Sys2Proof.Proofs.Ends

variable {s t u v : State} {as : List Area}

/-! ## The core but for the pages -/

/-- The core but for the pages and the zones that carry them. -/
def office (s : State) : Core := { core s with carried := fun _ => none, pages := fun _ => none }

theorem office_of_core (h : core t = core s) : office t = office s := by
  unfold office
  rw [h]

theorem core_of_reaches (h : Reaches as u v) : core v = core u := by
  rw [h.1]
  rfl

@[simp] theorem office_updZone (z : ZoneId) (f : Zone → Zone) (s : State) : office (updZone z f s) = office s := rfl

@[simp] theorem office_setPage (p : PageId) (x : Option Page) (s : State) : office (setPage p x s) = office s := rfl

@[simp] theorem office_mark (a : Area) (s : State) : office (mark a s) = office s := rfl

@[simp] theorem office_rejudge (z : ZoneId) (b : Bool) (s : State) : office (rejudge z b s) = office s :=
  office_of_core (core_rejudge z b s)

@[simp] theorem office_judgePage (p : PageId) (s : State) : office (judgePage p s) = office s :=
  office_of_core (core_judgePage p s)

@[simp] theorem office_commandDuck (z : ZoneId) (b : Bool) (s : State) : office (commandDuck z b s) = office s := rfl

@[simp] theorem office_captureEvent (c : CellId) (ds : List Word) (s : State) :
    office (captureEvent c ds s) = office s := office_of_core (core_captureEvent c ds s)

@[simp] theorem office_beginCarry (z : ZoneId) (p : PageId) (prio : Fin 4) (s : State) :
    office (beginCarry z p prio s) = office s := by
  unfold beginCarry
  dsimp only
  rw [office_mark, office_rejudge, office_commandDuck, office_updZone]

@[simp] theorem office_endCarry (z : ZoneId) (s : State) : office (endCarry z s) = office s := by
  unfold endCarry
  dsimp only
  rw [office_mark, office_rejudge, office_commandDuck, office_updZone]

theorem office_foldl {α : Type} {f : State → α → State} (h : ∀ s x, office (f s x) = office s) (l : List α) (s : State) :
    office (l.foldl f s) = office s := by
  induction l generalizing s with
  | nil => rfl
  | cons x l ih => exact (ih _).trans (h s x)

@[simp] theorem office_tellOpener (o : Opener) (reason : CloseReason) (s : State) :
    office (tellOpener o reason s) = office s := by
  unfold tellOpener
  cases o with
  | request => rfl
  | call c =>
    dsimp only
    split
    · rfl
    · exact office_of_core (core_tell rfl _)

@[simp] theorem office_closePage (p : PageId) (reason : CloseReason) (s : State) :
    office (closePage p reason s) = office s := by
  unfold closePage
  split
  · rfl
  · dsimp only
    rw [office_mark, office_tellOpener]
    exact (office_foldl (fun s z => office_endCarry z s) _ _).trans (office_setPage ..)

@[simp] theorem office_loseZone (p : PageId) (z : ZoneId) (reason : CloseReason) (s : State) :
    office (loseZone p z reason s) = office s := by
  unfold loseZone
  split
  · rfl
  · dsimp only
    split
    · rw [office_closePage, office_mark, office_setPage]
    · rw [office_judgePage, office_mark, office_setPage]

@[simp] theorem office_offerZone (p : PageId) (prio : Fin 4) (z : ZoneId) (x : State × Claim) :
    office (offerZone p prio z x).1 = office x.1 := by
  unfold offerZone
  dsimp only
  split
  · rfl
  · split
    · exact office_beginCarry ..
    · split
      · split
        · rw [office_beginCarry, office_loseZone]
        · rfl
      · rfl

@[simp] theorem office_openPage (g : Fin 8) (o : Opener) (src : PageSource) (prio : Fin 4) (x : Level) (s : State) :
    office (openPage g o src prio x s).1 = office s := by
  have hfold (p : PageId) : ∀ (l : List ZoneId) (y : State × Claim),
      office (l.foldl (fun y z => offerZone p prio z y) y).1 = office y.1 := by
    intro l
    induction l with
    | nil => exact fun _ => rfl
    | cons z l ih => exact fun y => (ih _).trans (office_offerZone p prio z y)
  unfold openPage
  split
  · rfl
  · next p _ =>
    dsimp only
    split
    · exact hfold p _ _
    · unfold enterPage
      dsimp only
      rw [office_captureEvent, office_mark, office_setPage]
      exact hfold p _ _

/-! ## The sequencer beside its running list -/

@[simp] theorem office_staleBurst (x : VoiceId) (s : State) : office (staleBurst x s) = office s := rfl

/-- What a change of records and entries leaves of the sequencer, the slate and the notices, and which cues still
run. -/
structure Sequel (s0 s : State) : Prop where
  firing : s.seq.firing = s0.seq.firing
  nextSerial : s.seq.nextSerial = s0.seq.nextSerial
  standby : s.seq.standby = s0.seq.standby
  parent : s.seq.parent = s0.seq.parent
  pause : s.seq.pause = s0.seq.pause
  guard : s.seq.guard = s0.seq.guard
  ids : ∀ e ∈ s.seq.running, ∃ e0 ∈ s0.seq.running, e0.id = e.id
  slate : s.slate = s0.slate
  freeCount : s.freeCount = s0.freeCount
  header : s.header = s0.header
  tables : s.tables = s0.tables
  calm : s.notes.filter isLost = []

theorem Sequel.refl (h : s.notes.filter isLost = []) : Sequel s s :=
  ⟨rfl, rfl, rfl, rfl, rfl, rfl, fun e he => ⟨e, he, rfl⟩, rfl, rfl, rfl, rfl, h⟩

theorem Sequel.trans (h : Sequel s t) (h' : Sequel t u) : Sequel s u where
  firing := h'.firing.trans h.firing
  nextSerial := h'.nextSerial.trans h.nextSerial
  standby := h'.standby.trans h.standby
  parent := h'.parent.trans h.parent
  pause := h'.pause.trans h.pause
  guard := h'.guard.trans h.guard
  ids e he := by
    obtain ⟨e1, h1, hid1⟩ := h'.ids e he
    obtain ⟨e0, h0, hid0⟩ := h.ids e1 h1
    exact ⟨e0, h0, hid0.trans hid1⟩
  slate := h'.slate.trans h.slate
  freeCount := h'.freeCount.trans h.freeCount
  header := h'.header.trans h.header
  tables := h'.tables.trans h.tables
  calm := h'.calm

/-- The sequel looks at the core but for the pages alone. -/
theorem Sequel.of_office (h : Sequel s u) (hc : office t = office u) : Sequel s t := by
  have hseq : t.seq = u.seq := congrArg Core.seq hc
  exact ⟨by rw [hseq]; exact h.firing, by rw [hseq]; exact h.nextSerial, by rw [hseq]; exact h.standby,
    by rw [hseq]; exact h.parent, by rw [hseq]; exact h.pause, by rw [hseq]; exact h.guard,
    by rw [hseq]; exact h.ids, (congrArg Core.slate hc).trans h.slate, (congrArg Core.freeCount hc).trans h.freeCount,
    (congrArg Core.header hc).trans h.header, (congrArg Core.tables hc).trans h.tables, (congrArg Core.lost hc).trans h.calm⟩

/-- Entries change but for their ids. -/
theorem Sequel.updEntry (h : Sequel s u) (id : FiringId) {f : RunEntry → RunEntry} (hf : ∀ e, (f e).id = e.id) :
    Sequel s (updEntry id f u) :=
  { h with
    ids := fun e he => by
      obtain ⟨e1, h1, rfl⟩ := List.mem_map.mp he
      obtain ⟨e0, h0, hid⟩ := h.ids e1 h1
      refine ⟨e0, h0, hid.trans ?_⟩
      split
      · exact (hf e1).symm
      · rfl }

theorem Sequel.completeCue (h : Sequel s u) (e : RunEntry) : Sequel s (completeCue e u) :=
  { h with ids := fun x hx => h.ids x (List.mem_filter.mp hx).1 }

theorem Sequel.completeIfDone (h : Sequel s u) (id : FiringId) : Sequel s (completeIfDone id u) := by
  unfold Machine.completeIfDone
  split
  · exact h
  · split
    · exact h.completeCue _
    · exact h

theorem Sequel.cueTold (h : Sequel s u) (id : FiringId) : Sequel s (cueTold id u) :=
  Sequel.completeIfDone ((h.updEntry id (f := fun e => { e with pending := e.pending - 1 }) fun _ => rfl).of_office
    (office_mark .cue _)) id

theorem Sequel.cueFailed (h : Sequel s u) (id : FiringId) : Sequel s (cueFailed id u) :=
  (h.updEntry id (f := fun e => { e with failed := e.failed + 1 }) fun _ => rfl).of_office rfl

/-- Records and taps may change. -/
theorem Sequel.same (h : Sequel s u) (hq : t.seq = u.seq) (hs : t.slate = u.slate) (hf : t.freeCount = u.freeCount)
    (hh : t.header = u.header) (ht : t.tables = u.tables) (hn : t.notes = u.notes) : Sequel s t :=
  ⟨by rw [hq]; exact h.firing, by rw [hq]; exact h.nextSerial, by rw [hq]; exact h.standby,
    by rw [hq]; exact h.parent, by rw [hq]; exact h.pause, by rw [hq]; exact h.guard,
    by rw [hq]; exact h.ids, hs.trans h.slate, hf.trans h.freeCount, hh.trans h.header, ht.trans h.tables, by rw [hn]; exact h.calm⟩

theorem Sequel.castEnd (h : Sequel s u) (r : RoleId) (k : TapId) (x : Level) : Sequel s (castEnd r k x u) := by
  have hset (e : Elem) (y : Level) : Sequel s (setElem e y u) := h.of_office (office_of_core (core_setElem e y u))
  unfold Machine.castEnd
  split
  · exact (hset (.tap r k) .off).same rfl rfl rfl rfl rfl rfl
  · exact (hset (.tap r k) (.steps 0)).same rfl rfl rfl rfl rfl rfl

theorem Sequel.ownerTold (h : Sequel s u) (r : FadeRec) (how : Leave) : Sequel s (ownerTold r how u) := by
  unfold Machine.ownerTold
  split
  · exact h
  · exact h.cueTold _
  · split
    · exact h.castEnd ..
    · exact h

theorem core_stopTold (i : RecId) (r : FadeRec) (how : Leave) (s : State) : core (stopTold i r how s) = core s := by
  unfold stopTold
  split
  · rfl
  · split
    · exact core_stopCompleted ..
    · exact core_stopTakenOver ..

theorem Sequel.leaveTable (h : Sequel s u) (i : RecId) (how : Leave) : Sequel s (leaveTable i how u) := by
  unfold Machine.leaveTable
  split
  · exact h
  · next r _ =>
    dsimp only
    refine Sequel.of_office (Sequel.ownerTold ?_ r how) (office_of_core (core_stopTold ..))
    split
    · exact h.same rfl rfl rfl rfl rfl rfl
    · exact h.same rfl rfl rfl rfl rfl rfl

theorem closed_sequel (s : State) : Closed (Sequel s) where
  same hc h := h.of_office (office_of_core hc)
  leave i how h := h.leaveTable i how
  failed id h := h.cueFailed id
  close p reason h := h.of_office (office_closePage p reason _)
  opens g o src prio x h := h.of_office (office_openPage g o src prio x _)
  calm h := h.calm

end Sys2Proof.Proofs.Kept
end

section
/-! PROOF. What the execution of a cue's records keeps, and what it comes to for a cue of one record (R86, R96,
R112). -/

namespace Sys2Proof.Proofs.Kept

open Sys2Proof.Machine
open Sys2Proof.Proofs.Ends

variable {s t u v : State} {as : List Area} {view : Option Memory} {id : FiringId} {i : RecId} {r : FadeRec} {k : Nat}

/-! ## What it keeps -/

section

variable {R : State → Prop} (hR : Closed R)

include hR

/-- A PLAY or a RELAY acts. -/
theorem Closed.actRecord (view : Option Memory) (i : RecId) (h : R s)
    (hc : ∀ r, s.fades[i] = some r → (∃ x n y b, r.content = .play x n y b) ∨ ∃ g b, r.content = .relay g b) :
    R (actRecord view i s) := by
  unfold Machine.actRecord
  split
  · exact h
  · next r hr =>
    obtain ⟨x, n, y, b, hc⟩ | ⟨g, b, hc⟩ := hc r hr
    · rw [hc]
      exact hR.playMove _ _ _ _ _ _ (hR.leave _ _ h)
    · rw [hc]
      exact hR.same (core_relayAction ..) (hR.leave _ _ h)

theorem Closed.executeRecord (view : Option Memory) (i : RecId) (h : R s) : R (executeRecord view i s) := by
  unfold Machine.executeRecord
  split
  · exact h
  · next r hr =>
    split
    · split
      · exact hR.leave _ _ (hR.same (core_setElem ..) h)
      · exact hR.cutBy _ _ _ h
    · exact hR.stopCut _ (hR.leave _ _ h)
    · next x n y b hc =>
      refine hR.actRecord view i h fun r' hr' => .inl ⟨x, n, y, b, ?_⟩
      rw [Option.some.inj (hr'.symm.trans hr)]
      exact hc
    · next g b hc =>
      refine hR.actRecord view i h fun r' hr' => .inr ⟨g, b, ?_⟩
      rw [Option.some.inj (hr'.symm.trans hr)]
      exact hc

theorem Closed.executeOwned (view : Option Memory) (e : RunEntry) (h : R s) : R (executeOwned view e s).1 := by
  have hfold : ∀ (l : List Nat) (x : State × RunEntry), R x.1 →
      R (l.foldl (fun x k => executeAt view e.id k x) x).1 := by
    intro l
    induction l with
    | nil => exact fun _ h => h
    | cons k l ih =>
      intro x hx
      refine ih _ ?_
      unfold executeAt
      dsimp only
      split
      · exact hx
      · exact hR.drain (hR.executeRecord _ _ hx)
  exact hfold _ _ h

end

theorem Sequel.completeLeft (h : Sequel s u) (id : FiringId) : Sequel s (completeLeft id u) := by
  unfold Machine.completeLeft
  split
  · exact h
  · exact h.completeCue _

/-- A cue that has been completed runs no more. -/
theorem not_running_completeLeft (id : FiringId) (s : State) : ∀ e ∈ (completeLeft id s).seq.running, e.id ≠ id := by
  intro e he
  unfold Machine.completeLeft at he
  split at he
  · next hnone => exact by simpa using List.find?_eq_none.mp hnone e he
  · next x hx =>
    obtain rfl : x.id = id := entryOf_id hx
    exact by simpa using (List.mem_filter.mp he).2

/-! ## A cue of one record -/

/-- The record is the firing's, of place `k` of its run. -/
def standsAt (id : FiringId) (k : Nat) (f : Option FadeRec) : Bool :=
  match f with
  | some r => r.owner == .firing id && r.runIndex == some k
  | none => false

theorem ownedAt_eq (s : State) (id : FiringId) (k : Nat) :
    ownedAt s id k = (List.finRange 128).find? fun i => standsAt id k s.fades[i] := rfl

theorem standsAt_iff {f : Option FadeRec} :
    standsAt id k f = true ↔ ∃ q, f = some q ∧ q.owner = .firing id ∧ q.runIndex = some k := by
  cases f with
  | none => simp [standsAt]
  | some q => simp [standsAt]

theorem ownedAt_some (h : ownedAt s id k = some i) :
    ∃ q, s.fades[i] = some q ∧ q.owner = .firing id ∧ q.runIndex = some k :=
  standsAt_iff.mp (List.find?_some (p := fun i : RecId => standsAt id k s.fades[i]) h)

theorem ownedAt_none_iff : ownedAt s id k = none ↔
    ∀ (j : RecId) (q : FadeRec), s.fades[j] = some q → q.owner = .firing id → q.runIndex ≠ some k := by
  rw [ownedAt_eq, List.find?_eq_none]
  refine ⟨fun h j q hq ho hk => h j (List.mem_finRange j) (standsAt_iff.mpr ⟨q, hq, ho, hk⟩), fun h j _ hj => ?_⟩
  obtain ⟨q, hq, ho, hk⟩ := standsAt_iff.mp hj
  exact h j q hq ho hk

theorem ownedAt_none (h : ∀ j : RecId, ∀ q, s.fades[j] = some q → q.owner ≠ .firing id) : ownedAt s id k = none :=
  ownedAt_none_iff.mpr fun j q hq ho => absurd ho (h j q hq)

/-- The one record of a cue is found at its place of the run, and nowhere else. -/
theorem ownedAt_single {n : Nat} (hr : s.fades[i] = some r) (ho : r.owner = .firing id) (hk : r.runIndex = some k)
    (hone : ∀ (j : RecId) q, s.fades[j] = some q → q.owner = .firing id → j = i) :
    ownedAt s id n = if n = k then some i else none := by
  split
  · next hn =>
    subst hn
    cases hf : ownedAt s id n with
    | none => exact absurd hk (ownedAt_none_iff.mp hf i r hr ho)
    | some j =>
      obtain ⟨q, hq, hqo, _⟩ := ownedAt_some hf
      rw [hone j q hq hqo]
  · next hn =>
    refine ownedAt_none_iff.mpr fun j q hq hqo hqk => hn ?_
    obtain rfl := hone j q hq hqo
    rw [hr] at hq
    cases hq
    exact Option.some.inj (hqk.symm.trans hk)

/-- Places of the run at which nothing is found are passed over. -/
theorem executeAt_passes {e : RunEntry} : ∀ (l : List Nat), (∀ k ∈ l, ownedAt s id k = none) →
    l.foldl (fun x k => executeAt view id k x) (s, e) = (s, e) := by
  intro l
  induction l with
  | nil => exact fun _ => rfl
  | cons k l ih =>
    intro h
    have hk : executeAt view id k (s, e) = (s, e) := by
      unfold executeAt
      rw [h k List.mem_cons_self]
    rw [List.foldl_cons, hk]
    exact ih fun j hj => h j (List.mem_cons_of_mem _ hj)

theorem range_split {n k : Nat} (hk : k < n) : ∃ l, List.range n = List.range k ++ k :: l ∧ ∀ j ∈ l, k < j := by
  refine ⟨(List.range (n - k - 1)).map fun j => k + 1 + j, ?_, fun j hj => ?_⟩
  · have h1 : n = k + ((n - k - 1) + 1) := by omega
    conv_lhs => rw [h1, List.range_add, List.range_succ_eq_map, List.map_cons, List.map_map]
    congr 2
    funext
    simp [Function.comp]
    omega
  · obtain ⟨m, _, rfl⟩ := List.mem_map.mp hj
    omega

/-- Of a cue of one record that record is executed. -/
theorem executeOwned_single {e : RunEntry} (hr : s.fades[i] = some r) (ho : r.owner = .firing e.id)
    (hk : r.runIndex = some k) (hlt : k < 64)
    (hone : ∀ (j : RecId) q, s.fades[j] = some q → q.owner = .firing e.id → j = i)
    (hgone : ∀ j : RecId, ∀ q, (drain (executeRecord view i s)).fades[j] = some q → q.owner ≠ .firing e.id) :
    executeOwned view e s = (drain (executeRecord view i s),
      (entryOf s e.id).getD e) := by
  obtain ⟨l, hl, _⟩ := range_split hlt
  unfold executeOwned
  rw [hl, List.foldl_append, List.foldl_cons]
  rw [executeAt_passes _ fun j hj => (ownedAt_single hr ho hk hone).trans
    (if_neg (Nat.ne_of_lt (List.mem_range.mp hj)))]
  have hat : executeAt view e.id k (s, e) = (drain (executeRecord view i s),
      (entryOf s e.id).getD e) := by
    unfold executeAt
    dsimp only
    rw [(ownedAt_single hr ho hk hone).trans (if_pos rfl)]
  rw [hat]
  exact executeAt_passes _ fun j _ => ownedAt_none hgone

/-! ## A cue whose record was its last -/

theorem not_running_told {q : Seq} {x : RunEntry} (hp : x.pending = 1) : ∀ e ∈ (q.told x).running, e.id ≠ x.id := by
  intro e he
  unfold Seq.told at he
  rw [if_neg (by omega)] at he
  exact by simpa using (List.mem_filter.mp he).2

theorem completeLeft_gone (h : ∀ e ∈ s.seq.running, e.id ≠ id) : completeLeft id s = s := by
  have : entryOf s id = none := List.find?_eq_none.mpr fun e he => by simpa using h e he
  unfold Machine.completeLeft
  rw [this]

theorem entryOf_gone (h : ∀ e ∈ s.seq.running, e.id ≠ id) : entryOf s id = none :=
  List.find?_eq_none.mpr fun e he => by simpa using h e he

/-- The table without a cue's one record. -/
theorem unowned (hr : s.fades[i] = some r) (hone : ∀ (j : RecId) q, s.fades[j] = some q → q.owner = .firing id → j = i)
    (ht : t.fades = s.fades.set i none) (j : RecId) (q : FadeRec) (hq : t.fades[j] = some q) : q.owner ≠ .firing id := by
  intro ho
  rw [ht] at hq
  by_cases hj : i = j
  · subst hj
    rw [Fin.getElem_fin, Vector.getElem_set_self] at hq
    nomatch hq
  · have hne : (i : Nat) ≠ j := fun h => hj (Fin.ext h)
    rw [Fin.getElem_fin, Vector.getElem_set_ne _ _ hne] at hq
    exact hj (hone j q hq ho).symm

end Sys2Proof.Proofs.Kept
end

section
/-! PROOF. COMPLETE_ALL (R96): what it keeps whatever runs, and what it comes to for a cue of one record. -/

namespace Sys2Proof.Proofs.Kept

open Sys2Proof.Machine
open Sys2Proof.Proofs.Ends

variable {s t u v w : State} {as : List Area} {i : RecId} {r : FadeRec} {k : Nat} {x : RunEntry}

/-! ## Notices that change no zone -/

theorem benign_drainN (n : Nat) (hn : ∀ x ∈ s.notes, Benign x) : ∀ x ∈ (drainN n s).notes, Benign x := by
  induction n generalizing s with
  | zero => exact hn
  | succ n ih =>
    unfold drainN
    split
    · exact hn
    · next x l hl =>
      rw [hl] at hn
      exact ih (pageWork_handleNote (s := { s with notes := l }) (hn x List.mem_cons_self)
        fun y hy => hn y (List.mem_cons_of_mem _ hy)).2

/-! ## Whatever runs -/

/-- The state with the pause flag cleared. -/
def unpaused (s : State) : State := { s with seq := { s.seq with pause := false } }

/-- One running cue is executed and completed. -/
def completeOne (s : State) (e : RunEntry) : State :=
  if (entryOf s e.id).isSome then completeLeft e.id (executeOwned none e s).1 else s

theorem sequel_completeOne (h : Sequel s u) (e : RunEntry) : Sequel s (completeOne u e) := by
  unfold completeOne
  split
  · exact ((closed_sequel s).executeOwned none e h).completeLeft e.id
  · exact h

theorem not_running_completeOne (e : RunEntry) (s : State) : ∀ y ∈ (completeOne s e).seq.running, y.id ≠ e.id := by
  unfold completeOne
  split
  · exact not_running_completeLeft e.id _
  · next h => exact fun y hy => by simpa using List.find?_eq_none.mp (Option.not_isSome_iff_eq_none.mp h) y hy

/-- What is completed runs no more, and nothing begins to run. -/
theorem completeOnes : ∀ (l : List RunEntry) {u : State}, Sequel s u →
    Sequel s (l.foldl completeOne u) ∧ Sequel u (l.foldl completeOne u)
      ∧ ∀ e ∈ l, ∀ y ∈ (l.foldl completeOne u).seq.running, y.id ≠ e.id := by
  intro l
  induction l with
  | nil => exact fun h => ⟨h, .refl h.calm, fun _ h => nomatch h⟩
  | cons e l ih =>
    intro u h
    obtain ⟨h1, h2, h3⟩ := ih (sequel_completeOne h e)
    refine ⟨h1, (sequel_completeOne (.refl h.calm) e).trans h2, fun e' he' y hy => ?_⟩
    obtain rfl | he' := List.mem_cons.mp he'
    · obtain ⟨y0, hy0, hid⟩ := h2.ids y hy
      rw [← hid]
      exact not_running_completeOne e' u y0 hy0
    · exact h3 e' he' y hy

/-- The running cues completed one after the other. -/
def completedAll (s : State) : State := s.seq.running.foldl completeOne (unpaused s)

theorem completedAll_spec (hn : s.notes = []) :
    Sequel (unpaused s) (completedAll s) ∧ (completedAll s).seq.running = [] := by
  obtain ⟨h1, h2, h3⟩ := completeOnes (s := unpaused s) s.seq.running
    (.refl (by show s.notes.filter isLost = []; rw [hn]; rfl))
  refine ⟨h1, List.eq_nil_iff_forall_not_mem.mpr fun y hy => ?_⟩
  obtain ⟨y0, hy0, hid⟩ := h2.ids y hy
  exact h3 y0 hy0 y hy hid.symm

/-- The answer to a COMPLETE_ALL. -/
def completeAllAnswer (s : State) : Answer :=
  answer .ok (wordsOf (wordOf s.seq.running.length) (rest s 1) (rest s 2) (rest s 3))

theorem ownerOf_completeAll (hn : s.notes = []) :
    ownerOf .completeAll s = (mark .cue (completedAll s), some (completeAllAnswer s)) := by
  obtain ⟨hs, hr⟩ := completedAll_spec hn
  have hf : (completedAll s).freeCount = s.freeCount := hs.freeCount
  have hop : completeAllOwner s = (mark .cue (completedAll s), answer .ok (wordsOf
      (wordOf (s.seq.running.length - (completedAll s).seq.running.length)) (rest (completedAll s) 1)
      (rest (completedAll s) 2) (rest (completedAll s) 3))) := rfl
  show Machine.later (completeAllOwner s) = _
  rw [hop, hr]
  unfold completeAllAnswer rest
  rw [hf]
  rfl

section

variable (ht : s.Takes .completeAll)

include ht

theorem request_completeAll : request .completeAll s
    = finish (answered (completeAllAnswer s) s (mark .cue (completedAll (markHanded s)))) := by
  obtain ⟨hs, _⟩ := completedAll_spec (s := markHanded s) ht.2.1.1
  exact request_eq ht (ownerOf_completeAll (s := markHanded s) ht.2.1.1) hs.slate hs.freeCount

/-- What every COMPLETE_ALL leaves behind. -/
theorem completeAll_leaves : let t := request .completeAll s
    t.seq.pause = false ∧ t.seq.running = [] ∧ t.seq.standby = s.seq.standby ∧ t.seq.parent = s.seq.parent
      ∧ t.slate.lastAnswer = some (completeAllAnswer s) := by
  intro t
  obtain ⟨hs, hr⟩ := completedAll_spec (s := markHanded s) ht.2.1.1
  have hd := (closed_sequel _).drain
    (Sequel.refl (s := answered (completeAllAnswer s) s (mark .cue (completedAll (markHanded s)))) hs.calm)
  obtain ⟨q, m, hf⟩ := flushMarks_eq (drain (answered (completeAllAnswer s) s (mark .cue (completedAll (markHanded s)))))
  have htq : t.seq = (drain (answered (completeAllAnswer s) s (mark .cue (completedAll (markHanded s))))).seq
      ∧ t.slate = (drain (answered (completeAllAnswer s) s (mark .cue (completedAll (markHanded s))))).slate := by
    show (request .completeAll s).seq = _ ∧ (request .completeAll s).slate = _
    rw [request_completeAll ht]
    unfold finish
    rw [hf]
    exact ⟨rfl, rfl⟩
  refine ⟨?_, ?_, ?_, ?_, ?_⟩
  · rw [htq.1, hd.pause]
    exact hs.pause
  · refine List.eq_nil_iff_forall_not_mem.mpr fun y hy => ?_
    rw [htq.1] at hy
    obtain ⟨y0, hy0, _⟩ := hd.ids y hy
    have hy0' : y0 ∈ (completedAll (markHanded s)).seq.running := hy0
    rw [hr] at hy0'
    nomatch hy0'
  · rw [htq.1, hd.standby]
    exact hs.standby
  · rw [htq.1, hd.parent]
    exact hs.parent
  · rw [htq.2, hd.slate]
    rfl

/-! ## A cue of one record -/

/-- With none running COMPLETE_ALL clears the pause and does no more. -/
theorem completeAll_none (hrun : s.seq.running = []) :
    State.Answered [.cue] (unpaused s) (completeAllAnswer s) (request .completeAll s) := by
  obtain ⟨hn, hm⟩ := ht.2.1
  have hall : completedAll (markHanded s) = unpaused (markHanded s) := by
    unfold completedAll
    rw [show (markHanded s).seq.running = [] from hrun]
    rfl
  have hop := ownerOf_completeAll (s := markHanded s) hn
  rw [hall] at hop
  exact Reaches.answered (u := unpaused s) ht hop ((Reaches.refl (s := unpaused (markHanded s)) hm).area .cue) rfl rfl hn

end

theorem notFading_without {e : Elem} (hf : s.NotFading e) (hw : w.fades = s.fades.set i none) : w.NotFading e := by
  refine fadingOf_none_iff.mpr fun j => ?_
  rw [hw]
  by_cases hj : i = j
  · subst hj
    rw [Fin.getElem_fin, Vector.getElem_set_self]
    rfl
  · have hne : (i : Nat) ≠ j := fun h => hj (Fin.ext h)
    rw [Fin.getElem_fin, Vector.getElem_set_ne _ _ hne]
    exact fadingOf_none_iff.mp hf j

/-- The cue `x` alone runs, and the record at place `i` alone is its own. -/
structure OneRecord (s : State) (x : RunEntry) (i : RecId) (r : FadeRec) (k : Nat) : Prop where
  running : s.seq.running = [x]
  pending : x.pending = 1
  placed : x.placing = false
  record : s.fades[i] = some r
  owner : r.owner = .firing x.id
  index : r.runIndex = some k
  bound : k < 64
  one : ∀ (j : RecId) (q : FadeRec), s.fades[j] = some q → q.owner = .firing x.id → j = i

theorem OneRecord.ofCue (h : OneRecord s x i r k) : OfCue s r x where
  owner := h.owner
  entry := by
    unfold entryOf
    rw [h.running, List.find?_cons_of_pos (by simp)]
  pending := by rw [h.pending]; decide
  placed := h.placed

/-- The state in which the cue's record is executed. -/
def handedUnpaused (s : State) : State := unpaused (markHanded s)

/-- The same, once the record has left the table and the cue has been told. -/
def handedLeft (i : RecId) (x : RunEntry) (s : State) : State :=
  { handedUnpaused s with fades := s.fades.set i none, seq := (unpaused s).seq.told x }

theorem OneRecord.handed (h : OneRecord s x i r k) : OneRecord (handedUnpaused s) x i r k :=
  ⟨h.running, h.pending, h.placed, h.record, h.owner, h.index, h.bound, h.one⟩

/-- The cue is completed with the one record. -/
theorem OneRecord.completed (h : OneRecord s x i r k) (hf : (drain (executeRecord none i (handedUnpaused s))).fades
      = s.fades.set i none) (hq : (drain (executeRecord none i (handedUnpaused s))).seq = (unpaused s).seq.told x) :
    completedAll (markHanded s) = drain (executeRecord none i (handedUnpaused s)) := by
  have hh := h.handed
  have hexec := executeOwned_single (view := none) hh.record hh.owner hh.index hh.bound hh.one (unowned hh.record hh.one hf)
  have hone : completeOne (handedUnpaused s) x = drain (executeRecord none i (handedUnpaused s)) := by
    unfold completeOne
    rw [if_pos (by rw [hh.ofCue.entry]; rfl), hexec]
    exact completeLeft_gone fun e he => not_running_told h.pending e (by rw [← hq]; exact he)
  unfold completedAll
  rw [show (markHanded s).seq.running = [x] from h.running]
  exact hone

section

variable (ht : s.Takes .completeAll) (h : OneRecord s x i r k)

include ht h

/-- COMPLETE_ALL from what the record's execution has reached. -/
theorem completeAll_reaches (hv : Reaches as { w with slate := (markHanded s).slate }
      (drain (executeRecord none i (handedUnpaused s)))) (ha : .cue ∈ as) (hf : w.fades = s.fades.set i none)
    (hq : w.seq = (unpaused s).seq.told x) (hs : w.slate = s.slate) (hc : w.freeCount = s.freeCount) (hn : w.notes = []) :
    State.Answered as w (completeAllAnswer s) (request .completeAll s) := by
  have hall := h.completed (by rw [hv.1]; exact hf) (by rw [hv.1]; exact hq)
  have hop := ownerOf_completeAll (s := markHanded s) ht.2.1.1
  rw [hall] at hop
  exact Reaches.answered ht hop (hv.area_of_mem ha) hs hc hn

/-- The same, where no notice has been given. -/
theorem completeAll_quiet (hv : Reaches as { w with slate := (markHanded s).slate }
      (executeRecord none i (handedUnpaused s))) (ha : .cue ∈ as) (hf : w.fades = s.fades.set i none)
    (hq : w.seq = (unpaused s).seq.told x) (hs : w.slate = s.slate) (hc : w.freeCount = s.freeCount) (hn : w.notes = []) :
    State.Answered as w (completeAllAnswer s) (request .completeAll s) := by
  refine completeAll_reaches ht h ?_ ha hf hq hs hc hn
  rw [drain_nil (by rw [hv.1]; exact hn)]
  exact hv

/-! ### LEVEL -/

/-- A LEVEL record's element is set to its target. -/
theorem completeAll_level {e : Elem} {target : Level} {curve : Curve} (hm : r.stopMark = none)
    (hc : r.content = .level e target curve) (hfd : r.fading = true ∨ s.NotFading e) :
    State.Answered [.cue] { setFade i none (setElem e target s) with seq := (unpaused s).seq.told x }
      (completeAllAnswer s) (request .completeAll s) := by
  obtain ⟨hn, hmk⟩ := ht.2.1
  have hrefl : Reaches [] (handedUnpaused s) (handedUnpaused s) := Reaches.refl hmk
  have hleave {v : State} (hset : Reaches [] (setElem e target (handedUnpaused s)) v) : Reaches [.cue]
      { setFade i none (setElem e target (handedUnpaused s)) with seq := (unpaused s).seq.told x }
      (leaveTable i (.completed true) v) := by
    rw [setElem_eq] at hset ⊢
    exact hset.leaveTable_cue_noted h.handed.record (h.handed.ofCue.congr rfl) hm
  have hexec : Reaches [.cue] { setFade i none (setElem e target (handedUnpaused s)) with seq := (unpaused s).seq.told x }
      (executeRecord none i (handedUnpaused s)) := by
    unfold executeRecord
    rw [h.handed.record]
    dsimp only
    rw [hc]
    dsimp only
    split
    · exact hleave (hrefl.elem_noted e target)
    · next hfade =>
      exact hleave ((hrefl.takeOver_none (fadingOf_except (hfd.resolve_left hfade) (some i))).elem_noted e target)
  rw [setElem_eq] at hexec ⊢
  exact completeAll_quiet ht h hexec List.mem_cons_self rfl rfl rfl rfl hn

/-! ### RELAY -/

/-- The record leaves the table as it acts. -/
theorem leaves_handed {b : Bool} (hm : r.stopMark = none) :
    Reaches [.cue] (handedLeft i x s) (leaveTable i (.completed b) (handedUnpaused s)) :=
  (Reaches.refl (s := handedUnpaused s) ht.2.1.2).leaveTable_cue h.handed.record h.handed.ofCue hm

theorem completeAll_relay {g : Fin 8} {on : Bool} (hm : r.stopMark = none) (hc : r.content = .relay g on) :
    let t := request .completeAll s
    t.seq = (unpaused s).seq.told x ∧ t.fades = s.fades.set i none
      ∧ ∀ z : ZoneId, (s.zoneGroups[g].getLsbD z = true → t.zones[z].relay = on)
        ∧ (s.zoneGroups[g].getLsbD z = false → t.zones[z] = s.zones[z]) := by
  intro t
  have hexec : executeRecord none i (handedUnpaused s)
      = relayAction g on (leaveTable i (.completed false) (handedUnpaused s)) := by
    rw [← actRecord_relay h.handed.record hc]
    unfold executeRecord
    rw [h.handed.record]
    dsimp only
    rw [hc]
  obtain ⟨ns, bs, hreach, hben, _⟩ := (leaves_handed ht h (b := false) hm).relayAction (g := g) (on := on)
  rw [← hexec] at hreach
  have hnotes : ∀ n ∈ (executeRecord none i (handedUnpaused s)).notes, Benign n := by
    rw [hreach.1]
    show ∀ n ∈ s.notes ++ ns, Benign n
    rw [ht.2.1.1]
    exact hben
  have hcomp := h.completed
  generalize executeRecord none i (handedUnpaused s) = E at hnotes hreach hcomp
  obtain ⟨⟨P, C, V, N, M, hd⟩, _⟩ := pageWork_drainN 256 hnotes
  have hzones : (drain E).zones = tabulate fun z => if z ∈ membersOf s g then
      switched (s.engine == .stopped) on s.zones[z] else s.zones[z] := by
    have hE : E.zones = _ := congrArg State.zones hreach.1
    have hD := congrArg State.zones hd
    exact hD.trans hE
  have hfades : (drain E).fades = s.fades.set i none := by
    have hE : E.fades = _ := congrArg State.fades hreach.1
    have hD := congrArg State.fades hd
    exact hD.trans hE
  have hseq : (drain E).seq = (unpaused s).seq.told x := by
    have hE : E.seq = _ := congrArg State.seq hreach.1
    have hD := congrArg State.seq hd
    exact hD.trans hE
  have hall := hcomp hfades hseq
  obtain ⟨⟨P', C', V', wq, m, hfin⟩, _⟩ := finish_benign
    (s := answered (completeAllAnswer s) s (mark .cue (completedAll (markHanded s)))) (by
      rw [hall]
      exact benign_drainN 256 hnotes)
  have hreq : t = _ := (request_completeAll ht).trans hfin
  have hmem (z : ZoneId) : z ∈ membersOf s g ↔ s.zoneGroups[g].getLsbD z = true := mem_zonesOf
  have hall_zones : t.zones = (tabulate fun z => if z ∈ membersOf s g then switched (s.engine == .stopped) on s.zones[z]
      else s.zones[z]) := by
    have h1 := congrArg State.zones hreq
    exact h1.trans ((congrArg State.zones hall).trans hzones)
  have hzone (z : ZoneId) : t.zones[z] = if z ∈ membersOf s g then switched (s.engine == .stopped) on s.zones[z]
      else s.zones[z] := by
    rw [hall_zones]
    exact tabulate_get _ _ _
  have hseq' := congrArg State.seq hreq
  have hfades' := congrArg State.fades hreq
  refine ⟨hseq'.trans ((congrArg State.seq hall).trans hseq), hfades'.trans ((congrArg State.fades hall).trans hfades), fun z => ⟨fun hz => ?_, fun hz => ?_⟩⟩
  · rw [hzone, if_pos ((hmem z).mpr hz)]
    exact (switched_same s.zones[z]).1
  · rw [hzone, if_neg (by rw [hmem, hz]; nofun)]

/-! ### STOP -/

/-- The state once a cue's stop has sent its voice to IDLE. -/
def cueStopped (z : VoiceId) (i : RecId) (x : RunEntry) (s : State) : State :=
  { s with
    fades := s.fades.set i none, seq := (unpaused s).seq.told x
    voices := s.voices.set z s.voices[z].idled
    levels := s.levels.put (.voice z) .off
    arb := (staleBurst z s).arb }

/-- What has reached the entry to IDLE of a voice that stands alone. -/
theorem completeAll_idles {z : VoiceId} (hs : s.VoiceAlone z)
    (hv : Reaches as { idledAt z { handedUnpaused s with
        fades := s.fades.set i none, seq := (unpaused s).seq.told x, levels := s.levels.put (.voice z) .off } with
      notes := s.notes ++ [.voiceIdle z s.voices[z].owner] } (executeRecord none i (handedUnpaused s)))
    (ha : ∀ a, a ∈ as ↔ a ∈ [Area.cue, .voices]) :
    State.Answered [.cue, .voices] (cueStopped z i x s) (completeAllAnswer s) (request .completeAll s) := by
  have hd := Reaches.drain_idle (u := { handedUnpaused s with
    fades := s.fades.set i none, seq := (unpaused s).seq.told x, levels := s.levels.put (.voice z) .off }) hv ht.2.1.1 hs
  exact completeAll_reaches (w := cueStopped z i x s) ht h
    (hd.congr (by dsimp only [idledAt, staleBurst, handedUnpaused, unpaused, markHanded, cueStopped]) ha)
    List.mem_cons_self rfl rfl rfl rfl ht.2.1.1

/-- A stop fade is brought to its end. -/
theorem completeAll_stopFade {z : VoiceId} {curve : Curve} (hm : r.stopMark = some z) (hf : r.fading = true)
    (hc : r.content = .level (.voice z) .off curve) (hi : s.voices[z].state ≠ .idle) (hs : s.VoiceAlone z) :
    State.Answered [.cue, .voices] (cueStopped z i x s) (completeAllAnswer s) (request .completeAll s) := by
  have hexec : executeRecord none i (handedUnpaused s)
      = leaveTable i (.completed true) (setElem (.voice z) .off (handedUnpaused s)) := by
    unfold executeRecord
    rw [h.handed.record]
    dsimp only
    rw [hc]
    exact if_pos hf
  have hset := (Reaches.refl (s := handedUnpaused s) ht.2.1.2).elem (.voice z) .off
  have hleft := hset.leaveTable_stop h.handed.record (h.handed.ofCue.congr rfl) hm hi
  rw [← hexec] at hleft
  refine completeAll_idles ht h hs (hleft.congr ?_ fun _ => Iff.rfl) fun a => by simp [or_comm]
  dsimp only [idledAt, staleBurst, handedUnpaused, unpaused, markHanded]

theorem executeRecord_stop {z : VoiceId} {time : Nat} (hc : r.content = .stop z time) :
    executeRecord none i (handedUnpaused s) = stopCut z (leaveTable i (.completed true) (handedUnpaused s)) := by
  unfold executeRecord
  rw [h.handed.record]
  dsimp only
  rw [hc]

/-- A STOP of an IDLE voice is executed by leaving the table. -/
theorem completeAll_stopIdle {z : VoiceId} {time : Nat} (hm : r.stopMark = none) (hc : r.content = .stop z time)
    (hi : s.voices[z].state = .idle) :
    State.Answered [.cue] { setFade i none s with seq := (unpaused s).seq.told x }
      (completeAllAnswer s) (request .completeAll s) := by
  have hleft : Reaches [.cue] { setFade i none (handedUnpaused s) with seq := (unpaused s).seq.told x }
      (leaveTable i (.completed true) (handedUnpaused s)) :=
    (Reaches.refl (s := handedUnpaused s) ht.2.1.2).leaveTable_cue_noted h.handed.record h.handed.ofCue hm
  have hexec : executeRecord none i (handedUnpaused s) = leaveTable i (.completed true) (handedUnpaused s) := by
    have hv : (leaveTable i (.completed true) (handedUnpaused s)).voices = s.voices :=
      (congrArg State.voices hleft.1).trans rfl
    rw [executeRecord_stop ht h hc]
    exact if_pos (by rw [hv]; exact hi)
  rw [← hexec] at hleft
  exact completeAll_quiet ht h hleft List.mem_cons_self rfl rfl rfl rfl ht.2.1.1

/-- A STOP cuts its voice's level, and the voice enters IDLE. -/
theorem completeAll_stop {z : VoiceId} {time : Nat} (hm : r.stopMark = none) (hc : r.content = .stop z time)
    (hi : s.voices[z].state ≠ .idle) (hf : s.NotFading (.voice z)) (hs : s.VoiceAlone z) :
    State.Answered [.cue, .voices] (cueStopped z i x s) (completeAllAnswer s) (request .completeAll s) := by
  have hleft := leaves_handed ht h (b := true) hm
  have hcut := hleft.cut_none (e := .voice z) .off (notFading_without hf rfl)
  have hidle := hcut.stopCompleted (i := none) hi (.inl rfl)
  have hv : (leaveTable i (.completed true) (handedUnpaused s)).voices = s.voices :=
      (congrArg State.voices hleft.1).trans rfl
  rw [← stopCut_eq (by rw [hv]; exact hi), ← executeRecord_stop ht h hc] at hidle
  refine completeAll_idles ht h hs (hidle.congr ?_ fun _ => Iff.rfl) fun a => by simp [or_comm]
  dsimp only [idledAt, staleBurst, handedLeft, handedUnpaused, unpaused, markHanded]

/-! ### PLAY -/

theorem completeAll_play {z : VoiceId} {n : Nat} {start : Level} {loop : Bool} {snd : SoundCopy} (hm : r.stopMark = none)
    (hc : r.content = .play z n start loop) (hsnd : judgeSound s s.mem n loop = .usable snd)
    (hf : s.NotFading (.voice z)) (hno : ∀ c, s.voices[z].owner ≠ .call c) :
    State.Answered [.cue, .voices] { s with
      fades := s.fades.set i none, seq := (unpaused s).seq.told x
      voices := s.voices.set z (Voice.restarted s.voices[z] snd (.cue x.id)).request
      levels := s.levels.put (.voice z) start
      arb := s.playedArb z } (completeAllAnswer s) (request .completeAll s) := by
  have hq : (handedUnpaused s).Quiet := ht.2.1
  have hexec : executeRecord none i (handedUnpaused s)
      = takePlay z snd start (.cue x.id) ((leaveTable i (.completed false) (handedUnpaused s)).soundAsked n) := by
    rw [← actRecord_usable hq h.handed.record h.handed.ofCue hm hc hsnd]
    unfold executeRecord
    rw [h.handed.record]
    dsimp only
    rw [hc]
  have hasked (w : State) : w.soundAsked n = { w with arb := { w.arb with reads := w.arb.reads ++ [.record] } } :=
    if_pos (usable_number hsnd)
  have hleft := (leaves_handed ht h (b := false) hm).soundAsked (n := n)
  have htaken := hleft.takePlay_none (snd := snd) (start := start) (owner := .cue x.id) (x := z)
    (notFading_without hf (by rw [hasked]; rfl))
  rw [played_asked (w := handedLeft i x s) (usable_number hsnd) hno, ← hexec] at htaken
  refine completeAll_quiet ht h (htaken.congr ?_ fun a => by simp [or_comm]) List.mem_cons_self rfl rfl rfl rfl ht.2.1.1
  dsimp only [handedLeft, handedUnpaused, unpaused, markHanded, State.playedArb, staleBurst]

end

/-- Settles O31: what every COMPLETE_ALL leaves, and the one record of a running cue by its content. -/
theorem completeAllEmptiesTheRunningList : Obligations.CompleteAllEmptiesTheRunningList := by
  unfold Obligations.CompleteAllEmptiesTheRunningList
  intro s ht a
  obtain ⟨hpause, hrun, hst, hpar, hans⟩ := completeAll_leaves ht
  refine ⟨_, exec_command (r := .completeAll) ht.1, hpause, hrun, hst, hpar, (Steps.keeps_request .completeAll).mem, hans,
    completeAll_none ht, ?_⟩
  intro x i r k hx hp hpl hr ho hk hlt hone done stopped
  have h : OneRecord s x i r k := ⟨hx, hp, hpl, hr, ho, hk, hlt, hone⟩
  refine ⟨fun z curve hm hf hc hi hs => ?_, fun hm => ⟨fun e target curve hc hf => ?_, fun g on hc => ?_,
    fun z time hc hi => ?_, fun z time hc hi hf hs => ?_, fun z n start loop snd hc hsnd hf hno => ?_⟩⟩
  · have hstop := completeAll_stopFade ht h hm hf hc hi hs
    dsimp only [cueStopped, unpaused, completeAllAnswer, answer] at hstop
    dsimp only [stopped, done, a]
    exact hstop
  · exact completeAll_level ht h hm hc hf
  · exact completeAll_relay ht h hm hc
  · exact completeAll_stopIdle ht h hm hc hi
  · exact completeAll_stop ht h hm hc hi hf hs
  · exact completeAll_play ht h hm hc hsnd hf hno

end Sys2Proof.Proofs.Kept
end

section
/-! PROOF. What every firing leaves, whatever its moves do (R83, R85, R89). -/

namespace Sys2Proof.Proofs.Kept

open Sys2Proof.Machine
open Sys2Proof.Proofs.Ends

variable {s t u v w : State} {view : Memory} {id : FiringId} {i : RecId} {k : Nat}

/-! ## Room for a ninth cue (R86) -/

theorem Sequel.forceComplete (h : Sequel s u) (view : Memory) (n : Nat) (e : RunEntry) :
    Sequel s (forceComplete view n e u) := by
  unfold Machine.forceComplete
  dsimp only
  have hforced := h.updEntry e.id (f := fun x => { x with forced := true }) fun _ => rfl
  exact (((closed_sequel s).executeOwned (some view) { e with forced := true } hforced).completeLeft e.id).of_office
    (office_captureEvent ..)

theorem Sequel.makeRoom (h : Sequel s u) (view : Memory) (n : Nat) : Sequel s (makeRoom view n u) := by
  unfold Machine.makeRoom
  split
  · split
    · exact h
    · exact h.forceComplete view n _
  · exact h

/-! ## The moves (R84, R105 to R107) -/

theorem Sequel.setFade (h : Sequel s u) (i : RecId) (r : Option FadeRec) : Sequel s (setFade i r u) :=
  h.same rfl rfl rfl rfl rfl rfl

theorem Sequel.setElem (h : Sequel s u) (e : Elem) (x : Level) : Sequel s (setElem e x u) :=
  h.of_office (office_of_core (core_setElem e x u))

theorem Sequel.startFade (h : Sequel s u) (i : RecId) (r : FadeRec) (e : Elem) (target : Level) (curve : Curve) :
    Sequel s (startFade i r e target curve u) := by
  unfold Machine.startFade
  dsimp only
  split
  · exact (closed_sequel s).cutBy i e target h
  · exact Sequel.setFade ((closed_sequel s).takeOver e (some i) (h.setElem e _)) i _

theorem core_voiceStopping (x : VoiceId) (i : RecId) (s : State) : core (voiceStopping x i s) = core s := by
  unfold voiceStopping
  split <;> rfl

theorem Sequel.startStop (h : Sequel s u) (i : RecId) (r : FadeRec) (x : VoiceId) (time : Nat) :
    Sequel s (startStop i r x time u) := by
  unfold Machine.startStop
  dsimp only
  split
  · exact (closed_sequel s).cutBy i _ _ (h.setFade i _)
  · exact (Sequel.startFade (h.setFade i _) i _ _ _ _).of_office (office_of_core (core_voiceStopping x i _))

theorem Sequel.actRecord (h : Sequel s u) (view : Option Memory) (i : RecId) : Sequel s (actRecord view i u) := by
  unfold Machine.actRecord
  split
  · exact h
  · next r _ =>
    split
    · exact h.startFade i r _ _ _
    · exact (closed_sequel s).playMove _ _ _ _ _ _ (h.leaveTable i _)
    · exact (h.leaveTable i _).of_office (office_of_core (core_relayAction ..))
    · split
      · exact h.leaveTable i _
      · exact h.startStop i r _ _

theorem Sequel.actCrushed (h : Sequel s u) (view : Option Memory) (o : Owner) (c : Content) :
    Sequel s (actCrushed view o c u) := by
  unfold Machine.actCrushed
  split
  · exact (closed_sequel s).cut _ _ h
  · exact (closed_sequel s).playMove _ _ _ _ _ _ h
  · exact h.of_office (office_of_core (core_relayAction ..))
  · exact (closed_sequel s).stopCut _ h

theorem Sequel.cuePlaced (h : Sequel s u) (id : FiringId) : Sequel s (cuePlaced id u) :=
  (h.updEntry id (f := fun e => { e with pending := e.pending + 1 }) fun _ => rfl).of_office (office_mark .cue _)

theorem Sequel.cueCrushed (h : Sequel s u) (id : FiringId) : Sequel s (cueCrushed id u) :=
  (h.updEntry id (f := fun e => { e with crushed := e.crushed + 1 }) fun _ => rfl).of_office (office_mark .cue _)

theorem Sequel.drain (h : Sequel s u) : Sequel s (drain u) := (closed_sequel s).drain h

theorem Sequel.placeMove (h : Sequel s u) (view : Memory) (id : FiringId) (c : CueRec) (k : Nat) (m : Move) (i : RecId) :
    Sequel s (placeMove view id c k m i u) := by
  have h' := (h.setFade i (some (moveRec id c k m))).cuePlaced id
  unfold Machine.placeMove
  dsimp only
  split
  · exact h'.actRecord _ i
  · exact h'

theorem Sequel.takeMove {x : State × Option Nat} (h : Sequel s x.1) (view : Memory) (id : FiringId) (c : CueRec) (k : Nat) :
    Sequel s (takeMove view id c k x).1 := by
  unfold Machine.takeMove
  split
  · exact h.cueFailed id
  · next m _ =>
    split
    · exact (h.placeMove view id c k m _).drain
    · exact ((h.cueCrushed id).actCrushed _ _ _).drain

theorem Sequel.takeMoves (h : Sequel s u) (view : Memory) (id : FiringId) (c : CueRec) :
    Sequel s (takeMoves view id c u).1 := by
  have hfold : ∀ (l : List Nat) (x : State × Option Nat), Sequel s x.1 →
      Sequel s (l.foldl (fun x k => Machine.takeMove view id c k x) x).1 := by
    intro l
    induction l with
    | nil => exact fun _ h => h
    | cons k l ih => exact fun x h => ih _ (h.takeMove view id c k)
  exact hfold _ _ h

/-! ## The whole firing (R83) -/

/-- The sequencer beside the running list once a firing has entered its cue. -/
structure Entered (s u : State) : Prop where
  firing : u.seq.firing = s.seq.firing
  nextSerial : u.seq.nextSerial = Machine.nextSerial s.seq.nextSerial
  pause : u.seq.pause = s.seq.pause
  guard : u.seq.guard = s.seq.guard
  header : u.header = s.header
  tables : u.tables = s.tables
  calm : u.notes.filter isLost = []

theorem entered_enterAndPlace (h : Sequel s u) (view : Memory) (st : Standby) (id : FiringId) :
    Entered s (enterAndPlace view st id u) := by
  have hroom := h.makeRoom view st.number
  have henter (n : Nat) (w : State) (hw : Sequel (enterCue id n (Machine.makeRoom view st.number u)) w) :
      Entered s w :=
    ⟨hw.firing.trans hroom.firing, hw.nextSerial.trans (congrArg Machine.nextSerial hroom.nextSerial),
      hw.pause.trans hroom.pause, hw.guard.trans hroom.guard, hw.header.trans hroom.header,
      hw.tables.trans hroom.tables, hw.calm⟩
  have hself (n : Nat) : Sequel (enterCue id n (Machine.makeRoom view st.number u))
      (enterCue id n (Machine.makeRoom view st.number u)) := .refl hroom.calm
  unfold enterAndPlace
  dsimp only
  split
  · exact henter 1 _ (hself 1)
  · next c _ =>
    refine henter 0 _ ?_
    have hmoves := (hself 0).takeMoves view id c
    unfold reportCrushed
    split
    · exact hmoves
    · exact hmoves.of_office (office_captureEvent ..)

/-- The sequencer once a firing has derived the standby. -/
def derived (next : Option Standby) (id : FiringId) (q : Seq) : Seq :=
  { q with
    standby := next, parent := some id
    follow := next.bind fun n => if n.trigger = .followStart then some n.wait else none }

/-- The standby that a firing derives. -/
def nextStandby (view : Memory) (s : State) (number : Nat) : Option Standby :=
  (nextAfter view s.tables.cueList number).map standbyOf

theorem deriveStandby_eq (view : Memory) (id : FiringId) (s : State) : deriveStandby view id s
    = { s with seq := derived (nextStandby view s id.number) id s.seq } := by
  unfold deriveStandby nextStandby
  generalize (nextAfter view s.tables.cueList id.number).map standbyOf = next
  cases next <;> rfl

/-- The state once a firing has been closed. -/
def closedFiring (view : Memory) (st : Standby) (id : FiringId) (s : State) : State :=
  closeFiring id (deriveStandby view id (enterAndPlace view st id s))

theorem fire_eq (cause : FireCause) (view : Memory) (st : Standby) {s : State} {id : FiringId}
    (hid : nextId s st.number = id) : fire cause view st s
      = reportFiring cause id (crushedOf (enterAndPlace view st id s) id) (closedFiring view st id s) := by
  subst hid
  rfl

theorem sequel_closedFiring (h : Entered s (enterAndPlace view st id u)) :
    Sequel (deriveStandby view id (enterAndPlace view st id u)) (closedFiring view st id u) := by
  have hself : Sequel (deriveStandby view id (enterAndPlace view st id u))
      (deriveStandby view id (enterAndPlace view st id u)) := .refl (by rw [deriveStandby_eq]; exact h.calm)
  unfold closedFiring
  exact (Sequel.completeIfDone (hself.updEntry id (f := fun e => { e with placing := false }) fun _ => rfl) id).of_office
    (office_mark .cue _)

theorem core_captureLine (t : Option LineId) (o : LineOutcome) (id : Option FiringId) (s : State) :
    core (captureLine t o id s) = core s := core_captureEvent ..

/-- The guard once a firing has been reported. -/
def guardAfter (cause : FireCause) (s : State) : Option Nat :=
  match cause with
  | .lineGo | .goRequest => if s.header.guard = 0 then s.seq.guard else some s.header.guard
  | .trigger _ | .follow => s.seq.guard

/-- The report of a firing leaves the sequencer but for its guard, and gives no notice. -/
theorem reportFiring_seq (cause : FireCause) (id : FiringId) (n : Nat) (s : State) :
    (reportFiring cause id n s).seq = { s.seq with guard := guardAfter cause s }
      ∧ (reportFiring cause id n s).notes = s.notes := by
  have hline (t : Option LineId) (u : State) : (captureLine t .fired (some id) u).seq = u.seq
      ∧ (captureLine t .fired (some id) u).notes = u.notes := by
    unfold captureLine
    rw [captureEvent_eq]
    exact ⟨rfl, rfl⟩
  have hguard : (startGuard s).seq = { s.seq with guard := if s.header.guard = 0 then s.seq.guard else some s.header.guard } :=
    rfl
  unfold reportFiring guardAfter
  cases cause with
  | follow => exact ⟨rfl, rfl⟩
  | trigger t => exact hline _ s
  | lineGo => exact ⟨(hline _ _).1.trans hguard, (hline _ _).2⟩
  | goRequest =>
    dsimp only
    rw [finishRequest_eq]
    exact ⟨rfl, rfl⟩

/-- The state in which a firing whose reads have arrived acts. -/
def unfired (s : State) : State := { s with seq := { s.seq with firing := none } }

section

variable {cause : FireCause} {st : Standby} (hruns : s.Runs) (hq : s.Quiet) (ht : s.clock.tickOpen = true)
  (hf : s.seq.firing = some { cause := cause, view := some view }) (hst : s.seq.standby = some st)

include hruns ht hf hst

theorem exec_cueFiring : exec .cueFiring s = .next (finish (fire cause view st (unfired s))) := by
  have hdue : firingDue s = true := by
    unfold firingDue
    rw [ht, hf]
    rfl
  have hop : cueFiring s = fire cause view st (unfired s) := by
    unfold cueFiring
    rw [hf, hst]
    rfl
  exact (running_next _ hruns).trans (congrArg _ ((event_due hdue).trans (congrArg finish hop)))

include hq

/-- What stands in the sequencer after every firing. -/
theorem firing_leaves : let t := finish (fire cause view st (unfired s))
    let id := nextId s st.number
    t.seq.firing = none ∧ t.seq.nextSerial = nextSerial s.seq.nextSerial
      ∧ t.seq.standby = (nextAfter view s.tables.cueList st.number).map standbyOf ∧ t.seq.parent = some id
      ∧ t.seq.pause = s.seq.pause ∧ t.seq.guard = guardAfter cause s := by
  intro t id
  have hself : Sequel (unfired s) (unfired s) := .refl (by show s.notes.filter isLost = []; rw [hq.1]; rfl)
  have hent := entered_enterAndPlace hself view st id
  have hclosed := sequel_closedFiring hent
  have hnext : nextStandby view (enterAndPlace view st id (unfired s)) id.number = nextStandby view s st.number := by
    have htab : (enterAndPlace view st id (unfired s)).tables = s.tables := hent.tables
    have hnum : id.number = st.number := rfl
    unfold nextStandby
    rw [htab, hnum]
  rw [deriveStandby_eq, hnext] at hclosed
  show _ ∧ _ ∧ _ = nextStandby view s st.number ∧ _
  generalize nextStandby view s st.number = next at hclosed ⊢
  obtain ⟨hseq, hnotes⟩ := reportFiring_seq cause id (crushedOf (enterAndPlace view st id (unfired s)) id)
    (closedFiring view st id (unfired s))
  rw [← fire_eq (s := unfired s) (id := id) cause view st rfl] at hseq hnotes
  have hdrain := Sequel.drain (Sequel.refl (s := fire cause view st (unfired s)) (by rw [hnotes]; exact hclosed.calm))
  obtain ⟨q, m, hfin⟩ := flushMarks_eq (drain (fire cause view st (unfired s)))
  have htq : t.seq = (drain (fire cause view st (unfired s))).seq := by
    show (finish _).seq = _
    unfold finish
    rw [hfin]
  have hguard : guardAfter cause (closedFiring view st id (unfired s)) = guardAfter cause s := by
    unfold guardAfter
    rw [hclosed.guard, hclosed.header]
    cases cause <;> simp only [derived, hent.guard, hent.header] <;> rfl
  rw [htq]
  refine ⟨?_, ?_, ?_, ?_, ?_, ?_⟩
  · rw [hdrain.firing, hseq]
    exact hclosed.firing.trans hent.firing
  · rw [hdrain.nextSerial, hseq]
    exact hclosed.nextSerial.trans hent.nextSerial
  · rw [hdrain.standby, hseq]
    exact hclosed.standby
  · rw [hdrain.parent, hseq]
    exact hclosed.parent
  · rw [hdrain.pause, hseq]
    exact hclosed.pause.trans hent.pause
  · rw [hdrain.guard, hseq]
    exact hguard

end

end Sys2Proof.Proofs.Kept
end

section
/-! PROOF. How a firing closes and is reported, once its moves have been taken (R83, R87 to R89, R91, R97). -/

namespace Sys2Proof.Proofs.Kept

open Sys2Proof.Machine
open Sys2Proof.Proofs.Ends

variable {s t u v w : State} {as : List Area} {view : Memory} {id : FiringId} {R : List RunEntry} {e : RunEntry}
  {next : Option Standby}

/-! ## The entry at the tail of the running list -/

/-- The entry `e` stands at the tail of the running list, behind the cues of `R`. -/
structure AtTail (q : Seq) (R : List RunEntry) (e : RunEntry) : Prop where
  running : q.running = R ++ [e]
  others : ∀ y ∈ R, y.id ≠ e.id

theorem AtTail.entry (h : AtTail s.seq R e) : entryOf s e.id = some e := by
  unfold entryOf
  rw [h.running, List.find?_append, List.find?_eq_none.mpr fun y hy => by simpa using h.others y hy]
  simp

theorem AtTail.upd (h : AtTail s.seq R e) (f : RunEntry → RunEntry) :
    updEntry e.id f s = { s with seq := { s.seq with running := R ++ [f e] } } := by
  have hmap : s.seq.running.map (fun y => if y.id = e.id then f y else y) = R ++ [f e] := by
    rw [h.running, List.map_append, List.map_cons, if_pos rfl, List.map_nil]
    congr 1
    exact (List.map_congr_left fun y hy => if_neg (h.others y hy)).trans (List.map_id R)
  unfold updEntry updSeq
  dsimp only
  rw [hmap]

theorem AtTail.filter (h : AtTail s.seq R e) : s.seq.running.filter (fun y => y.id ≠ e.id) = R := by
  rw [h.running, List.filter_append, List.filter_cons_of_neg (by simp), List.filter_nil, List.append_nil]
  exact List.filter_eq_self.mpr fun y hy => by simpa using h.others y hy

/-! ## The firing closes (R83 step 6) -/

/-- The follow that a firing leaves armed when its cue completes at once. -/
def armsFollow (next : Option Standby) : Option Nat :=
  next.bind fun n => if n.trigger = .followStart ∨ n.trigger = .followComplete then some n.wait else none

theorem armedBy_derived (next : Option Standby) (id : FiringId) (q : Seq) :
    armedBy (derived next id q) id = armsFollow next := by
  unfold armedBy derived armsFollow
  cases next with
  | none => rfl
  | some n =>
    dsimp only [Option.bind]
    by_cases hc : n.trigger = .followComplete
    · simp [hc]
    · simp [hc]

/-- The sequencer once a firing has closed with no record of its cue pending. -/
def closedDone (next : Option Standby) (R : List RunEntry) (e : RunEntry) (q : Seq) : Seq :=
  { derived next e.id q with
    running := R
    last := some { id := e.id, crushed := e.crushed, failed := e.failed, forced := e.forced }
    follow := armsFollow next }

/-- The sequencer once a firing has closed whose cue runs on. -/
def closedRunning (next : Option Standby) (R : List RunEntry) (e : RunEntry) (q : Seq) : Seq :=
  { derived next e.id q with running := R ++ [{ e with placing := false }] }

section

variable (h : Reaches as u v) (ht : AtTail u.seq R e) (hn : nextStandby view u e.id.number = next)

include h ht hn

theorem deriveStandby_reaches : Reaches as { u with seq := derived next e.id u.seq } (deriveStandby view e.id v) := by
  have hv : nextStandby view v e.id.number = next := by
    rw [h.1]
    exact hn
  rw [deriveStandby_eq, hv]
  exact h.plain (f := fun s => { s with seq := derived next e.id s.seq }) fun _ _ _ _ => rfl

theorem closing_reaches : Reaches as { u with seq := closedRunning next R e u.seq }
    (updEntry e.id (fun x => { x with placing := false }) (deriveStandby view e.id v)) := by
  have hd := (deriveStandby_reaches h ht hn).plain (f := updEntry e.id fun x => { x with placing := false })
    fun _ _ _ _ => rfl
  exact hd.congr (AtTail.upd (s := { u with seq := derived next e.id u.seq }) ⟨ht.running, ht.others⟩ _) fun _ => Iff.rfl

theorem closedFiring_running (hp : e.pending ≠ 0) : Reaches (.cue :: as) { u with seq := closedRunning next R e u.seq }
    (closeFiring e.id (deriveStandby view e.id v)) := by
  have hc := closing_reaches h ht hn
  have hentry : entryOf (updEntry e.id (fun x => { x with placing := false }) (deriveStandby view e.id v)) e.id
      = some { e with placing := false } := by
    rw [entryOf_congr (s := { u with seq := closedRunning next R e u.seq }) ((congrArg State.seq hc.1).trans rfl)]
    exact AtTail.entry (e := { e with placing := false }) ⟨rfl, ht.others⟩
  unfold closeFiring
  rw [completeIfDone_pending hentry hp]
  exact hc.area .cue

theorem closedFiring_done (hp : e.pending = 0) : Reaches (.cue :: as) { u with seq := closedDone next R e u.seq }
    (closeFiring e.id (deriveStandby view e.id v)) := by
  have hc := closing_reaches h ht hn
  have htail : AtTail (closedRunning next R e u.seq) R { e with placing := false } := ⟨rfl, ht.others⟩
  have hentry : entryOf (updEntry e.id (fun x => { x with placing := false }) (deriveStandby view e.id v)) e.id
      = some { e with placing := false } := by
    rw [entryOf_congr (s := { u with seq := closedRunning next R e u.seq }) ((congrArg State.seq hc.1).trans rfl)]
    exact AtTail.entry (e := { e with placing := false }) htail
  have hdone : completeCue { e with placing := false } { u with seq := closedRunning next R e u.seq }
      = mark .cue { u with seq := closedDone next R e u.seq } := by
    have hf : (closedRunning next R e u.seq).running.filter (fun y => y.id ≠ e.id) = R :=
      AtTail.filter (s := { u with seq := closedRunning next R e u.seq }) (e := { e with placing := false }) htail
    have ha : armedBy (closedRunning next R e u.seq) e.id = armsFollow next := armedBy_derived next e.id u.seq
    unfold completeCue updSeq closedDone
    dsimp only
    rw [hf, ha]
    rfl
  unfold closeFiring
  rw [completeIfDone_done hentry hp rfl]
  refine Reaches.area_of_mem ?_ List.mem_cons_self
  have hcomp := (hc.plain (f := fun s => { s with seq := { s.seq with
      running := s.seq.running.filter fun x => x.id ≠ e.id
      last := some { id := e.id, crushed := e.crushed, failed := e.failed, forced := e.forced }
      follow := armedBy s.seq e.id } }) fun _ _ _ _ => rfl).area .cue
  refine hcomp.congr ?_ fun _ => Iff.rfl
  have hseq := congrArg State.seq hdone
  exact congrArg (fun q => { u with seq := q }) hseq

end

/-! ## The report (R89, R91, R97) -/

/-- The words of an edge that has fired. -/
def firedDetails (id : FiringId) (next : Option Standby) (s : State) (line : Nat) : List Word :=
  [placeCode (Config.code (.lineOutcome .fired)) 0 8 ||| place line 8, wordOf id.number, wordOf id.serial,
    wordOf ((next.map (·.number)).getD 0), match s.engine with
      | .stopped => 0#32
      | .loading => 1#32
      | .loaded => 2#32]

/-- The guard that a GO starts. -/
def startedGuard (s : State) : Option Nat := if s.header.guard = 0 then s.seq.guard else some s.header.guard

/-- How a firing's event ends, by its cause, from what its moves have led to. -/
def FiringEnds (cause : FireCause) (id : FiringId) (next : Option Standby) (s : State) (areas : List Area) (u : State)
    (crushed : Nat) (t : State) : Prop :=
  let g : State := { u with seq := { u.seq with guard := startedGuard s } }
  (cause = .follow → u.EndsAs areas t)
    ∧ (cause = .lineGo → State.EndsAs areas (captureEvent goCell (firedDetails id next s 0) g) t)
    ∧ (∀ k, cause = .trigger k →
        State.EndsAs areas (captureEvent (triggerCell k) (firedDetails id next s k.val) u) t)
    ∧ (cause = .goRequest → State.Answered areas g
        { code := .ok
          words := wordsOf (wordOf id.number) (wordOf id.serial)
            ((next.map fun n => wordOf n.number).getD (Config.code .noCue)) (wordOf crushed) } t)

theorem lineDetails_fired {k : Option LineId} (hst : u.seq.standby = next) (he : u.engine = s.engine) :
    lineDetails u k .fired (some id) = firedDetails id next s (k.elim 0 (·.val)) := by
  unfold lineDetails standbyNumber firedDetails
  rw [hst, he]
  cases s.engine <;> rfl

theorem standbyWord_eq (hst : u.seq.standby = next) :
    standbyWord u = (next.map fun n => wordOf n.number).getD (Config.code .noCue) := by
  unfold standbyWord
  rw [hst]
  cases next <;> rfl

theorem plain_startGuard : Plain startGuard := fun _ _ _ _ => rfl

/-- A firing that has closed is reported by its cause. -/
theorem reportFiring_ends {cause : FireCause} {n : Nat} (h : Reaches as u v) (hn : u.notes = [])
    (hg : u.seq.guard = s.seq.guard) (hh : u.header = s.header) (he : u.engine = s.engine)
    (hst : u.seq.standby = next) : FiringEnds cause id next s as u n (finish (reportFiring cause id n v)) := by
  have hguard : startGuard u = { u with seq := { u.seq with guard := startedGuard s } } := by
    unfold startGuard startedGuard updSeq
    dsimp only
    rw [hg, hh]
  have hgo := h.plain plain_startGuard
  rw [hguard] at hgo
  have hvst : v.seq.standby = next := by
    rw [h.1]
    exact hst
  have hve : v.engine = s.engine := by
    rw [h.1]
    exact he
  refine ⟨?_, ?_, ?_, ?_⟩
  · rintro rfl
    exact h.endsAs hn
  · rintro rfl
    have hcap : reportFiring .lineGo id n v = captureEvent goCell (firedDetails id next s 0) (startGuard v) :=
      congrArg (fun ds => captureEvent goCell ds (startGuard v)) (lineDetails_fired (u := startGuard v) (k := none) hvst hve)
    rw [hcap]
    exact (hgo.plain (plain_captureEvent _ _)).endsAs (by rw [captureEvent_notes]; exact hn)
  · rintro k rfl
    have hcap : reportFiring (.trigger k) id n v = captureEvent (triggerCell k) (firedDetails id next s k.val) v :=
      congrArg (fun ds => captureEvent (triggerCell k) ds v) (lineDetails_fired (u := v) (k := some k) hvst hve)
    rw [hcap]
    exact (h.plain (plain_captureEvent _ _)).endsAs (by rw [captureEvent_notes]; exact hn)
  · rintro rfl
    have hans : reportFiring .goRequest id n v = finishRequest (answer .ok (wordsOf (wordOf id.number)
        (wordOf id.serial) ((next.map fun n => wordOf n.number).getD (Config.code .noCue)) (wordOf n))) (startGuard v) := by
      rw [← standbyWord_eq (u := v) hvst]
      rfl
    rw [hans]
    exact (hgo.plain (plain_finishRequest _)).endsAs (by rw [finishRequest_eq]; exact hn)

/-! ## What a firing comes to, from what its moves have led to -/

/-- What a firing's end goes by beside its own entry is as before. -/
structure Steady (s u : State) : Prop where
  notes : u.notes = []
  guard : u.seq.guard = s.seq.guard
  header : u.header = s.header
  engine : u.engine = s.engine
  tables : u.tables = s.tables

/-- What the moves of a firing have led to, with its entry at the tail. -/
structure Worked (s u : State) (R : List RunEntry) (e : RunEntry) : Prop extends Steady s u where
  tail : AtTail u.seq R e

section

variable {cause : FireCause} {st : Standby} {bs : List Area} (hv : Reaches as u (enterAndPlace view st e.id (unfired s)))
  (hu : Worked s u R e) (hid : nextId s st.number = e.id) (ha : ∀ a, a ∈ Area.cue :: as ↔ a ∈ bs)

include hv hu hid

theorem crushedOf_worked : crushedOf (enterAndPlace view st e.id (unfired s)) e.id = e.crushed := by
  have : entryOf (enterAndPlace view st e.id (unfired s)) e.id = some e := by
    rw [entryOf_congr (s := u) ((congrArg State.seq hv.1).trans rfl)]
    exact hu.tail.entry
  unfold crushedOf
  rw [this]
  rfl

theorem nextStandby_worked : nextStandby view u e.id.number = nextStandby view s st.number := by
  have hnum : e.id.number = st.number := by rw [← hid]; rfl
  unfold nextStandby
  rw [hu.tables, hnum]

include ha

/-- A firing whose cue has no record pending completes it at once. -/
theorem fire_done (hp : e.pending = 0) :
    FiringEnds cause e.id (nextStandby view s st.number) s bs
      { u with seq := closedDone (nextStandby view s st.number) R e u.seq } e.crushed
      (finish (fire cause view st (unfired s))) := by
  have hclosed := (closedFiring_done hv hu.tail (nextStandby_worked hv hu hid) hp).congr rfl ha
  rw [fire_eq (s := unfired s) (id := e.id) cause view st hid, crushedOf_worked hv hu hid]
  generalize nextStandby view s st.number = next at hclosed ⊢
  exact reportFiring_ends hclosed hu.notes hu.guard hu.header hu.engine rfl

/-- A firing with records of its cue pending leaves it running. -/
theorem fire_runs (hp : e.pending ≠ 0) :
    FiringEnds cause e.id (nextStandby view s st.number) s bs
      { u with seq := closedRunning (nextStandby view s st.number) R e u.seq } e.crushed
      (finish (fire cause view st (unfired s))) := by
  have hclosed := (closedFiring_running hv hu.tail (nextStandby_worked hv hu hid) hp).congr rfl ha
  rw [fire_eq (s := unfired s) (id := e.id) cause view st hid, crushedOf_worked hv hu hid]
  generalize nextStandby view s st.number = next at hclosed ⊢
  exact reportFiring_ends hclosed hu.notes hu.guard hu.header hu.engine rfl

end

end Sys2Proof.Proofs.Kept
end

section
/-! PROOF. The moves of a firing that are placed with a delay or crushed (R84, R104, R106). -/

namespace Sys2Proof.Proofs.Kept

open Sys2Proof.Machine
open Sys2Proof.Proofs.Ends

variable {s t u v w E : State} {as : List Area} {view : Memory} {id : FiringId} {R : List RunEntry} {e : RunEntry}
  {c : CueRec} {i : RecId} {k n : Nat} {m : Move} {f : Vector (Option FadeRec) 128} {l : Levels}

/-! ## The free places of the table -/

/-- The free places, the lowest first. -/
def freePlaces (f : Vector (Option FadeRec) 128) : List RecId := (List.finRange 128).filter fun i => f[i].isNone

theorem freePlace_eq (s : State) : freePlace s = (freePlaces s.fades).head? := (List.head?_filter ..).symm

theorem freePlaces_set {F : List RecId} {r : FadeRec} (h : freePlaces f = i :: F) :
    freePlaces (f.set i (some r)) = F := by
  have hnodup : (i :: F).Nodup := h ▸ (List.nodup_finRange 128).filter _
  have hfilter : freePlaces (f.set i (some r)) = (freePlaces f).filter (fun j => j ≠ i) := by
    unfold freePlaces
    rw [List.filter_filter]
    refine List.filter_congr fun j _ => ?_
    by_cases hj : i = j
    · subst hj
      rw [Fin.getElem_fin, Vector.getElem_set_self]
      simp
    · have hne : (i : Nat) ≠ j := fun h => hj (Fin.ext h)
      rw [Fin.getElem_fin, Vector.getElem_set_ne _ _ hne]
      simp [Ne.symm hj]
  rw [hfilter, h, List.filter_cons_of_neg (by simp)]
  exact List.filter_eq_self.mpr fun j hj => by
    have : j ≠ i := fun he => (List.nodup_cons.mp hnodup).1 (he ▸ hj)
    simpa using this

/-- The table with records placed for moves. -/
def placedIn (id : FiringId) (c : CueRec) (l : List (RecId × Nat × Move)) (f : Vector (Option FadeRec) 128) :
    Vector (Option FadeRec) 128 :=
  l.foldl (fun f p => f.set p.1 (some (moveRec id c p.2.1 p.2.2))) f

theorem zip_append_singleton {α β : Type} {x : α} {y : β} {F F' : List α} {ms : List β} (h : F.drop ms.length = x :: F') :
    F.zip (ms ++ [y]) = F.zip ms ++ [(x, y)] := by
  induction ms generalizing F with
  | nil =>
    rw [List.length_nil, List.drop_zero] at h
    simp [h]
  | cons m ms ih =>
    cases F with
    | nil => simp at h
    | cons f F => simpa using ih (by simpa using h)

theorem freePlaces_placedIn (ms : List (Nat × Move)) (F : List RecId) (f : Vector (Option FadeRec) 128)
    (h : freePlaces f = F) (hl : ms.length ≤ F.length) :
    freePlaces (placedIn id c (F.zip ms) f) = F.drop ms.length := by
  induction ms generalizing F f with
  | nil => simpa [placedIn] using h
  | cons m ms ih =>
    cases F with
    | nil => exact absurd hl (Nat.not_succ_le_zero _)
    | cons i F => exact ih F _ (freePlaces_set h) (Nat.le_of_succ_le_succ hl)

theorem movesAt_placedIn {x : Elem} (ps : List (RecId × Nat × Move)) (f : Vector (Option FadeRec) 128)
    (h : ∀ j : RecId, movesAt f[j] x = false) (j : RecId) : movesAt (placedIn id c ps f)[j] x = false := by
  induction ps generalizing f with
  | nil => exact h j
  | cons p ps ih =>
    refine ih _ fun j => ?_
    by_cases hj : p.1 = j
    · subst hj
      rw [Fin.getElem_fin, Vector.getElem_set_self]
      rfl
    · have hne : (p.1 : Nat) ≠ j := fun h => hj (Fin.ext h)
      rw [Fin.getElem_fin, Vector.getElem_set_ne _ _ hne]
      exact h j

/-! ## The state while the moves are taken -/

/-- `E` with the entry of the cue that fires, and with records placed and levels cut. -/
def working (E : State) (R : List RunEntry) (e : RunEntry) (f : Vector (Option FadeRec) 128) (l : Levels) : State :=
  { E with fades := f, levels := l, seq := { E.seq with running := R ++ [e] } }

theorem working_upd (h : ∀ y ∈ R, y.id ≠ e.id) (g : RunEntry → RunEntry) :
    updEntry e.id g (working E R e f l) = working E R (g e) f l :=
  AtTail.upd (s := working E R e f l) ⟨rfl, h⟩ g

/-- An operation on the cue's entry. -/
theorem working_entry (h : Reaches as (working E R e f l) v) (hR : ∀ y ∈ R, y.id ≠ e.id) (g : RunEntry → RunEntry) :
    Reaches (.cue :: as) (working E R (g e) f l) (mark .cue (updEntry e.id g v)) := by
  have h' := (h.plain (f := updEntry e.id g) fun _ _ _ _ => rfl).area .cue
  rw [working_upd hR] at h'
  exact h'

theorem entryOf_working (h : Reaches as (working E R e f l) v) (hR : ∀ y ∈ R, y.id ≠ e.id) : entryOf v e.id = some e := by
  rw [entryOf_congr (s := working E R e f l) ((congrArg State.seq h.1).trans rfl)]
  exact AtTail.entry (s := working E R e f l) ⟨rfl, hR⟩

/-! ## One move -/

/-- A move that finds a free record. -/
theorem takeMove_free (h : Reaches as (working E R e f l) v)
    (hm : readMove view E.tables.movePool (c.first + k) = some m) (hi : (freePlaces f).head? = some i) :
    takeMove view e.id c k (v, none) = (drain (placeMove view e.id c k m i v), none) := by
  have htab : v.tables = E.tables := (congrArg State.tables h.1).trans rfl
  have hfree : freePlace v = some i := by
    have hf : v.fades = f := (congrArg State.fades h.1).trans rfl
    rw [freePlace_eq, hf, hi]
  unfold takeMove
  dsimp only
  rw [htab, hm]
  dsimp only
  rw [if_neg (show ¬ (none : Option Nat).isSome = true from nofun), hfree]

/-- A move is in its record before it acts. -/
theorem placed_working (h : Reaches as (working E R e f l) v) (hR : ∀ y ∈ R, y.id ≠ e.id) :
    Reaches (.cue :: as) (working E R { e with pending := e.pending + 1 } (f.set i (some (moveRec e.id c k m))) l)
      (cuePlaced e.id (setFade i (some (moveRec e.id c k m)) v)) := by
  have hset : Reaches as (working E R e (f.set i (some (moveRec e.id c k m))) l)
      (setFade i (some (moveRec e.id c k m)) v) := h.fade i _
  exact working_entry hset hR fun e => { e with pending := e.pending + 1 }

section

variable (h : Reaches as (working E R e f l) v) (hR : ∀ y ∈ R, y.id ≠ e.id) {o : Option Nat}

include h hR

/-- A malformed move is counted. -/
theorem takeMove_malformed (hm : readMove view E.tables.movePool (c.first + k) = none) :
    Reaches (.cue :: as) (working E R { e with failed := e.failed + 1 } f l) (takeMove view e.id c k (v, o)).1
      ∧ (takeMove view e.id c k (v, o)).2 = o := by
  have htab : v.tables = E.tables := (congrArg State.tables h.1).trans rfl
  have hop : takeMove view e.id c k (v, o) = (cueFailed e.id v, o) := by
    unfold takeMove
    dsimp only
    rw [htab, hm]
  rw [hop]
  exact ⟨working_entry h hR fun e => { e with failed := e.failed + 1 }, rfl⟩

variable (hn : E.notes = []) (hm : readMove view E.tables.movePool (c.first + k) = some m)

include hn hm

/-- A delayed move is placed in the lowest free record. -/
theorem takeMove_placed (hd : 0 < m.delay) (hi : (freePlaces f).head? = some i) :
    Reaches (.cue :: as) (working E R { e with pending := e.pending + 1 } (f.set i (some (moveRec e.id c k m))) l)
        (takeMove view e.id c k (v, none)).1
      ∧ (takeMove view e.id c k (v, none)).2 = none := by
  have hplace : placeMove view e.id c k m i v = cuePlaced e.id (setFade i (some (moveRec e.id c k m)) v) :=
    if_neg (by omega)
  have hput := placed_working (c := c) (k := k) (i := i) (m := m) h hR
  rw [takeMove_free h hm hi, hplace, drain_nil (by rw [hput.1]; exact hn)]
  exact ⟨hput, rfl⟩

/-- A LEVEL move that finds the table full, or the run being crushed, cuts its element and is counted. -/
theorem takeMove_crushed {x : Elem} {target : Level} {curve : Curve} (hc : m.content = .level x target curve)
    (hnf : ∀ j : RecId, movesAt f[j] x = false) (hfull : o.isSome = true ∨ freePlaces f = []) :
    Reaches (.cue :: as) (working E R { e with crushed := e.crushed + 1 } f (l.put x target))
        (takeMove view e.id c k (v, o)).1
      ∧ (takeMove view e.id c k (v, o)).2 = some e.failed := by
  have htab : v.tables = E.tables := (congrArg State.tables h.1).trans rfl
  have hnone : (if o.isSome then none else freePlace v) = none := by
    split
    · rfl
    · next ho =>
      have hf : v.fades = f := (congrArg State.fades h.1).trans rfl
      rw [freePlace_eq, hf, hfull.resolve_left ho]
      rfl
  have hop : takeMove view e.id c k (v, o) = crushMove view e.id m.content v := by
    unfold takeMove
    dsimp only
    rw [htab, hm]
    dsimp only
    rw [hnone]
  have hcut := Reaches.cut_none (e := x) target (working_entry h hR fun e => { e with crushed := e.crushed + 1 })
    (fadingOf_none_iff.mpr hnf)
  have hacts : crushMove view e.id m.content v = (drain (cut x target (cueCrushed e.id v)),
      some (failedOf (drain (cut x target (cueCrushed e.id v))) e.id)) := by
    unfold crushMove
    rw [hc]
    rfl
  have hcut : Reaches (.cue :: as) (working E R { e with crushed := e.crushed + 1 } f (l.put x target))
      (cut x target (cueCrushed e.id v)) := hcut
  rw [hop, hacts, drain_nil (by rw [hcut.1]; exact hn)]
  refine ⟨hcut, congrArg some ?_⟩
  unfold failedOf
  rw [show entryOf (cut x target (cueCrushed e.id v)) e.id = _ from
    entryOf_working (e := { e with crushed := e.crushed + 1 }) hcut hR]
  rfl

end

/-! ## The run of moves -/

/-- The moves of a run, by what is read at each place. -/
def movesOf (read : Nat → Option Move) (n : Nat) : List (Nat × Move) :=
  (List.range n).filterMap fun k => (read k).map fun m => (k, m)

/-- How many places of the run hold no move. -/
def malformed (read : Nat → Option Move) (n : Nat) : Nat := ((List.range n).filter fun k => (read k).isNone).length

theorem movesOf_succ (read : Nat → Option Move) (n : Nat) :
    movesOf read (n + 1) = movesOf read n ++ ((read n).map fun m => (n, m)).toList := by
  unfold movesOf
  rw [List.range_succ, List.filterMap_append]
  cases hr : read n <;> simp [hr]

theorem malformed_eq (read : Nat → Option Move) (n : Nat) : malformed read n + (movesOf read n).length = n := by
  induction n with
  | zero => rfl
  | succ n ih =>
    have hm : malformed read (n + 1) = malformed read n + if (read n).isNone then 1 else 0 := by
      unfold malformed
      rw [List.range_succ, List.filter_append, List.length_append]
      split <;> simp [*]
    rw [hm, movesOf_succ, List.length_append]
    cases hr : read n with
    | none => simp; omega
    | some m => simp; omega

/-- The levels once crushed moves have cut their elements. -/
def levelled (ms : List (Nat × Move)) (l : Levels) : Levels :=
  ms.foldl (fun l p => match p.2.content with
    | .level e target _ => l.put e target
    | _ => l) l

/-- The moves of a run up to a place have been taken: as many placed as there are free places, the others crushed. -/
structure Taken (E : State) (R : List RunEntry) (e : RunEntry) (c : CueRec) (read : Nat → Option Move) (as : List Area)
    (n : Nat) (x : State × Option Nat) : Prop where
  state : ∃ bs, (∀ a, a ∈ Area.cue :: bs ↔ a ∈ Area.cue :: as) ∧
    Reaches bs (working E R { e with
        pending := ((movesOf read n).take (freePlaces E.fades).length).length
        crushed := ((movesOf read n).drop (freePlaces E.fades).length).length, failed := malformed read n }
      (placedIn e.id c ((freePlaces E.fades).zip ((movesOf read n).take (freePlaces E.fades).length)) E.fades)
      (levelled ((movesOf read n).drop (freePlaces E.fades).length) E.levels)) x.1
  last : x.2 = ((movesOf read n).drop (freePlaces E.fades).length).getLast?.map fun p => malformed read p.1

/-- Which of the moves act at once, and how. -/
structure Tame (E : State) (ms : List (Nat × Move)) : Prop where
  delayed : ∀ p ∈ ms, 0 < p.2.delay
  levels : ∀ p ∈ ms.drop (freePlaces E.fades).length,
    ∃ x target curve, p.2.content = .level x target curve ∧ E.NotFading x

theorem Tame.take {ms ms' : List (Nat × Move)} (h : Tame E (ms ++ ms')) : Tame E ms := by
  refine ⟨fun p hp => h.delayed p (List.mem_append_left _ hp), fun p hp => h.levels p ?_⟩
  rw [List.drop_append]
  exact List.mem_append_left _ hp

theorem taken_succ {x : State × Option Nat} (h : Taken E R e c (fun k => readMove view E.tables.movePool (c.first + k)) as n x)
    (hR : ∀ y ∈ R, y.id ≠ e.id) (hn : E.notes = [])
    (ht : Tame E (movesOf (fun k => readMove view E.tables.movePool (c.first + k)) (n + 1))) :
    Taken E R e c (fun k => readMove view E.tables.movePool (c.first + k)) as (n + 1) (takeMove view e.id c n x) := by
  obtain ⟨⟨bs, hbs, hx⟩, hlast⟩ := h
  obtain ⟨v, o⟩ := x
  dsimp only at hx hlast
  have hcue : ∀ a, a ∈ Area.cue :: Area.cue :: bs ↔ a ∈ Area.cue :: as := fun a => by
    rw [← hbs a]
    simp
  generalize hread : (fun k => readMove view E.tables.movePool (c.first + k)) = read at hx hlast ht ⊢
  have hcount := malformed_eq read n
  have hcount' := malformed_eq read (n + 1)
  have hsucc := movesOf_succ read n
  cases hr : read n with
  | none =>
    rw [hr] at hsucc
    have hsame : movesOf read (n + 1) = movesOf read n := hsucc.trans (List.append_nil _)
    have hbad : malformed read (n + 1) = malformed read n + 1 := by rw [hsame] at hcount'; omega
    obtain ⟨h1, h2⟩ := takeMove_malformed (c := c) (k := n) (o := o) hx hR (by rw [← hr, ← hread])
    refine ⟨⟨_, hcue, ?_⟩, ?_⟩
    · rw [hsame, hbad]
      exact h1
    · rw [hsame]
      exact h2.trans hlast
  | some m =>
    rw [hr] at hsucc
    have happ : movesOf read (n + 1) = movesOf read n ++ [(n, m)] := hsucc
    have hbad : malformed read (n + 1) = malformed read n := by rw [happ, List.length_append] at hcount'; simp at hcount'; omega
    have hm : readMove view E.tables.movePool (c.first + n) = some m := by rw [← hr, ← hread]
    rw [happ] at ht
    by_cases hlt : (movesOf read n).length < (freePlaces E.fades).length
    · have htake : (movesOf read n ++ [(n, m)]).take (freePlaces E.fades).length = movesOf read n ++ [(n, m)] :=
        List.take_of_length_le (by rw [List.length_append]; exact hlt)
      have htake0 : (movesOf read n).take (freePlaces E.fades).length = movesOf read n := List.take_of_length_le hlt.le
      have hdrop : (movesOf read n ++ [(n, m)]).drop (freePlaces E.fades).length = [] :=
        List.drop_of_length_le (by rw [List.length_append]; exact hlt)
      have hdrop0 : (movesOf read n).drop (freePlaces E.fades).length = [] := List.drop_of_length_le hlt.le
      rw [hdrop0] at hlast hx
      rw [htake0] at hx
      obtain rfl : o = none := hlast
      have hfree := freePlaces_placedIn (id := e.id) (c := c) (movesOf read n) (freePlaces E.fades) E.fades rfl hlt.le
      obtain ⟨i, F', hF⟩ := List.exists_cons_of_ne_nil (List.ne_nil_of_length_pos
        (l := (freePlaces E.fades).drop (movesOf read n).length) (by rw [List.length_drop]; omega))
      obtain ⟨h1, h2⟩ := takeMove_placed (c := c) (k := n) hx hR hn hm (ht.delayed (n, m) (by simp)) (by rw [hfree, hF]; rfl)
      refine ⟨⟨_, hcue, ?_⟩, ?_⟩
      · rw [happ, htake, hdrop, hbad, zip_append_singleton hF, List.length_append]
        unfold placedIn at h1 ⊢
        rw [List.foldl_append]
        exact h1
      · rw [happ, hdrop]
        exact h2
    · have hle : (freePlaces E.fades).length ≤ (movesOf read n).length := Nat.le_of_not_lt hlt
      have htake : (movesOf read n ++ [(n, m)]).take (freePlaces E.fades).length
          = (movesOf read n).take (freePlaces E.fades).length := List.take_append_of_le_length hle
      have hdrop : (movesOf read n ++ [(n, m)]).drop (freePlaces E.fades).length
          = (movesOf read n).drop (freePlaces E.fades).length ++ [(n, m)] := List.drop_append_of_le_length hle
      obtain ⟨y, target, curve, hc, hnf⟩ := ht.levels (n, m) (by rw [hdrop]; simp)
      have hlen : ((movesOf read n).take (freePlaces E.fades).length).length = (freePlaces E.fades).length := by
        rw [List.length_take]
        omega
      have hfree := freePlaces_placedIn (id := e.id) (c := c) ((movesOf read n).take (freePlaces E.fades).length)
        (freePlaces E.fades) E.fades rfl (by rw [hlen])
      rw [hlen, List.drop_length] at hfree
      obtain ⟨h1, h2⟩ := takeMove_crushed (c := c) (k := n) (o := o) hx hR hn hm hc
        (movesAt_placedIn _ _ (fadingOf_none_iff.mp hnf)) (.inr hfree)
      refine ⟨⟨_, hcue, ?_⟩, ?_⟩
      · rw [happ, htake, hdrop, hbad, List.length_append]
        unfold levelled at h1 ⊢
        rw [List.foldl_append, List.foldl_cons, List.foldl_nil]
        dsimp only
        rw [hc]
        exact h1
      · rw [happ, hdrop, List.getLast?_append]
        exact h2

/-- All the moves of a run. -/
theorem takeMoves_taken (h : Reaches as (working E R e E.fades E.levels) v) (hR : ∀ y ∈ R, y.id ≠ e.id) (hn : E.notes = [])
    (he : e.pending = 0 ∧ e.crushed = 0 ∧ e.failed = 0) :
    let read := fun k => readMove view E.tables.movePool (c.first + k)
    Tame E (movesOf read c.count) → Taken E R e c read as c.count (takeMoves view e.id c v) := by
  intro read ht
  have hsteps : ∀ n, Tame E (movesOf read n) →
      Taken E R e c read as n ((List.range n).foldl (fun x k => takeMove view e.id c k x) (v, none)) := by
    intro n
    induction n with
    | zero =>
      intro _
      obtain ⟨h1, h2, h3⟩ := he
      refine ⟨⟨as, fun _ => Iff.rfl, ?_⟩, by rw [show movesOf read 0 = [] from rfl, List.drop_nil]; rfl⟩
      have hself : { e with pending := 0, crushed := 0, failed := 0 } = e := by
        cases e
        cases h1
        cases h2
        cases h3
        rfl
      have hnil : movesOf read 0 = [] := rfl
      rw [hnil, List.take_nil, List.drop_nil]
      show Reaches as (working E R { e with pending := 0, crushed := 0, failed := 0 } _ _) v
      rw [hself]
      simpa [placedIn, levelled] using h
    | succ n ih =>
      intro ht
      rw [List.range_succ, List.foldl_append]
      exact taken_succ (ih (Tame.take (movesOf_succ read n ▸ ht))) hR hn ht
  exact hsteps c.count ht

end Sys2Proof.Proofs.Kept
end

section
/-! PROOF. A firing with its moves, and the statement of O50 (R79, R83 to R89, R98, R104 to R109). -/

namespace Sys2Proof.Proofs.Kept

open Sys2Proof.Machine
open Sys2Proof.Proofs.Ends

variable {s t u v w B : State} {as bs : List Area} {view : Memory} {id : FiringId} {cause : FireCause} {st : Standby}
  {c : CueRec} {i j : RecId} {m : Move}

/-! ## The entry of a firing's cue -/

/-- The entry of a cue that fires, before its moves are taken. -/
def newEntry (id : FiringId) (failed : Nat) (s : State) : RunEntry :=
  { id := id, fireTime := s.tod, pending := 0, crushed := 0, failed := failed, forced := false, placing := true }

/-- The state with the next serial. -/
def serialled (s : State) : State := { s with seq := { s.seq with nextSerial := nextSerial s.seq.nextSerial } }

theorem enterCue_eq (id : FiringId) (n : Nat) (s : State) : enterCue id n s
    = working (serialled s) s.seq.running (newEntry id n s) s.fades s.levels := rfl

theorem reaches_enterCue (h : Reaches as u v) (id : FiringId) (n : Nat) :
    Reaches as (working (serialled u) u.seq.running (newEntry id n u) u.fades u.levels) (enterCue id n v) :=
  h.plain (f := Machine.enterCue id n) fun _ _ _ _ => rfl

theorem captureEvent_seq (k : CellId) (ds : List Word) (q : Seq) (u : State) :
    { captureEvent k ds u with seq := q } = captureEvent k ds { u with seq := q } := by
  rw [captureEvent_eq, captureEvent_eq]

theorem Steady.working {R : List RunEntry} {e : RunEntry} {f : Vector (Option FadeRec) 128} {l : Levels}
    (h : Steady s B) (hR : ∀ y ∈ R, y.id ≠ e.id) : Worked s (working B R e f l) R e :=
  { notes := h.notes, guard := h.guard, header := h.header, engine := h.engine, tables := h.tables, tail := ⟨rfl, hR⟩ }

theorem Worked.captureEvent {R : List RunEntry} {e : RunEntry} (h : Worked s u R e) (k : CellId) (ds : List Word) :
    Worked s (captureEvent k ds u) R e := by
  rw [captureEvent_eq]
  exact { notes := h.notes, guard := h.guard, header := h.header, engine := h.engine, tables := h.tables, tail := h.tail }

/-- The details of a cue whose moves were crushed. -/
def crushedDetails (id : FiringId) (read : Nat → Option Move) (crushed : List (Nat × Move)) : List Word :=
  [Config.code (.cueForced true), wordOf id.number, wordOf id.serial,
    place crushed.length 0 ||| place ((crushed.getLast?).elim 0 fun p => malformed read p.1) 8, 0#32]

/-- The cue's entry once its moves have been taken. -/
def takenEntry (id : FiringId) (B : State) (read : Nat → Option Move) (n : Nat) : RunEntry :=
  { newEntry id 0 B with
    pending := ((movesOf read n).take (freePlaces B.fades).length).length
    crushed := ((movesOf read n).drop (freePlaces B.fades).length).length, failed := malformed read n }

/-- The state once the moves of a firing have been taken. -/
def takenMoves (id : FiringId) (c : CueRec) (B : State) (read : Nat → Option Move) : State :=
  working (serialled B) B.seq.running (takenEntry id B read c.count)
    (placedIn id c ((freePlaces B.fades).zip ((movesOf read c.count).take (freePlaces B.fades).length)) B.fades)
    (levelled ((movesOf read c.count).drop (freePlaces B.fades).length) B.levels)

/-- The event of crushed moves is captured after the last of them. -/
def withCrushed (id : FiringId) (read : Nat → Option Move) (crushed : List (Nat × Move)) (u : State) : State :=
  if crushed = [] then u else captureEvent cueForcedCell (crushedDetails id read crushed) u

theorem withCrushed_seq (read : Nat → Option Move) (ms : List (Nat × Move)) (q : Seq) (u : State) :
    { withCrushed id read ms u with seq := q } = withCrushed id read ms { u with seq := q } := by
  unfold withCrushed
  split
  · rfl
  · exact captureEvent_seq _ _ _ _

theorem Steady.serialled (h : Steady s B) : Steady s (serialled B) := ⟨h.notes, h.guard, h.header, h.engine, h.tables⟩

/-! ## What a firing comes to -/

section

variable (hB : Reaches as B (makeRoom view st.number (unfired s))) (hs : Steady s B)
  (hid : nextId s st.number = id) (hR : ∀ y ∈ B.seq.running, y.id ≠ id)

include hB hs hid hR

/-- The record of the cue is unsound: the cue has failed once. -/
theorem firing_unsound (hc : (readCue view s.tables.cueList st.index).sound? = none)
    (ha : ∀ a, a ∈ Area.cue :: as ↔ a ∈ bs) :
    FiringEnds cause id (nextStandby view s st.number) s bs
      { working (serialled B) B.seq.running (newEntry id 1 B) B.fades B.levels with
        seq := closedDone (nextStandby view s st.number) B.seq.running (newEntry id 1 B) (serialled B).seq } 0
      (finish (fire cause view st (unfired s))) := by
  have htab : (makeRoom view st.number (unfired s)).tables = s.tables :=
    ((congrArg State.tables hB.1).trans rfl).trans hs.tables
  have hop : enterAndPlace view st id (unfired s) = enterCue id 1 (makeRoom view st.number (unfired s)) := by
    unfold enterAndPlace
    dsimp only
    rw [htab, hc]
  have hv := reaches_enterCue hB id 1
  rw [← hop] at hv
  exact fire_done (e := newEntry id 1 B) hv (hs.serialled.working hR) hid ha rfl

/-- Delayed moves and crushed LEVEL moves have been taken. -/
theorem moves_taken (hc : (readCue view s.tables.cueList st.index).sound? = some c)
    (ht : Tame B (movesOf (fun k => readMove view s.tables.movePool (c.first + k)) c.count)) :
    let read := fun k => readMove view s.tables.movePool (c.first + k)
    ∃ bs, (∀ a, a ∈ Area.cue :: bs ↔ a ∈ Area.cue :: as) ∧
      Reaches bs (withCrushed id read ((movesOf read c.count).drop (freePlaces B.fades).length) (takenMoves id c B read))
        (enterAndPlace view st id (unfired s)) := by
  intro read
  have htab : (makeRoom view st.number (unfired s)).tables = s.tables :=
    ((congrArg State.tables hB.1).trans rfl).trans hs.tables
  have hop : enterAndPlace view st id (unfired s) = reportCrushed id
      (takeMoves view id c (enterCue id 0 (makeRoom view st.number (unfired s)))).2
      (takeMoves view id c (enterCue id 0 (makeRoom view st.number (unfired s)))).1 := by
    unfold enterAndPlace
    dsimp only
    rw [htab, hc]
  have hpool : (serialled B).tables.movePool = s.tables.movePool := congrArg Tables.movePool hs.tables
  have htaken := takeMoves_taken (E := serialled B) (e := newEntry id 0 B) (view := view) (c := c)
    (reaches_enterCue hB id 0) hR hs.notes ⟨rfl, rfl, rfl⟩
  dsimp only at htaken
  rw [hpool] at htaken
  obtain ⟨⟨bs, hbs, hreach⟩, hlast⟩ := htaken ⟨ht.delayed, ht.levels⟩
  refine ⟨bs, hbs, ?_⟩
  rw [hop, show (takeMoves view id c (enterCue id 0 (makeRoom view st.number (unfired s)))).2 = _ from hlast]
  have hreach : Reaches bs (takenMoves id c B read)
    (takeMoves view id c (enterCue id 0 (makeRoom view st.number (unfired s)))).1 := hreach
  have hcount : crushedOf (takeMoves view id c (enterCue id 0 (makeRoom view st.number (unfired s)))).1 id
      = ((movesOf read c.count).drop (freePlaces B.fades).length).length := by
    unfold crushedOf
    rw [show entryOf _ id = some (takenEntry id B read c.count) from
      entryOf_working (e := takenEntry id B read c.count) hreach hR]
    rfl
  have hserial : freePlaces (serialled B).fades = freePlaces B.fades := rfl
  rw [hserial]
  unfold reportCrushed withCrushed
  rw [hcount]
  unfold crushedDetails
  generalize (movesOf read c.count).drop (freePlaces B.fades).length = ms
  cases hms : ms.getLast? with
  | none =>
    rw [if_pos (List.getLast?_eq_none_iff.mp hms)]
    exact hreach
  | some p =>
    rw [if_neg fun hnil => by rw [hnil] at hms; exact nomatch hms]
    exact hreach.plain (plain_captureEvent _ _)

/-- A firing whose moves are delayed or, crushed, cut their elements. -/
theorem firing_moves (hc : (readCue view s.tables.cueList st.index).sound? = some c)
    (ht : Tame B (movesOf (fun k => readMove view s.tables.movePool (c.first + k)) c.count))
    (ha : ∀ a, a ∈ Area.cue :: as ↔ a ∈ Area.cue :: bs) :
    let read := fun k => readMove view s.tables.movePool (c.first + k)
    let placed := (movesOf read c.count).take (freePlaces B.fades).length
    let crushed := (movesOf read c.count).drop (freePlaces B.fades).length
    FiringEnds cause id (nextStandby view s st.number) s (.cue :: bs)
      (withCrushed id read crushed { takenMoves id c B read with
        seq := if placed = [] then
            closedDone (nextStandby view s st.number) B.seq.running (takenEntry id B read c.count) (serialled B).seq
          else closedRunning (nextStandby view s st.number) B.seq.running (takenEntry id B read c.count) (serialled B).seq })
      crushed.length (finish (fire cause view st (unfired s))) := by
  intro read placed crushed
  obtain ⟨bs', hbs', hv⟩ := moves_taken hB hs hid hR hc ht
  have ha' : ∀ a, a ∈ Area.cue :: bs' ↔ a ∈ Area.cue :: bs := fun a => (hbs' a).trans (ha a)
  have hw : Worked s (withCrushed id read crushed (takenMoves id c B read)) B.seq.running (takenEntry id B read c.count) := by
    have hbase : Worked s (takenMoves id c B read) B.seq.running (takenEntry id B read c.count) := hs.serialled.working hR
    unfold withCrushed
    split
    · exact hbase
    · exact hbase.captureEvent _ _
  have hseq : (withCrushed id read crushed (takenMoves id c B read)).seq = (takenMoves id c B read).seq := by
    unfold withCrushed
    split
    · rfl
    · rw [captureEvent_eq]
  split
  · next hp =>
    have hfire := fire_done (cause := cause) (e := takenEntry id B read c.count) hv hw hid ha' (congrArg List.length hp)
    rw [withCrushed_seq, hseq] at hfire
    exact hfire
  · next hp =>
    have hfire := fire_runs (cause := cause) (e := takenEntry id B read c.count) hv hw hid ha'
      fun h => hp (List.eq_nil_of_length_eq_zero h)
    rw [withCrushed_seq, hseq] at hfire
    exact hfire

end

end Sys2Proof.Proofs.Kept
end

section
/-! PROOF. A firing whose one LEVEL move acts as it is placed (R84, R104, R107 to R109). -/

namespace Sys2Proof.Proofs.Kept

open Sys2Proof.Machine
open Sys2Proof.Proofs.Ends

variable {s t u v w E E' : State} {as bs : List Area} {view : Memory} {id : FiringId} {R : List RunEntry} {e : RunEntry}
  {c : CueRec} {i j : RecId} {m : Move} {f f' : Vector (Option FadeRec) 128} {l : Levels} {x : Elem} {target : Level}
  {curve : Curve} {old : FadeRec}

/-- A cue whose firing is still at work does not complete as its record leaves. -/
theorem cueTold_placing (h : Reaches as (working E R e f l) v) (hR : ∀ y ∈ R, y.id ≠ e.id) (hp : e.placing = true) :
    Reaches (.cue :: as) (working E R (onePendingLess e) f l) (cueTold e.id v) := by
  have hle : Reaches (.cue :: as) (working E R (onePendingLess e) f l) (mark .cue (updEntry e.id onePendingLess v)) :=
    working_entry h hR onePendingLess
  have hentry : entryOf (mark .cue (updEntry e.id onePendingLess v)) e.id = some (onePendingLess e) :=
    entryOf_working (e := onePendingLess e) hle hR
  have hop : cueTold e.id v = completeIfDone e.id (mark .cue (updEntry e.id onePendingLess v)) := rfl
  have hstay : completeIfDone e.id (mark .cue (updEntry e.id onePendingLess v))
      = mark .cue (updEntry e.id onePendingLess v) := by
    unfold completeIfDone
    rw [hentry]
    exact if_neg fun hc => Bool.false_ne_true (hc.2.symm.trans hp)
  rw [hop, hstay]
  exact hle

/-- What the takeover for the record at place `i` makes of the state, whatever the levels are. -/
def TakesOver (x : Elem) (i : RecId) (E E' : State) (R : List RunEntry) (e : RunEntry) (f f' : Vector (Option FadeRec) 128)
    (bs : List Area) : Prop :=
  ∀ {as : List Area} {l : Levels} {v : State}, Reaches as (working E R e f l) v →
    Reaches (bs ++ as) (working E' R e f' l) (takeOver x (some i) v)

theorem takesOver_nothing (h : ∀ j : RecId, j ≠ i → movesAt f[j] x = false) : TakesOver x i E E R e f f [] := by
  intro as l v hv
  refine hv.takeOver_none ?_
  rw [fadingOf_eq, List.find?_eq_none]
  intro j _
  by_cases hj : j = i
  · simp [hj]
  · have hm : movesAt (working E R e f l).fades[j] x = false := h j hj
    rw [hm]
    simp

theorem takesOver_request (hf : ∀ {l : Levels}, fadingOf (working E R e f l) x (some i) = some j) (hold : f[j] = some old)
    (ho : old.owner = .request) : TakesOver x i E
      { E with takenOver := min (E.takenOver + 1) 65535, voices := E.resumed j old } R e f (f.set j none)
      (E.takeoverAreas j old) :=
  fun hv => hv.takeOver_some hf hold (.request ho)

section

variable {r : FadeRec} (hto : TakesOver x i E E' R e f f' bs) (h : Reaches as (working E R e f l) v)

include hto h

/-- The record cuts its element and leaves. -/
theorem cutBy_working (hR : ∀ y ∈ R, y.id ≠ e.id) (hr : f'[i] = some r) (ho : r.owner = .firing e.id)
    (hm : r.stopMark = none) (hp : e.placing = true) :
    Reaches (.cue :: (bs ++ as)) (working E' R (onePendingLess e) (f'.set i none) (l.put x target)) (cutBy i x target v) := by
  have hcut : Reaches (bs ++ as) (working E' R e f' (l.put x target)) (setElem x target (takeOver x (some i) v)) :=
    (hto h).elem x target
  have hv : (setElem x target (takeOver x (some i) v)).fades[i] = some r := by
    rw [hcut.1]
    exact hr
  have hleft : Reaches (bs ++ as) (working E' R e (f'.set i none) (l.put x target))
      (setFade i none (setElem x target (takeOver x (some i) v))) := hcut.fade i none
  unfold cutBy
  rw [leaveTable_completed hv]
  refine Reaches.stopTold_none ?_ hm
  unfold ownerTold
  rw [ho]
  exact cueTold_placing hleft hR hp

/-- The record begins to fade. -/
theorem startFade_working {a : Int} {T : Nat} (ha : (l.get x).orFloor x.floor = a)
    (hT : r.chosenTime a (target.orFloor x.floor) = T) (hc : ¬ (curve = .cut ∨ T = 0)) :
    Reaches (bs ++ as) (working E' R e (f'.set i (some { r with
        fading := true, delayLeft := 0, start := a, time := T, elapsed := 0 })) (l.put x (.steps a)))
      (startFade i r x target curve v) := by
  rw [startFade_steps (by rw [h.same_level]; exact ha) hT hc]
  have hset : Reaches as (working E R e f (l.put x (.steps a))) (setElem x (.steps a) v) := h.elem x (.steps a)
  exact (hto hset).fade i _

end

/-! ## The whole firing -/

section

variable {cause : FireCause} {st : Standby} (hs : s.Quiet) (hlen : s.seq.running.length < 8)
  (hid : nextId s st.number = id) (hR : ∀ y ∈ s.seq.running, y.id ≠ id)

theorem steady_unfired (hs : s.Quiet) : Steady s (unfired s) := ⟨hs.1, rfl, rfl, rfl, rfl⟩

theorem makeRoom_unfired (hs : s.Quiet) (hlen : s.seq.running.length < 8) :
    Reaches [] (unfired s) (makeRoom view st.number (unfired s)) := by
  have hroom : makeRoom view st.number (unfired s) = unfired s := if_neg (Nat.not_le.mpr hlen)
  rw [hroom]
  exact Reaches.refl hs.2

/-- The entry of a cue with one record. -/
def oneEntry (id : FiringId) (s : State) : RunEntry := { newEntry id 0 s with pending := 1 }

variable (hc : (readCue view s.tables.cueList st.index).sound? = some c) (hcount : c.count = 1)
  (hm : readMove view s.tables.movePool c.first = some m) (hd : m.delay = 0) (hi : freePlace s = some i)
  (hx : m.content = .level x target curve)

include hs hlen hid hR hc hcount hm hd hi hx

/-- The one move is in its record, and acts. -/
theorem now_acts : ∃ v, Reaches [.cue] (working (serialled (unfired s)) s.seq.running (oneEntry id s)
      (s.fades.set i (some (moveRec id c 0 m))) s.levels) v
    ∧ enterAndPlace view st id (unfired s) = drain (startFade i (moveRec id c 0 m) x target curve v) := by
  have hv := reaches_enterCue (makeRoom_unfired (view := view) (st := st) hs hlen) id 0
  have hfree : (freePlaces s.fades).head? = some i := by rw [← freePlace_eq]; exact hi
  have hput : Reaches [.cue] (working (serialled (unfired s)) s.seq.running (oneEntry id s)
      (s.fades.set i (some (moveRec id c 0 m))) s.levels) (cuePlaced id (setFade i (some (moveRec id c 0 m))
        (enterCue id 0 (makeRoom view st.number (unfired s))))) :=
    placed_working (e := newEntry id 0 (unfired s)) (c := c) (k := 0) (m := m) (i := i) hv hR
  refine ⟨cuePlaced id (setFade i (some (moveRec id c 0 m)) (enterCue id 0 (makeRoom view st.number (unfired s)))),
    hput, ?_⟩
  have htab : (makeRoom view st.number (unfired s)).tables = s.tables :=
    (congrArg State.tables (makeRoom_unfired (view := view) (st := st) hs hlen).1).trans rfl
  have htake : takeMove view id c 0 (enterCue id 0 (makeRoom view st.number (unfired s)), none)
      = (drain (placeMove view id c 0 m i (enterCue id 0 (makeRoom view st.number (unfired s)))), none) :=
    takeMove_free (e := newEntry id 0 (unfired s)) (view := view) (c := c) (k := 0) (m := m) (i := i) hv hm hfree
  have hplace : placeMove view id c 0 m i (enterCue id 0 (makeRoom view st.number (unfired s)))
      = startFade i (moveRec id c 0 m) x target curve (cuePlaced id (setFade i (some (moveRec id c 0 m))
          (enterCue id 0 (makeRoom view st.number (unfired s))))) := by
    have hrec : (cuePlaced id (setFade i (some (moveRec id c 0 m))
        (enterCue id 0 (makeRoom view st.number (unfired s))))).fades[i] = some (moveRec id c 0 m) := by
      have hf := (congrArg State.fades hput.1).trans rfl
      exact (congrArg (fun f : Vector (Option FadeRec) 128 => f[i]) hf).trans (Vector.getElem_set_self ..)
    unfold placeMove
    dsimp only
    rw [if_pos hd]
    unfold actRecord
    rw [hrec]
    dsimp only [moveRec]
    rw [hx]
  unfold enterAndPlace takeMoves
  dsimp only
  rw [htab, hc]
  dsimp only
  rw [hcount]
  show reportCrushed id (takeMove view id c 0 (enterCue id 0 (makeRoom view st.number (unfired s)), none)).2
    (takeMove view id c 0 (enterCue id 0 (makeRoom view st.number (unfired s)), none)).1 = _
  rw [htake, hplace]
  rfl

variable {a : Int} {T : Nat} (hfree : s.fades[i] = none)
  (hto : TakesOver x i (serialled (unfired s)) E' s.seq.running (oneEntry id s) (s.fades.set i (some (moveRec id c 0 m)))
    f' bs) (hE : Steady s E')
  (ha : (s.level x).orFloor x.floor = a) (hT : (moveRec id c 0 m).chosenTime a (target.orFloor x.floor) = T)
  (hf' : f'[i] = some (moveRec id c 0 m)) (hareas : ∀ b, b ∈ Area.cue :: (bs ++ [Area.cue]) ↔ b ∈ as)

include hto hE hf' hareas ha hT

/-- The move cuts its element, and the cue completes with the firing. -/
theorem now_cuts (hcut : curve = .cut ∨ T = 0) :
    FiringEnds cause id (nextStandby view s st.number) s as
      { working E' s.seq.running (newEntry id 0 s) (f'.set i none) (s.levels.put x target) with
        seq := closedDone (nextStandby view s st.number) s.seq.running (newEntry id 0 s) E'.seq } 0
      (finish (fire cause view st (unfired s))) := by
  obtain ⟨v, hv, hop⟩ := now_acts hs hlen hid hR hc hcount hm hd hi hx
  have hacts : Reaches (.cue :: (bs ++ [.cue])) (working E' s.seq.running (newEntry id 0 s) (f'.set i none)
      (s.levels.put x target)) (startFade i (moveRec id c 0 m) x target curve v) := by
    have hlev : v.level x = s.level x := hv.same_level x
    rw [startFade_cut (by rw [hlev]; exact ha) hT hcut]
    exact cutBy_working hto hv hR hf' rfl rfl rfl
  have hworked : Worked s (working E' s.seq.running (newEntry id 0 s) (f'.set i none) (s.levels.put x target))
      s.seq.running (newEntry id 0 s) := hE.working hR
  have hdrain : drain (startFade i (moveRec id c 0 m) x target curve v) = startFade i (moveRec id c 0 m) x target curve v :=
    drain_nil (by rw [hacts.1]; exact hE.notes)
  rw [← hdrain, ← hop] at hacts
  exact fire_done (e := newEntry id 0 s) hacts hworked hid (fun b => by rw [← hareas b]; simp) rfl

/-- The move begins to fade, and the cue runs on. -/
theorem now_fades (hcut : ¬ (curve = .cut ∨ T = 0)) :
    FiringEnds cause id (nextStandby view s st.number) s as
      { working E' s.seq.running (oneEntry id s) (f'.set i (some { moveRec id c 0 m with
          fading := true, delayLeft := 0, start := a, time := T, elapsed := 0 })) (s.levels.put x (.steps a)) with
        seq := closedRunning (nextStandby view s st.number) s.seq.running (oneEntry id s) E'.seq } 0
      (finish (fire cause view st (unfired s))) := by
  obtain ⟨v, hv, hop⟩ := now_acts hs hlen hid hR hc hcount hm hd hi hx
  have hacts := startFade_working (r := moveRec id c 0 m) hto hv ha hT hcut
  have hworked : Worked s (working E' s.seq.running (oneEntry id s) (f'.set i (some { moveRec id c 0 m with
          fading := true, delayLeft := 0, start := a, time := T, elapsed := 0 })) (s.levels.put x (.steps a)))
      s.seq.running (oneEntry id s) := hE.working hR
  have hdrain : drain (startFade i (moveRec id c 0 m) x target curve v) = startFade i (moveRec id c 0 m) x target curve v :=
    drain_nil (by rw [hacts.1]; exact hE.notes)
  rw [← hdrain, ← hop] at hacts
  exact fire_runs (e := oneEntry id s) hacts hworked hid hareas nofun

end

/-! ## With nothing or a request's fade to take over -/

/-- A record that moves nothing need not be left out. -/
theorem fadingOf_except_still (h : movesAt s.fades[i] x = false) : fadingOf s x (some i) = fadingOf s x none := by
  rw [fadingOf_eq, fadingOf_eq]
  refine congrArg (fun p => (List.finRange 128).find? p) (funext fun j => ?_)
  by_cases hj : j = i
  · subst hj
    rw [h, Bool.and_false, Bool.and_false]
  · have hne : (some j != some i) = true := by simpa using hj
    rw [hne]
    rfl

/-- The record of a move that has begun to fade. -/
def nowFading (id : FiringId) (c : CueRec) (m : Move) (a : Int) (T : Nat) : FadeRec :=
  { moveRec id c 0 m with fading := true, start := a, time := T }

theorem nowFading_eq (hd : m.delay = 0) (id : FiringId) (c : CueRec) (a : Int) (T : Nat) :
    { moveRec id c 0 m with fading := true, delayLeft := 0, start := a, time := T, elapsed := 0 }
      = nowFading id c m a T := by
  unfold nowFading moveRec
  rw [hd]

section

variable {cause : FireCause} {st : Standby} (hs : s.Quiet) (hlen : s.seq.running.length < 8)
  (hid : nextId s st.number = id) (hR : ∀ y ∈ s.seq.running, y.id ≠ id)
  (hc : (readCue view s.tables.cueList st.index).sound? = some c) (hcount : c.count = 1)
  (hm : readMove view s.tables.movePool c.first = some m) (hd : m.delay = 0) (hi : freePlace s = some i)
  (hx : m.content = .level x target curve) {a : Int} {T : Nat} (ha : (s.level x).orFloor x.floor = a)
  (hT : (moveRec id c 0 m).chosenTime a (target.orFloor x.floor) = T)

include hs hlen hid hR hc hcount hm hd hi hx ha hT

theorem now_alone (hnf : s.NotFading x) :
    (curve = .cut ∨ T = 0 → FiringEnds cause id (nextStandby view s st.number) s [.cue] { s with
        levels := s.levels.put x target
        seq := closedDone (nextStandby view s st.number) s.seq.running (newEntry id 0 s) (serialled (unfired s)).seq } 0
      (finish (fire cause view st (unfired s))))
    ∧ (¬ (curve = .cut ∨ T = 0) → FiringEnds cause id (nextStandby view s st.number) s [.cue] { s with
        levels := s.levels.put x (.steps a), fades := s.fades.set i (some (nowFading id c m a T))
        seq := closedRunning (nextStandby view s st.number) s.seq.running (oneEntry id s) (serialled (unfired s)).seq } 0
      (finish (fire cause view st (unfired s)))) := by
  have hfree : s.fades[i] = none := freePlace_some hi
  have hto : TakesOver x i (serialled (unfired s)) (serialled (unfired s)) s.seq.running (oneEntry id s)
      (s.fades.set i (some (moveRec id c 0 m))) (s.fades.set i (some (moveRec id c 0 m))) [] := by
    refine takesOver_nothing fun j hj => ?_
    have hne : (i : Nat) ≠ j := fun h => hj (Fin.ext h.symm)
    rw [Fin.getElem_fin, Vector.getElem_set_ne _ _ hne]
    exact fadingOf_none_iff.mp hnf j
  have hback : (s.fades.set i (some (moveRec id c 0 m))).set i none = s.fades := by
    rw [Vector.set_set, ← hfree]
    exact set_self s.fades i
  refine ⟨fun hcut => ?_, fun hcut => ?_⟩
  · have hfire := now_cuts (cause := cause) (as := [.cue]) hs hlen hid hR hc hcount hm hd hi hx hto
      (steady_unfired hs).serialled ha hT (Vector.getElem_set_self ..) (by simp) hcut
    rw [hback] at hfire
    generalize nextStandby view s st.number = next at hfire ⊢
    generalize finish (fire cause view st (unfired s)) = t at hfire ⊢
    dsimp only [working, serialled, unfired] at hfire ⊢
    exact hfire
  · have hfire := now_fades (cause := cause) (as := [.cue]) hs hlen hid hR hc hcount hm hd hi hx hto
      (steady_unfired hs).serialled ha hT (Vector.getElem_set_self ..) (by simp) hcut
    rw [Vector.set_set, nowFading_eq hd] at hfire
    generalize nextStandby view s st.number = next at hfire ⊢
    generalize finish (fire cause view st (unfired s)) = t at hfire ⊢
    dsimp only [working, serialled, unfired] at hfire ⊢
    exact hfire

theorem now_overtakes (hj : fadingOf s x none = some j) (hold : s.fades[j] = some old) (ho : old.owner = .request) :
    (curve = .cut ∨ T = 0 → FiringEnds cause id (nextStandby view s st.number) s (.cue :: s.takeoverAreas j old) { s with
        takenOver := min (s.takenOver + 1) 65535, voices := s.resumed j old
        levels := s.levels.put x target, fades := s.fades.set j none
        seq := closedDone (nextStandby view s st.number) s.seq.running (newEntry id 0 s) (serialled (unfired s)).seq } 0
      (finish (fire cause view st (unfired s))))
    ∧ (¬ (curve = .cut ∨ T = 0) → FiringEnds cause id (nextStandby view s st.number) s (.cue :: s.takeoverAreas j old) { s with
        takenOver := min (s.takenOver + 1) 65535, voices := s.resumed j old
        levels := s.levels.put x (.steps a), fades := (s.fades.set j none).set i (some (nowFading id c m a T))
        seq := closedRunning (nextStandby view s st.number) s.seq.running (oneEntry id s) (serialled (unfired s)).seq } 0
      (finish (fire cause view st (unfired s)))) := by
  have hfree : s.fades[i] = none := freePlace_some hi
  have hij : i ≠ j := fun h => by
    subst h
    exact nomatch hfree.symm.trans hold
  have hne : (i : Nat) ≠ j := fun h => hij (Fin.ext h)
  have hto : TakesOver x i (serialled (unfired s)) { serialled (unfired s) with
        takenOver := min (s.takenOver + 1) 65535, voices := s.resumed j old } s.seq.running (oneEntry id s)
      (s.fades.set i (some (moveRec id c 0 m))) ((s.fades.set i (some (moveRec id c 0 m))).set j none)
      (s.takeoverAreas j old) := by
    refine takesOver_request (E := serialled (unfired s)) (fun {l} => ?_) ?_ ho
    · refine (fadingOf_except_still ?_).trans ((fadingOf_set (s := s) rfl (.inr ⟨?_, rfl⟩)).trans hj)
      · rw [show (working (serialled (unfired s)) s.seq.running (oneEntry id s)
          (s.fades.set i (some (moveRec id c 0 m))) l).fades = s.fades.set i (some (moveRec id c 0 m)) from rfl,
          Fin.getElem_fin, Vector.getElem_set_self]
        rfl
      · rw [hfree]
        rfl
    · rw [Fin.getElem_fin, Vector.getElem_set_ne _ _ hne]
      exact hold
  have hput : ((s.fades.set i (some (moveRec id c 0 m))).set j none)[i] = some (moveRec id c 0 m) := by
    rw [Fin.getElem_fin, Vector.getElem_set_ne _ _ hne.symm, Vector.getElem_set_self]
  have hcomm (r : Option FadeRec) : ((s.fades.set i (some (moveRec id c 0 m))).set j none).set i r
      = (s.fades.set j none).set i r := by
    rw [Vector.set_comm _ _ hne, Vector.set_set]
  have hback : (s.fades.set j none).set i none = s.fades.set j none := by
    have hget : (s.fades.set j none)[i] = none := by
      rw [Fin.getElem_fin, Vector.getElem_set_ne _ _ hne.symm]
      exact hfree
    exact (congrArg (fun r => (s.fades.set j none).set i r) hget.symm).trans (set_self (s.fades.set j none) i)
  have hareas (b : Area) : b ∈ Area.cue :: (s.takeoverAreas j old ++ [.cue]) ↔ b ∈ Area.cue :: s.takeoverAreas j old := by
    simp only [List.mem_cons, List.mem_append, List.not_mem_nil, or_false]
    tauto
  have hsteady : Steady s { serialled (unfired s) with
      takenOver := min (s.takenOver + 1) 65535, voices := s.resumed j old } := ⟨hs.1, rfl, rfl, rfl, rfl⟩
  refine ⟨fun hcut => ?_, fun hcut => ?_⟩
  · have hfire := now_cuts (cause := cause) hs hlen hid hR hc hcount hm hd hi hx hto hsteady ha hT hput hareas hcut
    rw [hcomm, hback] at hfire
    generalize nextStandby view s st.number = next at hfire ⊢
    generalize finish (fire cause view st (unfired s)) = t at hfire ⊢
    dsimp only [working, serialled, unfired] at hfire ⊢
    exact hfire
  · have hfire := now_fades (cause := cause) hs hlen hid hR hc hcount hm hd hi hx hto hsteady ha hT hput hareas hcut
    rw [hcomm, nowFading_eq hd] at hfire
    generalize nextStandby view s st.number = next at hfire ⊢
    generalize finish (fire cause view st (unfired s)) = t at hfire ⊢
    dsimp only [working, serialled, unfired] at hfire ⊢
    exact hfire

end

end Sys2Proof.Proofs.Kept
end

section
/-! PROOF. A firing that forces the oldest of eight cues to complete, whose one record is a LEVEL record (R86, R98,
R112). -/

namespace Sys2Proof.Proofs.Kept

open Sys2Proof.Machine
open Sys2Proof.Proofs.Ends

variable {s t u v w : State} {as bs : List Area} {view : Memory} {id : FiringId} {cause : FireCause} {st : Standby}
  {c : CueRec} {i j : RecId} {m : Move} {o : RunEntry} {l : List RunEntry} {r : FadeRec} {k : Nat} {x : Elem}
  {target : Level} {curve : Curve}

/-- The oldest of eight running cues has one record, of a LEVEL, that can be set to its target. -/
structure Forceable (s : State) (o : RunEntry) (l : List RunEntry) (i : RecId) (r : FadeRec) (k : Nat) (x : Elem)
    (target : Level) (curve : Curve) : Prop where
  running : s.seq.running = o :: l
  length : l.length = 7
  others : ∀ y ∈ l, y.id ≠ o.id
  pending : o.pending = 1
  placed : o.placing = false
  record : s.fades[i] = some r
  owner : r.owner = .firing o.id
  index : r.runIndex = some k
  bound : k < 64
  mark : r.stopMark = none
  one : ∀ (n : RecId) (q : FadeRec), s.fades[n] = some q → q.owner = .firing o.id → n = i
  content : r.content = .level x target curve
  free : r.fading = true ∨ s.NotFading x

/-- The entry of a cue that is forced. -/
def forcedEntry (o : RunEntry) : RunEntry := { o with forced := true }

/-- The state in which the forced cue's record is executed. -/
def forcing (o : RunEntry) (l : List RunEntry) (s : State) : State :=
  { s with seq := { s.seq with firing := none, running := forcedEntry o :: l } }

/-- The state once a cue has been forced to complete. -/
def forcedOut (o : RunEntry) (l : List RunEntry) (i : RecId) (x : Elem) (target : Level) (s : State) : State :=
  { s with
    levels := s.levels.put x target, fades := s.fades.set i none
    seq := (forcing o l s).seq.told (forcedEntry o) }

/-- The words of the CUE_FORCED cell of a forced cue. -/
def forcedDetails (o : RunEntry) (number : Nat) : List Word :=
  [Config.code (.cueForced false), wordOf o.id.number, wordOf o.id.serial, place o.crushed 0 ||| place o.failed 8,
    wordOf number]

section

variable (h : Forceable s o l i r k x target curve) (hs : s.Quiet)

include h

theorem forcing_eq : updEntry o.id (fun x => { x with forced := true }) (unfired s) = forcing o l s := by
  have hmap : (unfired s).seq.running.map (fun y => if y.id = o.id then { y with forced := true } else y)
      = forcedEntry o :: l := by
    show s.seq.running.map _ = _
    rw [h.running, List.map_cons, if_pos rfl]
    congr 1
    exact (List.map_congr_left fun y hy => if_neg (h.others y hy)).trans (List.map_id l)
  unfold updEntry updSeq
  dsimp only
  rw [hmap]
  rfl

theorem forcing_entry : entryOf (forcing o l s) o.id = some (forcedEntry o) := by
  unfold entryOf forcing
  exact List.find?_cons_of_pos (by simp [forcedEntry])

theorem forcing_ofCue : OfCue (forcing o l s) r (forcedEntry o) :=
  ⟨h.owner, forcing_entry h, by show 0 < o.pending; rw [h.pending]; decide, h.placed⟩

theorem told_forced : (forcing o l s).seq.told (forcedEntry o) = { s.seq with
    firing := none, running := l
    last := some { id := o.id, crushed := o.crushed, failed := o.failed, forced := true }
    follow := ((forcing o l s).seq.told (forcedEntry o)).follow } := by
  have hp : ¬ 2 ≤ (forcedEntry o).pending := by
    show ¬ 2 ≤ o.pending
    rw [h.pending]
    decide
  have hfilter : (forcedEntry o :: l).filter (fun y => y.id ≠ (forcedEntry o).id) = l := by
    rw [List.filter_cons_of_neg (by simp)]
    exact List.filter_eq_self.mpr fun y hy => decide_eq_true (h.others y hy)
  unfold Seq.told
  rw [if_neg hp]
  unfold forcing
  dsimp only
  rw [hfilter]
  rfl

/-- The sequencer once a firing has forced a cue to complete and has closed with one record of its own pending. -/
def forcedSeq (next : Option Standby) (l : List RunEntry) (o : RunEntry) (id : FiringId) (s : State) : Seq :=
  { closedRunning next l { newEntry id 0 s with pending := 1 } (serialled (unfired s)).seq with
    last := some { id := o.id, crushed := o.crushed, failed := o.failed, forced := true } }

theorem forcedSeq_eq (next : Option Standby) (id : FiringId) : forcedSeq next l o id s
    = closedRunning next l { newEntry id 0 s with pending := 1 } (serialled (forcedOut o l i x target s)).seq := by
  have hseq : (serialled (forcedOut o l i x target s)).seq
      = { (forcing o l s).seq.told (forcedEntry o) with nextSerial := nextSerial s.seq.nextSerial } := by
    have hn : ((forcing o l s).seq.told (forcedEntry o)).nextSerial = s.seq.nextSerial :=
      (congrArg Seq.nextSerial (told_forced h)).trans rfl
    show { (forcing o l s).seq.told (forcedEntry o) with
      nextSerial := nextSerial ((forcing o l s).seq.told (forcedEntry o)).nextSerial } = _
    rw [hn]
  rw [hseq, told_forced h]
  rfl

include hs

theorem forced_executed : Reaches [.cue] (forcedOut o l i x target s)
    (drain (executeRecord (some view) i (forcing o l s))) := by
  have hrefl : Reaches [] (forcing o l s) (forcing o l s) := Reaches.refl hs.2
  have hexec : Reaches [.cue] (forcedOut o l i x target s) (executeRecord (some view) i (forcing o l s)) := by
    have hrec : (forcing o l s).fades[i] = some r := h.record
    unfold executeRecord
    rw [hrec]
    dsimp only
    rw [h.content]
    dsimp only
    split
    · exact (hrefl.elem x target).leaveTable_cue h.record ((forcing_ofCue h).congr rfl) h.mark
    · next hfade =>
      have hnone := hrefl.takeOver_none (fadingOf_except (h.free.resolve_left hfade) (some i))
      exact (hnone.elem x target).leaveTable_cue h.record ((forcing_ofCue h).congr rfl) h.mark
  rw [drain_nil (by rw [hexec.1]; exact hs.1)]
  exact hexec

theorem forced_made : Reaches [.cue] (captureEvent cueForcedCell (forcedDetails o st.number) (forcedOut o l i x target s))
    (makeRoom view st.number (unfired s)) := by
  have hexec := forced_executed (view := view) h hs
  have hrun : (unfired s).seq.running = o :: l := h.running
  have hforce : makeRoom view st.number (unfired s) = forceComplete view st.number o (unfired s) := by
    unfold makeRoom
    rw [hrun, if_pos (by rw [List.length_cons, h.length])]
  have hfades : (drain (executeRecord (some view) i (forcing o l s))).fades = s.fades.set i none :=
    (congrArg State.fades hexec.1).trans rfl
  have hsingle := executeOwned_single (view := some view) (s := forcing o l s) (e := forcedEntry o) h.record h.owner
    h.index h.bound h.one (unowned (s := s) h.record h.one hfades)
  have hleft : completeLeft o.id (drain (executeRecord (some view) i (forcing o l s)))
      = drain (executeRecord (some view) i (forcing o l s)) := by
    refine completeLeft_gone fun y hy => h.others y ?_
    have hq : (drain (executeRecord (some view) i (forcing o l s))).seq = (forcing o l s).seq.told (forcedEntry o) :=
      (congrArg State.seq hexec.1).trans rfl
    rw [hq, told_forced h] at hy
    exact hy
  have hop : forceComplete view st.number o (unfired s) = captureEvent cueForcedCell (forcedDetails o st.number)
      (drain (executeRecord (some view) i (forcing o l s))) := by
    have hentry : (entryOf (forcing o l s) (forcedEntry o).id).getD (forcedEntry o) = forcedEntry o := by
      rw [show entryOf (forcing o l s) (forcedEntry o).id = _ from forcing_entry h]
      rfl
    rw [hentry] at hsingle
    have hsingle : executeOwned (some view) { o with forced := true } (forcing o l s)
        = (drain (executeRecord (some view) i (forcing o l s)), forcedEntry o) := hsingle
    unfold forceComplete
    rw [forcing_eq h]
    dsimp only
    rw [hsingle]
    dsimp only
    rw [hleft]
    rfl
  rw [hforce, hop]
  exact hexec.plain (plain_captureEvent _ _)

/-- A firing of one delayed move that forces the oldest cue to complete. -/
theorem firing_forces (hid : nextId s st.number = id) (hR : ∀ y ∈ s.seq.running, y.id ≠ id)
    (hc : (readCue view s.tables.cueList st.index).sound? = some c) (hcount : c.count = 1)
    (hm : readMove view s.tables.movePool c.first = some m) (hd : 0 < m.delay) (hj : freePlace (setFade i none s) = some j) :
    FiringEnds cause id (nextStandby view s st.number) s [.cue]
      (captureEvent cueForcedCell (forcedDetails o st.number) { s with
        levels := s.levels.put x target
        fades := (s.fades.set i none).set j (some (moveRec id c 0 m))
        seq := forcedSeq (nextStandby view s st.number) l o id s }) 0
      (finish (fire cause view st (unfired s))) := by
  have hB := forced_made (view := view) (st := st) h hs
  have hrun : (forcedOut o l i x target s).seq.running = l := congrArg Seq.running (told_forced h)
  have hBrun : (captureEvent cueForcedCell (forcedDetails o st.number) (forcedOut o l i x target s)).seq.running = l := by
    rw [captureEvent_eq]
    exact hrun
  have hguard : (forcedOut o l i x target s).seq.guard = s.seq.guard := (congrArg Seq.guard (told_forced h)).trans rfl
  have hsteady : Steady s (captureEvent cueForcedCell (forcedDetails o st.number) (forcedOut o l i x target s)) := by
    rw [captureEvent_eq]
    exact ⟨hs.1, hguard, rfl, rfl, rfl⟩
  have hothers : ∀ y ∈ (captureEvent cueForcedCell (forcedDetails o st.number) (forcedOut o l i x target s)).seq.running,
      y.id ≠ id := by
    rw [hBrun]
    exact fun y hy => hR y (by rw [h.running]; exact List.mem_cons_of_mem _ hy)
  have hfades : (captureEvent cueForcedCell (forcedDetails o st.number) (forcedOut o l i x target s)).fades
      = s.fades.set i none := by
    rw [captureEvent_eq]
    rfl
  obtain ⟨F, hF⟩ : ∃ F, freePlaces (s.fades.set i none) = j :: F := by
    rw [freePlace_eq] at hj
    exact List.head?_eq_some_iff.mp hj
  have hmoves : movesOf (fun k => readMove view s.tables.movePool (c.first + k)) c.count = [(0, m)] := by
    rw [hcount]
    unfold movesOf
    simp [List.range_one, hm]
  have hfire := firing_moves (cause := cause) (c := c) hB hsteady hid hothers hc (by
    rw [hmoves]
    refine ⟨fun p hp => ?_, fun p hp => ?_⟩
    · obtain rfl := List.mem_singleton.mp hp
      exact hd
    · rw [hfades, hF] at hp
      simp at hp) (bs := []) (by simp)
  have hbad : malformed (fun k => readMove view s.tables.movePool (c.first + k)) c.count = 0 := by
    have heq := malformed_eq (fun k => readMove view s.tables.movePool (c.first + k)) c.count
    rw [hmoves, hcount] at heq
    rw [hcount]
    exact Nat.succ_injective heq
  have hdrop : List.drop (j :: F).length [(0, m)] = [] := by simp
  have htake : List.take (j :: F).length [(0, m)] = [(0, m)] := by simp
  have hzip : List.zip (j :: F) [(0, m)] = [(j, 0, m)] := by simp
  dsimp only at hfire
  unfold takenMoves takenEntry at hfire
  rw [hmoves, hbad, hBrun, hfades, hF, hdrop, htake, hzip, if_neg (List.cons_ne_nil _ _), withCrushed, if_pos rfl] at hfire
  rw [forcedSeq_eq h]
  generalize nextStandby view s st.number = next at hfire ⊢
  generalize finish (fire cause view st (unfired s)) = t at hfire ⊢
  rw [captureEvent_eq] at hfire ⊢
  dsimp only [working, serialled, forcedOut, newEntry, placedIn, levelled, List.foldl, List.length] at hfire ⊢
  exact hfire

end

end Sys2Proof.Proofs.Kept
end

section
/-! PROOF. The fields of a move record, and the statement of O50 (R79, R83, R191). -/

namespace Sys2Proof.Proofs.Kept

open Sys2Proof.Machine
open Sys2Proof.Proofs.Ends
open Sys2Proof.Proofs.Slate (field_eq)

variable {s : State} {w0 w1 w2 w3 : Word}

/-! ## The fields of a move record (R79, R191) -/

/-- The element that the kind and the index of a LEVEL move name. -/
def namedElem (kind index : Nat) : Option Elem :=
  match kind with
  | 0 => (fin? 96 index).map .role
  | 1 => (fin? 16 index).map .voice
  | 2 => (fin? 16 index).map .group
  | 3 => (fin? 1024 index).map .send
  | 4 => (fin? 40 index).map .master
  | 5 => (fin? 24 index).map .zone
  | _ => none

theorem elem?_named : ∀ kind index : Nat,
    ElemRef.elem? { kind := elemKindOf kind, index := index } = namedElem kind index
  | 0, _ | 1, _ | 2, _ | 3, _ | 4, _ | 5, _ | _ + 6, _ => rfl

theorem moveOfWords_level (h : field w0 20 3 = 0) : moveOfWords w0 w1 w2 w3
    = (namedElem (field w0 24 3) (field w1 0 10)).map fun e =>
        { delay := clampTime (field w0 0 20)
          content := .level e (levelOfField (w1.extractLsb' 16 16)) (if w0.getLsbD 23 then .cut else .steps)
          ownUp := ownTime w2, ownDown := ownTime w3 } := by
  unfold moveOfWords
  dsimp only
  rw [h, elem?_named]
  cases namedElem (field w0 24 3) (field w1 0 10) <;> rfl

/-- A move that is no LEVEL move. -/
def actionMove (w0 : Word) (x : Content) : Option Move :=
  some { delay := clampTime (field w0 0 20), content := x, ownUp := none, ownDown := none }

theorem moveOfWords_play (h : field w0 20 3 = 1) : moveOfWords w0 w1 w2 w3 = actionMove w0
    (.play (voiceField w1) (field w1 8 10) (levelOfField (w2.extractLsb' 0 16)) (w1.getLsbD 31)) := by
  unfold moveOfWords
  dsimp only
  rw [h]
  rfl

theorem moveOfWords_stop (h : field w0 20 3 = 2) :
    moveOfWords w0 w1 w2 w3 = actionMove w0 (.stop (voiceField w1) (clampTime (field w2 0 20))) := by
  unfold moveOfWords
  dsimp only
  rw [h]
  rfl

theorem moveOfWords_relay (h : field w0 20 3 = 3) : moveOfWords w0 w1 w2 w3
    = actionMove w0 (.relay ⟨field w1 0 3, Nat.mod_lt _ (by decide)⟩ (w1.getLsbD 31)) := by
  unfold moveOfWords
  dsimp only
  rw [h]
  rfl

theorem moveOfWords_none (h : 3 < field w0 20 3) : moveOfWords w0 w1 w2 w3 = none := by
  unfold moveOfWords
  dsimp only
  split
  · omega
  · omega
  · omega
  · omega
  · rfl

theorem field_low (w : Word) (len : Nat) : field w 0 len = w.toNat % 2 ^ len := by
  rw [field_eq, Nat.pow_zero, Nat.div_one]

/-- Settles O50: the parts every firing leaves, the run of moves, the one move that acts at once, and the forced
cue. -/
theorem firingPlacesItsMovesAndDerivesStandby : Obligations.FiringPlacesItsMovesAndDerivesStandby := by
  unfold Obligations.FiringPlacesItsMovesAndDerivesStandby
  refine ⟨?_, fun m base i => ?_⟩
  · intro s cause view st hruns hq ht hf hst id serial next startArms arms guard fired done record entry
    obtain ⟨h1, h2, h3, h4, h5, h6⟩ := firing_leaves hruns hq ht hf hst
    have hexec := exec_cueFiring hruns ht hf hst
    refine ⟨_, hexec, h1, h2, h3, h4, h5, (Steps.commandsKeepQueueAndMemory _ _ _ hexec).2 rfl, fun hc => ?_, fun hc => ?_, ?_⟩
    · rw [h6]
      obtain rfl | rfl := hc <;> rfl
    · rw [h6]
      obtain ⟨k, rfl⟩ | rfl := hc <;> rfl
    · have hnext : nextStandby view s st.number = next := rfl
      clear_value next
      intro details endsWith ends hothers
      have hends {areas : List Area} {u : State} {n : Nat}
          (h : FiringEnds cause id next s areas u n (finish (fire cause view st (unfired s)))) : endsWith areas u n := h
      refine ⟨fun hc hlen => ?_, fun c hc => ?_⟩
      · have hfire := firing_unsound (cause := cause) (id := id) (makeRoom_unfired hq hlen) (steady_unfired hq) rfl hothers hc
          fun _ => Iff.rfl
        rw [hnext] at hfire
        dsimp only [working, serialled, unfired, newEntry] at hfire
        exact hends hfire
      · intro read
        refine ⟨?_, fun m hcount hm => ⟨?_, ?_⟩⟩
        · intro hlen moves free placed crushed failed before hdelay hlevel u
          have hfire := firing_moves (cause := cause) (id := id) (bs := []) (makeRoom_unfired hq hlen) (steady_unfired hq) rfl hothers hc
            ⟨hdelay, hlevel⟩ fun _ => Iff.rfl
          rw [hnext] at hfire
          have hbad : malformed read c.count = failed := by
            have heq := malformed_eq read c.count
            show _ = c.count - (movesOf read c.count).length
            omega
          dsimp only [takenMoves, takenEntry, working, serialled, unfired, newEntry] at hfire
          rw [show malformed (fun k => readMove view s.tables.movePool (c.first + k)) c.count = failed from hbad] at hfire
          exact hends hfire
        · intro i e target curve hlen hd hi hx a T fade
          refine ⟨fun hnf => ?_, ?_⟩
          · obtain ⟨hcuts, hfades⟩ := now_alone (cause := cause) (id := id) (a := a) (T := T) hq hlen rfl hothers hc hcount
              hm hd hi hx rfl rfl hnf
            rw [hnext] at hcuts hfades
            exact ⟨fun hcut => hends (hcuts hcut), fun hcurve hT => hends (hfades (by simp [hcurve, hT]))⟩
          · intro j old hj hold ho ends' taken
            obtain ⟨hcuts, hfades⟩ := now_overtakes (cause := cause) (id := id) (a := a) (T := T) hq hlen rfl hothers hc
              hcount hm hd hi hx rfl rfl hj hold ho
            rw [hnext] at hcuts hfades
            exact ⟨fun hcut => hends (hcuts hcut), fun hcurve hT => hends (hfades (by simp [hcurve, hT]))⟩
        · intro o l i j r k e target curve hrun hl hne hp hpl hr ho hk hlt hm' hone hx hfree hd hj
          have hfire := firing_forces (cause := cause) (id := id) ⟨hrun, hl, hne, hp, hpl, hr, ho, hk, hlt, hm', hone, hx, hfree⟩ hq rfl
            hothers hc hcount hm hd hj
          rw [hnext] at hfire
          exact hends hfire
  · intro word n time kind index own elem action voice
    have hw : ∀ k, Memory.readWord m (base + 16 * i + 4 * k) = word k := fun _ => rfl
    have hread : readMove m base i = moveOfWords (word 0) (word 1) (word 2) (word 3) := rfl
    have hkind : field (word 0) 20 3 = kind := field_eq _ _ _
    have htime (k : Nat) : clampTime (field (word k) 0 20) = time k := by rw [field_low]; rfl
    have hown (k : Nat) : ownTime (word k) = own k := by
      unfold ownTime
      rw [htime]
    have hvoice : voiceField (word 1) = voice := Fin.ext (field_low _ _)
    rw [hread]
    refine ⟨fun hk => ?_, fun hk => ?_, fun hk => ?_, fun hk => ?_, fun hk => ?_⟩
    · rw [moveOfWords_level (hkind.trans hk), htime, hown, hown, field_low, field_eq]
      rfl
    · rw [moveOfWords_play (hkind.trans hk), hvoice, field_eq]
      unfold actionMove
      rw [htime]
    · rw [moveOfWords_stop (hkind.trans hk), hvoice, htime]
      unfold actionMove
      rw [htime]
    · have hgroup : (⟨field (word 1) 0 3, Nat.mod_lt _ (by decide)⟩ : Fin 8) = Fin.ofNat 8 (n 1) := Fin.ext (field_low _ _)
      rw [moveOfWords_relay (hkind.trans hk), hgroup]
      unfold actionMove
      rw [htime]
    · exact moveOfWords_none (by rw [hkind]; exact hk)

end Sys2Proof.Proofs.Kept
end

section
/-! PROOF. The manual's own invariants, stated of that part of the state which they look at, and what the elementary
changes of that part keep of them (R27, R85, R109, R151, R154, R180). -/

namespace Sys2Proof.Proofs.Kept

open Sys2Proof.Machine
open Sys2Proof.Proofs.Ends

variable {s t u v : State}

/-! ## The books -/

/-- What the invariants look at of a fade record. -/
structure Shape where
  fading : Bool
  owner : Owner
  content : Content
  place : Option Nat

def shape (r : FadeRec) : Shape := ⟨r.fading, r.owner, r.content, r.runIndex⟩

/-- The element that a LEVEL record moves. -/
def Shape.elem? (f : Shape) : Option Elem :=
  match f.content with
  | .level e _ _ => some e
  | _ => none

/-- The part of the state that the manual's own invariants look at. -/
structure Books where
  fades : RecId → Option Shape
  running : List RunEntry
  next : Option FiringId
  chan : RoleId → TapId → Option Channel
  tap : RoleId → TapId → TapState
  carried : ZoneId → Option PageId
  pages : PageId → Option (BitVec 24)
  arrival : List SlotId
  view : SlotId → SlotState
  lost : List Note

def books (s : State) : Books where
  fades i := s.fades[i].map shape
  running := s.seq.running
  next := s.seq.standby.map fun st => nextId s st.number
  chan r k := s.roles[r].cfg.taps[k]
  tap r k := s.roles[r].taps[k]
  carried z := s.zones[z].page
  pages p := s.pages[p].map (·.zones)
  arrival := s.slate.arrival
  view i := s.port.view[i]
  lost := s.notes.filter isLost

/-- The books depend on the core alone. -/
def Core.books (c : Core) : Books where
  fades i := c.fades[i].map shape
  running := c.seq.running
  next := c.seq.standby.map fun st => { number := st.number, serial := c.seq.nextSerial }
  chan r k := (c.cast r).1.taps[k]
  tap r k := (c.cast r).2[k]
  carried := c.carried
  pages := c.pages
  arrival := c.slate.arrival
  view i := c.view[i]
  lost := c.lost

theorem books_eq (s : State) : books s = (core s).books := rfl

theorem books_of_core (h : core t = core s) : books t = books s := by
  rw [books_eq, books_eq, h]

/-! ## The invariants -/

variable {b : Books} {F : Prop} {P x : Option FiringId} {i j : RecId} {f g : Shape} {id : FiringId} {r : RoleId} {k : TapId}

def Books.Carries (b : Books) (r : RoleId) (c : Channel) : Prop := ∃ k, b.tap r k ≠ .idle ∧ b.chan r k = some c

/-- R27, and the records that uphold it. -/
structure Books.CastHolds (b : Books) : Prop where
  one : ∀ r q c, b.Carries r c → b.Carries q c → r = q
  fading : ∀ i f, b.fades i = some f → f.owner = .cast → f.fading = true
  awake : ∀ i f r k target curve, b.fades i = some f → f.owner = .cast → f.content = .level (.tap r k) target curve →
    target ≠ .off → b.tap r k ≠ .idle

/-- R109. -/
def Books.FadeHolds (b : Books) : Prop :=
  ∀ i j f g e, b.fades i = some f → b.fades j = some g → f.fading = true → g.fading = true → f.elem? = some e →
    g.elem? = some e → i = j

def ownedBy (id : FiringId) (f : Option Shape) : Bool := f.map (·.owner) == some (.firing id)

/-- How many records a firing owns. -/
def Books.owned (b : Books) (id : FiringId) : Nat := ((List.finRange 128).filter fun i => ownedBy id (b.fades i)).length

/-- R85, where the firing `P` is still at its work and the entry of `x` is still to be judged; with `F`, the id that the
next firing takes is no running cue's. -/
structure Books.CueHolds (F : Prop) (P x : Option FiringId) (b : Books) : Prop where
  few : b.running.length ≤ 8
  nodup : (b.running.map (·.id)).Nodup
  placing : ∀ e ∈ b.running, e.placing = true ↔ P = some e.id
  works : ∀ id, P = some id → ∃ e ∈ b.running, e.id = id
  pending : ∀ e ∈ b.running, e.pending = b.owned e.id
  waits : ∀ e ∈ b.running, e.placing = false → x ≠ some e.id → 0 < e.pending
  runs : ∀ i f id, b.fades i = some f → f.owner = .firing id → ∃ e ∈ b.running, e.id = id
  placed : ∀ i f id, b.fades i = some f → f.owner = .firing id → ∃ k < 64, f.place = some k
  once : ∀ i j f g id, b.fades i = some f → b.fades j = some g → f.owner = .firing id → g.owner = .firing id →
    f.place = g.place → i = j
  fresh : F → ∀ id, b.next = some id → ∀ e ∈ b.running, e.id ≠ id

/-- R151, R154. -/
structure Books.PageHolds (b : Books) : Prop where
  carried : ∀ z p, b.carried z = some p ↔ ∃ zs, b.pages p = some zs ∧ zs.getLsbD z = true
  held : ∀ p zs, b.pages p = some zs → zs ≠ 0#24

/-- R180. -/
structure Books.SlateHolds (b : Books) : Prop where
  nodup : b.arrival.Nodup
  posted : ∀ i, b.view i = .posted ↔ i ∈ b.arrival

structure Books.Lawful (F : Prop) (P : Option FiringId) (b : Books) : Prop where
  cast : b.CastHolds
  fade : b.FadeHolds
  cue : b.CueHolds F P none
  page : b.PageHolds
  slate : b.SlateHolds
  calm : b.lost = []

def Lawful (F : Prop) (P : Option FiringId) (s : State) : Prop := (books s).Lawful F P

theorem Lawful.same (h : Lawful F P s) (hb : books t = books s) : Lawful F P t := by
  unfold Lawful
  rw [hb]
  exact h

/-! Each looks at its own part of the books. -/

section

variable {b' : Books}

theorem Books.CastHolds.same (h : b.CastHolds) (hf : b'.fades = b.fades) (hc : b'.chan = b.chan) (ht : b'.tap = b.tap) :
    b'.CastHolds := by
  obtain ⟨fades, running, chan, tap, _⟩ := b'
  cases hf
  cases hc
  cases ht
  exact ⟨h.one, h.fading, h.awake⟩

theorem Books.FadeHolds.same (h : b.FadeHolds) (hf : b'.fades = b.fades) : b'.FadeHolds := by
  unfold Books.FadeHolds
  rw [hf]
  exact h

theorem Books.CueHolds.same (h : b.CueHolds F P x) (hf : b'.fades = b.fades) (hr : b'.running = b.running)
    (hn : b'.next = b.next) : b'.CueHolds F P x := by
  obtain ⟨fades, running, next, _⟩ := b'
  cases hf
  cases hr
  cases hn
  exact ⟨h.few, h.nodup, h.placing, h.works, h.pending, h.waits, h.runs, h.placed, h.once, h.fresh⟩

/-- Which firing comes next may change, where nothing is asked of it. -/
theorem Books.CueHolds.forget (h : b.CueHolds F P x) (hf : b'.fades = b.fades) (hr : b'.running = b.running) :
    b'.CueHolds False P x := by
  obtain ⟨fades, running, next, _⟩ := b'
  cases hf
  cases hr
  exact ⟨h.few, h.nodup, h.placing, h.works, h.pending, h.waits, h.runs, h.placed, h.once, nofun⟩

theorem Books.PageHolds.same (h : b.PageHolds) (hc : b'.carried = b.carried) (hp : b'.pages = b.pages) : b'.PageHolds := by
  refine ⟨?_, ?_⟩
  · rw [hc, hp]
    exact h.carried
  · rw [hp]
    exact h.held

theorem Books.SlateHolds.same (h : b.SlateHolds) (ha : b'.arrival = b.arrival) (hv : b'.view = b.view) : b'.SlateHolds := by
  refine ⟨?_, ?_⟩
  · rw [ha]
    exact h.nodup
  · rw [ha, hv]
    exact h.posted

end

/-! ### They are the manual's -/

theorem fades_some {r : FadeRec} (h : s.fades[i] = some r) : (books s).fades i = some (shape r) := by
  unfold books
  dsimp only
  rw [h]
  rfl

theorem fades_none (h : s.fades[i] = none) : (books s).fades i = none := by
  unfold books
  dsimp only
  rw [h]
  rfl

theorem of_fades (h : (books s).fades i = some f) : ∃ r, s.fades[i] = some r ∧ shape r = f :=
  Option.map_eq_some_iff.mp h

theorem carries_iff {c : Channel} : Role.carries s.roles[r] c = true ↔ (books s).Carries r c := by
  unfold Role.carries Books.Carries
  rw [List.any_eq_true]
  refine ⟨fun ⟨k, _, hk⟩ => ⟨k, ?_⟩, fun ⟨k, hk, hc⟩ => ⟨k, List.mem_finRange k, ?_⟩⟩
  · obtain ⟨h1, h2⟩ := Bool.and_eq_true_iff.mp hk
    refine ⟨fun h => ?_, beq_iff_eq.mp h2⟩
    rw [show s.roles[r].taps[k] = .idle from h] at h1
    nomatch h1
  · refine Bool.and_eq_true_iff.mpr ⟨?_, beq_iff_eq.mpr hc⟩
    change s.roles[r].taps[k] ≠ .idle at hk
    unfold TapState.carries
    split
    · next h => exact absurd h hk
    · rfl

theorem owned_books (s : State) (id : FiringId) : (books s).owned id = recordsOwned s id := by
  unfold Books.owned recordsOwned ownedBy books
  dsimp only
  refine congrArg (fun p => ((List.finRange 128).filter p).length) (funext fun i => ?_)
  rw [Option.map_map]
  rfl

theorem castHolds_iff : s.CastLaw ↔ (books s).CastHolds := by
  refine ⟨fun ⟨hone, hrec⟩ => ⟨fun r q c hr hq => hone r q c (carries_iff.mpr hr) (carries_iff.mpr hq), ?_, ?_⟩,
    fun h => ⟨fun r q c hr hq => h.one r q c (carries_iff.mp hr) (carries_iff.mp hq), fun i f hf ho => ?_⟩⟩
  · intro i f hf ho
    obtain ⟨r, hr, rfl⟩ := of_fades hf
    exact (hrec i r hr ho).1
  · intro i f r k target curve hf ho hc hne
    obtain ⟨q, hq, rfl⟩ := of_fades hf
    exact (hrec i q hq ho).2 r k target curve hc hne
  · exact ⟨h.fading i _ (fades_some hf) ho, fun r k target curve hc hne => h.awake i _ r k target curve (fades_some hf) ho hc hne⟩

theorem fadeHolds_iff : s.FadeLaw ↔ (books s).FadeHolds := by
  refine ⟨fun h i j f g e hf hg hff hgg hfe hge => ?_, fun h i j f g e hf hg hff hgg hfe hge => ?_⟩
  · obtain ⟨r, hr, rfl⟩ := of_fades hf
    obtain ⟨q, hq, rfl⟩ := of_fades hg
    exact h i j r q e hr hq hff hgg hfe hge
  · exact h i j _ _ e (fades_some hf) (fades_some hg) hff hgg hfe hge

theorem cueHolds_iff : s.CueLaw ↔ (books s).CueHolds False none none := by
  refine ⟨fun ⟨hfew, hnodup, hrun, hrec⟩ => ⟨hfew, hnodup, fun e he => ?_, nofun, fun e he => ?_, fun e he _ _ => ?_, ?_,
    ?_, ?_, nofun⟩, fun h => ⟨h.few, h.nodup, fun e he => ?_, fun i f id hf ho => ?_⟩⟩
  · rw [(hrun e he).1]
    exact ⟨nofun, nofun⟩
  · rw [owned_books]
    exact (hrun e he).2.2
  · exact (hrun e he).2.1
  · intro i f id hf ho
    obtain ⟨r, hr, rfl⟩ := of_fades hf
    exact (hrec i r id hr ho).1
  · intro i f id hf ho
    obtain ⟨r, hr, rfl⟩ := of_fades hf
    obtain ⟨_, k, hk, hp, _⟩ := hrec i r id hr ho
    exact ⟨k, hk, hp⟩
  · intro i j f g id hf hg hof hog hp
    obtain ⟨r, hr, rfl⟩ := of_fades hf
    obtain ⟨q, hq, rfl⟩ := of_fades hg
    obtain ⟨_, k, _, hk, hall⟩ := hrec i r id hr hof
    exact (hall j q hq hog (hp.symm.trans hk)).symm
  · have hpl : e.placing = false := by
      rw [← Bool.not_eq_true]
      exact fun hp => nomatch (h.placing e he).mp hp
    exact ⟨hpl, h.waits e he hpl nofun, (h.pending e he).trans (owned_books s e.id)⟩
  · obtain ⟨k, hk, hp⟩ := h.placed i _ id (fades_some hf) ho
    exact ⟨h.runs i _ id (fades_some hf) ho, k, hk, hp, fun j g hg hog hpg =>
      h.once j i _ _ id (fades_some hg) (fades_some hf) hog ho (hpg.trans hp.symm)⟩

theorem pageHolds_iff : s.PageLaw ↔ (books s).PageHolds := by
  have hpage (p : PageId) (zs : BitVec 24) : (books s).pages p = some zs ↔ ∃ g, s.pages[p] = some g ∧ g.zones = zs :=
    Option.map_eq_some_iff
  refine ⟨fun ⟨hcar, hheld⟩ => ⟨fun z p => (hcar z p).trans ⟨fun ⟨g, hg, hz⟩ => ⟨g.zones, (hpage p _).mpr ⟨g, hg, rfl⟩, hz⟩,
    fun ⟨zs, hp, hz⟩ => ?_⟩, fun p zs hp => ?_⟩, fun h => ⟨fun z p => (h.carried z p).trans ⟨fun ⟨zs, hp, hz⟩ => ?_,
    fun ⟨g, hg, hz⟩ => ⟨g.zones, (hpage p _).mpr ⟨g, hg, rfl⟩, hz⟩⟩, fun p g hg => h.held p _ ((hpage p _).mpr ⟨g, hg, rfl⟩)⟩⟩
  · obtain ⟨g, hg, rfl⟩ := (hpage p zs).mp hp
    exact ⟨g, hg, hz⟩
  · obtain ⟨g, hg, rfl⟩ := (hpage p zs).mp hp
    exact hheld p g hg
  · obtain ⟨g, hg, rfl⟩ := (hpage p zs).mp hp
    exact ⟨g, hg, hz⟩

theorem slateHolds_iff : s.SlateLaw ↔ (books s).SlateHolds := ⟨fun ⟨h, h'⟩ => ⟨h, h'⟩, fun ⟨h, h'⟩ => ⟨h, h'⟩⟩

/-- What the laws give and take. -/
theorem lawful_iff (hn : s.notes = []) : Lawful False none s ↔ s.ManualLaws := by
  have hcalm : (books s).lost = [] := by
    unfold books
    dsimp only
    rw [hn]
    rfl
  refine ⟨fun h => ⟨castHolds_iff.mpr h.cast, fadeHolds_iff.mpr h.fade, cueHolds_iff.mpr h.cue, pageHolds_iff.mpr h.page,
    slateHolds_iff.mpr h.slate⟩, fun ⟨hcast, hfade, hcue, hpage, hslate⟩ => ⟨castHolds_iff.mp hcast, fadeHolds_iff.mp hfade,
    cueHolds_iff.mp hcue, pageHolds_iff.mp hpage, slateHolds_iff.mp hslate, hcalm⟩⟩

/-! ## A record leaves or is placed -/

/-- The books with a place of the fade table as given. -/
def Books.put (b : Books) (i : RecId) (f : Option Shape) : Books := { b with fades := Function.update b.fades i f }

@[simp] theorem Books.put_same (b : Books) (i : RecId) (f : Option Shape) : (b.put i f).fades i = f := Function.update_self ..

theorem Books.put_ne (b : Books) {i j : RecId} (f : Option Shape) (h : j ≠ i) : (b.put i f).fades j = b.fades j :=
  Function.update_of_ne h ..

theorem Books.put_put (b : Books) (i : RecId) (f g : Option Shape) : (b.put i f).put i g = b.put i g := by
  unfold Books.put
  rw [Function.update_idem]

theorem Books.put_of_eq (h : b.fades i = none) : b.put i none = b := by
  unfold Books.put
  rw [← h, Function.update_eq_self]

/-- A record of the books with one place changed is the changed one or one of before. -/
theorem put_cases {o : Option Shape} (h : (b.put i o).fades j = some f) : (j = i ∧ o = some f) ∨ (j ≠ i ∧ b.fades j = some f) := by
  by_cases hj : j = i
  · subst hj
    exact .inl ⟨rfl, (b.put_same j o).symm.trans h⟩
  · exact .inr ⟨hj, (b.put_ne o hj).symm.trans h⟩

/-- No FADING record moves the element. -/
def Books.Still (b : Books) (e : Elem) (i : RecId) : Prop :=
  ∀ j f, b.fades j = some f → f.fading = true → f.elem? = some e → j = i

theorem Books.CastHolds.leave (h : b.CastHolds) (i : RecId) : (b.put i none).CastHolds where
  one := h.one
  fading j f hf := by
    obtain ⟨_, hn⟩ | ⟨_, hf⟩ := put_cases hf
    · nomatch hn
    · exact h.fading j f hf
  awake j f r k target curve hf := by
    obtain ⟨_, hn⟩ | ⟨_, hf⟩ := put_cases hf
    · nomatch hn
    · exact h.awake j f r k target curve hf

theorem Books.FadeHolds.leave (h : b.FadeHolds) (i : RecId) : (b.put i none).FadeHolds := by
  intro j l f g e hf hg
  obtain ⟨_, hn⟩ | ⟨_, hf⟩ := put_cases hf
  · nomatch hn
  · obtain ⟨_, hn⟩ | ⟨_, hg⟩ := put_cases hg
    · nomatch hn
    · exact h j l f g e hf hg

theorem Books.CastHolds.enter (h : b.CastHolds) (hf : f.owner = .cast → f.fading = true ∧
    ∀ r k target curve, f.content = .level (.tap r k) target curve → target ≠ .off → b.tap r k ≠ .idle) :
    (b.put i (some f)).CastHolds where
  one := h.one
  fading j g hg ho := by
    obtain ⟨_, hn⟩ | ⟨_, hg⟩ := put_cases hg
    · cases hn
      exact (hf ho).1
    · exact h.fading j g hg ho
  awake j g r k target curve hg ho := by
    obtain ⟨_, hn⟩ | ⟨_, hg⟩ := put_cases hg
    · cases hn
      exact (hf ho).2 r k target curve
    · exact h.awake j g r k target curve hg ho

theorem Books.FadeHolds.enter (h : b.FadeHolds) (hf : f.fading = true → ∀ e, f.elem? = some e → b.Still e i) :
    (b.put i (some f)).FadeHolds := by
  intro j l p q e hp hq hpf hqf hpe hqe
  obtain ⟨rfl, hn⟩ | ⟨hj, hp'⟩ := put_cases hp
  · cases hn
    obtain ⟨rfl, _⟩ | ⟨_, hq'⟩ := put_cases hq
    · rfl
    · exact (hf hpf e hpe l q hq' hqf hqe).symm
  · obtain ⟨rfl, hn⟩ | ⟨_, hq'⟩ := put_cases hq
    · cases hn
      exact hf hqf e hqe j p hp' hpf hpe
    · exact h j l p q e hp' hq' hpf hqf hpe hqe

/-! ## A crossfade ends -/

/-- The books with a tap in the state given. -/
def Books.setTap (b : Books) (r : RoleId) (k : TapId) (x : TapState) : Books :=
  { b with tap := fun q j => if q = r ∧ j = k then x else b.tap q j }

/-- A tap that a CAST fade leaves behind: no other record moves it, and it carried its channel before. -/
theorem Books.CastHolds.tapEnds {x : TapState} (h : b.CastHolds) (hx : x ≠ .idle → b.tap r k ≠ .idle)
    (hstill : ∀ j f, b.fades j = some f → f.owner = .cast → f.elem? ≠ some (.tap r k)) : (b.setTap r k x).CastHolds where
  one q q' c hq hq' := by
    have hback (q : RoleId) (h : (b.setTap r k x).Carries q c) : b.Carries q c := by
      obtain ⟨j, hj, hc⟩ := h
      refine ⟨j, ?_, hc⟩
      unfold setTap at hj
      dsimp only at hj
      split at hj
      · next hqk =>
        obtain ⟨rfl, rfl⟩ := hqk
        exact hx hj
      · exact hj
    exact h.one q q' c (hback q hq) (hback q' hq')
  fading := h.fading
  awake j f q l target curve hf ho hc hne := by
    have hql : ¬ (q = r ∧ l = k) := fun ⟨hq, hl⟩ => hstill j f hf ho (by
      unfold Shape.elem?
      rw [hc, hq, hl])
    unfold setTap
    dsimp only
    rw [if_neg hql]
    exact h.awake j f q l target curve hf ho hc hne

/-- A tap that no other role's channel stands against is woken. -/
theorem Books.CastHolds.wakes {x : TapState} (h : b.CastHolds) (hx : x ≠ .idle)
    (hnone : ∀ c, b.chan r k = some c → ∀ q, b.Carries q c → q = r) : (b.setTap r k x).CastHolds where
  one q q' d hq hq' := by
    have hback (q : RoleId) (h : (b.setTap r k x).Carries q d) : b.Carries q d ∨ (q = r ∧ b.chan r k = some d) := by
      obtain ⟨j, hj, hd⟩ := h
      unfold setTap at hj hd
      dsimp only at hj hd
      split at hj
      · next hqk =>
        obtain ⟨rfl, rfl⟩ := hqk
        exact .inr ⟨rfl, hd⟩
      · exact .inl ⟨j, hj, hd⟩
    obtain h1 | ⟨hr, hd⟩ := hback q hq
    · obtain h2 | ⟨hr', hd⟩ := hback q' hq'
      · exact h.one q q' d h1 h2
      · exact (hnone d hd q h1).trans hr'.symm
    · obtain h2 | ⟨hr', _⟩ := hback q' hq'
      · exact hr.trans (hnone d hd q' h2).symm
      · exact hr.trans hr'.symm
  fading := h.fading
  awake j f q l target curve hf ho hcf hne := by
    unfold setTap
    dsimp only
    split
    · exact hx
    · exact h.awake j f q l target curve hf ho hcf hne

end Sys2Proof.Proofs.Kept
end

section
/-! PROOF. What the changes of the running list and of the records that a firing owns keep of R85. -/

namespace Sys2Proof.Proofs.Kept

open Sys2Proof.Machine
open Sys2Proof.Proofs.Ends

variable {b : Books} {F : Prop} {P x : Option FiringId} {i j : RecId} {f g : Shape} {o : Option Shape} {id : FiringId} {k : Nat}

/-! ## How many records a firing owns -/

def ownedBit (id : FiringId) (o : Option Shape) : Nat := if ownedBy id o then 1 else 0

theorem owned_sum (b : Books) (id : FiringId) : b.owned id = ∑ i, ownedBit id (b.fades i) := by
  unfold Books.owned ownedBit
  rw [← Finset.card_filter, ← List.toFinset_card_of_nodup ((List.nodup_finRange 128).filter _)]
  congr 1
  ext i
  simp

theorem owned_put (b : Books) (i : RecId) (o : Option Shape) (id : FiringId) :
    (b.put i o).owned id + ownedBit id (b.fades i) = b.owned id + ownedBit id o := by
  have hb := Finset.add_sum_erase Finset.univ (fun j => ownedBit id (b.fades j)) (Finset.mem_univ i)
  have hp := Finset.add_sum_erase Finset.univ (fun j => ownedBit id ((b.put i o).fades j)) (Finset.mem_univ i)
  have hrest : ∑ j ∈ Finset.univ.erase i, ownedBit id ((b.put i o).fades j)
      = ∑ j ∈ Finset.univ.erase i, ownedBit id (b.fades j) :=
    Finset.sum_congr rfl fun j hj => by rw [b.put_ne o (Finset.ne_of_mem_erase hj)]
  rw [owned_sum, owned_sum, ← hb, ← hp, hrest, b.put_same i o]
  omega

theorem ownedBy_iff : ownedBy id o = true ↔ ∃ f, o = some f ∧ f.owner = .firing id := by
  cases o with
  | none => exact ⟨nofun, nofun⟩
  | some f => simp [ownedBy]

theorem owned_pos (h : b.fades i = some f) (ho : f.owner = .firing id) : 0 < b.owned id := by
  have := owned_put b i none id
  rw [show ownedBit id (b.fades i) = 1 from if_pos (ownedBy_iff.mpr ⟨f, h, ho⟩),
    show ownedBit id none = 0 from rfl] at this
  omega

theorem owned_zero (h : ∀ i f, b.fades i = some f → f.owner ≠ .firing id) : b.owned id = 0 := by
  rw [owned_sum]
  refine Finset.sum_eq_zero fun i _ => if_neg fun hi => ?_
  obtain ⟨f, hf, ho⟩ := ownedBy_iff.mp hi
  exact h i f hf ho

/-! ## Records that change hands with no cue -/

/-- A place of the fade table changes, but for no cue. -/
theorem Books.CueHolds.put (h : b.CueHolds F P x) (ho : ∀ id, ownedBy id o = ownedBy id (b.fades i))
    (hp : ∀ g id, o = some g → g.owner = .firing id → ∃ f, b.fades i = some f ∧ f.place = g.place) :
    (b.put i o).CueHolds F P x := by
  have hback {j : RecId} {g : Shape} {id : FiringId} (hg : (b.put i o).fades j = some g) (hgo : g.owner = .firing id) :
      ∃ f, b.fades j = some f ∧ f.owner = .firing id ∧ f.place = g.place := by
    obtain ⟨rfl, rfl⟩ | ⟨_, hg⟩ := put_cases hg
    · obtain ⟨f, hf, hpl⟩ := hp g id rfl hgo
      obtain ⟨f', hf', hfo⟩ := ownedBy_iff.mp ((ho id).symm.trans (ownedBy_iff.mpr ⟨g, rfl, hgo⟩))
      exact ⟨f, hf, by rwa [Option.some.inj (hf.symm.trans hf')], hpl⟩
    · exact ⟨g, hg, hgo, rfl⟩
  refine ⟨h.few, h.nodup, h.placing, h.works, fun e he => ?_, h.waits, fun j g id hg hgo => ?_, fun j g id hg hgo => ?_,
    fun j l p q id hp' hq' hpo hqo hpl => ?_, h.fresh⟩
  · have := owned_put b i o e.id
    unfold ownedBit at this
    rw [ho e.id] at this
    rw [h.pending e he]
    omega
  · obtain ⟨f, hf, hfo, _⟩ := hback hg hgo
    exact h.runs j f id hf hfo
  · obtain ⟨f, hf, hfo, hpl⟩ := hback hg hgo
    obtain ⟨k, hk, hfk⟩ := h.placed j f id hf hfo
    exact ⟨k, hk, hpl.symm.trans hfk⟩
  · obtain ⟨p', hp1, hpo', hpp⟩ := hback hp' hpo
    obtain ⟨q', hq1, hqo', hqq⟩ := hback hq' hqo
    exact h.once j l p' q' id hp1 hq1 hpo' hqo' (hpp.trans (hpl.trans hqq.symm))

/-! ## The running list changes -/

/-- The books with the entry of `id` changed. -/
def Books.entry (b : Books) (id : FiringId) (f : RunEntry → RunEntry) : Books :=
  { b with running := b.running.map fun e => if e.id = id then f e else e }

theorem entry_cases {f : RunEntry → RunEntry} {e : RunEntry} (h : e ∈ (b.entry id f).running) :
    (∃ e0 ∈ b.running, e0.id = id ∧ e = f e0) ∨ (e ∈ b.running ∧ e.id ≠ id) := by
  obtain ⟨e0, h0, he⟩ := List.mem_map.mp h
  split at he
  · next hid => exact .inl ⟨e0, h0, hid, he.symm⟩
  · next hid =>
    subst he
    exact .inr ⟨h0, hid⟩

theorem entry_ids {f : RunEntry → RunEntry} (hf : ∀ e, (f e).id = e.id) :
    (b.entry id f).running.map (·.id) = b.running.map (·.id) := by
  unfold Books.entry
  rw [List.map_map]
  refine List.map_congr_left fun e _ => ?_
  dsimp only [Function.comp]
  split
  · exact hf e
  · rfl

theorem exists_id_iff {R R' : List RunEntry} (h : R'.map (·.id) = R.map (·.id)) (id : FiringId) :
    (∃ e ∈ R', e.id = id) ↔ ∃ e ∈ R, e.id = id := by
  have hmem : id ∈ R'.map (·.id) ↔ id ∈ R.map (·.id) := by rw [h]
  rwa [List.mem_map, List.mem_map] at hmem

/-- An entry changes, but not in what R85 looks at. -/
theorem Books.CueHolds.entry {f : RunEntry → RunEntry} (h : b.CueHolds F P x)
    (hf : ∀ e, (f e).id = e.id ∧ (f e).pending = e.pending ∧ (f e).placing = e.placing) : (b.entry id f).CueHolds F P x := by
  have hids := entry_ids (b := b) (id := id) fun e => (hf e).1
  have hcase {e : RunEntry} (he : e ∈ (b.entry id f).running) :
      ∃ e0 ∈ b.running, e.id = e0.id ∧ e.pending = e0.pending ∧ e.placing = e0.placing := by
    obtain ⟨e0, h0, _, rfl⟩ | ⟨he, _⟩ := entry_cases he
    · exact ⟨e0, h0, hf e0⟩
    · exact ⟨e, he, rfl, rfl, rfl⟩
  refine ⟨?_, by rw [hids]; exact h.nodup, fun e he => ?_, fun id hP => (exists_id_iff hids id).mpr (h.works id hP),
    fun e he => ?_, fun e he hpl hx => ?_, fun i f id hf' ho => (exists_id_iff hids id).mpr (h.runs i f id hf' ho),
    h.placed, h.once, fun hF id hn e he => ?_⟩
  · unfold Books.entry
    rw [List.length_map]
    exact h.few
  · obtain ⟨e0, h0, hid, _, hpl⟩ := hcase he
    rw [hid, hpl]
    exact h.placing e0 h0
  · obtain ⟨e0, h0, hid, hp, _⟩ := hcase he
    rw [hid, hp]
    exact h.pending e0 h0
  · obtain ⟨e0, h0, hid, hp, hpl'⟩ := hcase he
    rw [hp]
    exact h.waits e0 h0 (hpl'.symm.trans hpl) (by rwa [← hid])
  · obtain ⟨e0, h0, hid, _, _⟩ := hcase he
    rw [hid]
    exact h.fresh hF id hn e0 h0

/-- The count of an entry follows a record of its own that comes or goes. -/
theorem Books.CueHolds.counted {f : RunEntry → RunEntry} (h : b.CueHolds F P none)
    (hf : ∀ e, (f e).id = e.id ∧ (f e).placing = e.placing)
    (hcount : ∀ e ∈ b.running, e.id = id → (f e).pending = (b.put i o).owned id)
    (hother : ∀ id', id' ≠ id → ownedBy id' o = ownedBy id' (b.fades i))
    (hplaced : ∀ g, o = some g → g.owner = .firing id ∧ (∃ e ∈ b.running, e.id = id)
      ∧ (∃ k < 64, g.place = some k) ∧ ∀ j q, b.fades j = some q → q.owner = .firing id → q.place ≠ g.place) :
    ((b.put i o).entry id f).CueHolds F P (some id) := by
  have hids := entry_ids (b := b.put i o) (id := id) fun e => (hf e).1
  have hid' (id' : FiringId) : (∃ e ∈ ((b.put i o).entry id f).running, e.id = id') ↔ ∃ e ∈ b.running, e.id = id' :=
    exists_id_iff hids id'
  refine ⟨?_, by rw [hids]; exact h.nodup, fun e he => ?_, fun id' hP => (hid' id').mpr (h.works id' hP), fun e he => ?_,
    fun e he hpl hx => ?_, fun j g id' hg hgo => (hid' id').mpr ?_, fun j g id' hg hgo => ?_, fun j l p q id' hp hq hpo hqo hpl => ?_,
    fun hF id' hn e he => ?_⟩
  · unfold Books.entry
    rw [List.length_map]
    exact h.few
  · obtain ⟨e0, h0, _, rfl⟩ | ⟨he, _⟩ := entry_cases he
    · rw [(hf e0).1, (hf e0).2]
      exact h.placing e0 h0
    · exact h.placing e he
  · obtain ⟨e0, h0, hid, rfl⟩ | ⟨he, hne⟩ := entry_cases he
    · rw [(hf e0).1, hid]
      exact hcount e0 h0 hid
    · have := owned_put b i o e.id
      unfold ownedBit at this
      rw [hother e.id hne] at this
      have hold : e.pending = b.owned e.id := h.pending e he
      change e.pending = (b.put i o).owned e.id
      omega
  · obtain ⟨e0, h0, hid, rfl⟩ | ⟨he, _⟩ := entry_cases he
    · exact absurd (by rw [(hf e0).1, hid]) hx
    · exact h.waits e he hpl nofun
  · obtain ⟨_, rfl⟩ | ⟨_, hg⟩ := put_cases hg
    · obtain ⟨hown, hrun, _⟩ := hplaced g rfl
      rw [hown] at hgo
      cases hgo
      exact hrun
    · exact h.runs j g id' hg hgo
  · obtain ⟨_, rfl⟩ | ⟨_, hg⟩ := put_cases hg
    · exact (hplaced g rfl).2.2.1
    · exact h.placed j g id' hg hgo
  · obtain ⟨rfl, rfl⟩ | ⟨_, hp'⟩ := put_cases hp
    · obtain ⟨hown, _, _, hnew⟩ := hplaced p rfl
      rw [hown] at hpo
      cases hpo
      obtain ⟨rfl, _⟩ | ⟨_, hq'⟩ := put_cases hq
      · rfl
      · exact absurd hpl.symm (hnew l q hq' hqo)
    · obtain ⟨rfl, rfl⟩ | ⟨_, hq'⟩ := put_cases hq
      · obtain ⟨hown, _, _, hnew⟩ := hplaced q rfl
        rw [hown] at hqo
        cases hqo
        exact absurd hpl (hnew j p hp' hpo)
      · exact h.once j l p q id' hp' hq' hpo hqo hpl
  · obtain ⟨e0, h0, _, rfl⟩ | ⟨he, _⟩ := entry_cases he
    · rw [(hf e0).1]
      exact h.fresh hF id' hn e0 h0
    · exact h.fresh hF id' hn e he

/-- The entry still to be judged need not complete. -/
theorem Books.CueHolds.judged (h : b.CueHolds F P x) (hw : ∀ e ∈ b.running, e.placing = false → x = some e.id → 0 < e.pending) :
    b.CueHolds F P none :=
  { h with waits := fun e he hpl _ => if hx : x = some e.id then hw e he hpl hx else h.waits e he hpl hx }

/-- A record leaves the table, and its entry is told; whether the cue completes is still to be judged. -/
theorem Books.CueHolds.told (h : b.CueHolds F P none) (hi : b.fades i = some f) (ho : f.owner = .firing id) :
    ((b.put i none).entry id fun e => { e with pending := e.pending - 1 }).CueHolds F P (some id) := by
  have hcount := owned_put b i none id
  rw [show ownedBit id (b.fades i) = 1 from if_pos (ownedBy_iff.mpr ⟨f, hi, ho⟩), show ownedBit id none = 0 from rfl] at hcount
  refine h.counted (fun _ => ⟨rfl, rfl⟩) (fun e he hid => ?_) (fun id' hne => ?_) nofun
  · have := h.pending e he
    rw [hid] at this
    dsimp only
    omega
  · rw [hi]
    unfold ownedBy
    rw [Option.map_some, ho]
    simpa using fun h => hne h.symm

/-- The firing at its work places a record. -/
theorem Books.CueHolds.places (h : b.CueHolds F (some id) none) (hi : b.fades i = none) (ho : f.owner = .firing id)
    (hk : k < 64) (hp : f.place = some k) (hnew : ∀ j q, b.fades j = some q → q.owner = .firing id → q.place ≠ some k) :
    ((b.put i (some f)).entry id fun e => { e with pending := e.pending + 1 }).CueHolds F (some id) none := by
  have hcount := owned_put b i (some f) id
  rw [hi, show ownedBit id (some f) = 1 from if_pos (ownedBy_iff.mpr ⟨f, rfl, ho⟩), show ownedBit id none = 0 from rfl] at hcount
  have h' : ((b.put i (some f)).entry id fun e => { e with pending := e.pending + 1 }).CueHolds F (some id) (some id) := by
    refine h.counted (fun _ => ⟨rfl, rfl⟩) (fun e he hid => ?_) (fun id' hne => ?_) fun g hg => ?_
    · have := h.pending e he
      rw [hid] at this
      dsimp only
      omega
    · rw [hi]
      unfold ownedBy
      rw [Option.map_some, ho]
      simpa using fun h => hne h.symm
    · cases hg
      exact ⟨ho, h.works id rfl, ⟨k, hk, hp⟩, by rw [hp]; exact hnew⟩
  refine h'.judged fun e he hpl hid => ?_
  have := (h'.placing e he).mpr hid
  rw [hpl] at this
  nomatch this

/-! ## A cue completes -/

/-- The books with the entry of `id` removed. -/
def Books.complete (b : Books) (id : FiringId) : Books := { b with running := b.running.filter fun e => e.id ≠ id }

theorem mem_complete {e : RunEntry} : e ∈ (b.complete id).running ↔ e ∈ b.running ∧ e.id ≠ id := by
  unfold Books.complete
  dsimp only
  rw [List.mem_filter]
  simp

/-- A cue that owns no record completes. -/
theorem Books.CueHolds.complete (h : b.CueHolds F P x) (hP : P ≠ some id)
    (hnone : ∀ i f, b.fades i = some f → f.owner ≠ .firing id) : (b.complete id).CueHolds F P x where
  few := (List.length_filter_le ..).trans h.few
  nodup := h.nodup.sublist (List.filter_sublist.map _)
  placing e he := h.placing e (mem_complete.mp he).1
  works id' hP' := by
    obtain ⟨e, he, hid⟩ := h.works id' hP'
    exact ⟨e, mem_complete.mpr ⟨he, fun h => hP (by rw [hP', ← hid, h])⟩, hid⟩
  pending e he := h.pending e (mem_complete.mp he).1
  waits e he := h.waits e (mem_complete.mp he).1
  runs i f id' hf ho := by
    obtain ⟨e, he, hid⟩ := h.runs i f id' hf ho
    exact ⟨e, mem_complete.mpr ⟨he, fun h => hnone i f hf (by rw [ho, ← hid, h])⟩, hid⟩
  placed := h.placed
  once := h.once
  fresh hF id' hn e he := h.fresh hF id' hn e (mem_complete.mp he).1

/-- Whether the cue of `id` completes is judged (R87). -/
def Books.judge (b : Books) (id : FiringId) : Books :=
  match b.running.find? fun e => e.id = id with
  | none => b
  | some e => if e.pending = 0 ∧ e.placing = false then b.complete e.id else b

theorem judge_eq (b : Books) (id : FiringId) : b.judge id = { b with running := (b.judge id).running } := by
  unfold Books.judge
  split
  · rfl
  · split <;> rfl

theorem entry_unique (h : (b.running.map (·.id)).Nodup) {e e' : RunEntry} (he : e ∈ b.running) (he' : e' ∈ b.running)
    (hid : e.id = e'.id) : e = e' := List.inj_on_of_nodup_map h he he' hid

theorem Books.CueHolds.judge (h : b.CueHolds F P (some id)) : (b.judge id).CueHolds F P none := by
  unfold Books.judge
  split
  · next hnone =>
    have hgone : ∀ e ∈ b.running, e.id ≠ id := fun e he => by simpa using List.find?_eq_none.mp hnone e he
    exact h.judged fun e he _ hid => absurd (Option.some.inj hid).symm (hgone e he)
  · next e he =>
    have hmem := List.mem_of_find?_eq_some he
    have hid : e.id = id := by simpa using List.find?_some he
    split
    · next hdone =>
      have hnone : ∀ i f, b.fades i = some f → f.owner ≠ .firing e.id := fun i f hf ho => by
        have := owned_pos hf ho
        have := h.pending e hmem
        omega
      have hP : P ≠ some e.id := fun hP => by
        have := (h.placing e hmem).mpr hP
        rw [hdone.2] at this
        nomatch this
      exact (h.complete hP hnone).judged fun e' he' _ hx =>
        absurd ((Option.some.inj hx).symm.trans hid.symm) (mem_complete.mp he').2
    · next hnot =>
      refine h.judged fun e' he' hpl hx => ?_
      obtain rfl := entry_unique h.nodup he' hmem ((Option.some.inj hx).symm.trans hid.symm)
      exact Nat.pos_of_ne_zero fun h0 => hnot ⟨h0, hpl⟩

/-! ## A firing -/

/-- A cue joins the tail of the running list. -/
theorem Books.CueHolds.joins {e : RunEntry} (h : b.CueHolds F none none) (hlen : b.running.length < 8)
    (hnew : ∀ e' ∈ b.running, e'.id ≠ e.id) (hp : e.pending = 0) (hpl : e.placing = true) :
    Books.CueHolds False (some e.id) none { b with running := b.running ++ [e] } where
  few := by
    rw [List.length_append]
    exact hlen
  nodup := by
    rw [List.map_append, List.nodup_append]
    refine ⟨h.nodup, List.nodup_singleton _, fun id hid id' hid' => ?_⟩
    obtain ⟨e', he', rfl⟩ := List.mem_map.mp hid
    cases List.mem_singleton.mp hid'
    exact hnew e' he'
  placing e' he' := by
    obtain he' | he' := List.mem_append.mp he'
    · have hno := h.placing e' he'
      exact ⟨fun hp => (nomatch (hno.mp hp : none = some e'.id)), fun hid => absurd (Option.some.inj hid).symm (hnew e' he')⟩
    · cases List.mem_singleton.mp he'
      exact ⟨fun _ => rfl, fun _ => hpl⟩
  works id hid := ⟨e, List.mem_append_right _ (List.mem_singleton_self e), Option.some.inj hid⟩
  pending e' he' := by
    obtain he' | he' := List.mem_append.mp he'
    · exact h.pending e' he'
    · cases List.mem_singleton.mp he'
      refine hp.trans (owned_zero fun i f hf ho => ?_).symm
      obtain ⟨e', he', hid⟩ := h.runs i f e.id hf ho
      exact hnew e' he' hid
  waits e' he' hpl' _ := by
    obtain he' | he' := List.mem_append.mp he'
    · exact h.waits e' he' hpl' nofun
    · cases List.mem_singleton.mp he'
      rw [hpl] at hpl'
      nomatch hpl'
  runs i f id hf ho := by
    obtain ⟨e', he', hid⟩ := h.runs i f id hf ho
    exact ⟨e', List.mem_append_left _ he', hid⟩
  placed := h.placed
  once := h.once
  fresh := nofun

/-- The firing is at its end. -/
theorem Books.CueHolds.ends (h : b.CueHolds F (some id) none) :
    (b.entry id fun e => { e with placing := false }).CueHolds F none (some id) := by
  have hids := entry_ids (b := b) (id := id) (f := fun e => { e with placing := false }) fun _ => rfl
  refine ⟨?_, by rw [hids]; exact h.nodup, fun e he => ?_, nofun, fun e he => ?_, fun e he hpl hx => ?_,
    fun i f id hf' ho => (exists_id_iff hids id).mpr (h.runs i f id hf' ho), h.placed, h.once, fun hF id' hn e he => ?_⟩
  · unfold Books.entry
    rw [List.length_map]
    exact h.few
  · obtain ⟨e0, _, _, rfl⟩ | ⟨he, hne⟩ := entry_cases he
    · exact ⟨nofun, nofun⟩
    · exact ⟨fun hp => absurd (Option.some.inj ((h.placing e he).mp hp)).symm hne, nofun⟩
  · obtain ⟨e0, h0, _, rfl⟩ | ⟨he, _⟩ := entry_cases he
    · exact h.pending e0 h0
    · exact h.pending e he
  · obtain ⟨e0, _, hid, rfl⟩ | ⟨he, _⟩ := entry_cases he
    · exact absurd (congrArg some hid.symm) hx
    · exact h.waits e he hpl nofun
  · obtain ⟨e0, h0, _, rfl⟩ | ⟨he, _⟩ := entry_cases he
    · exact h.fresh hF id' hn e0 h0
    · exact h.fresh hF id' hn e he

end Sys2Proof.Proofs.Kept
end

section
/-! PROOF. Every operation that `Closed` speaks of keeps the manual's own invariants (R87, R103, R152 to R154). -/

namespace Sys2Proof.Proofs.Kept

open Sys2Proof.Machine
open Sys2Proof.Proofs.Ends

variable {F : Prop} {s t u v : State} {P x : Option FiringId} {i : RecId} {r : FadeRec} {id : FiringId}

/-! ## The books of the elementary operations -/

theorem books_setFade (i : RecId) (o : Option FadeRec) (s : State) :
    books (setFade i o s) = (books s).put i (o.map shape) := by
  have : (fun j : RecId => (setFade i o s).fades[j].map shape)
      = Function.update (fun j : RecId => s.fades[j].map shape) i (o.map shape) := by
    funext j
    by_cases hj : j = i
    · subst hj
      rw [Function.update_self, show (setFade j o s).fades = s.fades.set j o from rfl, Fin.getElem_fin,
        Vector.getElem_set_self]
    · have hne : (i : Nat) ≠ j := fun h => hj (Fin.ext h.symm)
      rw [Function.update_of_ne hj, show (setFade i o s).fades = s.fades.set i o from rfl, Fin.getElem_fin,
        Vector.getElem_set_ne _ _ hne]
      rfl
  unfold books Books.put
  dsimp only
  rw [this]
  rfl

@[simp] theorem books_mark (a : Area) (s : State) : books (mark a s) = books s := rfl

@[simp] theorem books_setElem (e : Elem) (y : Level) (s : State) : books (setElem e y s) = books s :=
  books_of_core (core_setElem e y s)

theorem books_updEntry (id : FiringId) (f : RunEntry → RunEntry) (s : State) :
    books (updEntry id f s) = (books s).entry id f := rfl

theorem books_completeIfDone (id : FiringId) (s : State) : books (completeIfDone id s) = (books s).judge id := by
  unfold completeIfDone Books.judge entryOf
  change books (match s.seq.running.find? fun e => e.id = id with
    | none => s
    | some e => if e.pending = 0 ∧ e.placing = false then completeCue e s else s) =
    match s.seq.running.find? fun e => e.id = id with
    | none => books s
    | some e => if e.pending = 0 ∧ e.placing = false then (books s).complete e.id else books s
  generalize s.seq.running.find? (fun e => e.id = id) = o
  cases o with
  | none => rfl
  | some e =>
    dsimp only
    split <;> rfl

theorem books_cueTold (id : FiringId) (s : State) :
    books (cueTold id s) = ((books s).entry id fun e => { e with pending := e.pending - 1 }).judge id :=
  books_completeIfDone id _

theorem books_cueFailed (id : FiringId) (s : State) :
    books (cueFailed id s) = (books s).entry id fun e => { e with failed := e.failed + 1 } := rfl

theorem books_setTap (r : RoleId) (k : TapId) (y : TapState) (s : State) :
    books (setTap r k y s) = (books s).setTap r k y := by
  have hrole (q : RoleId) : (setTap r k y s).roles[q] = if q = r then { s.roles[r] with taps := s.roles[r].taps.set k y }
      else s.roles[q] := by
    rw [show (setTap r k y s).roles = upd s.roles r fun o => { o with taps := o.taps.set k y } from rfl]
    by_cases h : q = r
    · subst h
      rw [if_pos rfl, upd_get_self]
    · rw [if_neg h, upd_get_ne _ _ _ _ fun he => h he.symm]
  have hchan : (books (setTap r k y s)).chan = (books s).chan := by
    funext q l
    unfold books
    dsimp only
    rw [hrole q]
    by_cases h : q = r
    · subst h
      rw [if_pos rfl]
    · rw [if_neg h]
  have htap : (books (setTap r k y s)).tap = ((books s).setTap r k y).tap := by
    funext q l
    unfold books Books.setTap
    dsimp only
    rw [hrole q]
    by_cases hq : q = r
    · subst hq
      rw [if_pos rfl]
      dsimp only
      by_cases hl : l = k
      · subst hl
        rw [if_pos ⟨rfl, rfl⟩, Fin.getElem_fin, Vector.getElem_set_self]
      · have hne : (k : Nat) ≠ l := fun h => hl (Fin.ext h.symm)
        rw [if_neg (fun h => hl h.2), Fin.getElem_fin, Vector.getElem_set_ne _ _ hne]
        rfl
    · rw [if_neg hq, if_neg fun h => hq h.1]
  have heta : books (setTap r k y s)
      = { books s with chan := (books (setTap r k y s)).chan, tap := (books (setTap r k y s)).tap } := rfl
  rw [heta, hchan, htap]
  rfl

theorem books_castEnd (r : RoleId) (k : TapId) (y : Level) (s : State) :
    books (castEnd r k y s) = (books s).setTap r k (if y = .off then .idle else .active) := by
  unfold castEnd
  split
  · rw [books_setTap, books_setElem]
  · rw [books_setTap, books_setElem]

/-! ## A record leaves the table -/

/-- Nothing but what follows of it is in the books of a record that leaves. -/
theorem books_leaveTable {how : Leave} (hr : s.fades[i] = some r) :
    books (leaveTable i how s) = books (ownerTold r how (setFade i none s)) := by
  have hmark (t t' : State) (h : books t = books t') (hs : t.seq = t'.seq) (hro : t.roles = t'.roles) :
      books (ownerTold r how t) = books (ownerTold r how t') := by
    unfold ownerTold
    split
    · exact h
    · rw [books_cueTold, books_cueTold, h]
    · split
      · rw [books_castEnd, books_castEnd, h]
      · exact h
  unfold leaveTable
  rw [hr]
  dsimp only
  rw [books_of_core (core_stopTold ..)]
  split
  · exact hmark _ _ rfl rfl rfl
  · rfl

/-- No FADING record moves the element, as the books have it. -/
theorem notFading_iff {e : Elem} : s.NotFading e ↔ ∀ j f, (books s).fades j = some f → f.fading = true → f.elem? ≠ some e := by
  rw [fadingOf_none_iff]
  refine ⟨fun h j f hf hff he => ?_, fun h j => ?_⟩
  · obtain ⟨q, hq, rfl⟩ := of_fades hf
    have hmoves := h j
    unfold movesAt at hmoves
    rw [hq] at hmoves
    have hqe : q.elem? = some e := he
    have hqf : q.fading = true := hff
    dsimp only at hmoves
    rw [hqf, hqe] at hmoves
    simp at hmoves
  · unfold movesAt
    split
    · next q hq =>
      have hno : q.fading = true → q.elem? ≠ some e := h j (shape q) (fades_some hq)
      cases hqf : q.fading with
      | false => rfl
      | true => simpa using hno hqf
    · rfl

theorem lawful_castEnd {k : RoleId × TapId} {y : Level} (h : Lawful F P s) (hy : y ≠ .off → s.roles[k.1].taps[k.2] ≠ .idle)
    (hnf : s.NotFading (.tap k.1 k.2)) : Lawful F P (castEnd k.1 k.2 y s) := by
  unfold Lawful
  rw [books_castEnd]
  refine ⟨h.cast.tapEnds (fun hx => ?_) fun j f hf ho he => ?_, h.fade,
    h.cue.same rfl rfl rfl, h.page.same rfl rfl, h.slate.same rfl rfl, h.calm⟩
  · refine hy fun hoff => hx ?_
    rw [if_pos hoff]
  · exact notFading_iff.mp hnf j f hf (h.cast.fading j f hf ho) he

/-- A record that no firing owns leaves the table. -/
theorem lawful_drop (h : Lawful F P s) (hr : s.fades[i] = some r) (ho : ∀ id, r.owner ≠ .firing id) :
    Lawful F P (setFade i none s) := by
  unfold Lawful
  rw [books_setFade]
  refine ⟨h.cast.leave i, h.fade.leave i, h.cue.put (fun id => ?_) nofun, h.page.same rfl rfl, h.slate.same rfl rfl, h.calm⟩
  rw [fades_some hr]
  exact (Bool.eq_false_iff.mpr fun hown => by
    obtain ⟨f, hf, hfo⟩ := ownedBy_iff.mp hown
    cases hf
    exact ho id hfo).symm

/-- The last record that moves an element is gone. -/
theorem notFading_drop {e : Elem} (h : (books s).FadeHolds) (hr : s.fades[i] = some r) (hf : r.fading = true)
    (he : r.elem? = some e) : (setFade i none s).NotFading e := by
  refine notFading_iff.mpr fun j f hj hff hfe => ?_
  rw [books_setFade] at hj
  obtain ⟨_, hn⟩ | ⟨hne, hj⟩ := put_cases hj
  · nomatch hn
  · exact hne (h j i f (shape r) e hj (fades_some hr) hff hf hfe he)

theorem lawful_leaveTable (h : Lawful F P s) (i : RecId) (how : Leave) : Lawful F P (leaveTable i how s) := by
  cases hr : s.fades[i] with
  | none =>
    unfold leaveTable
    rw [hr]
    exact h
  | some r =>
    refine Lawful.same (s := ownerTold r how (setFade i none s)) ?_ (books_leaveTable hr)
    unfold ownerTold
    split
    · next ho => exact lawful_drop h hr fun id => by rw [ho]; exact nofun
    · next id ho =>
      unfold Lawful
      rw [books_cueTold, books_setFade]
      have hcue := (h.cue.told (fades_some hr) ho).judge
      rw [judge_eq] at hcue ⊢
      exact ⟨(h.cast.leave i).same rfl rfl rfl, (h.fade.leave i).same rfl, hcue, h.page.same rfl rfl,
        h.slate.same rfl rfl, h.calm⟩
    · next ho =>
      have hdrop := lawful_drop h hr fun id => by rw [ho]; exact nofun
      split
      · next q k target curve hc =>
        have hfade : r.fading = true := h.cast.fading i _ (fades_some hr) ho
        exact lawful_castEnd (k := (q, k)) hdrop (h.cast.awake i _ q k target curve (fades_some hr) ho hc)
          (notFading_drop h.fade hr hfade (by unfold FadeRec.elem?; rw [hc]))
      · exact hdrop

theorem lawful_entry {f : RunEntry → RunEntry} (h : Lawful F P s)
    (hf : ∀ e, (f e).id = e.id ∧ (f e).pending = e.pending ∧ (f e).placing = e.placing) : Lawful F P (updEntry id f s) := by
  unfold Lawful
  rw [books_updEntry]
  exact ⟨h.cast.same rfl rfl rfl, h.fade.same rfl, h.cue.entry hf, h.page.same rfl rfl, h.slate.same rfl rfl, h.calm⟩

end Sys2Proof.Proofs.Kept
end

section
/-! PROOF. Pages open, lose zones and close: a zone carries a page exactly while the page holds it (R151 to R154). -/

namespace Sys2Proof.Proofs.Kept

open Sys2Proof.Machine
open Sys2Proof.Proofs.Ends

variable {F : Prop} {s t u v : State} {P x : Option FiringId} {b : Books} {p q : PageId} {z : ZoneId} {zs : BitVec 24}

/-! ## Zones and pages in the books -/

/-- The books with what a zone carries as given. -/
def Books.carry (b : Books) (z : ZoneId) (o : Option PageId) : Books := { b with carried := Function.update b.carried z o }

/-- The books with the zones of a page as given. -/
def Books.page (b : Books) (p : PageId) (o : Option (BitVec 24)) : Books := { b with pages := Function.update b.pages p o }

@[simp] theorem Books.page_self (b : Books) (p : PageId) (o : Option (BitVec 24)) : (b.page p o).pages p = o :=
  Function.update_self ..

theorem Books.page_ne (b : Books) (h : q ≠ p) (o : Option (BitVec 24)) : (b.page p o).pages q = b.pages q :=
  Function.update_of_ne h ..

@[simp] theorem Books.page_carried (b : Books) (p : PageId) (o : Option (BitVec 24)) : (b.page p o).carried = b.carried := rfl

@[simp] theorem Books.carry_self (b : Books) (z : ZoneId) (o : Option PageId) : (b.carry z o).carried z = o :=
  Function.update_self ..

theorem Books.carry_ne (b : Books) {y : ZoneId} (h : y ≠ z) (o : Option PageId) : (b.carry z o).carried y = b.carried y :=
  Function.update_of_ne h ..

theorem books_updZone {z : ZoneId} {f : Zone → Zone} {o : Option PageId} (h : (f s.zones[z]).page = o) :
    books (updZone z f s) = (books s).carry z o := by
  have : (fun y : ZoneId => (updZone z f s).zones[y].page) = Function.update (fun y : ZoneId => s.zones[y].page) z o := by
    funext y
    rw [show (updZone z f s).zones = upd s.zones z f from rfl]
    by_cases hy : y = z
    · subst hy
      rw [Function.update_self, upd_get_self, h]
    · rw [Function.update_of_ne hy, upd_get_ne _ _ _ _ fun he => hy he.symm]
  unfold books Books.carry
  dsimp only
  rw [this]
  rfl

theorem books_beginCarry (z : ZoneId) (p : PageId) (prio : Fin 4) (s : State) :
    books (beginCarry z p prio s) = (books s).carry z (some p) := by
  unfold beginCarry
  dsimp only
  rw [books_mark, books_of_core (core_rejudge ..), books_of_core (core_commandDuck ..)]
  exact books_updZone rfl

theorem books_endCarry (z : ZoneId) (s : State) : books (endCarry z s) = (books s).carry z none := by
  unfold endCarry
  dsimp only
  rw [books_mark, books_of_core (core_rejudge ..), books_of_core (core_commandDuck ..)]
  exact books_updZone rfl

theorem books_setPage (p : PageId) (o : Option Page) (s : State) :
    books (setPage p o s) = (books s).page p (o.map (·.zones)) := by
  have : (fun q : PageId => (setPage p o s).pages[q].map (·.zones))
      = Function.update (fun q : PageId => s.pages[q].map (·.zones)) p (o.map (·.zones)) := by
    funext q
    rw [show (setPage p o s).pages = s.pages.set p o from rfl]
    by_cases hq : q = p
    · subst hq
      rw [Function.update_self, Fin.getElem_fin, Vector.getElem_set_self]
    · have hne : (p : Nat) ≠ q := fun h => hq (Fin.ext h.symm)
      rw [Function.update_of_ne hq, Fin.getElem_fin, Vector.getElem_set_ne _ _ hne]
      rfl
  unfold books Books.page
  dsimp only
  rw [this]
  rfl

@[simp] theorem core_tellOpener (o : Opener) (reason : CloseReason) (s : State) : core (tellOpener o reason s) = core s := by
  unfold tellOpener
  cases o with
  | request => rfl
  | call c =>
    dsimp only
    split
    · exact core_updCall ..
    · exact (core_tell rfl _).trans (core_updCall ..)

/-- Zones that stop to carry their page. -/
def Books.released (b : Books) (zs : BitVec 24) : Books :=
  { b with carried := fun z => if zs.getLsbD z = true then none else b.carried z }

theorem books_endCarries (l : List ZoneId) (s : State) :
    books (l.foldl (fun s z => endCarry z s) s) = { books s with carried := fun z => if z ∈ l then none else (books s).carried z } := by
  induction l generalizing s with
  | nil => rfl
  | cons y l ih =>
    rw [List.foldl_cons, ih, books_endCarry]
    unfold Books.carry
    dsimp only
    congr 1
    funext z
    by_cases hz : z = y
    · subst hz
      simp
    · simp [hz]

theorem books_closePage {pg : Page} {reason : CloseReason} (hp : s.pages[p] = some pg) :
    books (closePage p reason s) = ((books s).page p none).released pg.zones := by
  unfold closePage
  rw [hp]
  dsimp only
  rw [books_mark, books_of_core (core_tellOpener ..)]
  refine (books_endCarries (zonesOf pg.zones) (setPage p none s)).trans ?_
  rw [books_setPage]
  have : (fun z : ZoneId => if z ∈ zonesOf pg.zones then none else ((books s).page p none).carried z)
      = fun z : ZoneId => if pg.zones.getLsbD z = true then none else ((books s).page p none).carried z := by
    funext z
    simp only [mem_zonesOf]
  unfold Books.released
  rw [← this]
  rfl

/-! ## What a zone carries, its page holds -/

/-- The half of R151 that speaks of zones. -/
def Books.Fits (b : Books) : Prop :=
  ∀ z p, b.carried z = some p ↔ ∃ zs, b.pages p = some zs ∧ zs.getLsbD z = true

theorem fits_page {o : Option (BitVec 24)} : (b.page p o).Fits ↔ (∀ z, b.carried z = some p ↔ ∃ zs, o = some zs ∧ zs.getLsbD z = true)
    ∧ ∀ z q, q ≠ p → (b.carried z = some q ↔ ∃ zs, b.pages q = some zs ∧ zs.getLsbD z = true) := by
  refine ⟨fun h => ⟨fun z => ?_, fun z q hq => ?_⟩, fun ⟨h1, h2⟩ z q => ?_⟩
  · have := h z p
    rwa [b.page_self] at this
  · have := h z q
    rwa [b.page_ne hq] at this
  · by_cases hq : q = p
    · subst hq
      rw [b.page_self]
      exact h1 z
    · rw [b.page_ne hq]
      exact h2 z q hq

/-- The page with this zone taken off. -/
def lessZone (zs : BitVec 24) (z : ZoneId) : BitVec 24 := zs &&& ~~~(zoneBit z)

theorem lessZone_bit (y : ZoneId) : (lessZone zs z).getLsbD y = (zs.getLsbD y && !decide (z = y)) := by
  unfold lessZone
  rw [BitVec.getLsbD_and, BitVec.getLsbD_not, zoneBit_getLsbD]
  simp

/-- A zone leaves its page. -/
theorem Books.Fits.leaves (h : b.Fits) (hp : b.pages p = some zs) (hz : b.carried z = some p) :
    ((b.carry z none).page p (some (lessZone zs z))).Fits := by
  have hcar (y : ZoneId) (q : PageId) : (b.carry z none).carried y = some q ↔ y ≠ z ∧ b.carried y = some q := by
    by_cases hy : y = z
    · subst hy
      rw [b.carry_self]
      exact ⟨nofun, fun h => absurd rfl h.1⟩
    · rw [b.carry_ne hy]
      exact ⟨fun h => ⟨hy, h⟩, fun h => h.2⟩
  refine fits_page.mpr ⟨fun y => ?_, fun y q hq => ?_⟩
  · rw [hcar, h y p, hp]
    simp only [Option.some.injEq, exists_eq_left', lessZone_bit]
    by_cases hy : y = z
    · simp [hy]
    · simp [hy, Ne.symm hy]
  · rw [hcar]
    refine ⟨fun hy => (h y q).mp hy.2, fun hy => ⟨fun heq => ?_, (h y q).mpr hy⟩⟩
    have := (h y q).mpr hy
    rw [heq] at this
    exact hq (Option.some.inj (this.symm.trans hz))

/-- A zone that carries no page joins one. -/
theorem Books.Fits.joins (h : b.Fits) (hp : b.pages p = some zs) (hz : b.carried z = none) :
    ((b.carry z (some p)).page p (some (zs ||| zoneBit z))).Fits := by
  have hne (y : ZoneId) (q : PageId) (h : b.carried y = some q) : y ≠ z := fun heq => by
    rw [heq, hz] at h
    nomatch h
  have hcar (y : ZoneId) (q : PageId) : (b.carry z (some p)).carried y = some q ↔ (y = z ∧ p = q) ∨ b.carried y = some q := by
    by_cases hy : y = z
    · subst hy
      rw [b.carry_self, hz]
      simp
    · rw [b.carry_ne hy]
      simp [hy]
  refine fits_page.mpr ⟨fun y => ?_, fun y q hq => ?_⟩
  · rw [hcar, h y p, hp]
    simp only [Option.some.injEq, exists_eq_left', BitVec.getLsbD_or, zoneBit_getLsbD]
    by_cases hy : y = z
    · simp [hy]
    · simp [hy, Ne.symm hy]
  · rw [hcar]
    refine Iff.trans ?_ (h y q)
    exact ⟨fun hy => hy.resolve_left fun heq => hq heq.2.symm, .inr⟩

/-- An entry that holds no zone is as good as none. -/
theorem fits_zero : (b.page p (some 0#24)).Fits ↔ (b.page p none).Fits := by
  rw [fits_page, fits_page]
  simp

/-! ## Pages close -/

theorem Books.page_page (b : Books) (p : PageId) (o o' : Option (BitVec 24)) : (b.page p o).page p o' = b.page p o' := by
  unfold Books.page
  rw [Function.update_idem]

theorem Books.page_comm (b : Books) (h : p ≠ q) (o o' : Option (BitVec 24)) :
    (b.page p o).page q o' = (b.page q o').page p o := by
  unfold Books.page
  rw [Function.update_comm h]

theorem Books.page_of_eq {o : Option (BitVec 24)} (h : b.pages p = o) : b.page p o = b := by
  unfold Books.page
  rw [← h, Function.update_eq_self]

theorem Books.carry_carry (b : Books) (z : ZoneId) (o o' : Option PageId) : (b.carry z o).carry z o' = b.carry z o' := by
  unfold Books.carry
  rw [Function.update_idem]

theorem pages_page {o : Option (BitVec 24)} (h : (b.page p o).pages q = some zs) : (q = p ∧ o = some zs) ∨ (q ≠ p ∧ b.pages q = some zs) := by
  by_cases hq : q = p
  · subst hq
    rw [b.page_self] at h
    exact .inl ⟨rfl, h⟩
  · rw [b.page_ne hq] at h
    exact .inr ⟨hq, h⟩

theorem pageHolds_iff_fits : b.PageHolds ↔ b.Fits ∧ ∀ p zs, b.pages p = some zs → zs ≠ 0#24 :=
  ⟨fun h => ⟨h.carried, h.held⟩, fun ⟨h, h'⟩ => ⟨h, h'⟩⟩

theorem Books.PageHolds.close (h : b.PageHolds) (hp : b.pages p = some zs) : ((b.page p none).released zs).PageHolds := by
  refine ⟨fun z q => ?_, fun q zs' hq => ?_⟩
  · have hcar := h.carried z
    have hz := hcar p
    rw [hp] at hz
    simp only [Option.some.injEq, exists_eq_left'] at hz
    unfold Books.released
    dsimp only
    rw [b.page_carried]
    by_cases hq : q = p
    · subst hq
      rw [b.page_self]
      split
      · exact ⟨nofun, fun ⟨_, h, _⟩ => nomatch h⟩
      · next hbit => exact ⟨fun h => absurd (hz.mp h) hbit, fun ⟨_, h, _⟩ => nomatch h⟩
    · rw [b.page_ne hq, ← hcar q]
      split
      · next hbit =>
        rw [hz.mpr hbit]
        exact ⟨nofun, fun h => absurd (Option.some.inj h).symm hq⟩
      · rfl
  · obtain ⟨_, hn⟩ | ⟨_, hq⟩ := pages_page (b := b) (o := none) hq
    · nomatch hn
    · exact h.held q zs' hq

theorem lawful_closePage (h : Lawful F P s) (p : PageId) (reason : CloseReason) : Lawful F P (closePage p reason s) := by
  cases hp : s.pages[p] with
  | none =>
    unfold closePage
    rw [hp]
    exact h
  | some pg =>
    have hzs : (books s).pages p = some pg.zones := by
      unfold books
      dsimp only
      rw [hp]
      rfl
    unfold Lawful
    rw [books_closePage hp]
    exact ⟨h.cast.same rfl rfl rfl, h.fade.same rfl, h.cue.same rfl rfl rfl, h.page.close hzs, h.slate.same rfl rfl, h.calm⟩

/-! ## A page loses a zone -/

/-- What is left of a page: an entry with no zone is free. -/
def leftOf (zs : BitVec 24) : Option (BitVec 24) := if zs = 0#24 then none else some zs

theorem fits_leftOf : (b.page p (leftOf zs)).Fits ↔ (b.page p (some zs)).Fits := by
  unfold leftOf
  split
  · next h => rw [h, fits_zero]
  · rfl

theorem leftOf_ne_zero {zs zs' : BitVec 24} (h : leftOf zs = some zs') : zs' ≠ 0#24 := by
  unfold leftOf at h
  split at h
  · nomatch h
  · next hne => exact Option.some.inj h ▸ hne

theorem released_zero (b : Books) : b.released 0#24 = b := by
  unfold Books.released
  simp

theorem books_loseZone {pg : Page} {reason : CloseReason} (hp : s.pages[p] = some pg) :
    books (loseZone p z reason s) = (books s).page p (leftOf (lessZone pg.zones z)) := by
  have hset : books (mark .pages (setPage p (some { pg with zones := lessZone pg.zones z }) s))
      = (books s).page p (some (lessZone pg.zones z)) := by
    rw [books_mark, books_setPage]
    rfl
  unfold loseZone
  rw [hp]
  dsimp only
  change books (if lessZone pg.zones z = 0#24 then _ else _) = _
  by_cases hleft : lessZone pg.zones z = 0#24
  · rw [if_pos hleft, leftOf, if_pos hleft]
    refine (books_closePage (pg := { pg with zones := lessZone pg.zones z }) ?_).trans ?_
    · change (s.pages.set p _)[p] = _
      rw [Fin.getElem_fin, Vector.getElem_set_self]
      rfl
    · dsimp only
      rw [hleft, released_zero]
      refine (congrArg (fun b => Books.page b p none) hset).trans ?_
      rw [Books.page_page]
  · rw [if_neg hleft, leftOf, if_neg hleft, books_of_core (core_judgePage ..)]
    exact hset

/-! ## A page opens -/

/-- The books while a page is being offered: its entry is still free, but the zones `won` carry it. -/
structure Books.Offering (b : Books) (p : PageId) (won : BitVec 24) : Prop where
  fresh : b.pages p = none
  fits : (b.page p (some won)).Fits
  held : ∀ q zs, b.pages q = some zs → zs ≠ 0#24

theorem Books.PageHolds.offering (h : b.PageHolds) (hp : b.pages p = none) : b.Offering p 0#24 :=
  ⟨hp, fits_zero.mpr (by rw [Books.page_of_eq hp]; exact h.carried), h.held⟩

theorem Books.Offering.declined (h : b.Offering p 0#24) : b.PageHolds :=
  pageHolds_iff_fits.mpr ⟨by rw [← Books.page_of_eq h.fresh]; exact fits_zero.mp h.fits, h.held⟩

theorem Books.Offering.opened {won : BitVec 24} (h : b.Offering p won) (hne : won ≠ 0#24) : (b.page p (some won)).PageHolds := by
  refine pageHolds_iff_fits.mpr ⟨h.fits, fun q zs hq => ?_⟩
  obtain ⟨_, hw⟩ | ⟨_, hq⟩ := pages_page hq
  · exact Option.some.inj hw ▸ hne
  · exact h.held q zs hq

theorem Books.Offering.wins {won : BitVec 24} (h : b.Offering p won) (hz : b.carried z = none) :
    (b.carry z (some p)).Offering p (won ||| zoneBit z) := by
  have hfits := Books.Fits.joins (p := p) (zs := won) h.fits (Function.update_self ..) hz
  refine ⟨h.fresh, ?_, h.held⟩
  rw [show ((b.page p (some won)).carry z (some p)) = ((b.carry z (some p)).page p (some won)) from rfl,
    Books.page_page] at hfits
  exact hfits

theorem Books.Offering.preempts {won : BitVec 24} (h : b.Offering p won) (hq : q ≠ p) (hz : b.carried z = some q)
    (hzs : b.pages q = some zs) :
    ((b.page q (leftOf (lessZone zs z))).carry z (some p)).Offering p (won ||| zoneBit z) := by
  have hleave := Books.Fits.leaves (p := q) (zs := zs) (z := z) h.fits ((Function.update_of_ne hq ..).trans hzs) hz
  rw [show (((b.page p (some won)).carry z none).page q (some (lessZone zs z)))
    = (((b.carry z none).page p (some won)).page q (some (lessZone zs z))) from rfl,
    ← fits_leftOf, Books.page_comm _ hq.symm] at hleave
  have hopen : ((b.page q (leftOf (lessZone zs z))).carry z none).Offering p won := by
    refine ⟨(Function.update_of_ne hq.symm ..).trans h.fresh, hleave, fun q' zs' hq' => ?_⟩
    obtain ⟨_, hl⟩ | ⟨_, hq'⟩ := pages_page (b := b) hq'
    · exact leftOf_ne_zero hl
    · exact h.held q' zs' hq'
  have hwins := hopen.wins (z := z) (Function.update_self ..)
  rwa [Books.carry_carry] at hwins

theorem offerZone_offering {prio : Fin 4} (x : State × Claim) (h : (books x.1).Offering p x.2.won) :
    (books (offerZone p prio z x).1).Offering p (offerZone p prio z x).2.won := by
  unfold offerZone
  dsimp only
  split
  · exact h
  · split
    · next hz =>
      dsimp only
      rw [books_beginCarry]
      exact h.wins hz
    · next q hz =>
      split
      · next other hprio =>
        split
        · next hlt =>
          have hpage : ∃ pg, x.1.pages[q] = some pg := by
            unfold carriedPriority at hprio
            rw [hz] at hprio
            obtain ⟨pg, hpg, _⟩ := Option.map_eq_some_iff.mp hprio
            exact ⟨pg, hpg⟩
          obtain ⟨pg, hpg⟩ := hpage
          have hzs : (books x.1).pages q = some pg.zones := by
            unfold books
            dsimp only
            rw [hpg]
            rfl
          have hq : q ≠ p := fun heq => by
            rw [heq, h.fresh] at hzs
            nomatch hzs
          dsimp only
          rw [books_beginCarry, books_loseZone hpg]
          exact h.preempts hq hz hzs
        · exact h
      · exact h

/-- All but the pages is as it was. -/
theorem Lawful.of_office (h : Lawful F P s) (ho : office t = office s) (hp : (books t).PageHolds) : Lawful F P t := by
  have hf := congrArg (fun c : Core => c.books.fades) ho
  have hr := congrArg (fun c : Core => c.books.running) ho
  have hn := congrArg (fun c : Core => c.books.next) ho
  have hc := congrArg (fun c : Core => c.books.chan) ho
  have ht := congrArg (fun c : Core => c.books.tap) ho
  have ha := congrArg (fun c : Core => c.books.arrival) ho
  have hv := congrArg (fun c : Core => c.books.view) ho
  have hl := congrArg (fun c : Core => c.books.lost) ho
  exact ⟨h.cast.same hf hc ht, h.fade.same hf, h.cue.same hf hr hn, hp, h.slate.same ha hv, hl.trans h.calm⟩

theorem lawful_openPage (h : Lawful F P s) (g : Fin 8) (o : Opener) (src : PageSource) (prio : Fin 4) (y : Level) :
    Lawful F P (openPage g o src prio y s).1 := by
  refine h.of_office (office_openPage g o src prio y s) ?_
  have hfold (p : PageId) : ∀ (l : List ZoneId) (x : State × Claim), (books x.1).Offering p x.2.won →
      (books (l.foldl (fun x z => offerZone p prio z x) x).1).Offering p
        (l.foldl (fun x z => offerZone p prio z x) x).2.won := by
    intro l
    induction l with
    | nil => exact fun _ h => h
    | cons z l ih => exact fun x hx => ih _ (offerZone_offering x hx)
  unfold openPage
  split
  · exact h.page
  · next p hfree =>
    have hp : s.pages[p] = none := by simpa using List.find?_some hfree
    have hnone : (books s).pages p = none := by
      unfold books
      dsimp only
      rw [hp]
      rfl
    have hall := hfold p (membersOf s g) (s, Claim.start) (h.page.offering hnone)
    dsimp only
    generalize (membersOf s g).foldl (fun x z => offerZone p prio z x) (s, Claim.start) = y at hall ⊢
    split
    · next hwon =>
      rw [hwon] at hall
      exact hall.declined
    · next hwon =>
      unfold enterPage
      dsimp only
      rw [books_of_core (core_captureEvent ..), books_mark, books_setPage]
      exact hall.opened hwon

/-! ## The laws are closed -/

theorem closed_lawful (F : Prop) (P : Option FiringId) : Closed (Lawful F P) where
  same hc h := h.same (books_of_core hc)
  leave i how h := lawful_leaveTable h i how
  failed _ h := lawful_entry h fun _ => ⟨rfl, rfl, rfl⟩
  close p reason h := lawful_closePage h p reason
  opens g o src prio x h := lawful_openPage h g o src prio x
  calm h := h.calm

/-- Two properties that are closed are so together. -/
theorem Closed.and {R R' : State → Prop} (h : Closed R) (h' : Closed R') : Closed fun s => R s ∧ R' s where
  same hc hs := ⟨h.same hc hs.1, h'.same hc hs.2⟩
  leave i how hs := ⟨h.leave i how hs.1, h'.leave i how hs.2⟩
  failed id hs := ⟨h.failed id hs.1, h'.failed id hs.2⟩
  close p reason hs := ⟨h.close p reason hs.1, h'.close p reason hs.2⟩
  opens g o src prio x hs := ⟨h.opens g o src prio x hs.1, h'.opens g o src prio x hs.2⟩
  calm hs := h.calm hs.1

end Sys2Proof.Proofs.Kept
end

section
/-! PROOF. Records that begin to fade, are placed, act and end keep the manual's own invariants (R104 to R112). -/

namespace Sys2Proof.Proofs.Kept

open Sys2Proof.Machine
open Sys2Proof.Proofs.Ends

variable {F : Prop} {s t u v : State} {P x : Option FiringId} {b : Books} {i j : RecId} {r : FadeRec} {id : FiringId} {e : Elem}
  {f : Shape}

/-! ## What a leaving record leaves of the table -/

theorem fades_leaveTable (i : RecId) (how : Leave) (s : State) :
    (books (leaveTable i how s)).fades = Function.update (books s).fades i none
      ∧ (books (leaveTable i how s)).lost = (books s).lost := by
  cases hr : s.fades[i] with
  | none =>
    rw [leaveTable_of_none how hr, ← fades_none hr, Function.update_eq_self]
    exact ⟨rfl, rfl⟩
  | some r =>
    rw [books_leaveTable hr]
    unfold ownerTold
    split
    · rw [books_setFade]
      exact ⟨rfl, rfl⟩
    · rw [books_cueTold, books_setFade, judge_eq]
      exact ⟨rfl, rfl⟩
    · split
      · rw [books_castEnd, books_setFade]
        exact ⟨rfl, rfl⟩
      · rw [books_setFade]
        exact ⟨rfl, rfl⟩

/-- A property of the fade table that a removal keeps. -/
def OfFades (Q : (RecId → Option Shape) → Prop) (s : State) : Prop := Q (books s).fades ∧ (books s).lost = []

theorem closed_ofFades {Q : (RecId → Option Shape) → Prop} (hQ : ∀ f i, Q f → Q (Function.update f i none)) :
    Closed (OfFades Q) where
  same hc h := by
    unfold OfFades
    rw [books_of_core hc]
    exact h
  leave i how h := by
    unfold OfFades
    rw [(fades_leaveTable i how _).1, (fades_leaveTable i how _).2]
    exact ⟨hQ _ i h.1, h.2⟩
  failed _ h := h
  close {s} p reason h := by
    have hc : (office (closePage p reason s)).books = (office s).books := by rw [office_closePage]
    have hf := congrArg Books.fades hc
    have hl := congrArg Books.lost hc
    exact ⟨hf ▸ h.1, hl.trans h.2⟩
  opens {s} g o src prio y h := by
    have hc : (office (openPage g o src prio y s).1).books = (office s).books := by rw [office_openPage]
    have hf := congrArg Books.fades hc
    have hl := congrArg Books.lost hc
    exact ⟨hf ▸ h.1, hl.trans h.2⟩
  calm h := h.2

theorem update_some {F : RecId → Option Shape} (h : Function.update F i none j = some f) : j ≠ i ∧ F j = some f := by
  by_cases hj : j = i
  · subst hj
    rw [Function.update_self] at h
    nomatch h
  · rw [Function.update_of_ne hj] at h
    exact ⟨hj, h⟩

/-- A place of the table stays empty. -/
theorem closed_gone (i : RecId) : Closed (OfFades fun F => F i = none) :=
  closed_ofFades fun F j h => by
    by_cases hj : i = j
    · subst hj
      exact Function.update_self ..
    · exact (Function.update_of_ne hj ..).trans h

theorem gone_leaveTable (h : (books s).lost = []) (i : RecId) (how : Leave) :
    OfFades (fun F => F i = none) (leaveTable i how s) := by
  unfold OfFades
  rw [(fades_leaveTable i how s).1, (fades_leaveTable i how s).2]
  exact ⟨Function.update_self .., h⟩

/-! ## A fade begins -/

theorem fades_takeOver (e : Elem) (i : RecId) (s : State) :
    (books (takeOver e (some i) s)).fades i = (books s).fades i := by
  cases hf : fadingOf s e (some i) with
  | none => rw [takeOver_of_none hf]
  | some j =>
    have hne : i ≠ j := fun h => (movesAt_of_fadingOf hf).1 (congrArg some h.symm)
    rw [takeOver_of_some hf, (fades_leaveTable j .takenOver s).1, Function.update_of_ne hne]

theorem movesAt_shape (h : s.fades[j] = some r) (hf : (shape r).fading = true) (he : (shape r).elem? = some e) :
    movesAt s.fades[j] e = true := by
  have hf' : r.fading = true := hf
  have he' : r.elem? = some e := he
  unfold movesAt
  rw [h]
  dsimp only
  rw [hf', he']
  simp

/-- No other record moves the element once it has been taken over. -/
theorem still_takeOver (h : (books s).FadeHolds) (e : Elem) (i : RecId) : (books (takeOver e (some i) s)).Still e i := by
  intro j f hj hff hfe
  by_contra hne
  cases hf : fadingOf s e (some i) with
  | none =>
    rw [takeOver_of_none hf] at hj
    obtain ⟨q, hq, rfl⟩ := of_fades hj
    rw [fadingOf_eq] at hf
    have hnone := List.find?_eq_none.mp hf j (List.mem_finRange j)
    rw [movesAt_shape hq hff hfe] at hnone
    exact hnone (by simpa using hne)
  | some l =>
    rw [takeOver_of_some hf, (fades_leaveTable l .takenOver s).1] at hj
    obtain ⟨hjl, hj⟩ := update_some hj
    obtain ⟨q, target, curve, hq, hqf, hqc⟩ := fadingOf_some hf
    have hqe : (shape q).elem? = some e := by
      unfold Shape.elem? shape
      rw [hqc]
    exact hjl (h j l f (shape q) e hj (fades_some hq) hff hqf hfe hqe)

theorem ownedBy_of_owner {f g : Shape} (h : f.owner = g.owner) (id : FiringId) : ownedBy id (some f) = ownedBy id (some g) := by
  unfold ownedBy
  rw [Option.map_some, Option.map_some, h]

/-- A record changes in place, but for whom it works; a swap's record is none that still waits. -/
theorem lawful_change {q : FadeRec} (h : Lawful F P s) (hi : (books s).fades i = some f) (ho : q.owner = f.owner)
    (hp : q.runIndex = f.place) (hcast : f.owner ≠ .cast)
    (hstill : q.fading = true → ∀ e, q.elem? = some e → (books s).Still e i) : Lawful F P (setFade i (some q) s) := by
  unfold Lawful
  rw [books_setFade]
  refine ⟨h.cast.enter fun hc => absurd (ho.symm.trans hc) hcast, h.fade.enter hstill, h.cue.put (fun id => ?_) ?_,
    h.page.same rfl rfl, h.slate.same rfl rfl, h.calm⟩
  · rw [hi]
    exact ownedBy_of_owner ho id
  · intro g id hg _
    cases hg
    exact ⟨f, hi, hp.symm⟩

theorem not_cast (h : Lawful F P s) (hr : s.fades[i] = some r) (hf : r.fading = false) : r.owner ≠ .cast := fun ho => by
  have : r.fading = true := h.cast.fading i (shape r) (fades_some hr) ho
  rw [hf] at this
  nomatch this

theorem lawful_startFade {target : Level} {curve : Curve} (h : Lawful F P s) (hr : s.fades[i] = some r)
    (hf : r.fading = false) (he : r.elem? = some e) : Lawful F P (startFade i r e target curve s) := by
  unfold startFade
  dsimp only
  split
  · exact (closed_lawful F P).cutBy i e target h
  · have hset : Lawful F P (setElem e (.steps ((s.level e).orFloor e.floor)) s) := h.same (books_setElem ..)
    have hto := (closed_lawful F P).takeOver e (some i) hset
    refine lawful_change hto (f := shape r) ?_ rfl rfl (not_cast h hr hf) fun _ e' he' => ?_
    · rw [fades_takeOver, books_setElem]
      exact fades_some hr
    · have hee : e' = e := Option.some.inj ((he' : r.elem? = some e').symm.trans he)
      rw [hee]
      exact still_takeOver hset.fade e i

theorem lawful_startStop {w : VoiceId} {time : Nat} (h : Lawful F P s) (hr : s.fades[i] = some r) (hf : r.fading = false) :
    Lawful F P (startStop i r w time s) := by
  have hset : Lawful F P (setFade i (some (r.asStop w (clampTime time))) s) :=
    lawful_change h (fades_some hr) rfl rfl (not_cast h hr hf) fun hff => by
      have : r.fading = true := hff
      rw [hf] at this
      nomatch this
  have hget : (setFade i (some (r.asStop w (clampTime time))) s).fades[i] = some (r.asStop w (clampTime time)) := by
    change (s.fades.set i _)[i] = _
    rw [Fin.getElem_fin, Vector.getElem_set_self]
  unfold startStop
  dsimp only
  split
  · exact (closed_lawful F P).cutBy _ _ _ hset
  · have hfade := lawful_startFade (e := .voice w) (target := .off) (curve := .steps) hset hget hf rfl
    unfold voiceStopping
    split
    · exact hfade
    · exact hfade.same (books_of_core (by rw [core_mark, core_updVoice]))

/-- A record acts at its delay expiry. -/
theorem lawful_actRecord (view : Option Memory) (h : Lawful F P s) (hr : s.fades[i] = some r) (hf : r.fading = false) :
    Lawful F P (actRecord view i s) := by
  have hR := closed_lawful F P
  unfold actRecord
  rw [hr]
  dsimp only
  split
  · next e target curve hc =>
    exact lawful_startFade h hr hf (by unfold FadeRec.elem?; rw [hc])
  · exact hR.playMove _ _ _ _ _ _ (hR.leave _ _ h)
  · exact hR.same (core_relayAction ..) (hR.leave _ _ h)
  · split
    · exact hR.leave _ _ h
    · exact lawful_startStop h hr hf

theorem lawful_completeFade (h : Lawful F P s) (i : RecId) : Lawful F P (completeFade i s) := by
  unfold completeFade
  split
  · exact h
  · split
    · exact lawful_leaveTable (h.same (books_setElem ..)) _ _
    · exact lawful_leaveTable h _ _

/-! ## A record of a request or of a swap is placed -/

/-- A new record that at once fades. -/
theorem lawful_enter {q : FadeRec} (h : Lawful F P s) (hi : (books s).fades i = none) (ho : ∀ id, q.owner ≠ .firing id)
    (hf : q.fading = true) (he : q.elem? = some e) (hnf : s.NotFading e)
    (hcast : q.owner = .cast → ∀ r k target curve, q.content = .level (.tap r k) target curve → target ≠ .off →
      s.roles[r].taps[k] ≠ .idle) : Lawful F P (setFade i (some q) s) := by
  unfold Lawful
  rw [books_setFade]
  refine ⟨h.cast.enter fun hc => ⟨hf, hcast hc⟩, h.fade.enter fun _ e' he' j g hg hgf hge => ?_, h.cue.put (fun id => ?_) ?_,
    h.page.same rfl rfl, h.slate.same rfl rfl, h.calm⟩
  · have hee : e' = e := Option.some.inj ((he' : q.elem? = some e').symm.trans he)
    rw [hee] at hge
    exact absurd hge (notFading_iff.mp hnf j g hg hgf)
  · rw [hi]
    exact Bool.eq_false_iff.mpr fun hown => by
      obtain ⟨g, hg, hgo⟩ := ownedBy_iff.mp hown
      cases hg
      exact ho id hgo
  · intro g id hg hgo
    cases hg
    exact absurd hgo (ho id)

theorem notFading_takeOver (h : (books s).FadeHolds) (e : Elem) : (takeOver e none s).NotFading e := by
  cases hf : fadingOf s e none with
  | none =>
    rw [takeOver_of_none hf]
    exact hf
  | some i =>
    obtain ⟨q, target, curve, hq, hqf, hqc⟩ := fadingOf_some hf
    have hqe : (shape q).elem? = some e := by
      unfold Shape.elem? shape
      rw [hqc]
    refine notFading_iff.mpr fun j f hj hff hfe => ?_
    rw [takeOver_of_some hf, (fades_leaveTable i .takenOver s).1] at hj
    obtain ⟨hne, hj⟩ := update_some hj
    exact hne (h j i f (shape q) e hj (fades_some hq) hff hqf hfe hqe)

theorem free_placeFor (h : placeFor s e = some i) : (books (takeOver e none s)).fades i = none := by
  unfold placeFor at h
  cases hf : fadingOf s e none with
  | none =>
    rw [hf] at h
    rw [takeOver_of_none hf]
    exact fades_none (freePlace_some (i := i) h)
  | some j =>
    rw [hf] at h
    cases h
    rw [takeOver_of_some hf, (fades_leaveTable i .takenOver s).1, Function.update_self]

/-- A placed record that is cut away at once leaves its owner's doing alone behind. -/
theorem books_placed_cut {target : Level} (hi : (books v).fades i = none) (hnf : v.NotFading e) (hrf : r.fading = false) :
    books (cutBy i e target (setFade i (some r) v)) = books (ownerTold r (.completed true) v) := by
  have hmoves : fadingOf (setFade i (some r) v) e (some i) = none := by
    refine (fadingOf_set (s := v) (i := i) (r := some r) rfl (.inl rfl)).trans (fadingOf_except hnf _)
  have hcongr {t t' : State} (h : books t = books t') : books (ownerTold r (.completed true) t) = books (ownerTold r (.completed true) t') := by
    unfold ownerTold
    split
    · exact h
    · rw [books_cueTold, books_cueTold, h]
    · split
      · rw [books_castEnd, books_castEnd, h]
      · exact h
  have hget : (setElem e target (setFade i (some r) v)).fades[i] = some r := by
    rw [setElem_eq]
    change (v.fades.set i _)[i] = _
    rw [Fin.getElem_fin, Vector.getElem_set_self]
  unfold cutBy
  rw [takeOver_of_none hmoves, books_leaveTable hget]
  refine hcongr ?_
  rw [books_setFade, books_setElem, books_setFade, Books.put_put]
  exact Books.put_of_eq hi

/-- A placed record begins to fade, or is done with at once. -/
theorem books_placeFade {target : Level} (h : (books s).FadeHolds) (hi : placeFor s e = some i) (hrf : r.fading = false) :
    books (placeFade i r e target s) = books (ownerTold r (.completed true) (takeOver e none s))
      ∨ books (placeFade i r e target s) = books (setFade i (some { r with fading := true }) (takeOver e none s)) := by
  have hfree := free_placeFor hi
  have hnf := notFading_takeOver h e
  unfold placeFade
  dsimp only
  generalize takeOver e none s = v at hfree hnf ⊢
  unfold startFade
  dsimp only
  split
  · exact .inl (books_placed_cut (v := v) hfree hnf hrf)
  · have hmoves : ∀ l : Level, fadingOf (setElem e l (setFade i (some r) v)) e (some i) = none := fun l => by
      have hset : fadingOf (setFade i (some r) v) e (some i) = none :=
        (fadingOf_set (s := v) (i := i) (r := some r) rfl (.inl rfl)).trans (fadingOf_except hnf _)
      rw [setElem_eq]
      exact hset
    right
    rw [takeOver_of_none (hmoves _), books_setFade, books_setElem, books_setFade, books_setFade, Books.put_put]
    rfl

theorem lawful_placeFade {target : Level} (h : Lawful F P s) (hi : placeFor s e = some i) (hrf : r.fading = false)
    (he : r.elem? = some e) (ho : ∀ id, r.owner ≠ .firing id)
    (hcast : r.owner = .cast → ∃ k : RoleId × TapId, e = .tap k.1 k.2 ∧ r.content = .level e target .steps
      ∧ (target ≠ .off → (takeOver e none s).roles[k.1].taps[k.2] ≠ .idle)) :
    Lawful F P (placeFade i r e target s) := by
  have hv := (closed_lawful F P).takeOver e none h
  have hfree := free_placeFor hi
  have hnf := notFading_takeOver h.fade e
  obtain hb | hb := books_placeFade (target := target) h.fade hi hrf
  · refine Lawful.same ?_ hb
    unfold ownerTold
    split
    · exact hv
    · next id hid => exact absurd hid (ho id)
    · next hid =>
      obtain ⟨k, rfl, hc, htap⟩ := hcast hid
      rw [hc]
      exact lawful_castEnd hv htap hnf
  · refine Lawful.same ?_ hb
    refine lawful_enter hv hfree ho rfl he hnf fun hid q k target' curve hc hne => ?_
    obtain ⟨k', hek, hc', htap⟩ := hcast hid
    have hcc : Content.level (.tap q k) target' curve = .level e target .steps := (hc : r.content = _).symm.trans hc'
    cases hcc
    cases hek
    exact htap hne

end Sys2Proof.Proofs.Kept
end

section
/-! PROOF. A swap keeps the manual's own invariants, and so do the ticks and the pause of the records (R29, R33, R111,
R113). -/

namespace Sys2Proof.Proofs.Kept

open Sys2Proof.Machine
open Sys2Proof.Proofs.Ends

variable {F : Prop} {s t u v : State} {P x : Option FiringId} {b : Books} {i j : RecId} {q r : RoleId} {k l : TapId} {target : Level}
  {time : Nat}

/-! ## The taps of other roles -/

/-- The books have the same taps on the same channels, but for the taps of one role. -/
def SameTaps (r : RoleId) (b b' : Books) : Prop := b'.chan = b.chan ∧ ∀ q, q ≠ r → b'.tap q = b.tap q

theorem SameTaps.trans {b b' b'' : Books} (h : SameTaps r b b') (h' : SameTaps r b' b'') : SameTaps r b b'' :=
  ⟨h'.1.trans h.1, fun q hq => (h'.2 q hq).trans (h.2 q hq)⟩

theorem sameTaps_setTap (b : Books) (r : RoleId) (k : TapId) (y : TapState) : SameTaps r b (b.setTap r k y) := by
  refine ⟨rfl, fun q hq => funext fun j => ?_⟩
  unfold Books.setTap
  dsimp only
  rw [if_neg fun h => hq h.1]

/-- A record that is taken over is no crossfade's end. -/
theorem taps_takenOver (i : RecId) (s : State) : (books (leaveTable i .takenOver s)).tap = (books s).tap
    ∧ (books (leaveTable i .takenOver s)).chan = (books s).chan := by
  cases hr : s.fades[i] with
  | none =>
    rw [leaveTable_of_none _ hr]
    exact ⟨rfl, rfl⟩
  | some r =>
    rw [books_leaveTable hr]
    unfold ownerTold
    split
    · rw [books_setFade]
      exact ⟨rfl, rfl⟩
    · rw [books_cueTold, books_setFade, judge_eq]
      exact ⟨rfl, rfl⟩
    · rw [books_setFade]
      exact ⟨rfl, rfl⟩

theorem taps_takeOver (e : Elem) (x : Option RecId) (s : State) : (books (takeOver e x s)).tap = (books s).tap
    ∧ (books (takeOver e x s)).chan = (books s).chan := by
  unfold takeOver
  split
  · exact ⟨rfl, rfl⟩
  · exact taps_takenOver ..

/-! ## One fade of a swap -/

/-- The record of one fade of a swap. -/
abbrev swapRec (r : RoleId) (k : TapId) (target : Level) (time : Nat) : FadeRec := levelRec .cast (.tap r k) target time none

theorem ownerTold_swapRec : ownerTold (swapRec r k target time) (.completed true) s = castEnd r k target s := rfl

theorem sameTaps_castFade (h : (books s).FadeHolds) : SameTaps r (books s) (books (castFade r k target time s)) := by
  have hto := taps_takeOver (.tap r k) none s
  have htake : SameTaps r (books s) (books (takeOver (.tap r k) none s)) := ⟨hto.2, fun q _ => by rw [hto.1]⟩
  have hend : SameTaps r (books s) (books (castEnd r k target (cut (.tap r k) target s))) := by
    rw [books_castEnd]
    unfold cut
    rw [books_setElem]
    exact htake.trans (sameTaps_setTap ..)
  unfold castFade
  split
  · exact hend
  · split
    · next i hi =>
      obtain hb | hb := books_placeFade (r := swapRec r k target time) (target := target) h hi rfl
      · rw [hb, ownerTold_swapRec, books_castEnd]
        exact htake.trans (sameTaps_setTap ..)
      · rw [hb, books_setFade]
        exact htake
    · exact hend

theorem lawful_castFade (h : Lawful F P s) (hy : target ≠ .off → s.roles[r].taps[k] ≠ .idle) :
    Lawful F P (castFade r k target time s) := by
  have hto : (takeOver (.tap r k) none s).roles[r].taps[k] = s.roles[r].taps[k] :=
    congrFun (congrFun (taps_takeOver (.tap r k) none s).1 r) k
  have hend : Lawful F P (castEnd r k target (cut (.tap r k) target s)) := by
    refine lawful_castEnd (k := (r, k)) ((closed_lawful F P).cut _ _ h) (fun hne => ?_) ?_
    · have hcut : (cut (.tap r k) target s).roles = (takeOver (.tap r k) none s).roles := by
        unfold cut
        rw [setElem_eq]
        rfl
      rw [hcut]
      exact hto ▸ hy hne
    · have := notFading_takeOver h.fade (.tap r k)
      unfold cut
      rw [setElem_eq]
      exact this
  unfold castFade
  split
  · exact hend
  · split
    · next i hi =>
      exact lawful_placeFade h hi rfl rfl (fun id => nofun) fun _ => ⟨(r, k), rfl, rfl, fun hne => hto ▸ hy hne⟩
    · exact hend

/-! ## A swap -/

theorem lawful_setTap {y : TapState} (h : Lawful F P s) (hy : y ≠ .idle)
    (hnone : ∀ c, s.roles[r].cfg.taps[k] = some c → ∀ q, (books s).Carries q c → q = r) : Lawful F P (setTap r k y s) := by
  unfold Lawful
  rw [books_setTap]
  exact ⟨h.cast.wakes hy hnone, h.fade.same rfl, h.cue.same rfl rfl rfl, h.page.same rfl rfl, h.slate.same rfl rfl, h.calm⟩

theorem tap_setTap (r : RoleId) (k : TapId) (y : TapState) (s : State) : (setTap r k y s).roles[r].taps[k] = y := by
  have h : (books (setTap r k y s)).tap r k = y := by
    rw [books_setTap]
    exact if_pos ⟨rfl, rfl⟩
  exact h

theorem active_awake (h : s.roles[r].active = some k) : s.roles[r].taps[k] ≠ .idle := by
  have hk := List.find?_some (p := fun t : TapId => s.roles[r].taps[t].isActive) h
  intro hidle
  rw [hidle] at hk
  nomatch hk

theorem carries_of_carriedElsewhere {c : Channel} (h : carriedElsewhere s r c = none) (hq : (books s).Carries q c) : q = r := by
  by_contra hne
  have := List.find?_eq_none.mp h q (List.mem_finRange q)
  rw [carries_iff.mpr hq] at this
  simp [hne] at this

theorem lawful_swapTo (h : Lawful F P s) (hfree : ∀ c, s.roles[r].cfg.taps[k] = some c → carriedElsewhere s r c = none) :
    Lawful F P (swapTo r k time s) := by
  have hin (s1 : State) (h1 : Lawful F P s1) (htaps : SameTaps r (books s) (books s1)) :
      Lawful F P (castFade r k (.steps 0) time (setTap r k .fadingIn s1)) := by
    refine lawful_castFade (lawful_setTap h1 nofun fun c hc q hq => ?_) fun _ => ?_
    · have hc' : s.roles[r].cfg.taps[k] = some c := (congrFun (congrFun htaps.1 r) k).symm.trans hc
      by_contra hne
      refine hne (carries_of_carriedElsewhere (hfree c hc') ?_)
      obtain ⟨j, hj, hjc⟩ := hq
      rw [htaps.2 q hne] at hj
      rw [htaps.1] at hjc
      exact ⟨j, hj, hjc⟩
    · rw [tap_setTap]
      exact nofun
  unfold swapTo
  dsimp only
  split
  · next old hold =>
    have hawake := active_awake hold
    have hset : Lawful F P (setTap r old .fadingOut s) := lawful_setTap h nofun fun c hc q hq =>
      h.cast.one q r c hq ⟨old, hawake, hc⟩
    refine hin _ (lawful_castFade hset fun hne => absurd rfl hne) (SameTaps.trans ?_ (sameTaps_castFade hset.fade))
    rw [books_setTap]
    exact sameTaps_setTap ..
  · exact hin s h ⟨rfl, fun _ _ => rfl⟩

/-- A role changes in its counts alone. -/
theorem books_updRole {f : Role → Role} (h : ∀ o, (f o).cfg = o.cfg ∧ (f o).taps = o.taps) : books (updRole r f s) = books s := by
  have hrole (q : RoleId) : (updRole r f s).roles[q].cfg = s.roles[q].cfg ∧ (updRole r f s).roles[q].taps = s.roles[q].taps := by
    rw [show (updRole r f s).roles = upd s.roles r f from rfl]
    by_cases hq : r = q
    · subst hq
      rw [upd_get_self]
      exact h _
    · rw [upd_get_ne _ _ _ _ hq]
      exact ⟨rfl, rfl⟩
  have hchan : (books (updRole r f s)).chan = (books s).chan := funext fun q => funext fun l => by
    unfold books
    dsimp only
    rw [(hrole q).1]
  have htap : (books (updRole r f s)).tap = (books s).tap := funext fun q => funext fun l => by
    unfold books
    dsimp only
    rw [(hrole q).2]
  have heta : books (updRole r f s)
      = { books s with chan := (books (updRole r f s)).chan, tap := (books (updRole r f s)).tap } := rfl
  rw [heta, hchan, htap]

theorem lawful_spareFailover (c : Channel) (h : Lawful F P s) : Lawful F P (spareFailover c s) := by
  unfold spareFailover
  split
  · exact h
  · split
    · exact h
    · split
      · split
        · exact h
        · next k _ =>
          split
          · next hav =>
            refine lawful_swapTo h fun c' hc' => ?_
            unfold spareAvailable at hav
            rw [hc'] at hav
            simpa using (Bool.and_eq_true_iff.mp hav).2
          · refine h.same ?_
            rw [books_mark]
            exact books_updRole fun _ => ⟨rfl, rfl⟩
      · exact h

/-! ## Ticks and the pause -/

/-- Records that change in their times alone. -/
theorem books_reshaped (hf : ∀ i : RecId, t.fades[i].map shape = s.fades[i].map shape)
    (h : core { t with fades := s.fades } = core s) : books t = books s := by
  have hb := books_of_core h
  have hfades : (books t).fades = (books s).fades := funext hf
  have heta : books t = { books ({ t with fades := s.fades } : State) with fades := (books t).fades } := rfl
  rw [heta, hfades, hb]

theorem books_touch {r r' : FadeRec} (hr : s.fades[i] = some r) (hs : shape r' = shape r) :
    books (setFade i (some r') s) = books s := by
  rw [books_setFade, Option.map_some, hs, ← fades_some hr]
  unfold Books.put
  rw [Function.update_eq_self]

theorem books_tickRecord (i : RecId) (s : State) : books (tickRecord i s) = books s := by
  unfold tickRecord
  split
  · rfl
  · next r hr =>
    have hadvance (n : Nat) : books (setFade i (some { r with elapsed := n }) s) = books s := books_touch hr rfl
    split
    · rfl
    · split
      · split
        · dsimp only
          split
          · split
            · rw [books_setElem]
              exact hadvance _
            · exact hadvance _
          · exact hadvance _
        · rfl
      · exact books_touch hr rfl

theorem shape_oneShort (r : FadeRec) : shape r.oneShort = shape r := by
  unfold FadeRec.oneShort
  split
  · split <;> rfl
  · rfl

end Sys2Proof.Proofs.Kept
end

section
/-! PROOF. The execution of a cue's records, COMPLETE_ALL and a firing keep the manual's own invariants (R83 to R87,
R96, R112). -/

namespace Sys2Proof.Proofs.Kept

open Sys2Proof.Machine
open Sys2Proof.Proofs.Ends

variable {F : Prop} {s t u v : State} {P x : Option FiringId} {b : Books} {i j : RecId} {r : FadeRec} {f : Shape} {id : FiringId}
  {view : Option Memory} {k : Nat}

/-! ## A cue's records are executed -/

/-- An executed record is gone. -/
theorem gone_executeRecord (h : (books s).lost = []) (hr : s.fades[i] = some r) :
    OfFades (fun F => F i = none) (executeRecord view i s) := by
  have hR := closed_gone i
  have hact (hc : (∃ x n y b, r.content = .play x n y b) ∨ ∃ g b, r.content = .relay g b) :
      OfFades (fun F => F i = none) (actRecord view i s) := by
    unfold actRecord
    rw [hr]
    dsimp only
    obtain ⟨x, n, y, b, hc⟩ | ⟨g, b, hc⟩ := hc
    · rw [hc]
      exact hR.playMove _ _ _ _ _ _ (gone_leaveTable h i _)
    · rw [hc]
      exact hR.same (core_relayAction ..) (gone_leaveTable h i _)
  have hset (e : Elem) (y : Level) : (books (setElem e y s)).lost = [] := by
    rw [books_setElem]
    exact h
  unfold executeRecord
  rw [hr]
  dsimp only
  split
  · split
    · exact gone_leaveTable (hset _ _) i _
    · unfold cutBy
      refine gone_leaveTable ?_ i _
      rw [books_setElem]
      unfold takeOver
      split
      · exact h
      · exact (fades_leaveTable ..).2.trans h
  · exact hR.stopCut _ (gone_leaveTable h i _)
  · next hc => exact hact (.inl ⟨_, _, _, _, hc⟩)
  · next hc => exact hact (.inr ⟨_, _, hc⟩)

/-- No record of the firing stands at these places of its run. -/
def Unplaced (id : FiringId) (S : Nat → Prop) (F : RecId → Option Shape) : Prop :=
  ∀ i f m, F i = some f → f.owner = .firing id → f.place = some m → ¬ S m

theorem closed_unplaced (id : FiringId) (S : Nat → Prop) : Closed (OfFades (Unplaced id S)) :=
  closed_ofFades fun _ _ h j f m hj => h j f m (update_some hj).2

/-- The records of the firing at the place of its run all lie here. -/
def OnlyAt (id : FiringId) (k : Nat) (i : RecId) (F : RecId → Option Shape) : Prop :=
  ∀ j f, F j = some f → f.owner = .firing id → f.place = some k → j = i

theorem closed_onlyAt (id : FiringId) (k : Nat) (i : RecId) : Closed (OfFades (OnlyAt id k i)) :=
  closed_ofFades fun _ _ h j f hj => h j f (update_some hj).2

theorem unplaced_executeAt {z : State × RunEntry} (h : Lawful F P z.1) (hk : OfFades (Unplaced id (· < k)) z.1) :
    OfFades (Unplaced id (· < k + 1)) (executeAt view id k z).1 := by
  unfold executeAt
  cases ho : ownedAt z.1 id k with
  | none =>
    refine ⟨fun j f m hj hfo hm => ?_, hk.2⟩
    obtain ⟨q, hq, rfl⟩ := of_fades hj
    have hne : m ≠ k := fun heq => ownedAt_none_iff.mp ho j q hq hfo (heq ▸ hm)
    have := hk.1 j _ m hj hfo hm
    dsimp only at this ⊢
    omega
  | some i =>
    obtain ⟨q, hq, hqo, hqk⟩ := ownedAt_some ho
    dsimp only
    have hbelow := (closed_unplaced id (· < k)).drain ((closed_unplaced id (· < k)).executeRecord view i hk)
    have honly : OfFades (OnlyAt id k i) z.1 := ⟨fun j f hj hfo hfk =>
      h.cue.once j i f (shape q) id hj (fades_some hq) hfo hqo (hfk.trans hqk.symm), hk.2⟩
    have hone := (closed_onlyAt id k i).drain ((closed_onlyAt id k i).executeRecord view i honly)
    have hgone := (closed_gone i).drain (gone_executeRecord (view := view) hk.2 hq)
    refine ⟨fun j f m hj hfo hm => ?_, hbelow.2⟩
    have hlt := hbelow.1 j f m hj hfo hm
    have hne : m ≠ k := fun heq => by
      have hji := hone.1 j f hj hfo (heq ▸ hm)
      rw [hji] at hj
      exact nomatch hj.symm.trans hgone.1
    dsimp only at hlt ⊢
    omega

/-- Once all are executed, the firing owns none. -/
theorem none_executeOwned (e : RunEntry) (h : Lawful F P s) (i : RecId) (f : Shape)
    (hf : (books (executeOwned view e s).1).fades i = some f) : f.owner ≠ .firing e.id := by
  have hfold (n : Nat) : Lawful F P ((List.range n).foldl (fun x k => executeAt view e.id k x) (s, e)).1
      ∧ OfFades (Unplaced e.id (· < n)) ((List.range n).foldl (fun x k => executeAt view e.id k x) (s, e)).1 := by
    induction n with
    | zero => exact ⟨h, ⟨fun _ _ _ _ _ _ => Nat.not_lt_zero _, h.calm⟩⟩
    | succ n ih =>
      rw [List.range_succ, List.foldl_append]
      refine ⟨?_, unplaced_executeAt ih.1 ih.2⟩
      unfold List.foldl List.foldl executeAt
      split
      · exact ih.1
      · exact (closed_lawful F P).drain ((closed_lawful F P).executeRecord _ _ ih.1)
  have hall := hfold 64
  unfold executeOwned at hf
  generalize (List.range 64).foldl (fun x k => executeAt view e.id k x) (s, e) = z at hall hf
  intro ho
  obtain ⟨k, hk, hp⟩ := hall.1.cue.placed i f e.id hf ho
  exact hall.2.1 i f k hf ho hp hk

/-- A cue with no record left runs no more, and nothing is left to complete. -/
theorem completeLeft_executeOwned (e : RunEntry) (h : Lawful F none s) :
    completeLeft e.id (executeOwned view e s).1 = (executeOwned view e s).1
      ∧ ∀ e' ∈ (executeOwned view e s).1.seq.running, e'.id ≠ e.id := by
  have hlaw := (closed_lawful F none).executeOwned view e h
  have hnone := none_executeOwned (view := view) e h
  generalize executeOwned view e s = z at hlaw hnone ⊢
  have hgone : ∀ e' ∈ z.1.seq.running, e'.id ≠ e.id := by
    intro e' he' hid
    have hpl : e'.placing = false := by
      rw [← Bool.not_eq_true]
      exact fun hp => nomatch (hlaw.cue.placing e' he').mp hp
    have hpos := hlaw.cue.waits e' he' hpl nofun
    have hzero := hlaw.cue.pending e' he'
    rw [owned_zero fun i f hf => by rw [hid]; exact hnone i f hf] at hzero
    omega
  exact ⟨completeLeft_gone hgone, hgone⟩

/-! ## COMPLETE_ALL -/

theorem lawful_completeAll (h : Lawful F none s) : Lawful F none (completeAllOwner s).1 := by
  have hfold (l : List RunEntry) : ∀ s : State, Lawful F none s → Lawful F none (l.foldl (fun s e =>
      if (entryOf s e.id).isSome then completeLeft e.id (executeOwned none e s).1 else s) s) := by
    induction l with
    | nil => exact fun _ h => h
    | cons e l ih =>
      refine fun s h => ih _ ?_
      dsimp only
      split
      · rw [(completeLeft_executeOwned e h).1]
        exact (closed_lawful F none).executeOwned _ _ h
      · exact h
  exact hfold s.seq.running _ h

/-! ## Room for a ninth cue -/

theorem closed_sequelLaw (F : Prop) (P : Option FiringId) (s0 : State) : Closed fun s => Lawful F P s ∧ Sequel s0 s :=
  (closed_lawful F P).and (closed_sequel s0)

theorem makeRoom_lawful {view : Memory} {n : Nat} (h : Lawful F none s) (hq : Sequel s s) :
    Lawful F none (makeRoom view n s) ∧ Sequel s (makeRoom view n s) ∧ (makeRoom view n s).seq.running.length < 8 := by
  have hfew : s.seq.running.length ≤ 8 := h.cue.few
  unfold makeRoom
  split
  · next hfull =>
    split
    · next hnil =>
      rw [hnil, List.length_nil] at hfull
      omega
    · next e l hl =>
      unfold forceComplete
      dsimp only
      have h1 : Lawful F none (updEntry e.id (fun x => { x with forced := true }) s) :=
        lawful_entry h fun _ => ⟨rfl, rfl, rfl⟩
      have hq1 : Sequel s (updEntry e.id (fun x => { x with forced := true }) s) := hq.updEntry e.id fun _ => rfl
      obtain ⟨hleft, hgone⟩ := completeLeft_executeOwned (view := some view) { e with forced := true } h1
      have hall := (closed_sequelLaw F none s).executeOwned (some view) { e with forced := true } ⟨h1, hq1⟩
      dsimp only at hleft hgone
      generalize executeOwned (some view) { e with forced := true } (updEntry e.id (fun x => { x with forced := true }) s)
        = z at hleft hgone hall ⊢
      obtain ⟨w, last⟩ := z
      dsimp only at hleft hgone hall ⊢
      rw [hleft]
      obtain ⟨hlaw, hseq⟩ := (closed_sequelLaw F none s).same (core_captureEvent ..) hall
      refine ⟨hlaw, hseq, ?_⟩
      have hrun : (captureEvent cueForcedCell (cueForcedDetails false e.id last.crushed last.failed n) w).seq.running
          = w.seq.running := by
        rw [captureEvent_eq]
      rw [hrun]
      have hsub : (w.seq.running.map (·.id)) ⊆ l.map (·.id) := by
        intro id hid
        obtain ⟨e', he', rfl⟩ := List.mem_map.mp hid
        obtain ⟨e0, h0, hid0⟩ := hall.2.ids e' he'
        rw [hl] at h0
        obtain rfl | h0 := List.mem_cons.mp h0
        · exact absurd hid0.symm (hgone e' he')
        · exact List.mem_map.mpr ⟨e0, h0, hid0⟩
      have hle := (hall.1.cue.nodup.subperm hsub).length_le
      rw [List.length_map, List.length_map] at hle
      rw [hl, List.length_cons] at hfew
      have hle' : w.seq.running.length ≤ l.length := hle
      omega
  · next hroom => exact ⟨h, hq, by omega⟩

/-! ## A firing -/

theorem lawful_enterCue {n : Nat} (h : Lawful F none s) (hlen : s.seq.running.length < 8)
    (hnew : ∀ e ∈ s.seq.running, e.id ≠ id) : Lawful False (some id) (enterCue id n s) := by
  have hjoin := h.cue.joins (e := { id := id, fireTime := s.tod, pending := 0, crushed := 0, failed := n, forced := false,
                                    placing := true }) hlen hnew rfl rfl
  exact ⟨h.cast.same rfl rfl rfl, h.fade.same rfl, hjoin.forget rfl rfl, h.page.same rfl rfl, h.slate.same rfl rfl, h.calm⟩

/-- The firing's records stand at the places of its run that have been taken. -/
abbrev RunTaken (id : FiringId) (k : Nat) (s : State) : Prop := OfFades (Unplaced id (k ≤ ·)) s

theorem taken_startFade {e : Elem} {target : Level} {curve : Curve} (h : RunTaken id k s) (hr : (books s).fades i = some (shape r)) :
    RunTaken id k (startFade i r e target curve s) := by
  have hR := closed_unplaced id (k ≤ ·)
  have hset (l : Level) : RunTaken id k (setElem e l s) := hR.same (core_setElem ..) h
  unfold startFade
  dsimp only
  split
  · exact hR.cutBy _ _ _ h
  · have hto := hR.takeOver e (some i) (hset (.steps ((s.level e).orFloor e.floor)))
    refine ⟨fun j f m hj hfo hm => ?_, ?_⟩
    · rw [books_setFade] at hj
      obtain ⟨rfl, hn⟩ | ⟨_, hj⟩ := put_cases hj
      · cases hn
        exact h.1 j (shape r) m hr hfo hm
      · exact hto.1 j f m hj hfo hm
    · rw [books_setFade]
      exact hto.2

theorem taken_actRecord (h : RunTaken id k s) (hr : s.fades[i] = some r) : RunTaken id k (actRecord view i s) := by
  have hR := closed_unplaced id (k ≤ ·)
  unfold actRecord
  rw [hr]
  dsimp only
  split
  · exact taken_startFade h (fades_some hr)
  · exact hR.playMove _ _ _ _ _ _ (hR.leave _ _ h)
  · exact hR.same (core_relayAction ..) (hR.leave _ _ h)
  · split
    · exact hR.leave _ _ h
    · next w time hc _ =>
      have hset : RunTaken id k (setFade i (some (r.asStop w (clampTime time))) s) := by
        refine ⟨fun j f m hj hfo hm => ?_, ?_⟩
        · rw [books_setFade] at hj
          obtain ⟨rfl, hn⟩ | ⟨_, hj⟩ := put_cases hj
          · cases hn
            exact h.1 j (shape r) m (fades_some hr) hfo hm
          · exact h.1 j f m hj hfo hm
        · rw [books_setFade]
          exact h.2
      unfold startStop
      dsimp only
      split
      · exact hR.cutBy _ _ _ hset
      · have hget : (books (setFade i (some (r.asStop w (clampTime time))) s)).fades i
            = some (shape (r.asStop w (clampTime time))) := by
          rw [books_setFade, Books.put_same]
          rfl
        have hfade := taken_startFade (e := .voice w) (target := .off) (curve := .steps) hset hget
        unfold voiceStopping
        split
        · exact hfade
        · exact hR.same (by rw [core_mark, core_updVoice]) hfade

/-- One well-formed move is placed, and acts. -/
theorem placeMove_lawful {view : Memory} {c : CueRec} {m : Move} (h : Lawful False (some id) s) (hk : RunTaken id k s)
    (hlt : k < 64) (hi : freePlace s = some i) :
    Lawful False (some id) (placeMove view id c k m i s) ∧ RunTaken id (k + 1) (placeMove view id c k m i s) := by
  have hfree : (books s).fades i = none := fades_none (freePlace_some hi)
  have hnew : ∀ j q, (books s).fades j = some q → q.owner = .firing id → q.place ≠ some k :=
    fun j q hq ho hp => hk.1 j q k hq ho hp le_rfl
  have hplaced : Lawful False (some id) (cuePlaced id (setFade i (some (moveRec id c k m)) s)) := by
    have hcue := h.cue.places (f := shape (moveRec id c k m)) hfree rfl hlt rfl hnew
    unfold Lawful cuePlaced
    rw [books_mark, books_updEntry, books_setFade]
    refine ⟨(h.cast.enter fun ho => absurd (ho : Owner.firing id = .cast) nofun).same rfl rfl rfl, (h.fade.enter fun hf => absurd (hf : false = true) nofun).same rfl, hcue,
      h.page.same rfl rfl, h.slate.same rfl rfl, h.calm⟩
  have htaken : RunTaken id (k + 1) (cuePlaced id (setFade i (some (moveRec id c k m)) s)) := by
    refine ⟨fun j f n hj hfo hn => ?_, ?_⟩
    · have hj' : ((books s).put i (some (shape (moveRec id c k m)))).fades j = some f := by
        rw [show (some (shape (moveRec id c k m))) = (some (moveRec id c k m)).map shape from rfl, ← books_setFade]
        exact hj
      obtain ⟨_, hput⟩ | ⟨_, hj⟩ := put_cases hj'
      · cases hput
        cases hn
        exact Nat.not_succ_le_self k
      · have := hk.1 j f n hj hfo hn
        dsimp only at this ⊢
        omega
    · have : (books (setFade i (some (moveRec id c k m)) s)).lost = [] := by
        rw [books_setFade]
        exact hk.2
      exact this
  have hget : (cuePlaced id (setFade i (some (moveRec id c k m)) s)).fades[i] = some (moveRec id c k m) := by
    change (s.fades.set i _)[i] = _
    rw [Fin.getElem_fin, Vector.getElem_set_self]
  unfold placeMove
  dsimp only
  split
  · exact ⟨lawful_actRecord _ hplaced hget rfl, taken_actRecord htaken hget⟩
  · exact ⟨hplaced, htaken⟩

theorem RunTaken.mono (h : RunTaken id k s) : RunTaken id (k + 1) s :=
  ⟨fun j f m hj hfo hm hle => h.1 j f m hj hfo hm (by dsimp only at hle ⊢; omega), h.2⟩

/-- One move of the run. -/
theorem takeMove_lawful {view : Memory} {c : CueRec} {z : State × Option Nat} (h : Lawful False (some id) z.1)
    (hk : RunTaken id k z.1) (hlt : k < 64) :
    Lawful False (some id) (takeMove view id c k z).1 ∧ RunTaken id (k + 1) (takeMove view id c k z).1 := by
  have hR := (closed_lawful False (some id)).and (closed_unplaced id (k + 1 ≤ ·))
  have hz : Lawful False (some id) z.1 ∧ RunTaken id (k + 1) z.1 := ⟨h, hk.mono⟩
  unfold takeMove
  split
  · exact hR.failed id hz
  · next m _ =>
    split
    · next i hi =>
      have hi' : freePlace z.1 = some i := by
        split at hi
        · nomatch hi
        · exact hi
      exact hR.drain (placeMove_lawful h hk hlt hi')
    · have hcrush : Lawful False (some id) (cueCrushed id z.1) ∧ RunTaken id (k + 1) (cueCrushed id z.1) :=
        ⟨lawful_entry h fun _ => ⟨rfl, rfl, rfl⟩, hk.mono⟩
      unfold crushMove
      dsimp only
      refine hR.drain ?_
      unfold actCrushed
      split
      · exact hR.cut _ _ hcrush
      · exact hR.playMove _ _ _ _ _ _ hcrush
      · exact hR.same (core_relayAction ..) hcrush
      · exact hR.stopCut _ hcrush

theorem takeMoves_lawful {view : Memory} {c : CueRec} (h : Lawful False (some id) s) (hk : RunTaken id 0 s) (hc : c.count ≤ 64) :
    Lawful False (some id) (takeMoves view id c s).1 := by
  have hfold (n : Nat) (hn : n ≤ 64) :
      Lawful False (some id) ((List.range n).foldl (fun x k => takeMove view id c k x) (s, none)).1
        ∧ RunTaken id n ((List.range n).foldl (fun x k => takeMove view id c k x) (s, none)).1 := by
    induction n with
    | zero => exact ⟨h, hk⟩
    | succ n ih =>
      obtain ⟨h1, h2⟩ := ih (by omega)
      rw [List.range_succ, List.foldl_append]
      exact takeMove_lawful h1 h2 hn
  exact (hfold c.count hc).1

theorem count_of_sound {m : Memory} {base n : Nat} {c : CueRec} (h : (readCue m base n).sound? = some c) : c.count ≤ 64 := by
  unfold readCue cueOfWords at h
  split at h
  · nomatch h
  · split at h
    · nomatch h
    · split at h
      · next hle =>
        cases h
        exact hle.1
      · nomatch h

theorem lawful_closeFiring (h : Lawful False (some id) s) : Lawful False none (closeFiring id s) := by
  unfold closeFiring Lawful
  rw [books_mark, books_completeIfDone, books_updEntry]
  have hcue := h.cue.ends.judge
  rw [judge_eq] at hcue ⊢
  exact ⟨h.cast.same rfl rfl rfl, h.fade.same rfl, hcue, h.page.same rfl rfl, h.slate.same rfl rfl, h.calm⟩

theorem books_joinQueue (w : Writer) (q : Burst) (s : State) : books (joinQueue w q s) = books s := rfl

/-- What a firing is reported by changes nothing in the books. -/
theorem books_finishRequest (a : Answer) (s : State) : books (finishRequest a s) = books s := by
  unfold finishRequest
  dsimp only
  split
  · rfl
  · rw [books_joinQueue, books_joinQueue]
    rfl

theorem lawful_deriveStandby (view : Memory) (h : Lawful F P s) : Lawful False P (deriveStandby view id s) := by
  unfold deriveStandby
  dsimp only
  generalize (nextAfter view s.tables.cueList id.number).map standbyOf = st
  exact ⟨h.cast.same rfl rfl rfl, h.fade.same rfl, h.cue.forget rfl rfl, h.page.same rfl rfl, h.slate.same rfl rfl, h.calm⟩

theorem books_reportFiring (cause : FireCause) (id : FiringId) (n : Nat) (s : State) :
    books (reportFiring cause id n s) = books s := by
  have hline (l : Option LineId) (o : LineOutcome) (s : State) : books (captureLine l o (some id) s) = books s :=
    books_of_core (core_captureEvent ..)
  unfold reportFiring
  split
  · rfl
  · exact hline ..
  · exact hline ..
  · rw [books_finishRequest]
    rfl

theorem lawful_fire {cause : FireCause} {view : Memory} {st : Standby} (h : Lawful F none s)
    (hnew : ∀ e ∈ s.seq.running, e.id ≠ nextId s st.number) : Lawful False none (fire cause view st s) := by
  have hplaced : Lawful False (some (nextId s st.number)) (enterAndPlace view st (nextId s st.number) s) := by
    obtain ⟨hroom, hseq, hlen⟩ := makeRoom_lawful (view := view) (n := st.number) h (Sequel.refl h.calm)
    have hids : ∀ e ∈ (makeRoom view st.number s).seq.running, e.id ≠ nextId s st.number := fun e he => by
      obtain ⟨e0, h0, hid⟩ := hseq.ids e he
      exact hid ▸ hnew e0 h0
    unfold enterAndPlace
    dsimp only
    split
    · exact lawful_enterCue hroom hlen hids
    · next c hc =>
      have hnone : RunTaken (nextId s st.number) 0 (enterCue (nextId s st.number) 0 (makeRoom view st.number s)) :=
        ⟨fun j f m hj hfo _ _ => by
          obtain ⟨e, he, hid⟩ := hroom.cue.runs j f _ hj hfo
          exact hids e he hid, hroom.calm⟩
      have hmoves := takeMoves_lawful (view := view) (c := c) (lawful_enterCue (n := 0) hroom hlen hids) hnone (count_of_sound hc)
      generalize takeMoves view (nextId s st.number) c (enterCue (nextId s st.number) 0 (makeRoom view st.number s)) = z at hmoves ⊢
      obtain ⟨w, failed⟩ := z
      dsimp only at hmoves ⊢
      unfold reportCrushed
      split
      · exact hmoves
      · exact (closed_lawful _ _).same (core_captureEvent ..) hmoves
  unfold fire
  dsimp only
  refine Lawful.same (lawful_closeFiring ?_) (books_reportFiring ..)
  exact lawful_deriveStandby view hplaced

end Sys2Proof.Proofs.Kept
end

section
/-! PROOF. Every event that the part raises itself keeps the manual's own invariants. -/

namespace Sys2Proof.Proofs.Kept

open Sys2Proof.Machine
open Sys2Proof.Proofs.Ends

variable {F : Prop} {s t u v : State} {P x : Option FiringId} {i : RecId}

/-! ## Events end -/

/-- The laws stand and no notice is left: what stands between two events. -/
def Sound (F : Prop) (s : State) : Prop := Lawful F none s ∧ s.Quiet

theorem Sound.same (h : Sound F s) (hb : books t = books s) (hq : t.Quiet) : Sound F t := ⟨h.1.same hb, hq⟩

theorem books_flushMarks (s : State) : books (flushMarks s) = books s := by
  obtain ⟨q, m, h⟩ := flushMarks_eq s
  rw [h]
  rfl

theorem finish_drained (hd : Lawful F none (drain s)) : Sound F (finish s) := by
  refine ⟨(hd.same (books_flushMarks _)).same ?_, finish_quiet⟩
  have hcalm : (books (flushMarks (drain s))).lost = [] := (congrArg Books.lost (books_flushMarks _)).trans hd.calm
  have heta : books (finish s) = { books (flushMarks (drain s)) with lost := [] } := rfl
  rw [heta, ← hcalm]

theorem finish_sound (h : Lawful F none s) : Sound F (finish s) := finish_drained ((closed_lawful F none).drain h)

theorem event_sound {due : Bool} {op : State → State} (h : Sound F s) (hop : Lawful F none s → Lawful F none (op s)) :
    Sound F (event due op s) := by
  unfold event
  split
  · exact finish_sound (hop h.1)
  · exact h

theorem event_same {due : Bool} {op : State → State} (h : Sound F s) (hop : books (op s) = books s) :
    Sound F (event due op s) := event_sound h fun h => h.same hop

theorem forEach_sound {n : Nat} {f : Fin n → State → State} (hf : ∀ i s, Sound F s → Sound F (f i s)) (h : Sound F s) :
    Sound F (forEach n f s) := by
  unfold forEach
  generalize List.finRange n = l
  induction l generalizing s with
  | nil => exact h
  | cons i l ih => exact ih (hf i s h)

theorem forEach_lawful {n : Nat} {f : Fin n → State → State} (hf : ∀ i s, Lawful F P s → Lawful F P (f i s))
    (h : Lawful F P s) : Lawful F P (forEach n f s) := by
  unfold forEach
  generalize List.finRange n = l
  induction l generalizing s with
  | nil => exact h
  | cons i l ih => exact ih (hf i s h)

theorem books_foldl {α : Type} {f : State → α → State} (hf : ∀ s x, books (f s x) = books s) (l : List α) (s : State) :
    books (l.foldl f s) = books s := by
  induction l generalizing s with
  | nil => rfl
  | cons x l ih => exact (ih _).trans (hf s x)

theorem books_forEach {n : Nat} {f : Fin n → State → State} (hf : ∀ i s, books (f i s) = books s) (s : State) :
    books (forEach n f s) = books s := books_foldl (fun s i => hf i s) _ s

/-! ## Links, clock, channels, gates -/

theorem books_updGate (g : GateId) (f : Gate → Gate) (s : State) : books (updGate g f s) = books s := by
  cases g with
  | supervision c => rfl
  | mixHold m => rfl
  | relayHold z => exact books_of_core (core_updZone rfl)
  | pageHold z => exact books_of_core (core_updZone rfl)
  | duck z => exact books_of_core (core_updZone rfl)

theorem books_commandGate (g : GateId) (target : Int) (opt : Fin 4) (s : State) :
    books (commandGate g target opt s) = books s := books_updGate ..

theorem books_superviseGate (c : Channel) (b : Bool) (s : State) : books (superviseGate c b s) = books s := by
  unfold superviseGate
  split
  · exact books_commandGate ..
  · rfl

theorem books_setChannelState (c : Channel) (st : ChannelState) (n : Option Nat) (s : State) :
    books (setChannelState c st n s) = books s := rfl

theorem books_standLost (c : Channel) (s : State) : books (standLost c s) = books s :=
  (books_superviseGate ..).trans (books_setChannelState ..)

theorem books_enterLive (c : Channel) (s : State) : books (enterLive c s) = books s :=
  (books_superviseGate ..).trans (books_setChannelState ..)

theorem books_captureEvent (c : CellId) (ds : List Word) (s : State) : books (captureEvent c ds s) = books s :=
  books_of_core (core_captureEvent ..)

theorem lawful_reportLost (c : Channel) (prior : ChannelState) (cause : LossCause) (h : Lawful F P s) :
    Lawful F P (reportLost c prior cause s) :=
  lawful_spareFailover c (h.same (books_captureEvent ..))

theorem lawful_enterLost (c : Channel) (cause : LossCause) (h : Lawful F P s) : Lawful F P (enterLost c cause s) :=
  lawful_reportLost _ _ _ (h.same (books_standLost c s))

theorem lawful_unlockReceiver (l : Link) (h : Lawful F P s) : Lawful F P (unlockReceiver l s) := by
  unfold unlockReceiver linkLoss
  dsimp only
  generalize hu : mark .channels (updRx l Receiver.unlock s) = u
  have h0 : Lawful F P u := by
    rw [← hu]
    exact h.same rfl
  have hstand := books_forEach (fun c s => show books (if lostWithLink u l c then standLost c s else s) = books s by
    split
    · exact books_standLost c s
    · rfl) u
  refine forEach_lawful (fun c t ht => ?_) (h0.same hstand)
  split
  · exact lawful_reportLost _ _ _ ht
  · exact ht

theorem lockEvent_sound (l : Link) (h : Sound F s) : Sound F (lockEvent l s) := event_same h rfl

theorem unlockEvent_sound (l : Link) (h : Sound F s) : Sound F (unlockEvent l s) := event_sound h (lawful_unlockReceiver l)

theorem settleLinks_sound (h : Sound F s) : Sound F (settleLinks s) :=
  forEach_sound (fun l _ h => lockEvent_sound l (unlockEvent_sound l h)) h

theorem settleClock_sound (h : Sound F s) : Sound F (settleClock s) := event_same (event_same h rfl) rfl

theorem presentFalseEvent_sound (c : Channel) (h : Sound F s) : Sound F (presentFalseEvent c s) := event_sound h fun h => by
  unfold presentFalse
  split
  · exact lawful_enterLost _ _ h
  · split
    · exact lawful_enterLost _ _ h
    · exact h.same rfl

theorem presentTrueEvent_sound (c : Channel) (h : Sound F s) : Sound F (presentTrueEvent c s) := event_same h <| by
  unfold presentTrue
  split
  · rfl
  · split
    · exact books_enterLive c s
    · rfl

theorem confirmEvent_sound (c : Channel) (h : Sound F s) : Sound F (confirmEvent c s) :=
  event_sound h (lawful_enterLost _ _)

theorem holdTimerEvent_sound (c : Channel) (h : Sound F s) : Sound F (holdTimerEvent c s) :=
  event_same h (books_enterLive c s)

theorem batteryEvent_sound (c : Channel) (h : Sound F s) : Sound F (batteryEvent c s) :=
  event_same h (books_captureEvent ..)

theorem settleChannel_sound (c : Channel) (h : Sound F s) : Sound F (settleChannel c s) :=
  batteryEvent_sound c (holdTimerEvent_sound c (confirmEvent_sound c (presentTrueEvent_sound c (presentFalseEvent_sound c h))))

theorem rampEndEvent_sound (g : GateId) (h : Sound F s) : Sound F (rampEndEvent g s) := event_same h (books_updGate ..)

theorem books_mixHold (m : MixId) (s : State) : books (mixHold m s) = books s := rfl

theorem books_zoneHold (z : ZoneId) (s : State) : books (zoneHold z s) = books s := by
  unfold zoneHold
  dsimp only
  rw [books_commandGate, books_commandGate]
  exact books_of_core (core_updZone rfl)

theorem acceptEvent_sound (l : LineId) (h : Sound F s) : Sound F (acceptEvent l s) := event_same h <| by
  unfold acceptHold
  dsimp only
  rw [books_mark, books_mark, books_captureEvent]
  refine (books_forEach (fun z s => ?_) _).trans ((books_forEach (fun m s => ?_) _).trans rfl)
  · split
    · exact books_zoneHold z s
    · rfl
  · split
    · exact books_mixHold m s
    · rfl

/-! ## Lines, guard, follow -/

theorem books_captureLine (l : Option LineId) (o : LineOutcome) (id : Option FiringId) (s : State) :
    books (captureLine l o id s) = books s := books_captureEvent ..

theorem books_askFiring (c : FireCause) (s : State) : books (askFiring c s) = books s := rfl

theorem lineGoEvent_sound (h : Sound F s) : Sound F (lineGoEvent s) := event_same h <| by
  unfold lineGo
  dsimp only
  split
  · rfl
  · split
    · rfl
    · exact books_captureLine ..

theorem triggerEvent_sound (l : LineId) (h : Sound F s) : Sound F (triggerEvent l s) := event_same h <| by
  unfold triggerEdge
  dsimp only
  split
  · rfl
  · exact books_captureLine ..

theorem guardEvent_sound (h : Sound F s) : Sound F (guardEvent s) := event_same h rfl

theorem followEvent_sound (h : Sound F s) : Sound F (followEvent s) := event_same h rfl

/-- What is asked of the next firing is asked no more. -/
theorem Sound.forget (h : Sound F s) : Sound False s :=
  ⟨⟨h.1.cast, h.1.fade, h.1.cue.forget rfl rfl, h.1.page, h.1.slate, h.1.calm⟩, h.2⟩

theorem firingEvent_sound (h : Sound True s) : Sound False (firingEvent s) := by
  refine event_sound h.forget fun h' => ?_
  unfold cueFiring
  split
  · next f st _ hst =>
    refine lawful_fire (F := False) (h'.same rfl) fun e he => ?_
    refine h.1.cue.fresh trivial (nextId s st.number) ?_ e he
    unfold books
    dsimp only
    rw [hst]
    rfl
  · exact h'.same rfl

/-! ## Records, voices, bursts -/

theorem delayEvent_sound (i : RecId) (h : Sound F s) : Sound F (delayEvent i s) := by
  unfold delayEvent event
  split
  · next hdue =>
    refine finish_sound ?_
    unfold delayDue at hdue
    split at hdue
    · next r hr =>
      obtain ⟨h1, _⟩ := Bool.and_eq_true_iff.mp hdue
      obtain ⟨h2, _⟩ := Bool.and_eq_true_iff.mp h1
      exact lawful_actRecord _ h.1 hr (by simpa using h2)
    · nomatch hdue
  · exact h

theorem fadeEvent_sound (i : RecId) (h : Sound F s) : Sound F (fadeEvent i s) :=
  event_sound h fun h => lawful_completeFade h i

theorem settleRecords_sound (h : Sound F s) : Sound F (settleRecords s) :=
  forEach_sound (fun i _ h => fadeEvent_sound i (delayEvent_sound i h)) h

theorem core_primingStep (w : VoiceId) (s : State) : core (primingStep w s) = core s := by
  unfold primingStep
  split
  · rw [core_mark, core_updVoice]
  · rfl

theorem arrivalEvent_sound (w : VoiceId) (h : Sound F s) : Sound F (arrivalEvent w s) := event_same h <| by
  unfold burstArrives
  split
  · dsimp only
    split
    · rfl
    · unfold takeBurst
      dsimp only
      exact books_of_core ((core_updVoice ..).trans ((core_primingStep ..).trans (core_updVoice ..)))
  · rfl

theorem soundEndEvent_sound (w : VoiceId) (h : Sound F s) : Sound F (soundEndEvent w s) :=
  event_same h (books_of_core ((core_updVoice ..).trans (core_enterIdle ..)))

/-! ## Zones -/

theorem stabilityEvent_sound (z : ZoneId) (h : Sound F s) : Sound F (stabilityEvent z s) :=
  event_same h (books_of_core (core_stabilityEnd ..))

theorem ampOkEvent_sound (z : ZoneId) (h : Sound F s) : Sound F (ampOkEvent z s) :=
  event_same h (books_of_core (core_zoneEnterLive ..))

theorem core_zoneOff (z : ZoneId) (s : State) : core (zoneOff z s) = core s := (core_mark ..).trans (core_updZone rfl)

theorem idleEvent_sound (z : ZoneId) (h : Sound F s) : Sound F (idleEvent z s) :=
  event_same h (books_of_core (core_zoneOff ..))

/-! A zone that enters FAULT and carries a page leaves it with the one notice that it gives. -/


theorem core_faultTold (z : ZoneId) (cause : ZoneFaultCause) (prior : ZoneState) (o : Option PageId) (b : Bool) (s : State) :
    core (captureEvent zoneCell (zoneDetails z cause prior o b) (latchZone z (updZone z (fun x => { x with
      state := .fault, ampen := false, timer := none, faults := sat16 x.faults }) s))) = core s := by
  rw [core_captureEvent]
  exact core_updZone (s := s) (z := z) (f := fun x => { x with
    state := .fault, ampen := false, timer := none, faults := sat16 x.faults }) rfl

theorem books_tell (n : Note) (s : State) :
    books (tell n s) = { books s with lost := (s.notes ++ [n]).filter isLost } := rfl

theorem lawful_pageLost {z : ZoneId} {p : PageId} {pg : Page} (h : Lawful F P s) (hz : s.zones[z].page = some p)
    (hp : s.pages[p] = some pg) (hb : books t = (books s).carry z none) (hpt : t.pages[p] = some pg) (reason : CloseReason) :
    Lawful F P (loseZone p z reason t) := by
  have hzs : (books s).pages p = some pg.zones := by
    unfold books
    dsimp only
    rw [hp]
    rfl
  have hfits := fits_leftOf.mpr (Books.Fits.leaves (p := p) (z := z) h.page.carried hzs hz)
  unfold Lawful
  rw [books_loseZone hpt, hb]
  refine ⟨h.cast.same rfl rfl rfl, h.fade.same rfl, h.cue.same rfl rfl rfl,
    pageHolds_iff_fits.mpr ⟨hfits, fun q zs hq => ?_⟩, h.slate.same rfl rfl, h.calm⟩
  obtain ⟨_, hl⟩ | ⟨_, hq⟩ := pages_page (b := (books s).carry z none) hq
  · exact leftOf_ne_zero hl
  · exact h.page.held q zs hq

/-- One notice is worked off, and then those that it brings. -/
theorem drainN_cons {n : Note} {rest : List Note} (k : Nat) (h : s.notes = n :: rest) :
    drainN (k + 1) s = drainN k (handleNote n { s with notes := rest }) := by
  conv_lhs => unfold drainN
  rw [h]

theorem drain_one {n : Note} (h : s.notes = [n]) : drain s = drainN 255 (handleNote n { s with notes := [] }) :=
  drainN_cons 255 h

theorem zoneFault_sound {z : ZoneId} {cause : ZoneFaultCause} {prior : ZoneState} (h : Sound F s) :
    Sound F (finish (zoneFault z cause prior s)) := by
  cases hz : s.zones[z].page with
  | none =>
    refine finish_sound (h.1.same (books_of_core ?_))
    unfold zoneFault
    dsimp only
    rw [hz]
    dsimp only
    rw [core_mark, core_commandDuck, core_faultTold]
  | some p =>
    have hpage : ∃ pg, s.pages[p] = some pg := by
      obtain ⟨zs, hzs, _⟩ := (h.1.page.carried z p).mp hz
      obtain ⟨pg, hpg, _⟩ := Option.map_eq_some_iff.mp hzs
      exact ⟨pg, hpg⟩
    obtain ⟨pg, hpg⟩ := hpage
    have hreach := (Reaches.refl h.2.2).zoneFault_page (cause := cause) (prior := prior) hz
    have hnotes : (zoneFault z cause prior s).notes = [.zoneLost p z] := by
      rw [hreach.1]
      change s.notes ++ [.zoneLost p z] = _
      rw [h.2.1]
      rfl
    have hpages : (zoneFault z cause prior s).pages = s.pages := by
      obtain ⟨n, c, q, hf⟩ := faultTold_eq z cause prior s
      rw [hreach.1, hf]
      rfl
    have hbooks : { books (zoneFault z cause prior s) with lost := [] } = (books s).carry z none := by
      unfold zoneFault
      dsimp only
      rw [hz]
      dsimp only
      rw [books_mark, books_of_core (core_commandDuck ..), books_tell]
      dsimp only
      rw [books_endCarry, books_of_core (core_faultTold ..)]
      unfold Books.carry
      dsimp only
      rw [h.1.calm]
    refine finish_drained ?_
    rw [drain_one hnotes]
    refine (closed_lawful F none).drainN 255 ?_
    refine lawful_pageLost h.1 hz hpg ?_ ?_ .noZones
    · rw [← hbooks]
      rfl
    · change (zoneFault z cause prior s).pages[p] = some pg
      rw [hpages]
      exact hpg

theorem sampleEvent_sound (z : ZoneId) (h : Sound F s) : Sound F (sampleEvent z s) := by
  unfold sampleEvent event
  split
  · exact zoneFault_sound h
  · exact h

theorem ampDropEvent_sound (z : ZoneId) (h : Sound F s) : Sound F (ampDropEvent z s) := by
  unfold ampDropEvent event
  split
  · exact zoneFault_sound h
  · exact h

theorem settleZone_sound (z : ZoneId) (h : Sound F s) : Sound F (settleZone z s) :=
  idleEvent_sound z (ampDropEvent_sound z (sampleEvent_sound z (ampOkEvent_sound z (stabilityEvent_sound z h))))

/-! ## Pages, calls -/

theorem limitEvent_sound (p : PageId) (h : Sound F s) : Sound F (limitEvent p s) :=
  event_sound h fun h => lawful_closePage h p .limit

theorem rolloverEvent_sound (h : Sound F s) : Sound F (rolloverEvent s) := event_sound h fun h => by
  have hR := closed_lawful F none
  have h0 : Lawful F none (mark .pages { s with rollover := false }) := h.same rfl
  unfold secondRollover
  dsimp only
  split
  · refine forEach_lawful (fun c s h => ?_) h0
    unfold compareCall
    split
    · split
      · exact h.same rfl
      · exact hR.drain (hR.startInstance _ _ (h.same rfl))
    · exact h
  · exact h0

theorem patienceEvent_sound (c : CallId) (h : Sound F s) : Sound F (patienceEvent c s) :=
  event_sound h fun h => (closed_lawful F none).patienceEnds c h

theorem settleCalls_sound (h : Sound F s) : Sound F (settleCalls s) :=
  forEach_sound (fun c _ h => patienceEvent_sound c h)
    (rolloverEvent_sound (forEach_sound (fun p _ h => limitEvent_sound p h) h))

/-! ## The mirror -/

theorem books_offer (a : Area) (s : State) : books (offer a s) = books s := by
  obtain ⟨q, m, h⟩ := offer_eq a s
  rw [h]
  rfl

theorem books_offerMeters (s : State) : books (offerMeters s) = books s := by
  unfold offerMeters
  split
  · refine (show books (clearPeaks _) = books _ from rfl).trans ((books_offer ..).trans ?_)
    unfold Machine.measure
    split <;> rfl
  · exact books_offer ..

theorem mirrorEvent_sound (h : Sound F s) : Sound F (mirrorEvent s) := event_same h <| by
  unfold mirrorTick
  refine (books_foldl (fun s a => ?_) _ _).trans rfl
  split
  · unfold offerAtTick
    split
    · exact books_offerMeters s
    · exact books_offer a s
  · rfl

theorem metersEvent_sound (h : Sound F s) : Sound F (metersEvent s) := event_same h ((books_offerMeters _).trans rfl)

/-! ## Every event that is due -/

theorem settleCues_sound (h : Sound F s) : Sound F (settleCues s) :=
  forEach_sound (fun l _ h => triggerEvent_sound l h) (lineGoEvent_sound (guardEvent_sound (followEvent_sound h)))

theorem settle_sound (h : Sound True s) : Sound False (settle s) := by
  have hchannels := forEach_sound (fun c _ h => settleChannel_sound c h) (settleClock_sound (settleLinks_sound h))
  have hlines := forEach_sound (fun l _ h => acceptEvent_sound l h) hchannels
  have hgates (l : List GateId) : ∀ s, Sound True s → Sound True (l.foldl (fun s g => rampEndEvent g s) s) := by
    induction l with
    | nil => exact fun _ h => h
    | cons g l ih => exact fun s h => ih _ (rampEndEvent_sound g h)
  have hcalls := settleCalls_sound (forEach_sound (fun w _ h => soundEndEvent_sound w h) (hgates allGates _ hlines))
  have hfired := firingEvent_sound (settleRecords_sound hcalls)
  exact metersEvent_sound (mirrorEvent_sound (settleCues_sound (forEach_sound (fun z _ h => settleZone_sound z h) hfired)))

end Sys2Proof.Proofs.Kept
end

section
/-! PROOF. Frames, ticks and link frames keep the manual's own invariants. -/

namespace Sys2Proof.Proofs.Kept

open Sys2Proof.Machine
open Sys2Proof.Proofs.Ends

variable {F : Prop} {s t u v : State} {P x : Option FiringId} {i : RecId}

/-- Roles, zones, pages and records may change, but not in what the books hold of them. -/
theorem books_pointwise (hf : ∀ i : RecId, t.fades[i].map shape = s.fades[i].map shape)
    (hq : t.seq.running = s.seq.running ∧ t.seq.standby = s.seq.standby ∧ t.seq.nextSerial = s.seq.nextSerial)
    (hr : ∀ r : RoleId, t.roles[r].cfg = s.roles[r].cfg ∧ t.roles[r].taps = s.roles[r].taps)
    (hz : ∀ z : ZoneId, t.zones[z].page = s.zones[z].page) (hp : ∀ p : PageId, t.pages[p].map (·.zones) = s.pages[p].map (·.zones))
    (ha : t.slate.arrival = s.slate.arrival) (hv : t.port.view = s.port.view) (hn : t.notes = s.notes) : books t = books s := by
  have hchan : (fun (r : RoleId) (k : TapId) => t.roles[r].cfg.taps[k]) = fun r k => s.roles[r].cfg.taps[k] :=
    funext fun r => funext fun k => by rw [(hr r).1]
  have htap : (fun (r : RoleId) (k : TapId) => t.roles[r].taps[k]) = fun r k => s.roles[r].taps[k] :=
    funext fun r => funext fun k => by rw [(hr r).2]
  unfold books nextId
  rw [funext hf, hq.1, hq.2.1, hq.2.2, hchan, htap, funext hz, funext hp, ha, hv, hn]

theorem books_countClips (a : Vector (Sample × Bool) 96) (b : Vector (Sample × Bool) 40) (c : Vector (Sample × Bool) 24)
    (s : State) : books (countClips a b c s) = books s := by
  refine books_pointwise (fun _ => rfl) ⟨rfl, rfl, rfl⟩ (fun r => ?_) (fun z => ?_) (fun _ => rfl) rfl rfl rfl
  · unfold countClips
    refine ⟨?_, ?_⟩ <;> simp only [Fin.getElem_fin, tabulate_get]
  · unfold countClips
    simp only [Fin.getElem_fin, tabulate_get]

theorem books_measure (y : Vector Sample 64) (s : State) : books (Machine.measure y s) = books s := by
  unfold Machine.measure
  split <;> rfl

theorem books_formFrame (s : State) : books (formFrame s) = books s :=
  (books_measure ..).trans (books_countClips ..)

theorem books_readChannels (s : State) : books (readChannels s) = books s := by
  unfold readChannels
  dsimp only
  split <;> rfl

theorem books_advanceGates (s : State) : books (advanceGates s) = books s := by
  refine books_pointwise (fun _ => rfl) ⟨rfl, rfl, rfl⟩ (fun _ => ⟨rfl, rfl⟩) (fun z => ?_) (fun _ => rfl) rfl rfl rfl
  unfold advanceGates
  simp only [Fin.getElem_fin, mapVec_get]

theorem books_frameTimers (s : State) : books (frameTimers s) = books s := by
  refine books_pointwise (fun _ => rfl) ⟨rfl, rfl, rfl⟩ (fun _ => ⟨rfl, rfl⟩) (fun z => ?_) (fun _ => rfl) rfl rfl rfl
  unfold frameTimers
  simp only [Fin.getElem_fin, mapVec_get]
  rfl

theorem books_voicesFrame (s : State) : books (voicesFrame s) = books s := by
  unfold voicesFrame
  dsimp only
  split <;> rfl

theorem books_beginFrame (go : Bool) (trig : BitVec 4) (s : State) : books (beginFrame go trig s) = books s := by
  have hlast (u : State) (k : Clock) (m : Mirror) : books { u with clock := k, mirror := m } = books u := rfl
  have hlines (u : State) : books (updSeq (readTriggers trig) (updSeq (readGo go) u)) = books u := rfl
  unfold beginFrame
  dsimp only
  rw [hlast, books_voicesFrame, books_frameTimers, books_advanceGates, hlines, books_readChannels]

theorem endFrame_sound (h : Sound F s) : Sound F (endFrame s) := settleLinks_sound (h.same rfl h.2)

theorem formFrame_sound (h : Sound F s) : Sound F (formFrame s) := by
  refine h.same (books_formFrame s) ?_
  have hq := h.2
  unfold formFrame Machine.measure
  dsimp only
  split <;> exact hq

theorem nextFrame_sound (go : Bool) (trig : BitVec 4) (h : Sound F s) : Sound F (finish (beginFrame go trig (endFrame s))) :=
  finish_sound ((endFrame_sound h).1.same (books_beginFrame ..))

theorem sampleFrame_sound (go : Bool) (trig : BitVec 4) (h : Sound True s) : Sound False (sampleFrame go trig s) := by
  have hnext := nextFrame_sound go trig (formFrame_sound (settle_sound h))
  unfold sampleFrame
  generalize settle s = u at hnext ⊢
  split
  · exact h.forget
  · exact hnext

theorem linkFrame_sound (l : Link) (w : Vector Word 18) (h : Sound F s) : Sound F (linkFrame l w s) :=
  (lockEvent_sound l (unlockEvent_sound l h)).same rfl (lockEvent_sound l (unlockEvent_sound l h)).2

theorem books_tickTimers (hold : BitVec 4) (ampOk : BitVec 24) (s : State) : books (tickTimers hold ampOk s) = books s := by
  refine books_pointwise (fun _ => rfl) ⟨rfl, rfl, rfl⟩ (fun _ => ⟨rfl, rfl⟩) (fun z => ?_) (fun p => ?_) rfl rfl rfl
  · unfold tickTimers
    simp only [Fin.getElem_fin, tabulate_get]
    rfl
  · unfold tickTimers
    simp only [Fin.getElem_fin, mapVec_get, Option.map_map]
    rfl

theorem millisecondTick_sound (hold : BitVec 4) (ampOk : BitVec 24) (h : Sound F s) :
    Sound F (millisecondTick hold ampOk s) := by
  unfold millisecondTick
  split
  · refine finish_sound (h.1.same ((books_forEach books_tickRecord _).trans ?_))
    rw [show books (tickClock (tickTime (tickTimers hold ampOk s))) = books (tickTimers hold ampOk s) from rfl]
    exact books_tickTimers ..
  · exact h

theorem judgeWclk_sound (periods : List Nat) (h : Sound F s) : Sound F (judgeWclk periods s) :=
  (settleClock_sound h).same rfl (settleClock_sound h).2

theorem realign_sound (h : Sound F s) : Sound F (realign s) := by
  unfold realign
  split
  · exact h.same rfl h.2
  · exact h

end Sys2Proof.Proofs.Kept
end

section
/-! PROOF. The host port, the slate and the arbiter keep R180, and the resets bring it about. -/

namespace Sys2Proof.Proofs.Kept

open Sys2Proof.Machine
open Sys2Proof.Proofs.Ends

variable {F : Prop} {s t u v : State} {P x : Option FiringId} {b : Books} {i j : SlotId} {st : SlotState}

/-! ## A slot in the port's view -/

/-- The books with a slot's state in the port's view and the arrival queue as given. -/
def Books.slot (b : Books) (i : SlotId) (st : SlotState) (l : List SlotId) : Books :=
  { b with view := Function.update b.view i st, arrival := l }

theorem books_setView (i : SlotId) (st : SlotState) (s : State) :
    books (setView i st s) = (books s).slot i st s.slate.arrival := by
  have : (fun j : SlotId => (setView i st s).port.view[j]) = Function.update (fun j : SlotId => s.port.view[j]) i st := by
    funext j
    rw [show (setView i st s).port.view = s.port.view.set i st from rfl]
    by_cases hj : j = i
    · subst hj
      rw [Function.update_self, Fin.getElem_fin, Vector.getElem_set_self]
    · have hne : (i : Nat) ≠ j := fun h => hj (Fin.ext h.symm)
      rw [Function.update_of_ne hj, Fin.getElem_fin, Vector.getElem_set_ne _ _ hne]
      rfl
  unfold books Books.slot
  dsimp only
  rw [this]
  rfl

theorem Books.SlateHolds.slot {l : List SlotId} (h : b.SlateHolds) (hl : l.Nodup) (hi : st = .posted ↔ i ∈ l)
    (hj : ∀ j, j ≠ i → (j ∈ l ↔ j ∈ b.arrival)) : (b.slot i st l).SlateHolds := by
  refine ⟨hl, fun j => ?_⟩
  unfold Books.slot
  dsimp only
  by_cases heq : j = i
  · subst heq
    rw [Function.update_self]
    exact hi
  · rw [Function.update_of_ne heq, hj j heq]
    exact h.posted j

/-- The slate alone has changed. -/
theorem Lawful.slated (h : Lawful F P s) {l : List SlotId} (hb : books t = (books s).slot i st l)
    (hs : ((books s).slot i st l).SlateHolds) : Lawful F P t := by
  unfold Lawful
  rw [hb]
  exact ⟨h.cast.same rfl rfl rfl, h.fade.same rfl, h.cue.same rfl rfl rfl, h.page.same rfl rfl, hs, h.calm⟩

theorem lawful_post (h : Lawful F P s) (hi : s.port.view[i] ≠ .posted) :
    Lawful F P (setView i .posted (setArrival (s.slate.arrival ++ [i]) s)) := by
  have hnot : i ∉ s.slate.arrival := fun hm => hi ((h.slate.posted i).mpr hm)
  refine h.slated (books_setView ..) (h.slate.slot ?_ (by simp [setArrival]) fun j hj => by simp [setArrival, hj]; rfl)
  change (s.slate.arrival ++ [i]).Nodup
  rw [List.nodup_append]
  exact ⟨h.slate.nodup, List.nodup_singleton i, fun a ha c hc => by
    cases List.mem_singleton.mp hc
    exact fun heq => hnot (heq ▸ ha)⟩

theorem lawful_withdraw (h : Lawful F P s) :
    Lawful F P (setView i .empty (setArrival (s.slate.arrival.filter (· != i)) s)) := by
  refine h.slated (books_setView ..) (h.slate.slot (h.slate.nodup.filter _) ?_ fun j hj => ?_)
  · simp [setArrival]
  · have : (j ∈ s.slate.arrival.filter (· != i)) ↔ j ∈ s.slate.arrival := by
      rw [List.mem_filter]
      simp [hj]
    exact this

/-- A slot that is not POSTED takes a state other than POSTED. -/
theorem lawful_setView (h : Lawful F P s) (hi : s.port.view[i] ≠ .posted) (hst : st ≠ .posted) :
    Lawful F P (setView i st s) := by
  have hnot : i ∉ s.slate.arrival := fun hm => hi ((h.slate.posted i).mpr hm)
  exact h.slated (books_setView ..) (h.slate.slot h.slate.nodup ⟨fun hp => absurd hp hst, fun hm => absurd hm hnot⟩
    fun _ _ => Iff.rfl)

/-! ## Host accesses -/

theorem effect_of_judgeSlot {e : WriteEffect} {d : Word} {w : Bool} (h : judgeSlot st i w d = .ok e) :
    e = .none ∨ (e = .post i ∧ st ≠ .posted) ∨ e = .withdraw i ∨ (e = .giveBack i ∧ st ≠ .posted) := by
  unfold judgeSlot at h
  split at h
  · cases st <;> cases h <;> exact .inl rfl
  · split at h
    · cases st <;> cases h
      exact .inr (.inl ⟨rfl, nofun⟩)
    · split at h
      · cases st <;> cases h
        · exact .inr (.inr (.inl rfl))
        · exact .inr (.inr (.inr ⟨rfl, nofun⟩))
        · exact .inr (.inr (.inr ⟨rfl, nofun⟩))
      · nomatch h

theorem lawful_applyEffect {addr : Nat} {d : Word} {e : WriteEffect} (h : Lawful F P s) (hj : judgeWrite s addr d = .ok e) :
    Lawful F P (applyEffect e s) := by
  unfold judgeWrite at hj
  split at hj
  · nomatch hj
  · split at hj
    · obtain rfl | ⟨rfl, hp⟩ | rfl | ⟨rfl, hp⟩ := effect_of_judgeSlot hj
      · exact h
      · exact lawful_post h hp
      · exact lawful_withdraw h
      · exact lawful_setView h hp nofun
    · split at hj
      · unfold judgeCell at hj
        split at hj
        · cases hj
          exact h.same rfl
        · nomatch hj
      · have hnone : e = .none := by
          split at hj
          · nomatch hj
          · split at hj
            · split at hj
              · nomatch hj
              · split at hj
                · nomatch hj
                · cases hj
                  rfl
            · cases hj
              rfl
        subst hnone
        exact h

theorem books_refuseAccess (addr : Nat) (c : FaultCause) (w : Bool) (s : State) : books (refuseAccess addr c w s) = books s := by
  unfold refuseAccess Port.recordFault
  split <;> rfl

theorem lawful_admitAccess (a : HostAccess) (h : Lawful F P s) : Lawful F P (admitAccess a s) := by
  unfold admitAccess
  split
  · unfold hostRead
    split
    · exact h.same (books_refuseAccess ..)
    · exact h.same rfl
  · unfold hostWrite
    split
    · exact h.same (books_refuseAccess ..)
    · next e he => exact (lawful_applyEffect h he).same rfl

theorem lawful_arrive (a : HostAccess) (h : Lawful F P s) : Lawful F P (arrive a s) := by
  unfold arrive
  split
  · exact lawful_admitAccess a h
  · exact h.same rfl

theorem lawful_portAccess {f : State → State} (hf : Lawful F P s → Lawful F P (f s)) (h : Lawful F P s) :
    Lawful F P (portAccess f s) := by
  unfold portAccess
  split
  · exact h
  · split
    · exact h.same rfl
    · exact hf h

theorem lawful_readWindow (addr : WindowAddr) (h : Lawful F P s) : Lawful F P (readWindow addr s) := by
  unfold readWindow
  split
  · exact lawful_arrive _ h
  · unfold registerRead
    generalize readRegister s _ = w
    exact h.same rfl

theorem books_writeNotice (w : Word) (s : State) : books (writeNotice w s) = books s := by
  unfold writeNotice
  split <;> rfl

/-! ## The port reset -/

theorem lawful_resetPort (h : Lawful F P s) : Lawful F P (resetPort s) := by
  have hbooks : books (resetPort s) = { books s with
      arrival := [], view := fun i => if s.port.view[i] = .posted then .empty else s.port.view[i] } := by
    have hview : (fun i : SlotId => (resetPort s).port.view[i])
        = fun i : SlotId => if s.port.view[i] = .posted then .empty else s.port.view[i] := by
      funext i
      have hv : (resetPort s).port.view = mapVec (fun v => if v = .posted then .empty else v) s.port.view := rfl
      rw [hv, Fin.getElem_fin, mapVec_get]
      rfl
    rw [← hview]
    rfl
  unfold Lawful
  rw [hbooks]
  refine ⟨h.cast.same rfl rfl rfl, h.fade.same rfl, h.cue.same rfl rfl rfl, h.page.same rfl rfl,
    ⟨List.nodup_nil, fun i => ⟨fun hp => ?_, nofun⟩⟩, h.calm⟩
  dsimp only at hp
  split at hp
  · nomatch hp
  · next hne => exact absurd hp hne

/-! ## The slate and the arbiter -/

theorem lawful_takeSlot (h : Lawful F P s) : Lawful F P (takeSlot s) := by
  unfold takeSlot
  split
  · exact h
  · next i later harr =>
    have hnodup : (i :: later).Nodup := harr ▸ h.slate.nodup
    refine h.slated (i := i) (st := .taken) (l := later) ?_ (h.slate.slot (List.nodup_cons.mp hnodup).2
      ⟨nofun, fun hm => absurd hm (List.nodup_cons.mp hnodup).1⟩ fun j hj => ?_)
    · generalize ({ slot := i, phase := .reading } : Current) = cur
      exact (books_setView i .taken { s with slate := { s.slate with arrival := later, current := some cur } }).trans rfl
    · rw [show (books s).arrival = i :: later from harr, List.mem_cons]
      exact ⟨.inr, fun h => h.resolve_left hj⟩

theorem lawful_burstWritten (h : Lawful F P s)
    (hw : ∀ (i : SlotId) (st : SlotState), s.wq.queue.head? = some (.slotState i st) → s.port.view[i] ≠ .posted) :
    Lawful F P (burstWritten s) := by
  have hanswered (i : SlotId) (st : SlotState) (u : State) (hu : Lawful F P u) (hv : u.port.view[i] ≠ .posted)
      (hst : st ≠ .posted) : Lawful F P (slotAnswered i st u) := by
    unfold slotAnswered
    dsimp only
    generalize (match u.slate.current with
      | some c => if c.slot = i then none else some c
      | none => none) = cur
    exact lawful_setView (hu.same rfl) hv hst
  unfold burstWritten
  split
  · exact h.same rfl
  · next b l hb =>
    have h0 (m : Memory) (mi : Mirror) (q : WriteQueue) :
        Lawful F P (setBusy none { s with mem := m, mirror := mi, wq := q }) := h.same rfl
    unfold burstTold
    split
    · next i => exact hanswered i .done _ (h0 ..) (hw i .done (by rw [hb]; rfl)) nofun
    · next i => exact hanswered i .refused _ (h0 ..) (hw i .refused (by rw [hb]; rfl)) nofun
    · split
      · exact h.same rfl
      · exact h0 ..
    · exact h0 ..

theorem lawful_hostTurn (h : Lawful F P s) : Lawful F P (hostTurn s) := by
  unfold hostTurn
  split
  · next i rest _ _ =>
    have h0 (m : Memory) (p : Port) (a : Arbiter) (hp : p.view = s.port.view) :
        Lawful F P { s with mem := m, port := p, arb := a } := by
      refine h.same (books_pointwise (fun _ => rfl) ⟨rfl, rfl, rfl⟩ (fun _ => ⟨rfl, rfl⟩) (fun _ => rfl) (fun _ => rfl) rfl hp rfl)
    unfold clearTurn
    dsimp only
    split
    · exact lawful_admitAccess _ (h0 _ _ _ rfl)
    · exact h0 _ _ _ rfl
  · unfold accessTurn
    dsimp only
    split <;> exact h.same rfl
  · exact h

theorem books_countTurn (s : State) : books (countTurn s) = books s := by
  unfold countTurn
  split <;> rfl

theorem books_slotRead (i : SlotId) (s : State) : books (slotRead i s) = books s := by
  unfold slotRead
  split
  · split
    · dsimp only
      rfl
    · rfl
  · rfl

theorem books_loadTable (k : TableKind) (s : State) : books (loadTable k s) = books s := by
  unfold loadTable
  split
  · rfl
  · next job _ =>
    generalize stage s.mem s.memSize k job.staging = z
    obtain ⟨staging, bad⟩ := z
    dsimp only
    split <;> rfl

theorem books_engineRead (r : EngineRead) (s : State) : books (engineRead r s) = books s := by
  unfold engineRead
  dsimp only
  generalize hu : countTurn { s with arb := { s.arb with reads := s.arb.reads.tail } } = w
  have hw : books w = books s := by
    rw [← hu, books_countTurn]
    rfl
  split
  · exact (books_slotRead ..).trans hw
  · exact hw
  · exact (books_loadTable ..).trans hw
  · exact hw

theorem lawful_grant (x : User) (h : Lawful F P s) : Lawful F P (grant x s) := by
  unfold grant
  split
  · unfold grantFetch
    split
    · exact h
    · exact h.same (books_countTurn _)
  · exact lawful_hostTurn h
  · exact h.same (books_engineRead ..)
  · exact h.same (books_countTurn _)

/-! ## The resets -/

theorem lawful_reset : Lawful False none State.reset := by
  have hfades : (books State.reset).fades = fun _ => none := by
    funext i
    unfold books State.reset
    simp
  have htap : (books State.reset).tap = fun _ _ => .idle := by
    funext r k
    unfold books State.reset Role.reset
    simp
  have hcarried : (books State.reset).carried = fun _ => none := by
    funext z
    unfold books State.reset Zone.reset
    simp
  have hpages : (books State.reset).pages = fun _ => none := by
    funext p
    unfold books State.reset
    simp
  have hview : (books State.reset).view = fun _ => .empty := by
    funext i
    unfold books State.reset
    simp
  have hrun : (books State.reset).running = [] := rfl
  refine ⟨⟨fun r q c ⟨k, hk, _⟩ => ?_, fun i f hf => ?_, fun i f r k target curve hf => ?_⟩, fun i j f g e hf => ?_,
    ⟨?_, ?_, fun e he => ?_, nofun, fun e he => ?_, fun e he => ?_, fun i f id hf => ?_, fun i f id hf => ?_,
      fun i j f g id hf => ?_, nofun⟩, ⟨fun z p => ?_, fun p zs hp => ?_⟩, ⟨List.nodup_nil, fun i => ?_⟩, rfl⟩
  · exact absurd (congrFun (congrFun htap r) k) hk
  · rw [hfades] at hf
    nomatch hf
  · rw [hfades] at hf
    nomatch hf
  · rw [hfades] at hf
    nomatch hf
  · rw [hrun]
    exact Nat.zero_le 8
  · rw [hrun]
    exact List.nodup_nil
  · rw [hrun] at he
    nomatch he
  · rw [hrun] at he
    nomatch he
  · rw [hrun] at he
    nomatch he
  · rw [hfades] at hf
    nomatch hf
  · rw [hfades] at hf
    nomatch hf
  · rw [hfades] at hf
    nomatch hf
  · rw [hcarried, hpages]
    exact ⟨nofun, fun ⟨_, h, _⟩ => nomatch h⟩
  · rw [hpages] at hp
    nomatch hp
  · rw [hview]
    exact ⟨nofun, nofun⟩

theorem lawful_fullResetState (s : State) : Lawful False none (fullResetState s) := lawful_reset.same rfl

end Sys2Proof.Proofs.Kept
end

section
/-! PROOF. The requests, the install and STOP_SHOW keep the manual's own invariants. -/

namespace Sys2Proof.Proofs.Kept

open Sys2Proof.Machine
open Sys2Proof.Proofs.Ends

variable {F : Prop} {s t u v : State} {P x : Option FiringId}

/-! ## The owners of the requests -/

/-- The next standby may change where nothing is asked of the next firing. -/
theorem Lawful.restood {n : Option FiringId} (h : Lawful F P s) (hb : books t = { books s with next := n }) :
    Lawful False P t := by
  unfold Lawful
  rw [hb]
  exact ⟨h.cast.same rfl rfl rfl, h.fade.same rfl, h.cue.forget rfl rfl, h.page.same rfl rfl, h.slate.same rfl rfl, h.calm⟩

theorem Lawful.loosen (h : Lawful F P s) : Lawful False P s := h.restood rfl

theorem lawful_loadShowOwner (h : Lawful F P s) : Lawful F P (loadShowOwner s).1 := by
  unfold loadShowOwner
  split
  · exact h
  · split
    · exact h
    · exact h.same rfl

theorem lawful_goOwner (h : Lawful F P s) : Lawful F P (goOwner s).1 := by
  unfold goOwner
  split
  · exact h
  · split
    · exact h
    · split
      · exact h
      · exact h.same rfl

theorem lawful_goToOwner (n : Nat) (h : Lawful F P s) : Lawful False P (goToOwner n s).1 := by
  unfold goToOwner
  split
  · exact h.loosen
  · dsimp only
    generalize cueNumbered (askRead .record s).mem (askRead .record s).tables.cueList n = o
    cases o with
    | none => exact h.loosen.same rfl
    | some f =>
      dsimp only
      generalize standbyOf f = st
      exact h.restood (n := some (nextId s st.number)) rfl

theorem lawful_pauseOwner (h : Lawful F P s) : Lawful F P (pauseOwner s).1 := by
  unfold pauseOwner
  dsimp only
  split
  · exact h
  · refine h.same (books_pointwise (fun i => ?_) ⟨rfl, rfl, rfl⟩ (fun _ => ⟨rfl, rfl⟩) (fun _ => rfl) (fun _ => rfl) rfl rfl rfl)
    have hf : (mark .cue (updSeq (fun q => { q with pause := true })
        { s with fades := mapVec (·.map FadeRec.oneShort) s.fades })).fades = mapVec (·.map FadeRec.oneShort) s.fades := rfl
    rw [hf, Fin.getElem_fin, mapVec_get, Option.map_map]
    refine congrArg (fun g => s.fades[i].map g) (funext fun r => shape_oneShort r)

theorem lawful_resumeOwner (h : Lawful F P s) : Lawful F P (resumeOwner s).1 := by
  unfold resumeOwner
  dsimp only
  split
  · exact h.same rfl
  · exact h

theorem lawful_setLevelOwner (e : ElemRef) (y : BitVec 16) (n : Nat) (k : Option Curve) (h : Lawful F P s) :
    Lawful F P (setLevelOwner e y n k s).1 := by
  have hR := closed_lawful F P
  unfold setLevelOwner
  split
  · unfold setLevel
    dsimp only
    split
    · exact hR.cut _ _ h
    · split
      · next hi => exact lawful_placeFade h hi rfl rfl (fun _ => nofun) nofun
      · exact hR.cut _ _ h
  · exact h

theorem lawful_swapTapOwner (role tap time : Nat) (h : Lawful F P s) : Lawful F P (swapTapOwner role tap time s).1 := by
  unfold swapTapOwner
  split
  · split
    · exact h
    · next c hc =>
      dsimp only
      split
      · exact h
      · split
        · exact h
        · next hnone =>
          refine lawful_swapTo h fun c' hc' => ?_
          rw [Option.some.inj (hc'.symm.trans hc)]
          exact hnone
  · exact h

theorem lawful_voiceStartOwner (voice sound : Nat) (level : BitVec 16) (loop : Bool) (h : Lawful F P s) :
    Lawful F P (voiceStartOwner voice sound level loop s).1 := by
  have hR := closed_lawful F P
  unfold voiceStartOwner
  split
  · exact h
  · have hask : Lawful F P (askSound none sound s) := hR.same (core_askSound ..) h
    dsimp only
    split
    · exact hask
    · exact hask
    · exact hR.takePlay _ _ _ _ hask

theorem lawful_stopVoice (w : VoiceId) (time : Nat) (h : Lawful F P s) : Lawful F P (stopVoice w time s).1 := by
  unfold stopVoice
  split
  · next i hi =>
    have hi' : placeFor s (.voice w) = some i := by
      split at hi
      · nomatch hi
      · exact hi
    have hplaced := lawful_placeFade (r := levelRec .request (.voice w) .off time (some w)) (target := .off) h hi' rfl rfl
      (fun _ => nofun) nofun
    dsimp only
    unfold voiceStopping
    split
    · exact hplaced
    · exact hplaced.same (books_of_core (by rw [core_mark, core_updVoice]))
  · exact (closed_lawful F P).stopCut _ h

theorem lawful_voiceStopOwner (voice time : Nat) (h : Lawful F P s) : Lawful F P (voiceStopOwner voice time s).1 := by
  unfold voiceStopOwner
  split
  · exact h
  · split
    · exact h
    · exact lawful_stopVoice _ _ h

theorem lawful_relayOwner (g : Nat) (b : Option Bool) (h : Lawful F P s) : Lawful F P (relayOwner g b s).1 := by
  unfold relayOwner
  split
  · exact (closed_lawful F P).same (core_relayAction ..) h
  · exact h

theorem core_powerIfWanted (z : ZoneId) (s : State) : core (powerIfWanted z s) = core s := by
  unfold powerIfWanted
  split
  · exact core_powerZone z s
  · rfl

theorem core_clearFault (z : ZoneId) (s : State) : core (clearFault z s) = core s :=
  (core_powerIfWanted ..).trans (core_zoneOff ..)

theorem lawful_clearZoneFaultOwner (g : Nat) (h : Lawful F P s) : Lawful F P (clearZoneFaultOwner g s).1 := by
  unfold clearZoneFaultOwner
  split
  · exact h
  · exact (closed_lawful F P).same (core_foldl (fun s z => core_clearFault z s) _ _) h

theorem lawful_pageOpenOwner (g : Nat) (src : SourceRef) (prio : Nat) (level : BitVec 16) (h : Lawful F P s) :
    Lawful F P (pageOpenOwner g src prio level s).1 := by
  unfold pageOpenOwner
  dsimp only
  split
  · exact h
  · exact h
  · exact h
  · next g src prio _ _ _ =>
    have hopen := lawful_openPage h g .request src prio (levelOfField level)
    generalize openPage g .request src prio (levelOfField level) s = z at hopen ⊢
    obtain ⟨w, e⟩ := z
    cases e <;> exact hopen

theorem lawful_pageCloseOwner (p : Nat) (h : Lawful F P s) : Lawful F P (pageCloseOwner p s).1 := by
  unfold pageCloseOwner
  split
  · exact h
  · split
    · exact h
    · exact lawful_closePage h _ _

theorem lawful_callNowOwner (c : Nat) (h : Lawful F P s) : Lawful F P (callNowOwner c s).1 := by
  unfold callNowOwner
  split
  · exact h
  · split
    · exact h
    · exact (closed_lawful F P).startInstance _ _ h

theorem lawful_setTimeOwner (d h' m n : Nat) (h : Lawful F P s) : Lawful F P (setTimeOwner d h' m n s).1 := by
  unfold setTimeOwner
  dsimp only
  split
  · exact h
  · split
    · exact h
    · split
      · exact h
      · split
        · exact h
        · exact h.same rfl

theorem books_setLock (l : LockLevel) (s : State) : books (setLock l s) = books s := by
  unfold setLock
  split <;> rfl

theorem lawful_lockOwner (l : Nat) (h : Lawful F P s) : Lawful F P (lockOwner l s).1 := by
  unfold lockOwner
  split
  · split
    · exact h
    · exact h.same (books_setLock ..)
  · exact h.same (books_setLock ..)
  · exact h

theorem lawful_unlockOwner (h : Lawful F P s) : Lawful F P (unlockOwner s).1 := by
  unfold unlockOwner
  split
  · exact h
  · exact h.same (books_setLock ..)
  · exact h

theorem lawful_captureNowOwner (a b : Word) (h : Lawful F P s) : Lawful F P (captureNowOwner a b s).1 := by
  unfold captureNowOwner
  split
  · exact h.same (books_captureEvent ..)
  · exact h

/-! ## STOP_SHOW -/

/-- With an empty table and no cue running R85 and R109 have nothing to say. -/
theorem Lawful.emptied (h : Lawful F P s) (hb : books t = { books s with
    fades := fun _ => none, running := [], next := (books t).next, chan := (books t).chan, tap := (books t).tap })
    (hcast : ∀ r q c, (books t).Carries r c → (books t).Carries q c → r = q) : Lawful False none t := by
  have hf : (books t).fades = fun _ => none := by rw [hb]
  have hr : (books t).running = [] := by rw [hb]
  have hnone {i : RecId} {f : Shape} (h : (books t).fades i = some f) : False := by
    rw [hf] at h
    nomatch h
  have hno {e : RunEntry} (he : e ∈ (books t).running) : False := by
    rw [hr] at he
    nomatch he
  refine ⟨⟨hcast, fun i f hf => (hnone hf).elim, fun i f r k target curve hf => (hnone hf).elim⟩,
    fun i j f g e hf => (hnone hf).elim, ⟨?_, ?_, fun e he => (hno he).elim, nofun, fun e he => (hno he).elim,
      fun e he => (hno he).elim, fun i f id hf => (hnone hf).elim, fun i f id hf => (hnone hf).elim,
      fun i j f g id hf => (hnone hf).elim, nofun⟩, ?_, ?_, ?_⟩
  · rw [hr]
    exact Nat.zero_le 8
  · rw [hr]
    exact List.nodup_nil
  · rw [hb]
    exact h.page.same rfl rfl
  · rw [hb]
    exact h.slate.same rfl rfl
  · rw [hb]
    exact h.calm

theorem books_emptyFades (s : State) : books (emptyFades s) = { books s with fades := fun _ => none } := by
  have : (fun i : RecId => (emptyFades s).fades[i].map shape) = fun _ => none := by
    funext i
    rw [show (emptyFades s).fades = Vector.replicate 128 none from rfl]
    simp
  rw [← this]
  rfl

/-- Crossfades that are finished change taps alone, and wake none. -/
theorem finishCrossfades_books (h : (books s).CastHolds) (hf : (books s).fades = fun _ => none) :
    (books (finishCrossfades s)).CastHolds
      ∧ books (finishCrossfades s) = { books s with tap := (books (finishCrossfades s)).tap } := by
  have hstep (r : RoleId) (k : TapId) (u : State) (hu : (books u).CastHolds ∧ books u = { books s with tap := (books u).tap }) :
      (books (finishTap r k u)).CastHolds ∧ books (finishTap r k u) = { books s with tap := (books (finishTap r k u)).tap } := by
    have hnone : ∀ j f, (books u).fades j = some f → f.owner = .cast → f.elem? ≠ some (.tap r k) := fun j f hj => by
      rw [hu.2, hf] at hj
      nomatch hj
    have hset (y : TapState) (l : Level) (hy : y ≠ .idle → (books u).tap r k ≠ .idle) :
        (books (setTap r k y (setElem (.tap r k) l u))).CastHolds
          ∧ books (setTap r k y (setElem (.tap r k) l u))
            = { books s with tap := (books (setTap r k y (setElem (.tap r k) l u))).tap } := by
      rw [books_setTap, books_setElem]
      refine ⟨hu.1.tapEnds hy hnone, ?_⟩
      conv_lhs => rw [hu.2]
      rfl
    unfold finishTap
    split
    · exact hset .idle .off fun hne => absurd rfl hne
    · next hin =>
      exact hset .active (.steps 0) fun _ hidle => nomatch (hin.symm.trans hidle : TapState.fadingIn = .idle)
    · exact hu
  have hfold {n : Nat} {f : Fin n → State → State} (hf : ∀ i u, ((books u).CastHolds ∧ books u = { books s with tap := (books u).tap })
      → ((books (f i u)).CastHolds ∧ books (f i u) = { books s with tap := (books (f i u)).tap })) (u : State)
      (hu : (books u).CastHolds ∧ books u = { books s with tap := (books u).tap }) :
      (books (forEach n f u)).CastHolds ∧ books (forEach n f u) = { books s with tap := (books (forEach n f u)).tap } := by
    unfold forEach
    generalize List.finRange n = l
    induction l generalizing u with
    | nil => exact hu
    | cons i l ih => exact ih _ (hf i u hu)
  exact hfold (fun r u hu => hfold (fun k w hw => hstep r k w hw) u hu) s ⟨h, rfl⟩

theorem core_stopVoices (s : State) : core (stopVoices s) = core s :=
  core_foldl (fun s w => by
    dsimp only
    split
    · rfl
    · exact core_enterIdle w s) _ s

theorem core_stopZones (s : State) : core (stopZones s) = core s :=
  core_foldl (fun s z => (core_zoneOff ..).trans (core_commandDuck ..)) _ s

theorem Books.CastHolds.emptied {b : Books} (h : b.CastHolds) : Books.CastHolds { b with fades := fun _ => none } where
  one := h.one
  fading i f hf := nomatch (hf : none = some f)
  awake i f r k target curve hf := nomatch (hf : none = some f)

/-- The table is empty, the crossfades are finished, and no cue runs. -/
theorem lawful_finished (h : Lawful F P s) (hw : (books u).CastHolds)
    (hb : books u = { books s with fades := fun _ => none, tap := (books u).tap }) :
    Lawful False none (setEngine .stopped (stopSequencer u)) := by
  refine h.emptied ?_ fun r q c hr hq => hw.one r q c hr hq
  have hstop : books (setEngine .stopped (stopSequencer u)) = { books u with running := [] } := rfl
  rw [hstop, hb]

theorem lawful_finishCrossfades (h : Lawful F P s) :
    Lawful False none (setEngine .stopped (stopSequencer (finishCrossfades (emptyFades s)))) := by
  have hempty := books_emptyFades s
  generalize emptyFades s = w at hempty ⊢
  have hcast : (books w).CastHolds := by
    rw [hempty]
    exact h.cast.emptied
  obtain ⟨hcast', hb⟩ := finishCrossfades_books hcast (by rw [hempty])
  rw [hempty] at hb
  exact lawful_finished h hcast' hb

theorem lawful_stopPages (h : Lawful F P s) : Lawful F P (mark .roles (stopZones (stopVoices (stopPagesAndCalls s)))) := by
  refine (closed_lawful F P).same ((core_mark ..).trans ((core_stopZones _).trans (core_stopVoices _))) ?_
  unfold stopPagesAndCalls
  dsimp only
  refine forEach_lawful (fun p s h => lawful_closePage h p _) (forEach_lawful (fun c s h => ?_) h)
  split
  · exact h.same rfl
  · exact h

theorem lawful_stopShowOwner (h : Lawful F P s) : Lawful False none (stopShowOwner s).1 := by
  have hstop := lawful_finishCrossfades h
  unfold stopShowOwner
  dsimp only
  generalize finishCrossfades (emptyFades s) = w at hstop ⊢
  exact lawful_stopPages hstop

/-! ## A request is handed over -/

theorem lawful_ownerOf (r : Request) (h : Lawful False none s) : Lawful False none (ownerOf r s).1 := by
  unfold ownerOf later
  cases r with
  | loadShow => exact lawful_loadShowOwner h
  | stopShow => exact lawful_stopShowOwner h
  | go => exact lawful_goOwner h
  | goTo n => exact lawful_goToOwner n h
  | pause => exact lawful_pauseOwner h
  | resume => exact lawful_resumeOwner h
  | completeAll => exact lawful_completeAll h
  | setLevel e y n k => exact lawful_setLevelOwner e y n k h
  | swapTap r k n => exact lawful_swapTapOwner r k n h
  | voiceStart w n y l => exact lawful_voiceStartOwner w n y l h
  | voiceStop w n => exact lawful_voiceStopOwner w n h
  | relay g b => exact lawful_relayOwner g b h
  | clearZoneFault g => exact lawful_clearZoneFaultOwner g h
  | pageOpen g src p y => exact lawful_pageOpenOwner g src p y h
  | pageClose p => exact lawful_pageCloseOwner p h
  | callNow c => exact lawful_callNowOwner c h
  | setTime d h' m n => exact lawful_setTimeOwner d h' m n h
  | lock l => exact lawful_lockOwner l h
  | unlock => exact lawful_unlockOwner h
  | captureNow a b => exact lawful_captureNowOwner a b h

theorem lawful_handOver (r : Request) (h : Lawful False none s) : Lawful False none (handOver r s) := by
  unfold handOver
  split
  · exact h.same (books_finishRequest ..)
  · have howner := lawful_ownerOf r (h.same (t := markHanded s) rfl)
    generalize ownerOf r (markHanded s) = z at howner ⊢
    obtain ⟨w, a⟩ := z
    cases a with
    | none => exact howner
    | some a => exact howner.same (books_finishRequest ..)

theorem request_sound (r : Request) (h : Sound F s) : Sound False (request r s) :=
  event_sound h.forget (lawful_handOver r)

theorem lawful_dispatch (h : Lawful False none s) : Lawful False none (dispatch s) := by
  unfold dispatch
  split
  · exact h
  · split
    · exact h.same (books_finishRequest ..)
    · exact lawful_handOver _ h

theorem lawful_refuseLoad (h : Lawful F P s) : Lawful F P (refuseLoad s) := by
  unfold refuseLoad
  split
  · exact h
  · split
    · exact h
    · exact (h.same (t := setEngine _ { s with load := none }) rfl).same (books_finishRequest ..)

end Sys2Proof.Proofs.Kept
end

section
/-! PROOF. The reset state meets the manual's own invariants, and every step keeps them. -/

namespace Sys2Proof.Proofs.Kept

open Sys2Proof.Machine
open Sys2Proof.Proofs.Ends

variable {F : Prop} {s t u v : State} {P x : Option FiringId}

/-! ## The install -/

theorem core_installZone (c : ZoneCfg) (z : ZoneId) (s : State) : core (installZone c z s) = core s := by
  have hzone (z : ZoneId) (u : State) : core (zoneHold z u) = core u := by
    have hgate (g : GateId) (n : Int) (k : Fin 4) (u : State) : core (commandGate g n k u) = core u := by
      cases g with
      | supervision c => rfl
      | mixHold m => rfl
      | relayHold z => exact core_updZone rfl
      | pageHold z => exact core_updZone rfl
      | duck z => exact core_updZone rfl
    unfold zoneHold
    dsimp only
    rw [hgate, hgate]
    exact core_updZone rfl
  have hinstall : core (updZone z (·.install c) s) = core s := core_updZone (by
    unfold Zone.install
    split <;> rfl)
  unfold installZone
  dsimp only
  rw [core_commandDuck, hzone]
  split
  · exact hinstall
  · exact (core_powerIfWanted ..).trans hinstall

theorem core_installZones (y : Show) (s : State) : core (installZones y s) = core s := by
  unfold installZones forEach
  exact (core_foldl (fun s z => core_installZone y.zones[z] z s) _ _).trans rfl

theorem core_installMixes (y : Show) (s : State) : core (installMixes y s) = core s := by
  have hhold (m : MixId) (u : State) : core (mixHold m u) = core u := rfl
  have hmix (v : Vector Mix 40) : core { s with mixes := v } = core s := rfl
  unfold installMixes forEach
  exact (core_foldl (fun u m => hhold m u) _ _).trans (hmix _)

/-- The books after the tables have been replaced. -/
theorem books_installTables (y : Show) (s : State) :
    books (setEngine .loaded { installChannels y (installTables y s) with load := none })
      = { books s with chan := fun r k => y.roles[r].taps[k]
                       tap := fun r k => if y.roles[r].initial = some k then .active else .idle } := by
  have hrole (r : RoleId) : (mapVec installRole y.roles)[r] = installRole y.roles[r] := by
    rw [Fin.getElem_fin, mapVec_get]
    rfl
  have hchan : (fun (r : RoleId) (k : TapId) => (mapVec installRole y.roles)[r].cfg.taps[k]) = fun r k => y.roles[r].taps[k] := by
    funext r k
    rw [hrole]
    rfl
  have htap : (fun (r : RoleId) (k : TapId) => (mapVec installRole y.roles)[r].taps[k])
      = fun r k => if y.roles[r].initial = some k then TapState.active else .idle := by
    funext r k
    rw [hrole]
    unfold installRole
    rw [Fin.getElem_fin, tabulate_get]
  rw [← hchan, ← htap]
  rfl

theorem books_installEnd (y : Show) (s : State) :
    books (installMirror y (installSequencer y s))
      = { books s with running := [], next := (books (installMirror y (installSequencer y s))).next } := by
  unfold installSequencer
  generalize (firstCue s.mem (y.base 10)).map standbyOf = st
  rfl

theorem lawful_install (y : Show) (h : Lawful F P s)
    (hone : ∀ (r q : RoleId) (k j : TapId) (c : Channel), y.roles[r].initial = some k → y.roles[q].initial = some j →
      y.roles[r].taps[k] = some c → y.roles[q].taps[j] = some c → r = q) : Lawful False none (install y s) := by
  have hempty := books_emptyFades s
  have hclock (u : State) : books (installClock y u) = books u := rfl
  have htables := books_installTables y (installClock y (emptyFades s))
  rw [hclock, hempty] at htables
  unfold install
  dsimp only
  generalize setEngine .loaded { installChannels y (installTables y (installClock y (emptyFades s))) with load := none } = w
    at htables ⊢
  have hzones : books (installZones y (installMixes y w)) = books w :=
    books_of_core ((core_installZones ..).trans (core_installMixes ..))
  generalize installZones y (installMixes y w) = w' at hzones ⊢
  have hend := books_installEnd y w'
  generalize installMirror y (installSequencer y w') = w'' at hend ⊢
  rw [hzones, htables] at hend
  refine h.emptied ?_ fun r q c hr hq => ?_
  · rw [hend]
  · rw [hend] at hr hq
    obtain ⟨k, hk, hkc⟩ := hr
    obtain ⟨j, hj, hjc⟩ := hq
    dsimp only at hk hj hkc hjc
    have hk' : y.roles[r].initial = some k := by
      by_contra hne
      exact hk (if_neg hne)
    have hj' : y.roles[q].initial = some j := by
      by_contra hne
      exact hj (if_neg hne)
    exact hone r q k j c hk' hj' hkc hjc

theorem lawful_installLoad (h : Lawful F none s)
    (hone : ∀ job, s.load = some job → ∀ (r q : RoleId) (k j : TapId) (c : Channel), job.staging.roles[r].initial = some k →
      job.staging.roles[q].initial = some j → job.staging.roles[r].taps[k] = some c → job.staging.roles[q].taps[j] = some c →
      r = q) : Lawful False none (installLoad s) := by
  unfold installLoad
  cases hjob : s.load with
  | none => exact h.loosen
  | some job =>
    have hin := lawful_install job.staging h (hone job hjob)
    dsimp only
    generalize install job.staging s = w at hin ⊢
    exact hin.same (books_finishRequest ..)

/-! ## Every command -/

theorem running_lawful {f : State → State} (hf : Sound True s → Sound False (f s)) (h : Sound True s)
    (he : running f s = .next t) : Lawful False none t := by
  by_cases hruns : s.phase = .running
  · obtain rfl := Host.Outcome.next.inj ((if_pos hruns).symm.trans he)
    exact (hf h).1
  · obtain rfl := Host.Outcome.next.inj ((if_neg hruns).symm.trans he)
    exact h.1.loosen

theorem access_lawful {f : State → State} (hf : Lawful False none s → Lawful False none (f s)) (h : Sound True s)
    (he : (.next (portAccess f s) : Host.Outcome State Fault Refusal) = .next t) : Lawful False none t := by
  obtain rfl := Host.Outcome.next.inj he
  exact lawful_portAccess hf h.1.loosen

theorem write_lawful {addr : Nat} {d : Word} (h : Sound True s)
    (he : (.next (portAccess (arrive (.write addr d)) s) : Host.Outcome State Fault Refusal) = .next t) :
    Lawful False none t := access_lawful (lawful_arrive _) h he

theorem memoryGrant_lawful (h : Sound True s) (he : execMemoryGrant s = .next t) : Lawful False none t := by
  have hgrant (x : User) : Lawful False none (finish (grant x s)) := (finish_sound (lawful_grant x h.1.loosen)).1
  unfold execMemoryGrant at he
  split at he
  · split at he
    · split at he
      · cases he
        exact hgrant _
      · nomatch he
    · cases he
      exact hgrant _
    · cases he
      exact h.1.loosen
  · cases he
    exact h.1.loosen

theorem lawful_rstl (h : Lawful F P s) (k : RstlState) : Lawful F P { s with rstl := k } := h.same rfl

theorem lawful_rstl1ms (h : Lawful F P s) : Lawful F P (rstl1ms s) := by
  unfold rstl1ms
  dsimp only
  split
  · exact h.same rfl
  · exact lawful_rstl h _

theorem lawful_rstlReleased (h : Lawful F P s) : Lawful F P (rstlReleased s) := by
  unfold rstlReleased
  split
  · exact h
  · exact lawful_rstl (lawful_resetPort h) _
  · exact lawful_rstl h _

/-- Every command keeps the laws. -/
theorem exec_lawful (c : Instr) (h : Sound True s) (hp : s.Provided) (he : exec c s = .next t) : Lawful False none t := by
  have hend {f : State → State} (hf : Lawful False none s → Lawful False none (f s))
      (he : (.next (portAccess (fun s => endAccess false 0#32 (f s)) s) : Host.Outcome State Fault Refusal) = .next t) :
      Lawful False none t := access_lawful (f := fun s => endAccess false 0#32 (f s)) (fun h => (hf h).same rfl) h he
  cases c with
  | linkFrame l w => exact running_lawful (fun h => linkFrame_sound l w h.forget) h he
  | receiverLocked l => exact running_lawful (fun h => lockEvent_sound l h.forget) h he
  | receiverUnlocked l => exact running_lawful (fun h => unlockEvent_sound l h.forget) h he
  | wclkFallback => exact running_lawful (fun h => event_same h.forget rfl) h he
  | wclkReturn => exact running_lawful (fun h => event_same h.forget rfl) h he
  | channelPresentFalse c => exact running_lawful (fun h => presentFalseEvent_sound c h.forget) h he
  | channelPresentTrue c => exact running_lawful (fun h => presentTrueEvent_sound c h.forget) h he
  | confirmExpiry c => exact running_lawful (fun h => confirmEvent_sound c h.forget) h he
  | holdTimerExpiry c => exact running_lawful (fun h => holdTimerEvent_sound c h.forget) h he
  | batteryLowEdge c => exact running_lawful (fun h => batteryEvent_sound c h.forget) h he
  | gateRampEnd g => exact running_lawful (fun h => rampEndEvent_sound g h.forget) h he
  | holdAccepted l => exact running_lawful (fun h => acceptEvent_sound l h.forget) h he
  | lineGo => exact running_lawful (fun h => lineGoEvent_sound h.forget) h he
  | triggerEdge l => exact running_lawful (fun h => triggerEvent_sound l h.forget) h he
  | guardExpiry => exact running_lawful (fun h => guardEvent_sound h.forget) h he
  | followExpiry => exact running_lawful (fun h => followEvent_sound h.forget) h he
  | cueFiring => exact running_lawful (fun h => firingEvent_sound h) h he
  | delayExpiry i => exact running_lawful (fun h => delayEvent_sound i h.forget) h he
  | fadeComplete i => exact running_lawful (fun h => fadeEvent_sound i h.forget) h he
  | burstArrival w => exact running_lawful (fun h => arrivalEvent_sound w h.forget) h he
  | endOfSound w => exact running_lawful (fun h => soundEndEvent_sound w h.forget) h he
  | stabilityWindowExpiry z => exact running_lawful (fun h => stabilityEvent_sound z h.forget) h he
  | ampOkTrue z => exact running_lawful (fun h => ampOkEvent_sound z h.forget) h he
  | sampleWindowExpiry z => exact running_lawful (fun h => sampleEvent_sound z h.forget) h he
  | ampDrop z => exact running_lawful (fun h => ampDropEvent_sound z h.forget) h he
  | idleTimerExpiry z => exact running_lawful (fun h => idleEvent_sound z h.forget) h he
  | pageLimitExpiry p => exact running_lawful (fun h => limitEvent_sound p h.forget) h he
  | secondRollover => exact running_lawful (fun h => rolloverEvent_sound h.forget) h he
  | patienceExpiry c => exact running_lawful (fun h => patienceEvent_sound c h.forget) h he
  | cellReturn c k d => exact write_lawful h he
  | mirrorTick => exact running_lawful (fun h => mirrorEvent_sound h.forget) h he
  | metersTick => exact running_lawful (fun h => metersEvent_sound h.forget) h he
  | memoryGrant => exact memoryGrant_lawful h he
  | writeBurstWritten =>
    exact running_lawful (fun h => event_sound h.forget fun h => lawful_burstWritten h hp.1) h he
  | hostRead a => exact access_lawful (lawful_readWindow a) h he
  | hostWrite a d => exact write_lawful h he
  | slotPost i => exact write_lawful h he
  | slotWithdraw i => exact write_lawful h he
  | slotReturn i => exact write_lawful h he
  | slotTake => exact running_lawful (fun h => event_sound h.forget lawful_takeSlot) h he
  | requestDispatch => exact running_lawful (fun h => event_sound h.forget lawful_dispatch) h he
  | loadShow => exact running_lawful (fun h => request_sound _ h) h he
  | loadRefused => exact running_lawful (fun h => event_sound h.forget lawful_refuseLoad) h he
  | install => exact running_lawful (fun h => event_sound h.forget fun h => lawful_installLoad h hp.2.2) h he
  | stopShow => exact running_lawful (fun h => request_sound _ h) h he
  | go => exact running_lawful (fun h => request_sound _ h) h he
  | goTo n => exact running_lawful (fun h => request_sound _ h) h he
  | pause => exact running_lawful (fun h => request_sound _ h) h he
  | resume => exact running_lawful (fun h => request_sound _ h) h he
  | completeAll => exact running_lawful (fun h => request_sound _ h) h he
  | setLevel e y n k => exact running_lawful (fun h => request_sound _ h) h he
  | swapTap r k n => exact running_lawful (fun h => request_sound _ h) h he
  | voiceStart w n y b => exact running_lawful (fun h => request_sound _ h) h he
  | voiceStop w n => exact running_lawful (fun h => request_sound _ h) h he
  | relay g b => exact running_lawful (fun h => request_sound _ h) h he
  | clearZoneFault g => exact running_lawful (fun h => request_sound _ h) h he
  | pageOpen g src p y => exact running_lawful (fun h => request_sound _ h) h he
  | pageClose p => exact running_lawful (fun h => request_sound _ h) h he
  | callNow c => exact running_lawful (fun h => request_sound _ h) h he
  | setTime d h' m n => exact running_lawful (fun h => request_sound _ h) h he
  | lock l => exact running_lawful (fun h => request_sound _ h) h he
  | unlock => exact running_lawful (fun h => request_sound _ h) h he
  | captureNow a b => exact running_lawful (fun h => request_sound _ h) h he
  | noticeWrite w => exact hend (f := writeNotice w) (fun h => h.same (books_writeNotice w s)) he
  | noticeMaskWrite w => exact hend (f := writeNoticeMask w) (fun h => h.same rfl) he
  | portReset => exact hend lawful_resetPort he
  | fullReset => exact hend (fun _ => lawful_fullResetState s) he
  | registerWriteIgnored o w => exact access_lawful (fun h => h.same rfl) h he
  | rstlHeld1ms =>
    obtain rfl := Host.Outcome.next.inj he
    split
    · exact lawful_rstl1ms h.1.loosen
    · exact h.1.loosen
  | rstlHeld20ms =>
    obtain rfl := Host.Outcome.next.inj he
    split
    · exact lawful_rstl (lawful_fullResetState s) _
    · exact h.1.loosen
  | rstlRelease =>
    obtain rfl := Host.Outcome.next.inj he
    exact lawful_rstlReleased h.1.loosen
  | startUp size =>
    obtain rfl := Host.Outcome.next.inj he
    split
    · exact h.1.loosen.same rfl
    · exact h.1.loosen
  | sampleFrame go trig => exact running_lawful (fun h => sampleFrame_sound go trig h) h he
  | millisecondTick a b => exact running_lawful (fun h => millisecondTick_sound a b h.forget) h he
  | wclkPresenceJudgement l => exact running_lawful (fun h => judgeWclk_sound l h.forget) h he
  | frameClockRealignment => exact running_lawful (fun h => realign_sound h.forget) h he

/-! ## Every step -/

/-- What the manual's checks provide is what the next firing needs. -/
theorem sound_of_laws (hq : s.Quiet) (hl : s.ManualLaws) (hp : s.Provided) : Sound True s := by
  have h := (lawful_iff hq.1).mpr hl
  refine ⟨⟨h.cast, h.fade, { h.cue with fresh := fun _ id hid e he => ?_ }, h.page, h.slate, h.calm⟩, hq⟩
  obtain ⟨st, hst, rfl⟩ := Option.map_eq_some_iff.mp hid
  exact hp.2.1 st hst e he

theorem laws_of_lawful (h : Lawful False none s) : s.ManualLaws :=
  ⟨castHolds_iff.mpr h.cast, fadeHolds_iff.mpr h.fade, cueHolds_iff.mpr h.cue, pageHolds_iff.mpr h.page, slateHolds_iff.mpr h.slate⟩

/-- A step keeps the laws. -/
theorem step_laws (hq : s.Quiet) (hl : s.ManualLaws) (hp : s.Provided) (he : step s = .next t) : t.ManualLaws := by
  unfold step at he
  split at he
  · cases he
    exact hl
  · next c rest hrest =>
    have hq' : State.Quiet { s with pending := rest } := hq
    have hl' : State.ManualLaws { s with pending := rest } := hl
    have hp' : State.Provided { s with pending := rest } := hp
    exact laws_of_lawful (exec_lawful c (sound_of_laws hq' hl' hp') hp' he)

theorem reset_inv : State.reset.Inv := ⟨by decide, Steps.reset_bounded, rfl, rfl⟩

/-- Settles O4. The laws are stated of the books, the part of the state that they look at; what each operation does
to the books is said once, and that every command keeps them is put together from that. -/
theorem resetMeetsTheInvariant : Obligations.ResetMeetsTheInvariant :=
  ⟨reset_inv, laws_of_lawful lawful_reset, fun _ _ hq hl hp he => step_laws hq hl hp he⟩

end Sys2Proof.Proofs.Kept
end

section
/-! PROOF. A page is offered to the members of a group, some of which carry pages of lower priority (R152): each
step, and what a page that loses a zone comes to (R153, R154). -/

namespace Sys2Proof.Proofs.Ends

open Sys2Proof.Machine

variable {s u v : State} {as : List Area} {p o : PageId} {q prio : Fin 4} {z : ZoneId} {k : Claim} {pg : Page}

/-! ## The steps -/

/-- The state once a page has lost a zone to another. -/
def losing (o : PageId) (z : ZoneId) (s : State) : State :=
  match s.pages[o] with
  | none => s
  | some pg =>
    if (Without pg z).zones = 0#24 then { s with
      pages := s.pages.set o none
      lastClosed := some { id := o, opener := pg.opener, reason := .preempted, time := s.tod }
      calls := withoutPage pg.opener s.calls
      notes := s.notes ++ closeNotes pg.opener .preempted }
    else if pg.state = .opened ∧ allLive s (Without pg z).zones = true then pageLived o (Without pg z) s
    else { s with pages := s.pages.set o (some (Without pg z)) }

/-- The state once a zone has taken a page. -/
def taking (p : PageId) (prio : Fin 4) (z : ZoneId) (s : State) : State :=
  rezoned z (carried s (some p) (some prio) s.zones[z]) s

/-- One member is offered the page, with no change noted and no area marked. -/
def offering (p : PageId) (prio : Fin 4) (x : State × Claim) (z : ZoneId) : State × Claim :=
  if x.1.zones[z].state = .fault then (x.1, { x.2 with declined := x.2.declined + 1 })
  else
    match x.1.zones[z].page with
    | none => (taking p prio z x.1, { x.2 with won := x.2.won ||| zoneBit z })
    | some o =>
      match carriedPriority x.1 z with
      | some other =>
        if other < prio then
          (taking p prio z (losing o z x.1), { x.2 with
            won := x.2.won ||| zoneBit z
            preempted := x.2.preempted + 1
            closed := if ((taking p prio z (losing o z x.1)).pages[o]).isNone then x.2.closed + 1 else x.2.closed })
        else (x.1, { x.2 with skipped := x.2.skipped + 1 })
      | none => (x.1, { x.2 with skipped := x.2.skipped + 1 })

/-- The member declines the page. -/
abbrev Declines (s : State) (z : ZoneId) : Prop := s.zones[z].state = .fault

/-- The member carries a page of equal or higher priority. -/
abbrev Skips (s : State) (q : Fin 4) (z : ZoneId) : Prop := s.zones[z].state ≠ .fault
  ∧ ∃ (o : PageId) (other : Fin 4), s.zones[z].page = some o ∧ carriedPriority s z = some other ∧ q ≤ other

/-- The member carries no page. -/
abbrev Free (s : State) (z : ZoneId) : Prop := s.zones[z].state ≠ .fault ∧ s.zones[z].page = none

/-- The member carries a page of lower priority. -/
abbrev Wins (s : State) (q : Fin 4) (z : ZoneId) (o : PageId) (pg : Page) : Prop := s.zones[z].state ≠ .fault
  ∧ s.zones[z].page = some o ∧ s.pages[o] = some pg ∧ pg.zones.getLsbD z = true ∧ pg.priority < q

theorem carriedPriority_of_page (h : s.zones[z].page = some o) :
    carriedPriority s z = s.pages[o].map (·.priority) := by
  unfold carriedPriority
  rw [h]
  rfl

theorem offering_declines (h : Declines s z) :
    offering p q (s, k) z = (s, { k with declined := k.declined + 1 }) := if_pos h

theorem offering_skips (h : Skips s q z) : offering p q (s, k) z = (s, { k with skipped := k.skipped + 1 }) := by
  obtain ⟨hf, o, other, hp, hc, hq⟩ := h
  unfold offering
  dsimp only
  rw [if_neg hf, hp, hc]
  exact if_neg (Fin.not_lt.mpr hq)

theorem offering_free (h : Free s z) :
    offering p q (s, k) z = (taking p q z s, { k with won := k.won ||| zoneBit z }) := by
  unfold offering
  dsimp only
  rw [if_neg h.1, h.2]

theorem offering_wins (h : Wins s q z o pg) : offering p q (s, k) z = (taking p q z (losing o z s), { k with
    won := k.won ||| zoneBit z
    preempted := k.preempted + 1
    closed := if ((taking p q z (losing o z s)).pages[o]).isNone then k.closed + 1 else k.closed }) := by
  obtain ⟨hf, hp, hpg, _, hq⟩ := h
  have hc : carriedPriority s z = some pg.priority := by rw [carriedPriority_of_page hp, hpg]; rfl
  unfold offering
  dsimp only
  rw [if_neg hf, hp, hc]
  exact if_pos hq

/-! ## What a run of offers reaches -/

theorem Reaches.losing (h : Reaches as u v) : ∃ bs, Reaches bs (losing o z u) (loseZone o z .preempted v)
    ∧ ∀ a ∈ as, a ∈ bs := by
  have hv : v.pages = u.pages := by rw [h.1]; rfl
  unfold Ends.losing
  cases hp : u.pages[o] with
  | none =>
    refine ⟨as, ?_, fun _ h => h⟩
    unfold loseZone
    rw [hv, hp]
    exact h
  | some pg =>
    dsimp only
    by_cases hl : (Without pg z).zones = 0#24
    · rw [if_pos hl]
      exact ⟨_, h.loseZone_last .preempted hp hl, fun _ h => List.mem_cons_of_mem _ h⟩
    · rw [if_neg hl]
      have hget : ({ u with pages := u.pages.set o (some (Without pg z)) } : State).pages[o]
          = some (Without pg z) := by simp
      by_cases hj : pg.state = .opened ∧ allLive u (Without pg z).zones = true
      · rw [if_pos hj]
        refine ⟨.pages :: .pages :: as, h.loseZone_left .preempted hp hl fun v' h' => ?_,
          fun _ h => List.mem_cons_of_mem _ (List.mem_cons_of_mem _ h)⟩
        refine (h'.judgePage_live hget hj.1 hj.2).congr ?_ fun _ => Iff.rfl
        unfold pageLived
        simp only [Vector.set_set]
      · rw [if_neg hj]
        exact ⟨.pages :: as, h.loseZone_left .preempted hp hl fun v' h' => h'.judgePage_same hget hj,
          fun _ h => List.mem_cons_of_mem _ h⟩

theorem Reaches.taking (h : Reaches as u v) : Reaches (.zones :: as) (taking p prio z u) (Machine.beginCarry z p prio v) :=
  h.beginCarry p prio

/-- One offer, with the claim that it comes to. -/
theorem Reaches.offering (h : Reaches as u v) (k : Claim) : ∃ bs,
    Reaches bs (offering p prio (u, k) z).1 (offerZone p prio z (v, k)).1
      ∧ (offerZone p prio z (v, k)).2 = (offering p prio (u, k) z).2 ∧ (∀ a ∈ as, a ∈ bs)
      ∧ ((offering p prio (u, k) z).2.won = k.won ∨ .zones ∈ bs) := by
  have hv : v.zones = u.zones ∧ carriedPriority v z = carriedPriority u z := by rw [h.1]; exact ⟨rfl, rfl⟩
  obtain ⟨hz, hc⟩ := hv
  unfold offerZone Ends.offering
  dsimp only
  rw [hz, hc]
  by_cases hf : u.zones[z].state = .fault
  · rw [if_pos hf, if_pos hf]
    exact ⟨as, h, rfl, fun _ h => h, .inl rfl⟩
  rw [if_neg hf, if_neg hf]
  cases hp : u.zones[z].page with
  | none => exact ⟨_, h.taking, rfl, fun _ h => List.mem_cons_of_mem _ h, .inr List.mem_cons_self⟩
  | some o =>
    cases hk : carriedPriority u z with
    | none => exact ⟨as, h, rfl, fun _ h => h, .inl rfl⟩
    | some other =>
      dsimp only
      by_cases hlt : other < prio
      · rw [if_pos hlt, if_pos hlt]
        obtain ⟨bs, hl, hmono⟩ := h.losing (o := o) (z := z)
        have ht := hl.taking (p := p) (prio := prio) (z := z)
        have hpages : (Machine.beginCarry z p prio (loseZone o z .preempted v)).pages
            = (Ends.taking p prio z (Ends.losing o z u)).pages := by rw [ht.1]; rfl
        refine ⟨_, ht, ?_, fun a ha => List.mem_cons_of_mem _ (hmono a ha), .inr List.mem_cons_self⟩
        rw [hpages]
      · rw [if_neg hlt, if_neg hlt]
        exact ⟨as, h, rfl, fun _ h => h, .inl rfl⟩

theorem Reaches.offers (h : Reaches as u v) (l : List ZoneId) (k : Claim) : ∃ bs,
    Reaches bs (l.foldl (Ends.offering p prio) (u, k)).1 (l.foldl (fun x z => offerZone p prio z x) (v, k)).1
      ∧ (l.foldl (fun x z => offerZone p prio z x) (v, k)).2 = (l.foldl (Ends.offering p prio) (u, k)).2
      ∧ (∀ a ∈ as, a ∈ bs) ∧ ((l.foldl (Ends.offering p prio) (u, k)).2.won = k.won ∨ .zones ∈ bs) := by
  induction l generalizing as u v k with
  | nil => exact ⟨as, h, rfl, fun _ h => h, .inl rfl⟩
  | cons z l ih =>
    obtain ⟨bs, h₁, hk, hmono, hwon⟩ := h.offering (p := p) (prio := prio) (z := z) k
    obtain ⟨cs, h₂, hk', hmono', hwon'⟩ := ih h₁ (Ends.offering p prio (u, k) z).2
    rw [List.foldl_cons, List.foldl_cons, show offerZone p prio z (v, k)
      = ((offerZone p prio z (v, k)).1, (Ends.offering p prio (u, k) z).2) from Prod.ext rfl hk]
    refine ⟨cs, h₂, hk', fun a ha => hmono' a (hmono a ha), ?_⟩
    rcases hwon' with hw | hz
    · rcases hwon with hw' | hz
      · exact .inl (hw.trans hw')
      · exact .inr (hmono' _ hz)
    · exact .inr hz

end Sys2Proof.Proofs.Ends
end

section
/-! PROOF. A page is offered to the members of a group (R152): what a run of offers makes of the zones and of the
pages that lose some (R153, R154). -/

namespace Sys2Proof.Proofs.Ends

open Sys2Proof.Machine

variable {s u x : State} {p o : PageId} {q : Fin 4} {l : List ZoneId} {z y : ZoneId} {k : Claim} {pg : Page}
  {c : CallId}

/-! ## Who wins what -/

/-- Whether the member takes the page. -/
def wonBy (s : State) (q : Fin 4) (z : ZoneId) : Bool :=
  s.zones[z].state != .fault && (s.zones[z].page.isNone || (carriedPriority s z).any (· < q))

/-- The zones of the list that take the page from another. -/
def lostTo (s : State) (q : Fin 4) (l : List ZoneId) (o : PageId) : List ZoneId :=
  l.filter fun z => wonBy s q z && s.zones[z].page == some o

/-- The zones that a page still holds. -/
def leftOf (s : State) (q : Fin 4) (l : List ZoneId) (o : PageId) (pg : Page) : BitVec 24 :=
  pg.zones &&& ~~~(withZones 0#24 (lostTo s q l o))

/-- The page `p`, not in use, is offered to the zones of a list in ascending order. -/
structure Offer (s : State) (p : PageId) (q : Fin 4) (l : List ZoneId) : Prop where
  sorted : l.Pairwise (· < ·)
  free : s.pages[p] = none
  each : ∀ z ∈ l, Declines s z ∨ Skips s q z ∨ Free s z ∨ ∃ o pg, Wins s q z o pg

theorem wonBy_free (h : Free s z) : wonBy s q z = true := by
  unfold wonBy
  rw [h.2, bne_iff_ne.mpr h.1]
  rfl

theorem wonBy_wins (h : Wins s q z o pg) : wonBy s q z = true := by
  obtain ⟨hf, hp, hpg, _, hq⟩ := h
  unfold wonBy
  rw [bne_iff_ne.mpr hf, carriedPriority_of_page hp, hpg]
  simp [hq]

theorem not_wonBy (h : Declines s z ∨ Skips s q z) : wonBy s q z = false := by
  unfold wonBy
  rcases h with h | ⟨hf, o, other, hp, hc, hq⟩
  · rw [h]
    rfl
  · rw [hp, hc]
    simp [Fin.not_lt.mpr hq]

theorem Offer.init (h : Offer s p q (l ++ [z])) : Offer s p q l :=
  ⟨(List.pairwise_append.mp h.sorted).1, h.free, fun y hy => h.each y (List.mem_append_left _ hy)⟩

theorem Offer.lt (h : Offer s p q (l ++ [z])) (hy : y ∈ l) : y < z :=
  (List.pairwise_append.mp h.sorted).2.2 y hy z (List.mem_singleton.mpr rfl)

theorem Offer.not_mem (h : Offer s p q (l ++ [z])) : z ∉ l := fun hz => lt_irrefl z (h.lt hz)

theorem mem_lostTo : y ∈ lostTo s q l o ↔ y ∈ l ∧ wonBy s q y = true ∧ s.zones[y].page = some o := by
  simp [lostTo]

theorem leftOf_getLsbD : (leftOf s q l o pg).getLsbD y = true ↔ pg.zones.getLsbD y = true ∧ y ∉ lostTo s q l o := by
  unfold leftOf
  rw [BitVec.getLsbD_and, BitVec.getLsbD_not, decide_eq_true y.isLt, Bool.true_and, withZones_getLsbD]
  simp

theorem lostTo_concat (l : List ZoneId) (z : ZoneId) (o : PageId) : lostTo s q (l ++ [z]) o
    = if wonBy s q z = true ∧ s.zones[z].page = some o then lostTo s q l o ++ [z] else lostTo s q l o := by
  unfold lostTo
  rw [List.filter_append, List.filter_cons, List.filter_nil]
  by_cases h : wonBy s q z = true ∧ s.zones[z].page = some o
  · rw [if_pos h, if_pos (by simpa using h)]
  · rw [if_neg h, if_neg (by simpa using h), List.append_nil]

theorem lostTo_concat_wins (h : Wins s q z o pg) : lostTo s q (l ++ [z]) o = lostTo s q l o ++ [z] := by
  rw [lostTo_concat, if_pos ⟨wonBy_wins h, h.2.1⟩]

theorem lostTo_concat_other (h : s.zones[z].page ≠ some o) : lostTo s q (l ++ [z]) o = lostTo s q l o := by
  rw [lostTo_concat, if_neg fun hp => h hp.2]

theorem lostTo_concat_not (h : wonBy s q z = false) : lostTo s q (l ++ [z]) o = lostTo s q l o := by
  rw [lostTo_concat, if_neg fun hp => Bool.noConfusion (h.symm.trans hp.1)]

theorem leftOf_congr {l' : List ZoneId} (h : lostTo s q l' o = lostTo s q l o) : leftOf s q l' o pg = leftOf s q l o pg := by
  unfold leftOf
  rw [h]

theorem leftOf_concat_wins (h : Wins s q z o pg) {pg' : Page} (hz : pg'.zones = leftOf s q l o pg) :
    (Without pg' z).zones = leftOf s q (l ++ [z]) o pg := by
  refine zones_ext fun y => ?_
  rw [getLsbD_without, hz, Bool.eq_iff_iff, leftOf_getLsbD, lostTo_concat_wins h, Bool.and_eq_true, bne_iff_ne,
    leftOf_getLsbD, List.mem_append, List.mem_singleton]
  tauto

/-! ## Steps on the state -/

theorem losing_last (hp : s.pages[o] = some pg) (hl : (Without pg z).zones = 0#24) : losing o z s = { s with
    pages := s.pages.set o none
    lastClosed := some { id := o, opener := pg.opener, reason := .preempted, time := s.tod }
    calls := withoutPage pg.opener s.calls
    notes := s.notes ++ closeNotes pg.opener .preempted } := by
  unfold losing
  rw [hp]
  exact if_pos hl

theorem losing_left (hp : s.pages[o] = some pg) (hl : (Without pg z).zones ≠ 0#24) : losing o z s
    = if pg.state = .opened ∧ allLive s (Without pg z).zones = true then pageLived o (Without pg z) s
      else { s with pages := s.pages.set o (some (Without pg z)) } := by
  unfold losing
  rw [hp]
  exact if_neg hl

/-- What a step of the offers may touch. -/
def SameBut (s x : State) : Prop :=
  x = { s with zones := x.zones, pages := x.pages, calls := x.calls, lastClosed := x.lastClosed, notes := x.notes }

theorem SameBut.refl (s : State) : SameBut s s := rfl

theorem SameBut.losing (h : SameBut s x) : SameBut s (losing o z x) := by
  unfold SameBut at *
  rw [h]
  unfold Ends.losing
  split
  · rfl
  · split
    · rfl
    · split <;> rfl

theorem SameBut.taking (h : SameBut s x) : SameBut s (taking p q z x) := by
  unfold SameBut at *
  rw [h]
  rfl

theorem losing_zones : (losing o z s).zones = s.zones := by
  unfold losing
  split
  · rfl
  · split
    · rfl
    · split <;> rfl

theorem losing_pages_other {n : PageId} (h : n ≠ o) : (losing o z s).pages[n] = s.pages[n] := by
  have hset (g : Option Page) : (s.pages.set o g)[n] = s.pages[n] :=
    Vector.getElem_set_ne o.isLt n.isLt fun he => h (Fin.ext he.symm)
  unfold losing
  split
  · rfl
  · split
    · exact hset _
    · split
      · exact hset _
      · exact hset _

theorem carried_same (h : SameBut s x) (page : Option PageId) (prio : Option (Fin 4)) (y : Zone) :
    carried x page prio y = carried s page prio y := by
  unfold SameBut at h
  rw [h]
  rfl

theorem taking_zones (n : ZoneId) : (taking p q z s).zones[n]
    = if n = z then carried s (some p) (some q) s.zones[z] else s.zones[n] := by
  unfold taking rezoned
  by_cases hn : n = z
  · subst hn
    simp
  · rw [if_neg hn]
    exact Vector.getElem_set_ne z.isLt n.isLt fun he => hn (Fin.ext he.symm)

/-! ## Notices about a call -/

/-- Whether a notice tells a call of its page. -/
def concerns (c : CallId) (n : Note) : Bool :=
  match n with
  | .pageLive d => d == c
  | .pageClosed d _ => d == c
  | _ => false

theorem filter_liveNotes (x y : Zone) : (liveNotes z x y).filter (concerns c) = [] := by
  unfold liveNotes
  split <;> rfl

theorem taking_told : (taking p q z s).notes.filter (concerns c) = s.notes.filter (concerns c) := by
  show (s.notes ++ liveNotes z s.zones[z] _).filter (concerns c) = _
  rw [List.filter_append, filter_liveNotes, List.append_nil]

theorem filter_told_self {r : CloseReason} (hr : r ≠ .call) : (liveTold (.call c)).filter (concerns c) = [.pageLive c]
    ∧ (closeNotes (.call c) r).filter (concerns c) = [.pageClosed c r] := by
  unfold liveTold closeNotes
  simp [concerns, hr]

theorem filter_told_other {op : Opener} {r : CloseReason} (h : op ≠ .call c) : (liveTold op).filter (concerns c) = []
    ∧ (closeNotes op r).filter (concerns c) = [] := by
  cases op with
  | request => exact ⟨rfl, rfl⟩
  | call d =>
    have hd : d ≠ c := fun he => h (congrArg _ he)
    unfold liveTold closeNotes
    refine ⟨by simp [concerns, hd], ?_⟩
    dsimp only
    split <;> simp [concerns, hd]

theorem losing_told_other (h : ∀ pg, s.pages[o] = some pg → pg.opener ≠ .call c) :
    (losing o z s).notes.filter (concerns c) = s.notes.filter (concerns c) := by
  unfold losing
  split
  · rfl
  · next pg hp =>
    obtain ⟨hlive, hclose⟩ := filter_told_other (r := .preempted) (h pg hp)
    split
    · show (s.notes ++ _).filter (concerns c) = _
      rw [List.filter_append, hclose, List.append_nil]
    · split
      · show (s.notes ++ liveTold (Without pg z).opener).filter (concerns c) = _
        rw [List.filter_append, show (Without pg z).opener = pg.opener from rfl, hlive, List.append_nil]
      · rfl

/-! ## A page that has lost some of its zones -/

/-- Whether the page has lost its last zone. -/
def goneBy (s : State) (q : Fin 4) (l : List ZoneId) (o : PageId) (pg : Page) : Bool :=
  !(lostTo s q l o).isEmpty && leftOf s q l o pg == 0#24

theorem goneBy_iff : goneBy s q l o pg = true ↔ lostTo s q l o ≠ [] ∧ leftOf s q l o pg = 0#24 := by
  simp [goneBy]

theorem goneBy_congr {l' : List ZoneId} (h : lostTo s q l' o = lostTo s q l o) :
    goneBy s q l' o pg = goneBy s q l o pg := by
  unfold goneBy
  rw [leftOf_congr h, h]

/-- The zones that remain to a page, or were the last before it closed, are all LIVE. -/
def LiveLeft (s : State) (q : Fin 4) (l : List ZoneId) (o : PageId) (pg : Page) : Prop :=
  if leftOf s q l o pg = 0#24 then
    ∃ y z : ZoneId, y < z ∧ y ∈ lostTo s q l o ∧ z ∈ lostTo s q l o ∧ (∀ n ∈ lostTo s q l o, n ≤ z)
      ∧ s.zones[z].state = .live
  else ∀ z : ZoneId, (leftOf s q l o pg).getLsbD z = true → s.zones[z].state = .live

/-- No other page that loses a zone was opened by the call. -/
abbrev OnlyPage (s : State) (q : Fin 4) (l : List ZoneId) (o : PageId) (c : CallId) : Prop :=
  ∀ (n : PageId) (g : Page), s.pages[n] = some g → lostTo s q l n ≠ [] → g.opener = .call c → n = o

/-- What has become of a page that was in use, `lived` saying whether it has become LIVE. -/
structure PageAfter (s : State) (q : Fin 4) (l : List ZoneId) (o : PageId) (pg : Page) (x : State) (lived : Bool) :
    Prop where
  page : x.pages[o] = if goneBy s q l o pg then none else some { pg with
    zones := leftOf s q l o pg, state := if lived then .live else pg.state }
  was : lived = true → pg.state = .opened
  idle : lostTo s q l o = [] → lived = false
  exact : lostTo s q l o ≠ [] →
    (∀ y : ZoneId, (leftOf s q l o pg).getLsbD y = true → wonBy s q y = true → y ∉ l) →
    (lived = true ↔ pg.state = .opened ∧ LiveLeft s q l o pg)
  told : ∀ c, pg.opener = .call c → OnlyPage s q l o c → x.notes.filter (concerns c)
    = (if lived then [.pageLive c] else []) ++ if goneBy s q l o pg then [.pageClosed c .preempted] else []

/-- The state after the offers to a list. -/
structure Offered (s : State) (p : PageId) (q : Fin 4) (l : List ZoneId) (x : State) : Prop where
  same : SameBut s x
  zones : ∀ z : ZoneId, x.zones[z]
    = if z ∈ l ∧ wonBy s q z = true then carried s (some p) (some q) s.zones[z] else s.zones[z]
  unused : ∀ o : PageId, s.pages[o] = none → x.pages[o] = none
  pages : ∀ (o : PageId) (pg : Page), s.pages[o] = some pg → ∃ lived, PageAfter s q l o pg x lived

theorem leftOf_nil (h : lostTo s q l o = []) : leftOf s q l o pg = pg.zones := by
  refine zones_ext fun y => ?_
  rw [Bool.eq_iff_iff, leftOf_getLsbD, h]
  simp

theorem pageAfter_start (hn : s.notes = []) (hp : s.pages[o] = some pg) : PageAfter s q [] o pg s false where
  page := by
    rw [leftOf_nil (l := []) rfl, hp]
    rfl
  was := nofun
  idle _ := rfl
  exact h := absurd rfl h
  told c _ _ := by
    rw [hn]
    rfl

theorem offered_start (hn : s.notes = []) : Offered s p q [] s where
  same := .refl s
  zones z := (if_neg fun h => List.not_mem_nil h.1).symm
  unused _ h := h
  pages _ _ h := ⟨false, pageAfter_start hn h⟩

/-- A page that does not lose the zone stays as it is. -/
theorem PageAfter.other {l' : List ZoneId} {x' : State} {lived : Bool} (h : PageAfter s q l o pg x lived)
    (hl : lostTo s q l' o = lostTo s q l o) (hsub : ∀ y ∈ l, y ∈ l') (hpage : x'.pages[o] = x.pages[o])
    (htold : ∀ c, pg.opener = .call c → OnlyPage s q l' o c →
      OnlyPage s q l o c ∧ x'.notes.filter (concerns c) = x.notes.filter (concerns c)) :
    PageAfter s q l' o pg x' lived := by
  have hleft : leftOf s q l' o pg = leftOf s q l o pg := leftOf_congr hl
  have hlive : LiveLeft s q l' o pg = LiveLeft s q l o pg := by
    unfold LiveLeft
    rw [hl, hleft]
  refine ⟨?_, h.was, fun h' => h.idle (hl ▸ h'), fun h' hd => ?_, fun c hc hu => ?_⟩
  · rw [hpage, goneBy_congr hl, hleft]
    exact h.page
  · rw [hlive]
    refine h.exact (hl ▸ h') fun y hy hw hm => hd y ?_ hw (hsub y hm)
    rw [hleft]
    exact hy
  · obtain ⟨hu', hsame⟩ := htold c hc hu
    rw [hsame, goneBy_congr hl]
    exact h.told c hc hu'

theorem onlyPage_init (h : OnlyPage s q (l ++ [z]) o c) : OnlyPage s q l o c := fun n g hg hl hc => by
  refine h n g hg (fun he => hl ?_) hc
  rw [lostTo_concat] at he
  split at he
  · exact absurd he (List.append_ne_nil_of_right_ne_nil _ (by simp))
  · exact he

/-- A member that does not take the page. -/
theorem Offered.kept (h : Offered s p q l x) (hw : wonBy s q z = false) : Offered s p q (l ++ [z]) x where
  same := h.same
  zones y := by
    rw [h.zones y]
    refine if_congr ?_ rfl rfl
    rw [List.mem_append, List.mem_singleton]
    refine ⟨fun ⟨hm, hy⟩ => ⟨.inl hm, hy⟩, fun ⟨hm, hy⟩ => ⟨hm.resolve_right ?_, hy⟩⟩
    rintro rfl
    exact Bool.noConfusion (hw.symm.trans hy)
  unused := h.unused
  pages o pg hp := by
    obtain ⟨lived, hpa⟩ := h.pages o pg hp
    exact ⟨lived, hpa.other (lostTo_concat_not hw) (fun _ hy => List.mem_append_left _ hy) rfl
      fun _ _ hu => ⟨onlyPage_init hu, rfl⟩⟩

/-- The zones once one more member has taken the page. -/
theorem Offered.zones_taken {x' : State} (h : Offered s p q l x) (ho : Offer s p q (l ++ [z]))
    (hw : wonBy s q z = true) (hs : SameBut s x') (hz : x'.zones = x.zones) (y : ZoneId) :
    (taking p q z x').zones[y]
      = if y ∈ l ++ [z] ∧ wonBy s q y = true then carried s (some p) (some q) s.zones[y] else s.zones[y] := by
  rw [taking_zones, hz]
  by_cases hy : y = z
  · subst hy
    rw [if_pos rfl, h.zones y, if_neg fun hm => ho.not_mem hm.1, carried_same hs, if_pos ⟨by simp, hw⟩]
  · rw [if_neg hy, h.zones y]
    refine if_congr ?_ rfl rfl
    simp [hy]

/-- A member that carried no page has taken the one offered. -/
theorem Offered.free (h : Offered s p q l x) (ho : Offer s p q (l ++ [z])) (hf : Free s z) :
    Offered s p q (l ++ [z]) (taking p q z x) where
  same := h.same.taking
  zones y := h.zones_taken ho (wonBy_free hf) h.same rfl y
  unused := h.unused
  pages o pg hp := by
    obtain ⟨lived, hpa⟩ := h.pages o pg hp
    exact ⟨lived, hpa.other (lostTo_concat_other (by rw [hf.2]; nofun)) (fun _ hy => List.mem_append_left _ hy) rfl
      fun _ _ hu => ⟨onlyPage_init hu, taking_told⟩⟩

/-- A page of which a member is won still stands before. -/
theorem PageAfter.stands {lived : Bool} (h : PageAfter s q l o pg x lived) (hw : Wins s q z o pg) (hz : z ∉ l) :
    x.pages[o] = some { pg with zones := leftOf s q l o pg, state := if lived then .live else pg.state } := by
  have hz : (leftOf s q l o pg).getLsbD z = true := leftOf_getLsbD.mpr ⟨hw.2.2.2.1, fun hm => hz (mem_lostTo.mp hm).1⟩
  rw [h.page, if_neg fun hg => ?_]
  rw [(goneBy_iff.mp hg).2] at hz
  simp at hz

end Sys2Proof.Proofs.Ends
end

section
/-! PROOF. A page is offered to a zone that carries a page of lower priority, which loses it (R152 to R154); a run of
offers (R152, R156). -/

namespace Sys2Proof.Proofs.Ends

open Sys2Proof.Machine

variable {s u x x' : State} {p o : PageId} {q : Fin 4} {l : List ZoneId} {z y : ZoneId} {k : Claim} {pg : Page}
  {c : CallId} {lived : Bool}

/-- The page as it stands before it loses the next zone. -/
def standing (s : State) (q : Fin 4) (l : List ZoneId) (o : PageId) (pg : Page) (lived : Bool) : Page :=
  { pg with zones := leftOf s q l o pg, state := if lived then .live else pg.state }

section

variable (h : PageAfter s q l o pg x lived) (hw : Wins s q z o pg) (hz : z ∉ l)

include hw hz

theorem leftOf_won : (leftOf s q l o pg).getLsbD z = true :=
  leftOf_getLsbD.mpr ⟨hw.2.2.2.1, fun hm => hz (mem_lostTo.mp hm).1⟩

theorem leftOf_concat : (leftOf s q (l ++ [z]) o pg).getLsbD y = true ↔ y ≠ z ∧ (leftOf s q l o pg).getLsbD y = true := by
  rw [leftOf_getLsbD, leftOf_getLsbD, lostTo_concat_wins hw, List.mem_append, List.mem_singleton]
  tauto

theorem goneBy_before : goneBy s q l o pg = false := by
  rw [Bool.eq_false_iff]
  intro hg
  have hl := leftOf_won hw hz
  rw [(goneBy_iff.mp hg).2] at hl
  simp at hl

omit hz in
theorem lostTo_ne_nil : lostTo s q (l ++ [z]) o ≠ [] := by
  rw [lostTo_concat_wins hw]
  simp

theorem liveLeft_before : LiveLeft s q l o pg
    ↔ ∀ y : ZoneId, (leftOf s q l o pg).getLsbD y = true → s.zones[y].state = .live := by
  unfold LiveLeft
  rw [if_neg fun h0 => ?_]
  have hl := leftOf_won hw hz
  rw [h0] at hl
  simp at hl

include h

/-- The page loses its last zone. -/
theorem PageAfter.lost_last (hs : Offer s p q (l ++ [z])) (hl : leftOf s q (l ++ [z]) o pg = 0#24)
    (hpage : x'.pages[o] = none)
    (htold : ∀ c, pg.opener = .call c →
      x'.notes.filter (concerns c) = x.notes.filter (concerns c) ++ [.pageClosed c .preempted]) :
    PageAfter s q (l ++ [z]) o pg x' lived := by
  have hgone : goneBy s q (l ++ [z]) o pg = true := goneBy_iff.mpr ⟨lostTo_ne_nil hw, hl⟩
  have honly (y : ZoneId) (hy : (leftOf s q l o pg).getLsbD y = true) : y = z := by
    by_contra hne
    have := (leftOf_concat hw hz).mpr ⟨hne, hy⟩
    rw [hl] at this
    simp at this
  refine ⟨by rw [hpage, if_pos hgone], h.was, fun h' => absurd h' (lostTo_ne_nil hw), fun _ _ => ?_, fun c hc hu => ?_⟩
  · have hlive : LiveLeft s q (l ++ [z]) o pg ↔ lostTo s q l o ≠ [] ∧ s.zones[z].state = .live := by
      unfold LiveLeft
      rw [if_pos hl, lostTo_concat_wins hw]
      have hmax (n : ZoneId) (hn : n ∈ lostTo s q l o) : n < z := hs.lt (mem_lostTo.mp hn).1
      constructor
      · rintro ⟨y, n, hyn, hy, hn, hall, hlv⟩
        have hzn : z ≤ n := hall z (by simp)
        have hnz : n = z := by
          rcases List.mem_append.mp hn with hn | hn
          · exact absurd (hmax n hn) (not_lt.mpr hzn)
          · exact List.mem_singleton.mp hn
        subst hnz
        refine ⟨fun h0 => ?_, hlv⟩
        rw [h0, List.nil_append, List.mem_singleton] at hy
        exact absurd hyn (by rw [hy]; exact lt_irrefl n)
      · rintro ⟨hne, hlv⟩
        obtain ⟨y, hy⟩ := List.exists_mem_of_ne_nil _ hne
        refine ⟨y, z, hmax y hy, List.mem_append_left _ hy, by simp, fun n hn => ?_, hlv⟩
        rcases List.mem_append.mp hn with hn | hn
        · exact le_of_lt (hmax n hn)
        · exact le_of_eq (List.mem_singleton.mp hn)
    rw [hlive]
    by_cases h0 : lostTo s q l o = []
    · rw [h.idle h0]
      exact ⟨nofun, fun hn => absurd h0 hn.2.1⟩
    · rw [h.exact h0 fun y hy _ => honly y hy ▸ hz, liveLeft_before hw hz]
      refine and_congr_right fun _ => ⟨fun ha => ⟨h0, ha z (leftOf_won hw hz)⟩, fun ha y hy => ?_⟩
      rw [honly y hy]
      exact ha.2
  · rw [htold c hc, h.told c hc (onlyPage_init hu), goneBy_before hw hz, if_pos hgone]
    simp

/-- The page keeps a zone, all that it keeps being LIVE, and has become LIVE. -/
theorem PageAfter.lost_live (hl : leftOf s q (l ++ [z]) o pg ≠ 0#24) (hst : (standing s q l o pg lived).state = .opened)
    (hx : ∀ y : ZoneId, (leftOf s q (l ++ [z]) o pg).getLsbD y = true → x.zones[y].state = .live)
    (hzones : ∀ y : ZoneId, (y ∈ l → wonBy s q y = false) → x.zones[y] = s.zones[y])
    (hpage : x'.pages[o] = some { pg with zones := leftOf s q (l ++ [z]) o pg, state := .live })
    (htold : ∀ c, pg.opener = .call c →
      x'.notes.filter (concerns c) = x.notes.filter (concerns c) ++ [.pageLive c]) :
    PageAfter s q (l ++ [z]) o pg x' true := by
  have hgone : goneBy s q (l ++ [z]) o pg = false := Bool.eq_false_iff.mpr fun hg => hl (goneBy_iff.mp hg).2
  have hwas : lived = false ∧ pg.state = .opened := by
    unfold standing at hst
    cases lived
    · exact ⟨rfl, hst⟩
    · nomatch hst
  refine ⟨?_, fun _ => hwas.2, fun h' => absurd h' (lostTo_ne_nil hw), fun _ hd => ?_, fun c hc hu => ?_⟩
  · rw [hpage, hgone]
    rfl
  · refine ⟨fun _ => ⟨hwas.2, ?_⟩, fun _ => rfl⟩
    unfold LiveLeft
    rw [if_neg hl]
    intro y hy
    rw [← hzones y fun hm => Bool.eq_false_iff.mpr fun hwy => hd y hy hwy (List.mem_append_left _ hm)]
    exact hx y hy
  · rw [htold c hc, h.told c hc (onlyPage_init hu), goneBy_before hw hz, hgone, hwas.1]
    rfl

/-- The page keeps a zone, and is not judged LIVE for it. -/
theorem PageAfter.lost_left (hl : leftOf s q (l ++ [z]) o pg ≠ 0#24)
    (hx : (standing s q l o pg lived).state = .opened →
      ¬ ∀ y : ZoneId, (leftOf s q (l ++ [z]) o pg).getLsbD y = true → x.zones[y].state = .live)
    (hzones : ∀ y : ZoneId, (y ∈ l → wonBy s q y = false) → x.zones[y] = s.zones[y])
    (hpage : x'.pages[o] = some { standing s q l o pg lived with zones := leftOf s q (l ++ [z]) o pg })
    (htold : ∀ c, x'.notes.filter (concerns c) = x.notes.filter (concerns c)) :
    PageAfter s q (l ++ [z]) o pg x' lived := by
  have hgone : goneBy s q (l ++ [z]) o pg = false := Bool.eq_false_iff.mpr fun hg => hl (goneBy_iff.mp hg).2
  refine ⟨?_, h.was, fun h' => absurd h' (lostTo_ne_nil hw), fun _ hd => ?_, fun c hc hu => ?_⟩
  · rw [hpage, hgone]
    rfl
  · have hsame (y : ZoneId) (hy : (leftOf s q (l ++ [z]) o pg).getLsbD y = true) : x.zones[y] = s.zones[y] :=
      hzones y fun hm => Bool.eq_false_iff.mpr fun hwy => hd y hy hwy (List.mem_append_left _ hm)
    have hlive : LiveLeft s q (l ++ [z]) o pg
        ↔ ∀ y : ZoneId, (leftOf s q (l ++ [z]) o pg).getLsbD y = true → s.zones[y].state = .live := by
      unfold LiveLeft
      rw [if_neg hl]
    rw [hlive]
    constructor
    · intro hlv
      have h0 : lostTo s q l o ≠ [] := fun h0 => Bool.noConfusion ((h.idle h0).symm.trans hlv)
      have hex := (h.exact h0 fun y hy hwy hm => ?_).mp hlv
      · rw [liveLeft_before hw hz] at hex
        exact ⟨hex.1, fun y hy => hex.2 y ((leftOf_concat hw hz).mp hy).2⟩
      · by_cases hyz : y = z
        · exact hz (hyz ▸ hm)
        · exact hd y ((leftOf_concat hw hz).mpr ⟨hyz, hy⟩) hwy (List.mem_append_left _ hm)
    · intro ⟨hop, hall⟩
      by_contra hlv
      refine hx ?_ fun y hy => by rw [hsame y hy]; exact hall y hy
      unfold standing
      rw [if_neg hlv]
      exact hop
  · rw [htold c, h.told c hc (onlyPage_init hu), goneBy_before hw hz, hgone]

end

/-- A member that carried a page of lower priority has taken the one offered. -/
theorem Offered.wins (h : Offered s p q l x) (ho : Offer s p q (l ++ [z])) (hw : Wins s q z o pg) :
    Offered s p q (l ++ [z]) (taking p q z (losing o z x)) where
  same := h.same.losing.taking
  zones y := h.zones_taken ho (wonBy_wins hw) h.same.losing losing_zones y
  unused n hn := by
    have hne : n ≠ o := fun he => by
      rw [he, hw.2.2.1] at hn
      nomatch hn
    exact (losing_pages_other hne).trans (h.unused n hn)
  pages n g hg := by
    have hz := ho.not_mem
    obtain ⟨lived, hpa⟩ := h.pages o pg hw.2.2.1
    have hst : x.pages[o] = some (standing s q l o pg lived) := hpa.stands hw hz
    by_cases hne : n = o
    · subst hne
      obtain rfl : g = pg := Option.some_inj.mp (hg.symm.trans hw.2.2.1)
      have hleft : (Without (standing s q l n g lived) z).zones = leftOf s q (l ++ [z]) n g :=
        leftOf_concat_wins hw rfl
      have hzones (y : ZoneId) (hy : y ∈ l → wonBy s q y = false) : x.zones[y] = s.zones[y] := by
        rw [h.zones y, if_neg fun hm => Bool.noConfusion ((hy hm.1).symm.trans hm.2)]
      have hall : allLive x (Without (standing s q l n g lived) z).zones = true
          ↔ ∀ y : ZoneId, (leftOf s q (l ++ [z]) n g).getLsbD y = true → x.zones[y].state = .live := by
        rw [hleft, allLive_iff]
        simp only [mem_zonesOf]
      by_cases hl : leftOf s q (l ++ [z]) n g = 0#24
      · refine ⟨lived, hpa.lost_last hw hz ho hl ?_ fun c hc => ?_⟩ <;> rw [losing_last hst (hleft.trans hl)]
        · simp [taking, rezoned]
        · rw [taking_told, List.filter_append, show (standing s q l n g lived).opener = .call c from hc,
            (filter_told_self (r := .preempted) (by decide)).2]
      · by_cases hj : (standing s q l n g lived).state = .opened ∧ allLive x (Without (standing s q l n g lived) z).zones = true
        · refine ⟨true, hpa.lost_live hw hz hl hj.1 (hall.mp hj.2) hzones ?_ fun c hc => ?_⟩ <;>
            rw [losing_left hst (by rw [hleft]; exact hl), if_pos hj]
          · rw [← hleft]
            simp only [taking, rezoned, pageLived, Fin.getElem_fin, Vector.getElem_set_self]
            rfl
          · rw [taking_told, pageLived, List.filter_append,
              show (Without (standing s q l n g lived) z).opener = .call c from hc, (filter_told_self (r := .preempted) (by decide)).1]
        · refine ⟨lived, hpa.lost_left hw hz hl (fun hop ha => hj ⟨hop, hall.mpr ha⟩) hzones ?_ fun c => ?_⟩ <;>
            rw [losing_left hst (by rw [hleft]; exact hl), if_neg hj]
          · rw [← hleft]
            simp only [taking, rezoned, Fin.getElem_fin, Vector.getElem_set_self]
            rfl
          · exact taking_told
    · obtain ⟨lived', hpa'⟩ := h.pages n g hg
      refine ⟨lived', hpa'.other (lostTo_concat_other ?_) (fun _ hy => List.mem_append_left _ hy)
        (losing_pages_other hne) fun c hc hu => ⟨onlyPage_init hu, ?_⟩⟩
      · rw [hw.2.1]
        exact fun he => hne (Option.some_inj.mp he).symm
      · rw [taking_told]
        refine losing_told_other fun g' hg' hc' => ?_
        obtain rfl := Option.some_inj.mp (hg'.symm.trans hst)
        exact hne (hu o pg hw.2.2.1 (lostTo_ne_nil hw) hc').symm

/-! ## A run of offers -/

/-- The state and the claim once the page has been offered to the zones of a list. -/
def run (s : State) (p : PageId) (q : Fin 4) (l : List ZoneId) : State × Claim :=
  l.foldl (offering p q) (s, Claim.start)

theorem run_concat : run s p q (l ++ [z]) = offering p q (run s p q l) z := by
  unfold run
  rw [List.foldl_append]
  rfl

section

variable (h : Offered s p q l x) (hz : z ∉ l)

include h hz

theorem Offered.zone_same : x.zones[z] = s.zones[z] := by rw [h.zones z, if_neg fun hm => hz hm.1]

theorem Offered.free_now (hf : Free s z) : Free x z := by
  unfold Free
  rw [h.zone_same hz]
  exact hf

theorem Offered.declines_now (hd : Declines s z) : Declines x z := by
  unfold Declines
  rw [h.zone_same hz]
  exact hd

theorem Offered.wins_now (hw : Wins s q z o pg) : ∃ lived, PageAfter s q l o pg x lived
    ∧ x.pages[o] = some (standing s q l o pg lived) ∧ Wins x q z o (standing s q l o pg lived) := by
  obtain ⟨lived, hpa⟩ := h.pages o pg hw.2.2.1
  refine ⟨lived, hpa, hpa.stands hw hz, ?_⟩
  unfold Wins
  rw [h.zone_same hz]
  exact ⟨hw.1, hw.2.1, hpa.stands hw hz, leftOf_won hw hz, hw.2.2.2.2⟩

/-- A page of equal or higher priority has lost nothing. -/
theorem Offered.skips_now (hs : ∀ y ∈ l, Declines s y ∨ Skips s q y ∨ Free s y ∨ ∃ o pg, Wins s q y o pg)
    (hk : Skips s q z) : Skips x q z := by
  obtain ⟨hf, o, other, hp, hc, hq⟩ := hk
  have hpr := hc
  rw [carriedPriority_of_page hp] at hpr
  obtain ⟨pg, hpg, rfl⟩ := Option.map_eq_some_iff.mp hpr
  obtain ⟨lived, hpa⟩ := h.pages o pg hpg
  have hlost : lostTo s q l o = [] := List.filter_eq_nil_iff.mpr fun y hy hb => by
    have hb : wonBy s q y = true ∧ s.zones[y].page = some o := by simpa using hb
    have : carriedPriority s y = some pg.priority := by rw [carriedPriority_of_page hb.2, hpg]; rfl
    have hwon := hb.1
    unfold wonBy at hwon
    rw [hb.2, this] at hwon
    have : pg.priority < q := by simpa using (Bool.and_eq_true_iff.mp hwon).2
    exact absurd hq (Fin.not_le.mpr this)
  have hpage : x.zones[z].page = some o := by rw [h.zone_same hz]; exact hp
  unfold Skips
  rw [h.zone_same hz]
  refine ⟨hf, o, pg.priority, hp, ?_, hq⟩
  rw [carriedPriority_of_page hpage, hpa.page, if_neg fun hg => (goneBy_iff.mp hg).1 hlost]
  rfl

end

/-- A run of offers comes to what has been said of it. -/
theorem offered_run (hn : s.notes = []) (ho : Offer s p q l) : Offered s p q l (run s p q l).1 := by
  induction l using List.reverseRecOn with
  | nil => exact offered_start hn
  | append_singleton l z ih =>
    have hl := ih ho.init
    have hz := ho.not_mem
    rw [run_concat, show run s p q l = ((run s p q l).1, (run s p q l).2) from rfl]
    rcases ho.each z (by simp) with hd | hk | hf | ⟨o, pg, hw⟩
    · rw [offering_declines (hl.declines_now hz hd)]
      exact hl.kept (not_wonBy (.inl hd))
    · rw [offering_skips (hl.skips_now hz ho.init.each hk)]
      exact hl.kept (not_wonBy (.inr hk))
    · rw [offering_free (hl.free_now hz hf)]
      exact hl.free ho hf
    · obtain ⟨lived, _, _, hwx⟩ := hl.wins_now hz hw
      rw [offering_wins hwx]
      exact hl.wins ho hw

end Sys2Proof.Proofs.Ends
end

section
/-! PROOF. A page is offered to the members of a group (R152): what a run of offers makes of the calls, the
last-closed record and the notices, and what it has come to (R154, R156). -/

namespace Sys2Proof.Proofs.Ends

open Sys2Proof.Machine

variable {s u x x' : State} {p o : PageId} {q : Fin 4} {l : List ZoneId} {z y : ZoneId} {k k' : Claim} {pg : Page}
  {c : CallId} {lived : Bool}

/-- The state once a page has closed with its last zone. -/
def closing (o : PageId) (op : Opener) (s : State) : State := { s with
  pages := s.pages.set o none
  lastClosed := some { id := o, opener := op, reason := .preempted, time := s.tod }
  calls := withoutPage op s.calls
  notes := s.notes ++ closeNotes op .preempted }

/-- Induction along a run of offers. -/
theorem run_induction {P : List ZoneId → State → Claim → Prop} (hn : s.notes = []) (start : P [] s Claim.start)
    (kept : ∀ l z x k k', Offer s p q (l ++ [z]) → wonBy s q z = false →
      k'.won = k.won ∧ k'.preempted = k.preempted ∧ k'.closed = k.closed → P l x k → P (l ++ [z]) x k')
    (free : ∀ l z x k, Offer s p q (l ++ [z]) → Offered s p q l x → Free s z → P l x k →
      P (l ++ [z]) (taking p q z x) { k with won := k.won ||| zoneBit z })
    (last : ∀ l z x k o pg, Offer s p q (l ++ [z]) → Offered s p q l x → Wins s q z o pg →
      leftOf s q (l ++ [z]) o pg = 0#24 → P l x k →
      P (l ++ [z]) (taking p q z (closing o pg.opener x)) { k with
        won := k.won ||| zoneBit z, preempted := k.preempted + 1, closed := k.closed + 1 })
    (left : ∀ l z x k o pg x' ns, Offer s p q (l ++ [z]) → Offered s p q l x → Wins s q z o pg →
      leftOf s q (l ++ [z]) o pg ≠ 0#24 → SameBut s x' → x'.zones = x.zones → x'.calls = x.calls →
      x'.lastClosed = x.lastClosed → x'.notes = x.notes ++ ns → ns = [] ∨ ns = liveTold pg.opener → P l x k →
      P (l ++ [z]) (taking p q z x') { k with won := k.won ||| zoneBit z, preempted := k.preempted + 1 })
    (ho : Offer s p q l) : P l (run s p q l).1 (run s p q l).2 := by
  induction l using List.reverseRecOn with
  | nil => exact start
  | append_singleton l z ih =>
    have hl := offered_run hn ho.init
    have hP := ih ho.init
    have hz := ho.not_mem
    rw [run_concat, show run s p q l = ((run s p q l).1, (run s p q l).2) from rfl]
    generalize (run s p q l).1 = x at hl hP
    generalize (run s p q l).2 = k at hP
    rcases ho.each z (by simp) with hd | hk | hf | ⟨o, pg, hw⟩
    · rw [offering_declines (hl.declines_now hz hd)]
      exact kept l z x k _ ho (not_wonBy (.inl hd)) ⟨rfl, rfl, rfl⟩ hP
    · rw [offering_skips (hl.skips_now hz ho.init.each hk)]
      exact kept l z x k _ ho (not_wonBy (.inr hk)) ⟨rfl, rfl, rfl⟩ hP
    · rw [offering_free (hl.free_now hz hf)]
      exact free l z x k ho hl hf hP
    · obtain ⟨lived, hpa, hst, hwx⟩ := hl.wins_now hz hw
      have hleft : (Without (standing s q l o pg lived) z).zones = leftOf s q (l ++ [z]) o pg :=
        leftOf_concat_wins hw rfl
      rw [offering_wins hwx]
      by_cases h0 : leftOf s q (l ++ [z]) o pg = 0#24
      · rw [losing_last hst (hleft.trans h0)]
        have hgone : (taking p q z (closing o pg.opener x)).pages[o] = none := by
          simp [taking, rezoned, closing]
        have hP' := last l z x k o pg ho hl hw h0 hP
        change P (l ++ [z]) (taking p q z (closing o pg.opener x)) { k with
          won := k.won ||| zoneBit z, preempted := k.preempted + 1
          closed := if ((taking p q z (closing o pg.opener x)).pages[o]).isNone then k.closed + 1 else k.closed }
        rw [hgone]
        exact hP'
      · have hlost := losing_left hst (by rw [hleft]; exact h0)
        have hstay : ((taking p q z (losing o z x)).pages[o]).isNone = false := by
          show ((losing o z x).pages[o]).isNone = false
          rw [hlost]
          split
          · simp [pageLived]
          · simp
        have hparts : (losing o z x).calls = x.calls ∧ (losing o z x).lastClosed = x.lastClosed
            ∧ ∃ ns, (losing o z x).notes = x.notes ++ ns ∧ (ns = [] ∨ ns = liveTold pg.opener) := by
          rw [hlost]
          split
          · exact ⟨rfl, rfl, _, rfl, .inr rfl⟩
          · exact ⟨rfl, rfl, [], (List.append_nil _).symm, .inl rfl⟩
        obtain ⟨hcalls, hlc, ns, hns, hcase⟩ := hparts
        have hP' := left l z x k o pg (losing o z x) ns ho hl hw h0 hl.same.losing losing_zones hcalls hlc hns hcase hP
        rw [hstay]
        exact hP'

/-! ## The calls -/

/-- A page that the call opened has lost its last zone. -/
def Unpaged (s : State) (q : Fin 4) (l : List ZoneId) (c : CallId) : Prop :=
  ∃ o pg, s.pages[o] = some pg ∧ goneBy s q l o pg = true ∧ pg.opener = .call c

/-- The call without its page. -/
def pageless (y : Call) : Call := { y with inst := y.inst.map fun i => { i with page := none } }

/-- What a page has lost to a list it has lost to a longer one. -/
theorem goneBy_mono (h : goneBy s q l o pg = true) (z : ZoneId) : goneBy s q (l ++ [z]) o pg = true := by
  obtain ⟨hne, hl⟩ := goneBy_iff.mp h
  have hsub (y : ZoneId) (hy : y ∈ lostTo s q l o) : y ∈ lostTo s q (l ++ [z]) o := by
    obtain ⟨h1, h2⟩ := mem_lostTo.mp hy
    exact mem_lostTo.mpr ⟨List.mem_append_left _ h1, h2⟩
  obtain ⟨y, hy⟩ := List.exists_mem_of_ne_nil _ hne
  refine goneBy_iff.mpr ⟨List.ne_nil_of_mem (hsub y hy), zones_ext fun n => ?_⟩
  rw [Bool.eq_iff_iff, leftOf_getLsbD, BitVec.getLsbD_zero]
  refine ⟨fun ⟨hp, hnot⟩ => ?_, nofun⟩
  have : (leftOf s q l o pg).getLsbD n = true := leftOf_getLsbD.mpr ⟨hp, fun hm => hnot (hsub n hm)⟩
  rw [hl] at this
  simp at this

/-- Which pages have closed changes only with the page of the zone offered. -/
theorem goneBy_concat_other {n : PageId} {g : Page} (h : s.zones[z].page ≠ some n) :
    goneBy s q (l ++ [z]) n g = goneBy s q l n g := goneBy_congr (lostTo_concat_other h)

theorem goneBy_concat_left (hw : Wins s q z o pg) (hz : z ∉ l) (hl : leftOf s q (l ++ [z]) o pg ≠ 0#24)
    {n : PageId} {g : Page} (hg : s.pages[n] = some g) : goneBy s q (l ++ [z]) n g = goneBy s q l n g := by
  by_cases hne : n = o
  · subst hne
    obtain rfl := Option.some_inj.mp (hg.symm.trans hw.2.2.1)
    rw [goneBy_before hw hz]
    exact Bool.eq_false_iff.mpr fun hgone => hl (goneBy_iff.mp hgone).2
  · refine goneBy_concat_other ?_
    rw [hw.2.1]
    exact fun he => hne (Option.some_inj.mp he).symm

theorem unpaged_congr {l' : List ZoneId} (h : ∀ n g, s.pages[n] = some g → goneBy s q l' n g = goneBy s q l n g) :
    Unpaged s q l' c ↔ Unpaged s q l c := by
  unfold Unpaged
  refine exists_congr fun n => exists_congr fun g => and_congr_right fun hg => ?_
  rw [h n g hg]

theorem goneBy_concat_last (hw : Wins s q z o pg) (hl : leftOf s q (l ++ [z]) o pg = 0#24) :
    goneBy s q (l ++ [z]) o pg = true := goneBy_iff.mpr ⟨lostTo_ne_nil hw, hl⟩

theorem withoutPage_get {op : Opener} {calls : Vector Call 16} :
    (withoutPage op calls)[c] = if op = .call c then pageless calls[c] else calls[c] := by
  unfold withoutPage
  cases op with
  | request => rw [if_neg nofun]
  | call d =>
    by_cases hd : d = c
    · subst hd
      rw [if_pos rfl]
      exact upd_get_self ..
    · rw [if_neg fun he => hd (Opener.call.inj he)]
      exact upd_get_ne _ _ _ _ hd

theorem pageless_pageless (y : Call) : pageless (pageless y) = pageless y := by
  unfold pageless
  cases y.inst <;> rfl

open Classical in
/-- After a run of offers just the calls whose pages have closed are without them. -/
theorem run_calls (hn : s.notes = []) (ho : Offer s p q l) (c : CallId) :
    (run s p q l).1.calls[c] = if Unpaged s q l c then pageless s.calls[c] else s.calls[c] := by
  refine run_induction (P := fun l x _ => x.calls[c] = if Unpaged s q l c then pageless s.calls[c] else s.calls[c])
    hn ?_ ?_ ?_ ?_ ?_ ho
  · exact (if_neg fun ⟨_, _, _, hg, _⟩ => (goneBy_iff.mp hg).1 rfl).symm
  · intro l z x k k' _ hw _ h
    rw [h]
    exact if_congr (unpaged_congr fun n g _ => goneBy_congr (lostTo_concat_not hw)).symm rfl rfl
  · intro l z x k _ _ hf h
    rw [show (taking p q z x).calls = x.calls from rfl, h]
    exact if_congr (unpaged_congr fun n g _ => goneBy_concat_other (by rw [hf.2]; nofun)).symm rfl rfl
  · intro l z x k o pg _ _ hw hl h
    rw [show (taking p q z (closing o pg.opener x)).calls = withoutPage pg.opener x.calls from rfl, withoutPage_get, h]
    by_cases hc : pg.opener = .call c
    · rw [if_pos hc, if_pos (show Unpaged s q (l ++ [z]) c from ⟨o, pg, hw.2.2.1, goneBy_concat_last hw hl, hc⟩)]
      split
      · exact pageless_pageless _
      · rfl
    · rw [if_neg hc]
      refine if_congr ⟨fun ⟨n, g, hg, hgone, hop⟩ => ⟨n, g, hg, goneBy_mono hgone z, hop⟩,
        fun ⟨n, g, hg, hgone, hop⟩ => ⟨n, g, hg, ?_, hop⟩⟩ rfl rfl
      rw [goneBy_concat_other] at hgone
      · exact hgone
      · rintro he
        obtain rfl := Option.some_inj.mp (hw.2.1.symm.trans he)
        obtain rfl := Option.some_inj.mp (hg.symm.trans hw.2.2.1)
        exact hc hop
  · intro l z x k o pg x' ns ho _ hw hl _ _ hcalls _ _ _ h
    rw [show (taking p q z x').calls = x.calls from hcalls, h]
    exact if_congr (unpaged_congr fun n g hg => goneBy_concat_left hw ho.not_mem hl hg).symm rfl rfl

/-! ## The last-closed record -/

/-- The last-closed record is that of the page that lost its last zone last. -/
def LastClosedAfter (s : State) (q : Fin 4) (l : List ZoneId) (x : State) : Prop :=
  ((∀ n g, s.pages[n] = some g → goneBy s q l n g = false) → x.lastClosed = s.lastClosed)
  ∧ ∀ (o : PageId) (pg : Page) (z : ZoneId), s.pages[o] = some pg → goneBy s q l o pg = true → z ∈ lostTo s q l o →
    (∀ (n : PageId) (g : Page) (y : ZoneId), s.pages[n] = some g → goneBy s q l n g = true → y ∈ lostTo s q l n → y ≤ z) →
    x.lastClosed = some { id := o, opener := pg.opener, reason := .preempted, time := s.tod }

/-- No page has closed with the offer to one member more. -/
theorem LastClosedAfter.stays (h : LastClosedAfter s q l x) (hx : x'.lastClosed = x.lastClosed)
    (hg : ∀ n g, s.pages[n] = some g → goneBy s q (l ++ [z]) n g = goneBy s q l n g)
    (hl : ∀ n g, s.pages[n] = some g → goneBy s q l n g = true → lostTo s q (l ++ [z]) n = lostTo s q l n) :
    LastClosedAfter s q (l ++ [z]) x' := by
  refine ⟨fun hno => hx.trans (h.1 fun n g hp => (hg n g hp).symm.trans (hno n g hp)), fun o pg y hp hgone hy hmax => ?_⟩
  rw [hg o pg hp] at hgone
  rw [hl o pg hp hgone] at hy
  refine hx.trans (h.2 o pg y hp hgone hy fun n g w hp' hgone' hw => hmax n g w hp' ?_ ?_)
  · rw [hg n g hp']
    exact hgone'
  · rw [hl n g hp' hgone']
    exact hw

theorem run_lastClosed (hn : s.notes = []) (ho : Offer s p q l) : LastClosedAfter s q l (run s p q l).1 := by
  refine run_induction (P := fun l x _ => LastClosedAfter s q l x) hn ?_ ?_ ?_ ?_ ?_ ho
  · exact ⟨fun _ => rfl, fun _ _ _ _ hg => absurd rfl (goneBy_iff.mp hg).1⟩
  · intro l z x k k' _ hw _ h
    exact h.stays rfl (fun n g _ => goneBy_congr (lostTo_concat_not hw)) fun n g _ _ => lostTo_concat_not hw
  · intro l z x k _ _ hf h
    exact h.stays rfl (fun n g _ => goneBy_concat_other (by rw [hf.2]; nofun))
      fun n g _ _ => lostTo_concat_other (by rw [hf.2]; nofun)
  · intro l z x k o pg ho hx hw hl _
    have htod : x.tod = s.tod := by rw [hx.same]
    refine ⟨fun hno => ?_, fun n g y hp hgone hy hmax => ?_⟩
    · exact Bool.noConfusion ((hno o pg hw.2.2.1).symm.trans (goneBy_concat_last hw hl))
    · have hzy : z ≤ y := hmax o pg z hw.2.2.1 (goneBy_concat_last hw hl) (by rw [lostTo_concat_wins hw]; simp)
      obtain ⟨hm, _, hpage⟩ := mem_lostTo.mp hy
      have hyz : y = z := by
        rcases List.mem_append.mp hm with hm | hm
        · exact absurd (ho.lt hm) (not_lt.mpr hzy)
        · exact List.mem_singleton.mp hm
      subst hyz
      obtain rfl := Option.some_inj.mp (hw.2.1.symm.trans hpage)
      obtain rfl := Option.some_inj.mp (hp.symm.trans hw.2.2.1)
      show some _ = _
      rw [htod]
  · intro l z x k o pg x' ns ho _ hw hl _ _ _ hlc _ _ h
    refine h.stays hlc (fun n g hg => goneBy_concat_left hw ho.not_mem hl hg) fun n g hg hgone => ?_
    refine lostTo_concat_other fun he => ?_
    obtain rfl := Option.some_inj.mp (hw.2.1.symm.trans he)
    obtain rfl := Option.some_inj.mp (hg.symm.trans hw.2.2.1)
    rw [goneBy_before hw ho.not_mem] at hgone
    nomatch hgone

/-! ## The notices -/

/-- What a run of offers tells. -/
def Told (s : State) (q : Fin 4) (l : List ZoneId) (n : Note) : Prop :=
  (∃ z ∈ l, wonBy s q z = true ∧ n = .zoneLive z)
    ∨ ∃ o pg c, s.pages[o] = some pg ∧ lostTo s q l o ≠ [] ∧ pg.opener = .call c
        ∧ (n = .pageLive c ∨ n = .pageClosed c .preempted ∧ goneBy s q l o pg = true)

theorem Told.mono {n : Note} (h : Told s q l n) (z : ZoneId) : Told s q (l ++ [z]) n := by
  rcases h with ⟨y, hy, h⟩ | ⟨o, pg, c, hp, hl, hc, h⟩
  · exact .inl ⟨y, List.mem_append_left _ hy, h⟩
  · refine .inr ⟨o, pg, c, hp, fun h0 => hl ?_, hc, h.imp_right fun ⟨hn, hg⟩ => ⟨hn, goneBy_mono hg z⟩⟩
    rw [lostTo_concat] at h0
    split at h0
    · exact absurd h0 (List.append_ne_nil_of_right_ne_nil _ (by simp))
    · exact h0

theorem told_liveNotes {n : Note} {y y' : Zone} (hw : wonBy s q z = true) (h : n ∈ liveNotes z y y') :
    Told s q (l ++ [z]) n := by
  unfold liveNotes at h
  split at h
  · exact .inl ⟨z, by simp, hw, List.mem_singleton.mp h⟩
  · exact absurd h List.not_mem_nil

theorem liveNotes_length (y y' : Zone) : (liveNotes z y y').length ≤ 1 := by
  unfold liveNotes
  split <;> simp

theorem taking_notes : ∃ y y', (taking p q z s).notes = s.notes ++ liveNotes z y y' := ⟨_, _, rfl⟩

/-- What has been told, and how much of it. -/
def NotesAfter (s : State) (q : Fin 4) (l : List ZoneId) (x : State) : Prop :=
  (∀ n ∈ x.notes, Told s q l n) ∧ x.notes.length ≤ 2 * l.length

theorem NotesAfter.taken {ns : List Note} (h : NotesAfter s q l x) (hw : wonBy s q z = true)
    (hx : x'.notes = x.notes ++ ns) (hns : ∀ n ∈ ns, Told s q (l ++ [z]) n) (hlen : ns.length ≤ 1) :
    NotesAfter s q (l ++ [z]) (taking p q z x') := by
  obtain ⟨y, y', ht⟩ := taking_notes (p := p) (q := q) (z := z) (s := x')
  refine ⟨fun n hm => ?_, ?_⟩
  · rw [ht, hx] at hm
    rcases List.mem_append.mp hm with hm | hm
    · exact (List.mem_append.mp hm).elim (fun hm => (h.1 n hm).mono z) (hns n)
    · exact told_liveNotes hw hm
  · rw [ht, hx, List.length_append, List.length_append, List.length_append, List.length_singleton]
    have := liveNotes_length (z := z) y y'
    have := h.2
    omega

theorem told_length (op : Opener) : (liveTold op).length ≤ 1 ∧ (closeNotes op .preempted).length ≤ 1 := by
  cases op with
  | request => exact ⟨Nat.zero_le _, Nat.zero_le _⟩
  | call c => exact ⟨le_rfl, le_rfl⟩

theorem run_notes (hn : s.notes = []) (ho : Offer s p q l) : NotesAfter s q l (run s p q l).1 := by
  refine run_induction (P := fun l x _ => NotesAfter s q l x) hn ?_ ?_ ?_ ?_ ?_ ho
  · exact ⟨by rw [hn]; nofun, by rw [hn]; exact Nat.zero_le _⟩
  · intro l z x k k' _ _ _ h
    exact ⟨fun n hm => (h.1 n hm).mono z, h.2.trans (by rw [List.length_append]; omega)⟩
  · intro l z x k _ _ hf h
    exact h.taken (ns := []) (wonBy_free hf) (List.append_nil _).symm nofun (Nat.zero_le _)
  · intro l z x k o pg _ _ hw hl h
    refine h.taken (wonBy_wins hw) (x' := closing o pg.opener x) rfl (fun n hm => ?_) (told_length _).2
    cases hop : pg.opener with
    | request => rw [hop] at hm; nomatch hm
    | call c =>
      rw [hop] at hm
      exact .inr ⟨o, pg, c, hw.2.2.1, lostTo_ne_nil hw, hop,
        .inr ⟨List.mem_singleton.mp hm, goneBy_concat_last hw hl⟩⟩
  · intro l z x k o pg x' ns _ _ hw _ _ _ _ _ hns hcase h
    refine h.taken (wonBy_wins hw) hns (fun n hm => ?_) ?_
    · rcases hcase with rfl | rfl
      · nomatch hm
      · cases hop : pg.opener with
        | request => rw [hop] at hm; nomatch hm
        | call c =>
          rw [hop] at hm
          exact .inr ⟨o, pg, c, hw.2.2.1, lostTo_ne_nil hw, hop, .inl (List.mem_singleton.mp hm)⟩
    · rcases hcase with rfl | rfl
      · exact Nat.zero_le _
      · exact (told_length _).1

/-! ## The claim -/

theorem withZones_concat (b : BitVec 24) (l : List ZoneId) (z : ZoneId) :
    withZones b (l ++ [z]) = withZones b l ||| zoneBit z := by
  unfold withZones
  rw [List.foldl_append]
  rfl

/-- The members of a list that take the page. -/
def winners (s : State) (q : Fin 4) (l : List ZoneId) : List ZoneId := l.filter (wonBy s q)

theorem winners_concat_won (h : wonBy s q z = true) : winners s q (l ++ [z]) = winners s q l ++ [z] := by
  unfold winners
  rw [List.filter_append, List.filter_cons, if_pos h, List.filter_nil]

theorem winners_concat_not (h : wonBy s q z = false) : winners s q (l ++ [z]) = winners s q l := by
  unfold winners
  rw [List.filter_append, List.filter_cons, h, List.filter_nil]
  exact List.append_nil _

/-- Whether the page of this number has lost its last zone. -/
def goneAt (s : State) (q : Fin 4) (l : List ZoneId) (n : PageId) : Bool := (s.pages[n]).any (goneBy s q l n)

theorem goneAt_congr {l' : List ZoneId} (h : ∀ n g, s.pages[n] = some g → goneBy s q l' n g = goneBy s q l n g) :
    goneAt s q l' = goneAt s q l := by
  funext n
  unfold goneAt
  cases hp : s.pages[n] with
  | none => rfl
  | some g => exact h n g hp

/-- One page more has a property that none of the others has gained. -/
theorem filter_length_succ {n : Nat} {f g : Fin n → Bool} {a : Fin n} (ha : f a = true) (hb : g a = false)
    (h : ∀ i, i ≠ a → f i = g i) : ((List.finRange n).filter f).length = ((List.finRange n).filter g).length + 1 := by
  have key (l : List (Fin n)) (hl : l.Nodup) (hm : a ∈ l) : (l.filter f).length = (l.filter g).length + 1 := by
    induction l with
    | nil => nomatch hm
    | cons i l ih =>
      obtain ⟨hi, hl⟩ := List.nodup_cons.mp hl
      rw [List.filter_cons, List.filter_cons]
      by_cases hia : i = a
      · subst hia
        have hsame : l.filter f = l.filter g := List.filter_congr fun j hj => h j fun he => hi (he ▸ hj)
        rw [if_pos ha, hb, hsame]
        rfl
      · have := ih hl ((List.mem_cons.mp hm).resolve_left fun he => hia he.symm)
        rw [h i hia]
        split
        · rw [List.length_cons, List.length_cons, this]
        · exact this
  exact key _ (List.nodup_finRange n) (List.mem_finRange a)

theorem filter_concat_length {α : Type} (f : α → Bool) (l : List α) (a : α) :
    ((l ++ [a]).filter f).length = (l.filter f).length + if f a then 1 else 0 := by
  rw [List.filter_append, List.length_append, List.filter_cons, List.filter_nil]
  congr 1
  split <;> rfl

/-- What the offers to a list have come to. -/
def ClaimAfter (s : State) (q : Fin 4) (l : List ZoneId) (k : Claim) : Prop :=
  k.won = withZones 0#24 (winners s q l)
    ∧ k.preempted = ((winners s q l).filter fun z => s.zones[z].page.isSome).length
    ∧ k.closed = ((List.finRange 4).filter (goneAt s q l)).length

theorem run_claim (hn : s.notes = []) (ho : Offer s p q l) : ClaimAfter s q l (run s p q l).2 := by
  refine run_induction (P := fun l _ k => ClaimAfter s q l k) hn ?_ ?_ ?_ ?_ ?_ ho
  · refine ⟨rfl, rfl, ?_⟩
    have : goneAt s q [] = fun _ => false := by
      funext n
      unfold goneAt
      cases s.pages[n] <;> rfl
    rw [this]
    rfl
  · intro l z x k k' _ hw hk h
    obtain ⟨h1, h2, h3⟩ := hk
    unfold ClaimAfter
    rw [h1, h2, h3, winners_concat_not hw, goneAt_congr fun n g _ => goneBy_congr (lostTo_concat_not hw)]
    exact h
  · intro l z x k _ _ hf ⟨h1, h2, h3⟩
    unfold ClaimAfter
    rw [winners_concat_won (wonBy_free hf), withZones_concat, filter_concat_length, hf.2,
      goneAt_congr fun n g _ => goneBy_concat_other (by rw [hf.2]; nofun)]
    exact ⟨congrArg (· ||| zoneBit z) h1, h2, h3⟩
  · intro l z x k o pg ho _ hw hl ⟨h1, h2, h3⟩
    unfold ClaimAfter
    rw [winners_concat_won (wonBy_wins hw), withZones_concat, filter_concat_length, hw.2.1]
    refine ⟨congrArg (· ||| zoneBit z) h1, congrArg (· + 1) h2, ?_⟩
    rw [filter_length_succ (f := goneAt s q (l ++ [z])) (g := goneAt s q l) (a := o)]
    · exact congrArg (· + 1) h3
    · unfold goneAt
      rw [hw.2.2.1]
      exact goneBy_concat_last hw hl
    · unfold goneAt
      rw [hw.2.2.1]
      exact goneBy_before hw ho.not_mem
    · intro n hne
      unfold goneAt
      cases s.pages[n] with
      | none => rfl
      | some g =>
        refine goneBy_concat_other ?_
        rw [hw.2.1]
        exact fun he => hne (Option.some_inj.mp he).symm
  · intro l z x k o pg x' ns ho _ hw hl _ _ _ _ _ _ ⟨h1, h2, h3⟩
    unfold ClaimAfter
    rw [winners_concat_won (wonBy_wins hw), withZones_concat, filter_concat_length, hw.2.1,
      goneAt_congr fun n g hg => goneBy_concat_left hw ho.not_mem hl hg]
    exact ⟨congrArg (· ||| zoneBit z) h1, congrArg (· + 1) h2, h3⟩

end Sys2Proof.Proofs.Ends
end

section
/-! PROOF. What the calls make of it when one open takes zones from their pages: the notices worked off one after the
other (R153, R154, R161, R162; log 22). -/

namespace Sys2Proof.Proofs.Ends

open Sys2Proof.Machine

variable {s u v w : State} {as bs : List Area} {c d : CallId} {n m : Note} {ns ms : List Note} {i : CallInst}
  {x : VoiceId} {y : Call × Voice}

/-! ## One notice -/

/-- The state once a call has begun to play. -/
def soundsCall (c : CallId) (s : State) : State := { s with
  calls := upd s.calls c (inPhase .playing), voices := upd s.voices s.calls[c].cfg.voice Voice.started }

/-- The state once a notice of a page has been worked off, but for what is told of a voice released by it. -/
def told (s : State) (n : Note) : State :=
  match n with
  | .pageLive c =>
    match s.calls[c].inst with
    | some i => if i.phase = .waitZones then soundsCall c s else s
    | none => s
  | .pageClosed c _ =>
    match s.calls[c].inst with
    | some i => callLost c s.calls[c].cfg.voice i s
    | none => s
  | _ => s

/-- The call runs with its voice. -/
def Stands (s : State) (c : CallId) : Prop := ∀ i, s.calls[c].inst = some i → i.phase ≠ .waitVoice
  ∧ s.voices[s.calls[c].cfg.voice].owner = .call c ∧ s.voices[s.calls[c].cfg.voice].state ≠ .idle

/-- The notice finds what it tells of. -/
def Heard (s : State) (n : Note) : Prop :=
  match n with
  | .zoneLive z => Idle (.zoneLive z) s
  | .pageLive c => Stands s c
  | .pageClosed c r => Stands s c ∧ r = .preempted ∧ ∀ i, s.calls[c].inst = some i → i.page = none
  | _ => False

theorem told_live_none (h : s.calls[c].inst = none) : told s (.pageLive c) = s := by
  unfold told
  dsimp only
  rw [h]

theorem told_live (h : s.calls[c].inst = some i) :
    told s (.pageLive c) = if i.phase = .waitZones then soundsCall c s else s := by
  unfold told
  dsimp only
  rw [h]

theorem told_closed_none {r : CloseReason} (h : s.calls[c].inst = none) : told s (.pageClosed c r) = s := by
  unfold told
  dsimp only
  rw [h]

theorem told_closed {r : CloseReason} (h : s.calls[c].inst = some i) :
    told s (.pageClosed c r) = callLost c s.calls[c].cfg.voice i s := by
  unfold told
  dsimp only
  rw [h]

/-- What a notice makes of a call and its voice. -/
def toldCall (y : Call × Voice) (n : Note) : Call × Voice :=
  match y.1.inst with
  | none => y
  | some i =>
    match n with
    | .pageLive _ => if i.phase = .waitZones then (inPhase .playing y.1, Voice.started y.2) else y
    | .pageClosed .. => ({ y.1 with
        inst := none, outcome := if i.phase = .playing then .done true else .missed .pageClosed }, Voice.idled y.2)
    | _ => y

theorem toldCall_none (h : y.1.inst = none) : toldCall y n = y := by
  unfold toldCall
  rw [h]

theorem toldCall_live (h : y.1.inst = some i) : toldCall y (.pageLive c)
    = if i.phase = .waitZones then (inPhase .playing y.1, Voice.started y.2) else y := by
  unfold toldCall
  rw [h]

theorem toldCall_closed {r : CloseReason} (h : y.1.inst = some i) : toldCall y (.pageClosed c r) = ({ y.1 with
    inst := none, outcome := if i.phase = .playing then .done true else .missed .pageClosed }, Voice.idled y.2) := by
  unfold toldCall
  rw [h]

/-- A call with its voice. -/
def pairOf (s : State) (c : CallId) : Call × Voice := (s.calls[c], s.voices[s.calls[c].cfg.voice])

theorem set_get_ne {α : Type} {k : Nat} (V : Vector α k) (a b : Fin k) (e : α) (h : b ≠ a) : (V.set a e)[b] = V[b] :=
  Vector.getElem_set_ne a.isLt b.isLt fun he => h (Fin.ext he.symm)

theorem concerns_iff : concerns c n = true ↔ n = .pageLive c ∨ ∃ r, n = .pageClosed c r := by
  unfold concerns
  cases n <;> simp

theorem pairOf_eq {k : Call} {e : Voice} (hk : s.calls[c] = k) (he : s.voices[k.cfg.voice] = e) :
    pairOf s c = (k, e) := by
  subst hk he
  rfl

/-- A notice changes the call that it concerns, and its voice. -/
theorem told_self (h : concerns c n = true) : pairOf (told s n) c = toldCall (pairOf s c) n := by
  cases hi : s.calls[c].inst with
  | none =>
    rw [toldCall_none (y := pairOf s c) hi]
    rcases concerns_iff.mp h with rfl | ⟨r, rfl⟩
    · rw [told_live_none hi]
    · rw [told_closed_none hi]
  | some i =>
    rcases concerns_iff.mp h with rfl | ⟨r, rfl⟩
    · rw [told_live hi, toldCall_live (y := pairOf s c) hi]
      split
      · exact pairOf_eq (upd_get_self ..) (upd_get_self ..)
      · rfl
    · rw [told_closed hi, toldCall_closed (y := pairOf s c) hi]
      obtain ⟨hcalls, _, _, hvoices, _⟩ := callLost_parts c s.calls[c].cfg.voice i s
      refine pairOf_eq (by rw [hcalls, upd_get_self]; rfl) ?_
      rw [hvoices]
      simp [pairOf]

theorem told_call_other (h : concerns c n = false) : (told s n).calls[c] = s.calls[c] := by
  have hne {d : CallId} (hd : concerns c (.pageLive d) = false) : d ≠ c := fun he => by simp [concerns, he] at hd
  cases n with
  | pageLive d =>
    cases hi : s.calls[d].inst with
    | none => rw [told_live_none hi]
    | some i =>
      rw [told_live hi]
      split
      · exact upd_get_ne _ _ _ _ (hne h)
      · rfl
  | pageClosed d r =>
    cases hi : s.calls[d].inst with
    | none => rw [told_closed_none hi]
    | some i =>
      rw [told_closed hi, (callLost_parts ..).1]
      exact upd_get_ne _ _ _ _ (hne (d := d) h)
  | _ => rfl

/-- A notice changes no other voice than that of the call that it concerns. -/
theorem told_voice_other (h : ∀ d, concerns d n = true → s.calls[d].inst ≠ none → s.calls[d].cfg.voice ≠ x) :
    (told s n).voices[x] = s.voices[x] := by
  have hd (d : CallId) (i : CallInst) (hi : s.calls[d].inst = some i) (hc : concerns d n = true) :
      x ≠ s.calls[d].cfg.voice := fun he => h d hc (by rw [hi]; nofun) he.symm
  cases n with
  | pageLive d =>
    cases hi : s.calls[d].inst with
    | none => rw [told_live_none hi]
    | some i =>
      rw [told_live hi]
      split
      · exact upd_get_ne _ _ _ _ (Ne.symm (hd d i hi (by simp [concerns])))
      · rfl
  | pageClosed d r =>
    cases hi : s.calls[d].inst with
    | none => rw [told_closed_none hi]
    | some i =>
      rw [told_closed hi, (callLost_parts ..).2.2.2.1]
      exact set_get_ne _ _ _ _ (hd d i hi (by simp [concerns]))
  | _ => rfl

/-- What a notice may touch. -/
def CallsBut (s w : State) : Prop := w = { s with
  calls := w.calls, voices := w.voices, missedCalls := w.missedCalls, cells := w.cells, wq := w.wq, arb := w.arb }

theorem CallsBut.trans {t : State} (h : CallsBut s w) (h' : CallsBut w t) : CallsBut s t := by
  unfold CallsBut at *
  rw [h] at h'
  exact h'

theorem callLost_but (c : CallId) (x : VoiceId) (i : CallInst) (s : State) : CallsBut s (callLost c x i s) := by
  unfold callLost
  split
  · rfl
  · rw [missed_eq]
    rfl

theorem told_but (n : Note) (s : State) : CallsBut s (told s n) := by
  cases n with
  | pageLive c =>
    cases hi : s.calls[c].inst with
    | none => rw [told_live_none hi]; rfl
    | some i =>
      rw [told_live hi]
      split <;> rfl
  | pageClosed c r =>
    cases hi : s.calls[c].inst with
    | none => rw [told_closed_none hi]; rfl
    | some i => rw [told_closed hi]; exact callLost_but ..
  | _ => rfl

theorem told_notes (n : Note) (a : List Note) (s : State) :
    told { s with notes := a } n = { told s n with notes := a } := by
  cases n with
  | pageLive c =>
    cases hi : s.calls[c].inst with
    | none => rw [told_live_none hi, told_live_none (s := { s with notes := a }) hi]
    | some i =>
      rw [told_live hi, told_live (s := { s with notes := a }) hi]
      split <;> rfl
  | pageClosed c r =>
    cases hi : s.calls[c].inst with
    | none => rw [told_closed_none hi, told_closed_none (s := { s with notes := a }) hi]
    | some i =>
      rw [told_closed hi, told_closed (s := { s with notes := a }) hi]
      unfold callLost
      split
      · rfl
      · rw [missed_eq, missed_eq]
        rfl
  | _ => rfl

/-- No call changes its configuration. -/
theorem told_cfg (n : Note) (c : CallId) : (told s n).calls[c].cfg = s.calls[c].cfg := by
  by_cases h : concerns c n = true
  · have hpair := congrArg (·.1.cfg) (told_self (s := s) h)
    refine hpair.trans ?_
    show (toldCall (pairOf s c) n).1.cfg = (pairOf s c).1.cfg
    generalize pairOf s c = y
    cases hj : y.1.inst with
    | none => rw [toldCall_none hj]
    | some j =>
      rcases concerns_iff.mp h with rfl | ⟨r, rfl⟩
      · rw [toldCall_live hj]
        split <;> rfl
      · rw [toldCall_closed hj]
  · rw [told_call_other (Bool.eq_false_iff.mpr h)]

/-- A call that has ended stays so. -/
theorem told_ended (h : s.calls[c].inst = none) (n : Note) : (told s n).calls[c] = s.calls[c] := by
  by_cases hc : concerns c n = true
  · have := congrArg Prod.fst (told_self (s := s) hc)
    rw [toldCall_none (y := pairOf s c) h] at this
    exact this
  · exact told_call_other (Bool.eq_false_iff.mpr hc)

/-! ## The notices after it -/

theorem started_keeps (y : Voice) : y.started.owner = y.owner ∧ (y.state ≠ .idle → y.started.state ≠ .idle) := by
  unfold Voice.started
  split
  · exact ⟨rfl, fun _ => nofun⟩
  · exact ⟨rfl, id⟩
  · exact ⟨rfl, id⟩
  · exact ⟨rfl, id⟩

/-- A notice changes no call and voice but those that it concerns. -/
theorem told_pair_other (hc : concerns c n = false)
    (h : ∀ d, concerns d n = true → s.calls[d].inst ≠ none → s.calls[d].cfg.voice ≠ s.calls[c].cfg.voice) :
    pairOf (told s n) c = pairOf s c := pairOf_eq (told_call_other hc) (told_voice_other h)

theorem stands_iff : Stands s c ↔ ∀ i, (pairOf s c).1.inst = some i → i.phase ≠ .waitVoice
    ∧ (pairOf s c).2.owner = .call c ∧ (pairOf s c).2.state ≠ .idle := Iff.rfl

theorem stands_told (h : Stands s c) (hn : ∀ d, concerns d n = true → Stands s d) : Stands (told s n) c := by
  rw [stands_iff] at h ⊢
  intro i hi
  by_cases hc : concerns c n = true
  · rw [told_self hc] at hi ⊢
    generalize pairOf s c = y at h hi ⊢
    cases hj : y.1.inst with
    | none =>
      rw [toldCall_none hj, hj] at hi
      nomatch hi
    | some j =>
      obtain ⟨hph, hown, hst⟩ := h j hj
      rcases concerns_iff.mp hc with rfl | ⟨r, rfl⟩
      · rw [toldCall_live hj] at hi ⊢
        by_cases hw : j.phase = .waitZones
        · rw [if_pos hw] at hi ⊢
          unfold inPhase at hi
          rw [hj] at hi
          obtain rfl := Option.some_inj.mp hi
          obtain ⟨ho, hs⟩ := started_keeps y.2
          exact ⟨nofun, ho.trans hown, hs hst⟩
        · rw [if_neg hw] at hi ⊢
          exact h i hi
      · rw [toldCall_closed hj] at hi
        nomatch hi
  · have hc := Bool.eq_false_iff.mpr hc
    have hsame : pairOf (told s n) c = pairOf s c := by
      have hi' : (pairOf s c).1.inst = some i := (congrArg Call.inst (told_call_other hc)).symm.trans hi
      exact told_pair_other hc fun d hd hinst he => by
        obtain ⟨j, hj⟩ := Option.ne_none_iff_exists'.mp hinst
        have hown' := (hn d hd j hj).2.1
        have hown' := (congrArg (fun e : VoiceId => s.voices[e].owner) he).symm.trans hown'
        exact Bool.noConfusion (hc.symm.trans (VoiceOwner.call.inj ((h i hi').2.1.symm.trans hown') ▸ hd))
    rw [hsame] at hi ⊢
    exact h i hi

theorem Heard.stands (h : Heard s n) (hd : concerns d n = true) : Stands s d := by
  rcases concerns_iff.mp hd with rfl | ⟨r, rfl⟩
  · exact h
  · exact h.1

theorem pages_told {q : Option PageId} (h : ∀ i, s.calls[c].inst = some i → i.page = q) :
    ∀ i, (told s n).calls[c].inst = some i → i.page = q := by
  intro i hi
  by_cases hc : concerns c n = true
  · have hcall : (told s n).calls[c] = (toldCall (pairOf s c) n).1 := congrArg Prod.fst (told_self (s := s) hc)
    rw [hcall] at hi
    have h : ∀ i, (pairOf s c).1.inst = some i → i.page = q := h
    generalize pairOf s c = y at h hi
    cases hj : y.1.inst with
    | none =>
      rw [toldCall_none hj, hj] at hi
      nomatch hi
    | some j =>
      rcases concerns_iff.mp hc with rfl | ⟨r, rfl⟩
      · rw [toldCall_live hj] at hi
        split at hi
        · unfold inPhase at hi
          rw [hj] at hi
          obtain rfl := Option.some_inj.mp hi
          exact h j hj
        · exact h i hi
      · rw [toldCall_closed hj] at hi
        nomatch hi
  · rw [told_call_other (Bool.eq_false_iff.mpr hc)] at hi
    exact h i hi

theorem idle_zoneLive_told {z : ZoneId} (h : Idle (.zoneLive z) s) (hw : CallsBut s w) : Idle (.zoneLive z) w := by
  unfold CallsBut at hw
  rw [hw]
  exact h

theorem Heard.told (h : Heard s m) (hn : Heard s n) : Heard (told s n) m := by
  have hn' (d : CallId) (hd : concerns d n = true) : Stands s d := hn.stands hd
  cases m with
  | zoneLive z => exact idle_zoneLive_told h (told_but n s)
  | pageLive c => exact stands_told h hn'
  | pageClosed c r =>
    obtain ⟨hs, hr, hp⟩ := h
    exact ⟨stands_told hs hn', hr, pages_told hp⟩
  | _ => exact h.elim

/-! ## Working the notices off -/

/-- One notice is worked off, and may tell of a voice released. -/
theorem Reaches.told (h : Reaches as u v) (hn : Heard u n) : ∃ bs ks,
    Reaches bs { Ends.told u n with notes := u.notes ++ ks } (handleNote n v)
      ∧ (∀ k ∈ ks, ∃ c r, n = .pageClosed c r ∧ k = .voiceIdle u.calls[c].cfg.voice (.call c))
      ∧ ks.length ≤ 1 ∧ ∀ a ∈ as, a ∈ bs := by
  have hself : Reaches as { u with notes := u.notes ++ [] } v := h.congr (by rw [List.append_nil]) fun _ => Iff.rfl
  cases n with
  | zoneLive z =>
    have hsame : v.zones = u.zones ∧ v.calls = u.calls ∧ v.pages = u.pages := by rw [h.1]; exact ⟨rfl, rfl, rfl⟩
    rw [handleNote_idle (x := .zoneLive z) hn hsame]
    exact ⟨as, [], hself, nofun, Nat.zero_le _, fun _ h => h⟩
  | pageLive c =>
    cases hi : u.calls[c].inst with
    | none =>
      rw [told_live_none hi]
      refine ⟨as, [], ?_, nofun, Nat.zero_le _, fun _ h => h⟩
      rw [List.append_nil]
      exact h.pageLive_ignored (by rw [hi]; nofun)
    | some i =>
      rw [told_live hi]
      obtain ⟨_, hown, _⟩ := hn i hi
      by_cases hw : i.phase = .waitZones
      · rw [if_pos hw]
        have hplays := h.pageLive_plays hi hw rfl hown
        refine ⟨_, [], hplays.congr ?_ fun _ => Iff.rfl, nofun, Nat.zero_le _,
          fun _ ha => List.mem_append_right _ (List.mem_cons_of_mem _ ha)⟩
        rw [List.append_nil]
        rfl
      · rw [if_neg hw]
        refine ⟨as, [], ?_, nofun, Nat.zero_le _, fun _ h => h⟩
        rw [List.append_nil]
        refine h.pageLive_ignored ?_
        rw [hi]
        exact fun he => hw (Option.some_inj.mp he)
  | pageClosed c r =>
    obtain ⟨hs, hr, hp⟩ := hn
    subst hr
    cases hi : u.calls[c].inst with
    | none =>
      rw [told_closed_none hi]
      refine ⟨as, [], ?_, nofun, Nat.zero_le _, fun _ h => h⟩
      have hsame : v.zones = u.zones ∧ v.calls = u.calls ∧ v.pages = u.pages := by rw [h.1]; exact ⟨rfl, rfl, rfl⟩
      rw [handleNote_idle (x := .pageClosed c .preempted) (u := u) (.inr (.inr (.inr hi))) hsame]
      exact hself
    | some i =>
      rw [told_closed hi]
      obtain ⟨hph, hown, hst⟩ := hs i hi
      refine ⟨_, [.voiceIdle u.calls[c].cfg.voice (.call c)],
        h.callLost hi (hp i hi) hph rfl hown hst (by decide), fun k hk => ⟨c, _, rfl, List.mem_singleton.mp hk⟩,
        le_rfl, fun _ ha => List.mem_cons_of_mem _ (List.mem_cons_of_mem _ ha)⟩
  | _ => exact hn.elim

/-- The state once several notices have been worked off. -/
def tolds (s : State) (ns : List Note) : State := ns.foldl told s

theorem tolds_but (ns : List Note) (s : State) : CallsBut s (tolds s ns) := by
  induction ns generalizing s with
  | nil => rfl
  | cons n ns ih => exact (told_but n s).trans (ih (told s n))

theorem Reaches.tolds (h : Reaches as { u with notes := ns ++ ms } v) (hn : ∀ n ∈ ns, Heard u n) : ∃ bs ks,
    Settles ns.length bs v { Ends.tolds u ns with notes := ms ++ ks }
      ∧ (∀ k ∈ ks, ∃ c r, .pageClosed c r ∈ ns ∧ k = .voiceIdle u.calls[c].cfg.voice (.call c))
      ∧ ks.length ≤ ns.length ∧ ∀ a ∈ as, a ∈ bs := by
  induction ns generalizing u v as ms with
  | nil =>
    refine ⟨as, [], ?_, nofun, Nat.zero_le _, fun _ h => h⟩
    rw [List.append_nil]
    exact h.settles
  | cons n ns ih =>
    have hpop := h.plain (f := fun s => { s with notes := ns ++ ms }) fun _ _ _ _ => rfl
    change Reaches as { u with notes := ns ++ ms } { v with notes := ns ++ ms } at hpop
    have hheard : Heard { u with notes := ns ++ ms } n := by
      have := hn n List.mem_cons_self
      cases n <;> exact this
    obtain ⟨bs, ks, hr, hks, hlen, hmono⟩ := hpop.told hheard
    rw [told_notes] at hr
    obtain ⟨cs, js, hset, hjs, hlen', hmono'⟩ := ih (u := Ends.told u n) (ms := ms ++ ks)
      (hr.congr (by dsimp only; rw [List.append_assoc]) fun _ => Iff.rfl)
      fun m hm => (hn m (List.mem_cons_of_mem n hm)).told (hn n List.mem_cons_self)
    obtain ⟨w, hwork, hreach⟩ := hset
    have hv : v.notes = n :: (ns ++ ms) := by rw [h.1]; rfl
    refine ⟨cs, ks ++ js, ⟨w, hwork.step hv, ?_⟩, fun k hk => ?_, ?_, fun a ha => hmono' a (hmono a ha)⟩
    · rw [List.append_assoc] at hreach
      exact hreach
    · rcases List.mem_append.mp hk with hk | hk
      · obtain ⟨c, r, rfl, rfl⟩ := hks k hk
        exact ⟨c, r, List.mem_cons_self, rfl⟩
      · obtain ⟨c, r, hm, rfl⟩ := hjs k hk
        exact ⟨c, r, List.mem_cons_of_mem n hm, by rw [told_cfg]⟩
    · rw [List.length_append, List.length_cons]
      omega

/-! ## What each call and voice comes to -/

/-- The notices that concern a call decide what it and its voice come to. -/
theorem tolds_pair (hx : ∀ n ∈ ns, ∀ d, concerns d n = true → d ≠ c → s.calls[d].cfg.voice ≠ s.calls[c].cfg.voice) :
    pairOf (tolds s ns) c = (ns.filter (concerns c)).foldl toldCall (pairOf s c) := by
  induction ns generalizing s with
  | nil => rfl
  | cons n ns ih =>
    have hrest : ∀ m ∈ ns, ∀ d, concerns d m = true → d ≠ c →
        (told s n).calls[d].cfg.voice ≠ (told s n).calls[c].cfg.voice := by
      intro m hm d hd hne
      rw [told_cfg, told_cfg]
      exact hx m (List.mem_cons_of_mem n hm) d hd hne
    rw [List.filter_cons]
    refine (ih hrest).trans ?_
    by_cases hc : concerns c n = true
    · rw [if_pos hc, told_self hc]
      rfl
    · have hc := Bool.eq_false_iff.mpr hc
      rw [hc, told_pair_other hc fun d hd _ => hx n List.mem_cons_self d hd fun he => ?_]
      · rfl
      · exact Bool.noConfusion (hc.symm.trans (he ▸ hd))

/-- A call that no notice concerns stays as it is. -/
theorem tolds_call_other (h : ∀ n ∈ ns, concerns c n = false) : (tolds s ns).calls[c] = s.calls[c] := by
  induction ns generalizing s with
  | nil => rfl
  | cons n ns ih =>
    exact (ih fun m hm => h m (List.mem_cons_of_mem n hm)).trans (told_call_other (h n List.mem_cons_self))

/-- A voice of no call that a notice concerns stays as it is. -/
theorem tolds_voice_other (h : ∀ n ∈ ns, ∀ d, concerns d n = true → s.calls[d].cfg.voice ≠ x) :
    (tolds s ns).voices[x] = s.voices[x] := by
  induction ns generalizing s with
  | nil => rfl
  | cons n ns ih =>
    refine (ih fun m hm d hd => ?_).trans (told_voice_other fun d hd _ => h n List.mem_cons_self d hd)
    rw [told_cfg]
    exact h m (List.mem_cons_of_mem n hm) d hd

end Sys2Proof.Proofs.Ends
end

section
/-! PROOF. What is handed to the CALL cell when one open takes zones from the pages of calls (R162, R163, R168). -/

namespace Sys2Proof.Proofs.Ends

open Sys2Proof.Machine

variable {s u v w : State} {c d : CallId} {n : Note} {ns : List Note} {i : CallInst}

/-! ## Calls missed -/

/-- The notice makes a call missed. -/
def Misses (s : State) (n : Note) (c : CallId) (i : CallInst) : Prop :=
  (∃ r, n = .pageClosed c r) ∧ s.calls[c].inst = some i ∧ i.phase ≠ .playing

/-- The call has ended MISSED, PAGE_CLOSED. -/
def WasMissed (s : State) (c : CallId) : Prop :=
  s.calls[c].inst = none ∧ s.calls[c].outcome = .missed .pageClosed

theorem told_missed (h : Misses s n c i) : WasMissed (told s n) c ∧ (told s n).missedCalls = sat16 s.missedCalls
    ∧ (told s n).cells = (capturing callCell (callWords c false (some .pageClosed) i .none) s.cells s.tod s.wq).1
    ∧ (told s n).wq = (capturing callCell (callWords c false (some .pageClosed) i .none) s.cells s.tod s.wq).2 := by
  obtain ⟨⟨r, rfl⟩, hi, hp⟩ := h
  have hcalls := (callLost_parts c s.calls[c].cfg.voice i s).1
  rw [if_neg hp] at hcalls
  rw [told_closed hi]
  refine ⟨?_, ?_⟩
  · unfold WasMissed
    rw [hcalls, upd_get_self]
    exact ⟨rfl, rfl⟩
  · rw [callLost, if_neg hp, missed_eq]
    exact ⟨rfl, rfl, rfl⟩

theorem told_kept (h : ∀ c i, ¬ Misses s n c i) :
    (told s n).missedCalls = s.missedCalls ∧ (told s n).cells = s.cells ∧ (told s n).wq = s.wq := by
  cases n with
  | pageLive c =>
    cases hi : s.calls[c].inst with
    | none => rw [told_live_none hi]; exact ⟨rfl, rfl, rfl⟩
    | some i =>
      rw [told_live hi]
      split <;> exact ⟨rfl, rfl, rfl⟩
  | pageClosed c r =>
    cases hi : s.calls[c].inst with
    | none => rw [told_closed_none hi]; exact ⟨rfl, rfl, rfl⟩
    | some i =>
      have hp : i.phase = .playing := by
        by_contra hp
        exact h c i ⟨⟨r, rfl⟩, hi, hp⟩
      rw [told_closed hi, callLost_playing hp]
      exact ⟨rfl, rfl, rfl⟩
  | _ => exact ⟨rfl, rfl, rfl⟩

theorem tolds_cons : tolds s (n :: ns) = tolds (told s n) ns := rfl

theorem tolds_ended (h : s.calls[c].inst = none) : (tolds s ns).calls[c] = s.calls[c] := by
  induction ns generalizing s with
  | nil => rfl
  | cons n ns ih =>
    have hn := told_ended h n
    rw [tolds_cons, ih (by rw [hn]; exact h), hn]

theorem runs_before (h : (told s n).calls[c].inst = some i) : ∃ j, s.calls[c].inst = some j := by
  refine Option.ne_none_iff_exists'.mp fun hn => ?_
  rw [told_ended hn, hn] at h
  nomatch h

theorem WasMissed.tolds (h : WasMissed s c) : WasMissed (tolds s ns) c := by
  unfold WasMissed at *
  rw [tolds_ended h.1]
  exact h

/-- Where no call is missed nothing is handed to the CALL cell. -/
theorem tolds_kept (h : ∀ c i, s.calls[c].inst = some i → ¬ WasMissed (tolds s ns) c) :
    (tolds s ns).missedCalls = s.missedCalls ∧ (tolds s ns).cells = s.cells ∧ (tolds s ns).wq = s.wq := by
  induction ns generalizing s with
  | nil => exact ⟨rfl, rfl, rfl⟩
  | cons n ns ih =>
    rw [tolds_cons] at h ⊢
    obtain ⟨h1, h2, h3⟩ := told_kept (s := s) (n := n) fun c i hm => h c i hm.2.1 (told_missed hm).1.tolds
    obtain ⟨g1, g2, g3⟩ := ih fun c i hi => by
      obtain ⟨j, hj⟩ := runs_before hi
      exact h c j hj
    exact ⟨g1.trans h1, g2.trans h2, g3.trans h3⟩

/-- What a notice makes of a call that is not missed by it. -/
theorem told_phase (hi : s.calls[c].inst = some i) (h : ∀ j, ¬ Misses s n c j) :
    (told s n).calls[c].inst = some i ∨ (told s n).calls[c].inst = some { i with phase := .playing }
      ∨ (told s n).calls[c].inst = none ∧ (told s n).calls[c].outcome = .done true := by
  by_cases hc : concerns c n = true
  · have hcall : (told s n).calls[c] = (toldCall (pairOf s c) n).1 := congrArg Prod.fst (told_self (s := s) hc)
    rw [hcall]
    rcases concerns_iff.mp hc with rfl | ⟨r, rfl⟩
    · rw [toldCall_live (y := pairOf s c) hi]
      split
      · refine .inr (.inl ?_)
        show (inPhase .playing s.calls[c]).inst = _
        unfold inPhase
        rw [hi]
        rfl
      · exact .inl hi
    · have hp : i.phase = .playing := by
        by_contra hp
        exact h i ⟨⟨r, rfl⟩, hi, hp⟩
      rw [toldCall_closed (y := pairOf s c) hi]
      exact .inr (.inr ⟨rfl, if_pos hp⟩)
  · rw [told_call_other (Bool.eq_false_iff.mpr hc)]
    exact .inl hi

/-- A call that plays is not missed. -/
theorem playing_not_missed (hi : s.calls[c].inst = some i) (hp : i.phase = .playing) : ¬ WasMissed (tolds s ns) c := by
  induction ns generalizing s i with
  | nil => exact fun h => nomatch hi.symm.trans h.1
  | cons n ns ih =>
    rw [tolds_cons]
    rcases told_phase (n := n) hi fun j hm => hm.2.2 (Option.some_inj.mp (hi.symm.trans hm.2.1) ▸ hp) with h | h | ⟨h, ho⟩
    · exact ih h hp
    · exact ih h rfl
    · intro hm
      unfold WasMissed at hm
      rw [tolds_ended h, ho] at hm
      exact nomatch hm.2

/-- Where one call alone is missed it is handed to the CALL cell. -/
theorem tolds_missed (hi : s.calls[c].inst = some i) (hm : WasMissed (tolds s ns) c)
    (h : ∀ d j, d ≠ c → s.calls[d].inst = some j → ¬ WasMissed (tolds s ns) d) :
    (tolds s ns).missedCalls = sat16 s.missedCalls
      ∧ (tolds s ns).cells = (capturing callCell (callWords c false (some .pageClosed) i .none) s.cells s.tod s.wq).1
      ∧ (tolds s ns).wq = (capturing callCell (callWords c false (some .pageClosed) i .none) s.cells s.tod s.wq).2 := by
  induction ns generalizing s with
  | nil => exact nomatch hi.symm.trans hm.1
  | cons n ns ih =>
    rw [tolds_cons] at hm h ⊢
    by_cases hself : Misses s n c i
    · obtain ⟨hwas, h1, h2, h3⟩ := told_missed hself
      obtain ⟨g1, g2, g3⟩ := tolds_kept (s := told s n) (ns := ns) fun d j hj => by
        obtain ⟨k, hk⟩ := runs_before hj
        refine h d k ?_ hk
        rintro rfl
        exact nomatch hwas.1.symm.trans hj
      exact ⟨g1.trans h1, g2.trans h2, g3.trans h3⟩
    · have hnone : ∀ d j, ¬ Misses s n d j := fun d j hdj => by
        by_cases hd : d = c
        · subst hd
          exact hself (Option.some_inj.mp (hi.symm.trans hdj.2.1) ▸ hdj)
        · exact h d j hd hdj.2.1 (told_missed hdj).1.tolds
      obtain ⟨h1, h2, h3⟩ := told_kept hnone
      have htod : (told s n).tod = s.tod := by rw [told_but n s]
      have hrest : ∀ d j, d ≠ c → (told s n).calls[d].inst = some j → ¬ WasMissed (tolds (told s n) ns) d :=
        fun d j hd hj => by
          obtain ⟨k, hk⟩ := runs_before hj
          exact h d k hd hk
      rcases told_phase hi (hnone c) with hn | hn | ⟨hn, ho⟩
      · obtain ⟨g1, g2, g3⟩ := ih hn hm hrest
        rw [h1] at g1
        rw [h2, h3, htod] at g2 g3
        exact ⟨g1, g2, g3⟩
      · exact absurd hm (playing_not_missed hn rfl)
      · unfold WasMissed at hm
        rw [tolds_ended hn, ho] at hm
        exact nomatch hm.2

/-! ## The other cells, and the queue -/

theorem join_extends (q : WriteQueue) (x : Writer) (b : Burst) : ∃ l, (q.join x b).queue = q.queue ++ l := by
  unfold WriteQueue.join
  split
  · exact ⟨[], by cases x <;> simp [WriteQueue.setHeld]⟩
  · split
    · exact ⟨_, rfl⟩
    · exact ⟨[], by cases x <;> simp [WriteQueue.setHeld]⟩

theorem capturing_extends {cell : CellId} {ds : List Word} {cells : Vector Cell 12} {tod : TimeOfDay} (q : WriteQueue) :
    ∃ l, (capturing cell ds cells tod q).2.queue = q.queue ++ l := by
  unfold capturing
  split
  · obtain ⟨l, hl⟩ := join_extends q .capture (.cellData cell tod ds)
    obtain ⟨l', hl'⟩ := join_extends (q.join .capture (.cellData cell tod ds)) .capture (.cellFull cell)
    exact ⟨l ++ l', by rw [hl', hl, List.append_assoc]⟩
  · split
    · exact join_extends q .capture _
    · exact ⟨[], (List.append_nil _).symm⟩

theorem tolds_cells : (∀ k : CellId, k ≠ callCell → (tolds s ns).cells[k] = s.cells[k])
    ∧ ∃ l, (tolds s ns).wq.queue = s.wq.queue ++ l := by
  induction ns generalizing s with
  | nil => exact ⟨fun _ _ => rfl, [], (List.append_nil _).symm⟩
  | cons n ns ih =>
    obtain ⟨hk, l, hl⟩ := ih (s := told s n)
    by_cases hm : ∃ c i, Misses s n c i
    · obtain ⟨c, i, hm⟩ := hm
      obtain ⟨_, _, hc, hq⟩ := told_missed hm
      obtain ⟨l', hl'⟩ := capturing_extends (cell := callCell) (ds := callWords c false (some .pageClosed) i .none)
        (cells := s.cells) (tod := s.tod) s.wq
      refine ⟨fun k hne => (hk k hne).trans ?_, l' ++ l, ?_⟩
      · rw [hc]
        exact capturing_other hne
      · rw [tolds_cons, hl, hq, hl', List.append_assoc]
    · obtain ⟨_, hc, hq⟩ := told_kept fun c i h => hm ⟨c, i, h⟩
      refine ⟨fun k hne => (hk k hne).trans ?_, l, ?_⟩
      · rw [hc]
      · rw [tolds_cons, hl, hq]

end Sys2Proof.Proofs.Ends
end

section
/-! PROOF. PAGE_OPEN to its answer: what is refused, and the page entered (R152, R156, R181). -/

namespace Sys2Proof.Proofs.Ends

open Sys2Proof.Machine

variable {s u v : State} {as : List Area} {p o : PageId} {q : Fin 4} {l : List ZoneId} {z : ZoneId} {k : Claim}
  {g : Fin 8} {source : PageSource} {src : SourceRef} {group prio : Nat} {level : BitVec 16}

/-! ## Offers leave the slate alone -/

theorem losing_slate (a : Slate) : losing o z { s with slate := a } = { losing o z s with slate := a } := by
  unfold losing
  cases s.pages[o] with
  | none => rfl
  | some pg =>
    dsimp only
    by_cases hl : (Without pg z).zones = 0#24
    · rw [if_pos hl, if_pos hl]
    · rw [if_neg hl, if_neg hl]
      by_cases hj : pg.state = .opened ∧ allLive s (Without pg z).zones = true
      · rw [if_pos hj]
        exact if_pos hj
      · rw [if_neg hj]
        exact if_neg hj

theorem offering_slate (a : Slate) : offering p q ({ s with slate := a }, k) z
    = ({ (offering p q (s, k) z).1 with slate := a }, (offering p q (s, k) z).2) := by
  unfold offering
  dsimp only
  by_cases hf : s.zones[z].state = .fault
  · rw [if_pos hf, if_pos hf]
  rw [if_neg hf, if_neg hf]
  cases hp : s.zones[z].page with
  | none => rfl
  | some o =>
    dsimp only
    rw [show carriedPriority { s with slate := a } z = carriedPriority s z from rfl]
    cases carriedPriority s z with
    | none => rfl
    | some other =>
      dsimp only
      by_cases hq : other < q
      · rw [if_pos hq, if_pos hq, losing_slate]
        rfl
      · rw [if_neg hq, if_neg hq]

theorem run_slate (a : Slate) : run { s with slate := a } p q l
    = ({ (run s p q l).1 with slate := a }, (run s p q l).2) := by
  induction l using List.reverseRecOn with
  | nil => rfl
  | append_singleton l z ih => rw [run_concat, run_concat, ih, offering_slate]

theorem sameBut_run (s : State) (p : PageId) (q : Fin 4) (l : List ZoneId) : SameBut s (run s p q l).1 := by
  induction l using List.reverseRecOn with
  | nil => exact .refl s
  | append_singleton l z ih =>
    rw [run_concat]
    generalize run s p q l = x at ih
    unfold offering
    split
    · exact ih
    · split
      · exact ih.taking
      · split
        · split
          · exact ih.losing.taking
          · exact ih
        · exact ih

/-! ## Refusals -/

theorem ownerOf_pageOpen_group (h : 8 ≤ group) : ownerOf (.pageOpen group src prio level) s = (s, some
    (answer .badArgument (wordsOf (Config.code (.refusedFor .group)) (rest s 1) (rest s 2) (rest s 3)))) := by
  show later (pageOpenOwner group src prio level s) = _
  unfold pageOpenOwner
  rw [fin?_none h]
  rfl

theorem ownerOf_pageOpen_source (hs : SourceRef.source? src = none) :
    ownerOf (.pageOpen g.val src prio level) s = (s, some
      (answer .badArgument (wordsOf (Config.code (.refusedFor .source)) (rest s 1) (rest s 2) (rest s 3)))) := by
  show later (pageOpenOwner g.val src prio level s) = _
  unfold pageOpenOwner
  rw [fin?_val, hs]
  rfl

theorem ownerOf_pageOpen_priority (hs : SourceRef.source? src = some source) (hq : 4 ≤ prio) :
    ownerOf (.pageOpen g.val src prio level) s = (s, some
      (answer .badArgument (wordsOf (Config.code (.refusedFor .priority)) (rest s 1) (rest s 2) (rest s 3)))) := by
  show later (pageOpenOwner g.val src prio level s) = _
  unfold pageOpenOwner
  rw [fin?_val, hs, fin?_none hq]
  rfl

/-- The answer to an offer that was made. -/
def openReply (s : State) (r : State × OpenEnd) : State × Answer :=
  match r with
  | (s, .busy) => (s, refuse .busy)
  | (s', .noZone m k d) =>
    (s', answer .noZone (wordsOf (wordOf m) (wordOf k) (wordOf d) (if m = 0 then 0#32 else rest s 3)))
  | (s, .opened p won n st) =>
    (s, answer .ok (wordsOf (wordOf p.val) (won.setWidth 32) (wordOf n) (pageStateWord st)))

theorem pageOpenOwner_eq (hs : SourceRef.source? src = some source)
    (hf : (openPage g .request source q (levelOfField level) s).1.freeCount = s.freeCount) :
    pageOpenOwner g.val src q.val level s = openReply s (openPage g .request source q (levelOfField level) s) := by
  unfold pageOpenOwner
  rw [fin?_val, hs, fin?_val]
  dsimp only
  generalize openPage g .request source q (levelOfField level) s = r at hf
  obtain ⟨s', e⟩ := r
  cases e with
  | busy => rfl
  | noZone m k d =>
    unfold openReply rest
    dsimp only at hf ⊢
    rw [hf]
  | opened p won n st => rfl

theorem offerZone_skips (h : Skips s q z) : offerZone p q z (s, k) = (s, { k with skipped := k.skipped + 1 }) := by
  obtain ⟨hf, o, other, hp, hc, hq⟩ := h
  unfold offerZone
  dsimp only
  rw [if_neg hf, hp, hc]
  exact if_neg (Fin.not_lt.mpr hq)

/-- Where every member declines or stays with its page nothing comes of the offers. -/
theorem offers_none (h : ∀ z ∈ l, Declines s z ∨ Skips s q z) :
    l.foldl (fun x z => offerZone p q z x) (s, Claim.start) = (s, { Claim.start with
      declined := (l.filter fun z => s.zones[z].state == .fault).length
      skipped := (l.filter fun z => s.zones[z].state != .fault).length }) := by
  induction l using List.reverseRecOn with
  | nil => rfl
  | append_singleton l z ih =>
    rw [List.foldl_append, ih fun y hy => h y (List.mem_append_left _ hy), filter_concat_length, filter_concat_length]
    rcases h z (by simp) with hd | hk
    · refine (offerZone_fault hd).trans ?_
      rw [hd]
      rfl
    · refine (offerZone_skips hk).trans ?_
      rw [beq_eq_false_iff_ne.mpr hk.1, bne_iff_ne.mpr hk.1]
      rfl

theorem openPage_none {opener : Opener} {lev : Level} (hp : freePage s = some p)
    (h : ∀ z ∈ membersOf s g, Declines s z ∨ Skips s q z) : openPage g opener source q lev s
      = (s, .noZone (membersOf s g).length ((membersOf s g).filter fun z => s.zones[z].state != .fault).length
          ((membersOf s g).filter fun z => s.zones[z].state == .fault).length) := by
  unfold openPage
  rw [hp]
  dsimp only
  rw [offers_none h]
  exact if_pos rfl

/-! ## The page entered and the answer given -/

/-- The state once the page has been entered with what the offers have come to. -/
def pageEntered (p : PageId) (source : PageSource) (q : Fin 4) (level : Level) (x : State × Claim) : State :=
  entered p (opened x.1 .request source q level x.2.won (pageStateOf x.1 x.2.won)) x.2 x.1

/-- The answer to a PAGE_OPEN that has opened a page. -/
def openAnswer (p : PageId) (x : State × Claim) : Answer :=
  answer .ok (wordsOf (wordOf p.val) (x.2.won.setWidth 32) (wordOf x.2.preempted) (pageStateWord (pageStateOf x.1 x.2.won)))

/-- The state once a PAGE_OPEN that has opened a page has been answered, its notices still to be worked off. -/
def pageAnswered (s : State) (p : PageId) (source : PageSource) (q : Fin 4) (level : Level) (l : List ZoneId) : State :=
  answered (openAnswer p (run s p q l)) s (pageEntered p source q level (run s p q l))

/-- An open that wins a zone enters its page. -/
theorem Reaches.openPage {opener : Opener} {lev : Level} (h : Reaches as u v) (hp : freePage u = some p)
    (hw : (run u p q (membersOf u g)).2.won ≠ 0#24) : ∃ bs w,
      Machine.openPage g opener source q lev v = (w, .opened p (run u p q (membersOf u g)).2.won
        (run u p q (membersOf u g)).2.preempted
        (pageStateOf (run u p q (membersOf u g)).1 (run u p q (membersOf u g)).2.won))
      ∧ Reaches bs (Ends.entered p (opened (run u p q (membersOf u g)).1 opener source q lev
          (run u p q (membersOf u g)).2.won
          (pageStateOf (run u p q (membersOf u g)).1 (run u p q (membersOf u g)).2.won))
          (run u p q (membersOf u g)).2 (run u p q (membersOf u g)).1) w
      ∧ .pages ∈ bs ∧ .zones ∈ bs := by
  have hv : freePage v = freePage u ∧ membersOf v g = membersOf u g := by
    rw [h.1]
    exact ⟨rfl, rfl⟩
  obtain ⟨hfree, hmem⟩ := hv
  obtain ⟨bs, hr, hk, _, hwon⟩ := h.offers (p := p) (prio := q) (membersOf u g) Claim.start
  change Reaches bs (run u p q (membersOf u g)).1 _ at hr
  change _ = (run u p q (membersOf u g)).2 at hk
  change (run u p q (membersOf u g)).2.won = 0#24 ∨ _ at hwon
  unfold Machine.openPage
  rw [hfree, hp]
  dsimp only
  rw [hmem]
  generalize (membersOf u g).foldl (fun x z => offerZone p q z x) (v, Claim.start) = r at hr hk
  obtain ⟨w, k⟩ := r
  dsimp only at hr hk ⊢
  subst hk
  generalize run u p q (membersOf u g) = x at hr hw hwon
  rw [if_neg hw]
  have hst : pageStateOf w x.2.won = pageStateOf x.1 x.2.won := by
    rw [hr.1]
    rfl
  rw [hst]
  exact ⟨_, _, rfl, hr.enterPage, List.mem_cons_self, List.mem_cons_of_mem _ (hwon.resolve_left hw)⟩

/-- PAGE_OPEN opens a page. -/
theorem pageOpen_opens (ht : s.Takes (.pageOpen g.val src q.val level)) (hs : SourceRef.source? src = some source)
    (hp : freePage s = some p) (hw : (run s p q (membersOf s g)).2.won ≠ 0#24) : ∃ bs v,
      request (.pageOpen g.val src q.val level) s = finish v
      ∧ Reaches bs (pageAnswered s p source q (levelOfField level) (membersOf s g)) v ∧ .pages ∈ bs ∧ .zones ∈ bs := by
  have hrun : run (markHanded s) p q (membersOf s g) = ({ (run s p q (membersOf s g)).1 with
      slate := (markHanded s).slate }, (run s p q (membersOf s g)).2) := run_slate _
  obtain ⟨bs, w, hopen, hr, hpages, hzones⟩ := (Reaches.refl (s := markHanded s) ht.2.1.2).openPage (g := g)
    (opener := .request) (source := source) (lev := levelOfField level) (q := q) (p := p) hp (by
      rw [show membersOf (markHanded s) g = membersOf s g from rfl, hrun]
      exact hw)
  rw [show membersOf (markHanded s) g = membersOf s g from rfl, hrun] at hopen hr
  have hslate : w.slate = (markHanded s).slate ∧ w.freeCount = s.freeCount := by
    refine ⟨hr.slate_eq.trans ?_, hr.freeCount_eq.trans ?_⟩
    · unfold entered
      rw [captureEvent_eq]
    · unfold entered
      rw [captureEvent_eq]
      dsimp only
      rw [sameBut_run]
  have howner : ownerOf (.pageOpen g.val src q.val level) (markHanded s)
      = (w, some (openAnswer p (run s p q (membersOf s g)))) := by
    show later (pageOpenOwner g.val src q.val level (markHanded s)) = _
    rw [pageOpenOwner_eq hs (by rw [hopen]; exact hslate.2), hopen]
    rfl
  refine ⟨bs, _, request_eq ht howner hslate.1 hslate.2,
    (hr.plain (plain_answered _ s)).congr ?_ fun _ => Iff.rfl, hpages, hzones⟩
  unfold pageAnswered pageEntered entered
  rw [captureEvent_eq, captureEvent_eq]
  rfl

end Sys2Proof.Proofs.Ends
end

section
/-! PROOF. What a PAGE_OPEN that takes zones from other pages comes to once its notices have been worked off (R152 to
R154, R161, R162). -/

namespace Sys2Proof.Proofs.Ends

open Sys2Proof.Machine

variable {s u v w : State} {as bs : List Area} {p o : PageId} {q : Fin 4} {l : List ZoneId} {z : ZoneId} {pg : Page}
  {source : PageSource} {level : Level} {c d : CallId} {n : Note} {ns : List Note} {i : CallInst} {x : VoiceId}

/-- A page is opened on members some of which carry pages of calls that run with their voices. -/
structure Opening (s : State) (p : PageId) (q : Fin 4) (l : List ZoneId) (source : PageSource) : Prop where
  quiet : s.notes = []
  offer : Offer s p q l
  stand : ∀ o pg c, s.pages[o] = some pg → lostTo s q l o ≠ [] → pg.opener = .call c → ∃ i, s.calls[c].inst = some i
    ∧ i.phase ≠ .waitVoice ∧ i.page = some o ∧ s.CallAlone c s.calls[c].cfg.voice (some o)
    ∧ s.voices[s.calls[c].cfg.voice].state ≠ .idle ∧ source ≠ .voice s.calls[c].cfg.voice

/-- The state after the offers. -/
abbrev offersMade (s : State) (p : PageId) (q : Fin 4) (l : List ZoneId) : State := (run s p q l).1

/-- The page that has been opened. -/
def pageOf (s : State) (p : PageId) (source : PageSource) (q : Fin 4) (level : Level) (l : List ZoneId) : Page :=
  opened s .request source q level (run s p q l).2.won (pageStateOf (offersMade s p q l) (run s p q l).2.won)

theorem pageAnswered_eq (s : State) (p : PageId) (source : PageSource) (q : Fin 4) (level : Level) (l : List ZoneId) :
    pageAnswered s p source q level l = { offersMade s p q l with
      pages := (offersMade s p q l).pages.set p (some (pageOf s p source q level l))
      cells := (capturing pageCell (pageDetails p (pageOf s p source q level l) (run s p q l).2) s.cells s.tod s.wq).1
      wq := answeredQueue (openAnswer p (run s p q l)) s.slate.current
        (capturing pageCell (pageDetails p (pageOf s p source q level l) (run s p q l).2) s.cells s.tod s.wq).2
      slate := answeredSlate (openAnswer p (run s p q l)) s.slate, freeCount := s.freeCount + 1 } := by
  have hsame := sameBut_run s p q l
  have hpage : opened (run s p q l).1 .request source q level (run s p q l).2.won
      (pageStateOf (run s p q l).1 (run s p q l).2.won) = pageOf s p source q level l := by
    unfold pageOf opened
    rw [show (run s p q l).1.tod = s.tod by rw [hsame], show (run s p q l).1.header = s.header by rw [hsame]]
  have hparts : (run s p q l).1.cells = s.cells ∧ (run s p q l).1.tod = s.tod ∧ (run s p q l).1.wq = s.wq := by
    rw [hsame]
    exact ⟨rfl, rfl, rfl⟩
  obtain ⟨hcells, htod, hwq⟩ := hparts
  unfold pageAnswered pageEntered answered entered
  rw [hpage, captureEvent_eq]
  dsimp only
  rw [hcells, htod, hwq]

theorem pageAnswered_parts : (pageAnswered s p source q level l).zones = (offersMade s p q l).zones
    ∧ (pageAnswered s p source q level l).calls = (offersMade s p q l).calls
    ∧ (pageAnswered s p source q level l).voices = s.voices
    ∧ (pageAnswered s p source q level l).notes = (offersMade s p q l).notes
    ∧ (pageAnswered s p source q level l).pages
        = (offersMade s p q l).pages.set p (some (pageOf s p source q level l)) := by
  rw [pageAnswered_eq]
  refine ⟨rfl, rfl, ?_, rfl, rfl⟩
  show (offersMade s p q l).voices = s.voices
  rw [offersMade, sameBut_run s p q l]

section

variable (h : Opening s p q l source)

include h

/-- The call of a page that loses a zone opened no other that does. -/
theorem Opening.only (hp : s.pages[o] = some pg) (hl : lostTo s q l o ≠ []) (hc : pg.opener = .call c) :
    OnlyPage s q l o c := by
  intro m g hg hlg hcg
  obtain ⟨i, hi, _, hip, _⟩ := h.stand o pg c hp hl hc
  obtain ⟨j, hj, _, hjp, _⟩ := h.stand m g c hg hlg hcg
  obtain rfl := Option.some_inj.mp (hi.symm.trans hj)
  exact Option.some_inj.mp (hjp.symm.trans hip)

/-- The pages of the state after the offers. -/
theorem Opening.page (hp : s.pages[o] = some pg) : ∃ lived, PageAfter s q l o pg (offersMade s p q l) lived :=
  (offered_run h.quiet h.offer).pages o pg hp

open Classical in
theorem Opening.call (c : CallId) : (pageAnswered s p source q level l).calls[c]
    = if Unpaged s q l c then pageless s.calls[c] else s.calls[c] := by
  rw [pageAnswered_parts.2.1]
  exact run_calls h.quiet h.offer c

/-- A call whose page has lost a zone still runs with its voice when its notices come. -/
theorem Opening.stands (hp : s.pages[o] = some pg) (hl : lostTo s q l o ≠ []) (hc : pg.opener = .call c) :
    Stands (pageAnswered s p source q level l) c := by
  obtain ⟨i, hi, hph, _, ha, hst, _⟩ := h.stand o pg c hp hl hc
  have hcall := h.call (level := level) c
  have hinst : ∃ j, (pageAnswered s p source q level l).calls[c] = { s.calls[c] with inst := some j } ∧ j.phase = i.phase := by
    rw [hcall]
    split
    · exact ⟨{ i with page := none }, by unfold pageless; rw [hi]; rfl, rfl⟩
    · exact ⟨i, by rw [← hi], rfl⟩
  obtain ⟨j, hj, hjp⟩ := hinst
  have hpair : pairOf (pageAnswered s p source q level l) c
      = ({ s.calls[c] with inst := some j }, s.voices[s.calls[c].cfg.voice]) :=
    pairOf_eq hj (by rw [pageAnswered_parts.2.2.1])
  rw [stands_iff, hpair]
  intro k hk
  obtain rfl := Option.some_inj.mp hk
  exact ⟨by rw [hjp]; exact hph, ha.1, hst⟩

/-- The notices of the offers find what they tell of. -/
theorem Opening.heard (hn : n ∈ (offersMade s p q l).notes) : Heard (pageAnswered s p source q level l) n := by
  obtain ⟨hzones, hcalls, _, _, hpages⟩ := pageAnswered_parts (s := s) (p := p) (source := source) (q := q)
    (level := level) (l := l)
  rcases (run_notes h.quiet h.offer).1 n hn with ⟨z, hz, hw, rfl⟩ | ⟨o, pg, c, hp, hl, hc, rfl | ⟨rfl, hg⟩⟩
  · intro p' g hp' hg
    have hpage : (offersMade s p q l).zones[z].page = some p := by
      rw [(offered_run h.quiet h.offer).zones z, if_pos ⟨hz, hw⟩]
      exact carried_page ..
    rw [hzones, hpage] at hp'
    obtain rfl := Option.some_inj.mp hp'
    rw [hpages] at hg
    obtain rfl : pageOf s p source q level l = g := by simpa using hg
    have hall : allLive (pageAnswered s p source q level l) = allLive (offersMade s p q l) := by
      unfold allLive
      rw [hzones]
    rw [hall]
    unfold pageOf opened pageStateOf
    dsimp only
    intro ⟨hst, hlive⟩
    rw [if_pos hlive] at hst
    nomatch hst
  · exact h.stands hp hl hc
  · refine ⟨h.stands hp hl hc, rfl, fun i hi => ?_⟩
    rw [h.call c, if_pos ⟨o, pg, hp, hg, hc⟩] at hi
    unfold pageless at hi
    cases hj : s.calls[c].inst with
    | none => rw [hj] at hi; nomatch hi
    | some j =>
      rw [hj] at hi
      obtain rfl := Option.some_inj.mp hi
      rfl

end

/-! ## The notices of a call, all told -/

theorem waitsFor_pageless (y : Call) (x : VoiceId) : (pageless y).waitsFor x = y.waitsFor x := by
  unfold Call.waitsFor pageless
  cases y.inst <;> rfl

theorem waitsFor_told (h : Call.waitsFor s.calls[d] x = false) (n : Note) : Call.waitsFor (told s n).calls[d] x = false := by
  by_cases hc : concerns d n = true
  · have hcall : (told s n).calls[d] = (toldCall (pairOf s d) n).1 := congrArg Prod.fst (told_self (s := s) hc)
    rw [hcall]
    have h : Call.waitsFor (pairOf s d).1 x = false := h
    generalize pairOf s d = y at h
    cases hj : y.1.inst with
    | none => rw [toldCall_none hj]; exact h
    | some j =>
      rcases concerns_iff.mp hc with rfl | ⟨r, rfl⟩
      · rw [toldCall_live hj]
        split
        · unfold Call.waitsFor inPhase
          rw [hj]
          exact Bool.and_false _
        · exact h
      · rw [toldCall_closed hj]
        exact waitsFor_of_inst_none rfl x
  · rw [told_call_other (Bool.eq_false_iff.mpr hc)]
    exact h

theorem waitsFor_tolds (h : Call.waitsFor s.calls[d] x = false) : Call.waitsFor (tolds s ns).calls[d] x = false := by
  induction ns generalizing s with
  | nil => exact h
  | cons n ns ih => exact ih (waitsFor_told h n)

section

variable (h : Opening s p q l source)

include h

/-- The state once the notices of the offers have been worked off. -/
theorem Opening.pair (hp : s.pages[o] = some pg) (hl : lostTo s q l o ≠ []) (hc : pg.opener = .call c) :
    pairOf (tolds (pageAnswered s p source q level l) (offersMade s p q l).notes) c
      = ((offersMade s p q l).notes.filter (concerns c)).foldl toldCall (pairOf (pageAnswered s p source q level l) c) := by
  refine tolds_pair fun n hn d hd hne he => ?_
  have hcfg (e : CallId) : (pageAnswered s p source q level l).calls[e].cfg = s.calls[e].cfg := by
    rw [h.call e]
    split <;> rfl
  rw [hcfg, hcfg] at he
  obtain ⟨_, _, _, _, ha, _⟩ := h.stand o pg c hp hl hc
  rcases (run_notes h.quiet h.offer).1 n hn with ⟨z, _, _, rfl⟩ | ⟨m, g, e, hm, hlm, hce, hcase⟩
  · nomatch hd
  · have hde : e = d := by
      rcases hcase with rfl | ⟨rfl, _⟩
      · simpa [concerns] using hd
      · simpa [concerns] using hd
    subst hde
    obtain ⟨_, _, _, _, ha', _⟩ := h.stand m g e hm hlm hce
    have hown := (congrArg (fun v : VoiceId => s.voices[v].owner) he).symm.trans ha'.1
    exact hne (VoiceOwner.call.inj (ha.1.symm.trans hown)).symm

/-- A call whose page has closed has ended, and nobody waits for what it releases. -/
theorem Opening.idle {r : CloseReason} (hn : .pageClosed c r ∈ (offersMade s p q l).notes) {ks : List Note} :
    Idle (.voiceIdle (pageAnswered s p source q level l).calls[c].cfg.voice (.call c))
      { tolds (pageAnswered s p source q level l) (offersMade s p q l).notes with notes := ks } := by
  obtain ⟨o, pg, hp, hl, hc, hg⟩ : ∃ o pg, s.pages[o] = some pg ∧ lostTo s q l o ≠ [] ∧ pg.opener = .call c
      ∧ goneBy s q l o pg = true := by
    rcases (run_notes h.quiet h.offer).1 _ hn with ⟨z, _, _, hz⟩ | ⟨o, pg, e, hp, hl, hc, he | ⟨he, hg⟩⟩
    · nomatch hz
    · nomatch he
    · obtain ⟨rfl, rfl⟩ := Note.pageClosed.inj he
      exact ⟨o, pg, hp, hl, hc, hg⟩
  obtain ⟨i, hi, hph, hip, ⟨hown, hsource, hwait⟩, hst, hsrc⟩ := h.stand o pg c hp hl hc
  have hcfg : (pageAnswered s p source q level l).calls[c].cfg = s.calls[c].cfg := by
    rw [h.call c]
    split <;> rfl
  rw [hcfg]
  have hbut := tolds_but (offersMade s p q l).notes (pageAnswered s p source q level l)
  have hpages : (tolds (pageAnswered s p source q level l) (offersMade s p q l).notes).pages
      = (offersMade s p q l).pages.set p (some (pageOf s p source q level l)) := by
    rw [hbut]
    exact pageAnswered_parts.2.2.2.2
  refine ⟨fun d hd => ?_, fun m hm => ?_, fun d => ?_⟩
  · obtain rfl := VoiceOwner.call.inj hd
    obtain ⟨lived, hpa⟩ := h.page hp
    have hpair := congrArg (·.1.inst) (h.pair (level := level) hp hl hc)
    refine hpair.trans ?_
    rw [hpa.told c hc (h.only hp hl hc), if_pos hg, List.foldl_append, List.foldl_cons, List.foldl_nil]
    generalize List.foldl toldCall _ _ = y
    cases hj : y.1.inst with
    | none => rw [toldCall_none hj, hj]
    | some j => rw [toldCall_closed hj]
  · have hm : ((offersMade s p q l).pages.set p (some (pageOf s p source q level l)))[m].map (·.source)
        = some (.voice s.calls[c].cfg.voice) := by
      rw [← hpages]
      exact hm
    by_cases hmp : m = p
    · subst hmp
      have hm : some source = some (PageSource.voice s.calls[c].cfg.voice) := by simpa [pageOf, opened] using hm
      exact hsrc (Option.some_inj.mp hm)
    · rw [set_get_ne _ _ _ _ hmp] at hm
      cases hg' : s.pages[m] with
      | none =>
        rw [(offered_run h.quiet h.offer).unused m hg'] at hm
        nomatch hm
      | some g =>
        obtain ⟨lived, hpa⟩ := h.page hg'
        rw [hpa.page] at hm
        split at hm
        · nomatch hm
        · next hgone =>
          have := hsource m (by rw [hg']; exact hm)
          obtain rfl := Option.some_inj.mp this
          obtain rfl := Option.some_inj.mp (hp.symm.trans hg')
          exact hgone hg
  · refine waitsFor_tolds ?_
    rw [h.call d]
    split
    · rw [waitsFor_pageless]
      exact hwait d
    · exact hwait d

/-- All notices of the open are worked off. -/
theorem Opening.drained (hr : Reaches as (pageAnswered s p source q level l) v) : ∃ bs,
    Reaches bs { tolds (pageAnswered s p source q level l) (offersMade s p q l).notes with notes := [] } (drain v)
      ∧ ∀ a ∈ as, a ∈ bs := by
  have hnotes : (pageAnswered s p source q level l).notes = (offersMade s p q l).notes := pageAnswered_parts.2.2.2.1
  have hstart : Reaches as { pageAnswered s p source q level l with notes := (offersMade s p q l).notes ++ [] } v := by
    refine hr.congr ?_ fun _ => Iff.rfl
    rw [List.append_nil, ← hnotes]
  obtain ⟨bs, ks, hset, hks, hlen, hmono⟩ := hstart.tolds fun n hn => h.heard hn
  have hcount : (offersMade s p q l).notes.length ≤ 2 * l.length := (run_notes h.quiet h.offer).2
  have hl : l.length ≤ 24 := by
    have := List.Nodup.length_le_card (h.offer.sorted.imp fun hlt => ne_of_lt hlt)
    simpa using this
  have hdone : Settles (ks.length + (offersMade s p q l).notes.length) bs v
      { tolds (pageAnswered s p source q level l) (offersMade s p q l).notes with notes := [] } :=
    hset.trans fun v' h' => h'.idle_notes (l := ks) (k := []) (by simp) fun k hk => by
      obtain ⟨c, r, hm, rfl⟩ := hks k hk
      exact h.idle hm
  exact ⟨bs, hdone.drained (by omega) rfl, hmono⟩

end

end Sys2Proof.Proofs.Ends
end

section
/-! PROOF. What a PAGE_OPEN makes of the calls whose pages lose zones, and of the cells (R152 to R154, R156, R161 to
R163, R168). -/

namespace Sys2Proof.Proofs.Ends

open Sys2Proof.Machine

variable {s u v w t : State} {as bs : List Area} {p o : PageId} {q : Fin 4} {l : List ZoneId} {z : ZoneId} {pg : Page}
  {source : PageSource} {level : Level} {c d : CallId} {i j : CallInst} {x : VoiceId}

/-- The state once the notices of an open have been worked off. -/
def openDone (s : State) (p : PageId) (source : PageSource) (q : Fin 4) (level : Level) (l : List ZoneId) : State :=
  tolds (pageAnswered s p source q level l) (offersMade s p q l).notes

/-- The call of the page hears that it is LIVE, and waits for its zones. -/
def Plays (s : State) (q : Fin 4) (l : List ZoneId) (o : PageId) (pg : Page) (i : CallInst) : Prop :=
  pg.state = .opened ∧ i.phase = .waitZones ∧ LiveLeft s q l o pg

/-- The call waits for the zones of a page that loses its last before it is LIVE. -/
def Missing (s : State) (q : Fin 4) (l : List ZoneId) (c : CallId) (i : CallInst) : Prop :=
  ∃ o pg, s.pages[o] = some pg ∧ goneBy s q l o pg = true ∧ pg.opener = .call c ∧ s.calls[c].inst = some i
    ∧ i.phase = .waitZones ∧ ¬ Plays s q l o pg i

section

variable (h : Opening s p q l source)

include h

open Classical in
theorem Opening.pair_before (c : CallId) : pairOf (pageAnswered s p source q level l) c
    = (if Unpaged s q l c then pageless s.calls[c] else s.calls[c], s.voices[s.calls[c].cfg.voice]) := by
  refine pairOf_eq (h.call c) ?_
  rw [pageAnswered_parts.2.2.1]
  split <;> rfl

section

variable (hp : s.pages[o] = some pg) (hl : lostTo s q l o ≠ []) (hc : pg.opener = .call c)
  (hi : s.calls[c].inst = some i)

include hp hl hc hi

omit hi in
/-- A page that keeps a zone leaves its call the page. -/
theorem Opening.paged (hg : goneBy s q l o pg = false) : ¬ Unpaged s q l c := by
  rintro ⟨m, g, hm, hgm, hcm⟩
  obtain rfl := h.only hp hl hc m g hm (goneBy_iff.mp hgm).1 hcm
  obtain rfl := Option.some_inj.mp (hp.symm.trans hm)
  exact Bool.noConfusion (hg.symm.trans hgm)

open Classical in
/-- The call of a page that has closed has ended, and has left its voice. -/
theorem Opening.call_gone (hg : goneBy s q l o pg = true) : pairOf (openDone s p source q level l) c
    = ({ s.calls[c] with
        inst := none
        outcome := if i.phase = .playing ∨ Plays s q l o pg i then .done true else .missed .pageClosed },
      Voice.idled (if Plays s q l o pg i then Voice.started s.voices[s.calls[c].cfg.voice]
        else s.voices[s.calls[c].cfg.voice])) := by
  obtain ⟨lived, hpa⟩ := h.page hp
  have hlived : lived = true ↔ pg.state = .opened ∧ LiveLeft s q l o pg := hpa.exact hl fun y hy => by
    rw [(goneBy_iff.mp hg).2] at hy
    simp at hy
  have hless : pageless s.calls[c] = { s.calls[c] with inst := some { i with page := none } } := by
    unfold pageless
    rw [hi]
    rfl
  unfold openDone
  rw [h.pair hp hl hc, hpa.told c hc (h.only hp hl hc), if_pos hg, h.pair_before c, if_pos ⟨o, pg, hp, hg, hc⟩, hless]
  have hclosed (y : Call × Voice) (k : CallInst) (hk : y.1.inst = some k) :
      toldCall y (.pageClosed c .preempted) = ({ y.1 with
        inst := none, outcome := if k.phase = .playing then .done true else .missed .pageClosed }, Voice.idled y.2) :=
    toldCall_closed hk
  cases hlv : lived with
  | false =>
    have hno : ¬ Plays s q l o pg i := fun hpl => by
      rw [hlived.mpr ⟨hpl.1, hpl.2.2⟩] at hlv
      nomatch hlv
    rw [if_neg Bool.false_ne_true, List.nil_append, List.foldl_cons, List.foldl_nil, hclosed _ { i with page := none } rfl, if_neg hno]
    simp only [hno, or_false]
  | true =>
    obtain ⟨hop, hll⟩ := hlived.mp hlv
    rw [if_pos rfl, List.singleton_append, List.foldl_cons, List.foldl_cons, List.foldl_nil,
      toldCall_live (i := { i with page := none }) rfl]
    by_cases hw : i.phase = .waitZones
    · have hpl : Plays s q l o pg i := ⟨hop, hw, hll⟩
      rw [if_pos hw, hclosed _ { i with page := none, phase := .playing } rfl, if_pos hpl, if_pos rfl, if_pos (.inr hpl)]
      rfl
    · have hno : ¬ Plays s q l o pg i := fun hpl => hw hpl.2.1
      rw [if_neg hw, hclosed _ { i with page := none } rfl, if_neg hno]
      simp only [hno, or_false]

/-- The call of a page that keeps a zone still runs. -/
theorem Opening.call_runs (hg : goneBy s q l o pg = false) : (openDone s p source q level l).calls[c].inst ≠ none := by
  obtain ⟨lived, hpa⟩ := h.page hp
  have hpair := congrArg (·.1.inst) (h.pair (level := level) hp hl hc)
  rw [hpa.told c hc (h.only hp hl hc), hg, h.pair_before c, if_neg (h.paged hp hl hc hg)] at hpair
  change (openDone s p source q level l).calls[c].inst = _ at hpair
  rw [hpair]
  cases lived with
  | false =>
    show s.calls[c].inst ≠ none
    rw [hi]
    nofun
  | true =>
    show (toldCall (s.calls[c], s.voices[s.calls[c].cfg.voice]) (.pageLive c)).1.inst ≠ none
    rw [toldCall_live hi]
    split
    · unfold inPhase
      rw [hi]
      nofun
    · rw [hi]
      nofun

open Classical in
/-- The call of a page that keeps zones which none takes plays when they are LIVE. -/
theorem Opening.call_left (hg : goneBy s q l o pg = false)
    (hd : ∀ y : ZoneId, (leftOf s q l o pg).getLsbD y = true → wonBy s q y = true → y ∉ l) :
    pairOf (openDone s p source q level l) c
      = (if Plays s q l o pg i then { s.calls[c] with inst := some { i with phase := .playing } } else s.calls[c],
        if Plays s q l o pg i then Voice.started s.voices[s.calls[c].cfg.voice] else s.voices[s.calls[c].cfg.voice]) := by
  obtain ⟨lived, hpa⟩ := h.page hp
  have hlived := hpa.exact hl hd
  unfold openDone
  rw [h.pair hp hl hc, hpa.told c hc (h.only hp hl hc), hg, h.pair_before c, if_neg (h.paged hp hl hc hg)]
  cases hlv : lived with
  | false =>
    have hno : ¬ Plays s q l o pg i := fun hpl => by
      rw [hlived.mpr ⟨hpl.1, hpl.2.2⟩] at hlv
      nomatch hlv
    rw [if_neg hno, if_neg hno]
    rfl
  | true =>
    obtain ⟨hop, hll⟩ := hlived.mp hlv
    show toldCall _ (.pageLive c) = _
    rw [toldCall_live hi]
    by_cases hw : i.phase = .waitZones
    · have hpl : Plays s q l o pg i := ⟨hop, hw, hll⟩
      rw [if_pos hw, if_pos hpl, if_pos hpl]
      unfold inPhase
      rw [hi]
      rfl
    · have hno : ¬ Plays s q l o pg i := fun hpl => hw hpl.2.1
      rw [if_neg hw, if_neg hno, if_neg hno]

end

/-- A call none of whose pages loses a zone stays as it is. -/
theorem Opening.call_other (hno : ∀ o pg, s.pages[o] = some pg → lostTo s q l o ≠ [] → pg.opener ≠ .call c) :
    (openDone s p source q level l).calls[c] = s.calls[c] := by
  unfold openDone
  rw [tolds_call_other fun n hn => Bool.eq_false_iff.mpr fun hcn => ?_, h.call c, if_neg]
  · rintro ⟨o, pg, hp, hg, hc⟩
    exact hno o pg hp (goneBy_iff.mp hg).1 hc
  · rcases (run_notes h.quiet h.offer).1 n hn with ⟨z, _, _, rfl⟩ | ⟨o, pg, e, hp, hl, hc, hcase⟩
    · nomatch hcn
    · refine hno o pg hp hl (hc.trans (congrArg _ ?_))
      rcases hcase with rfl | ⟨rfl, _⟩
      · simpa [concerns] using hcn
      · simpa [concerns] using hcn

/-- A voice of no call whose page loses a zone stays as it is. -/
theorem Opening.voice_other
    (hno : ∀ o pg c, s.pages[o] = some pg → lostTo s q l o ≠ [] → pg.opener = .call c → s.calls[c].cfg.voice ≠ x) :
    (openDone s p source q level l).voices[x] = s.voices[x] := by
  unfold openDone
  rw [tolds_voice_other fun n hn d hd => ?_, pageAnswered_parts.2.2.1]
  have hcfg : (pageAnswered s p source q level l).calls[d].cfg = s.calls[d].cfg := by
    rw [h.call d]
    split <;> rfl
  rw [hcfg]
  rcases (run_notes h.quiet h.offer).1 n hn with ⟨z, _, _, rfl⟩ | ⟨o, pg, e, hp, hl, hc, hcase⟩
  · nomatch hd
  · refine hno o pg d hp hl (hc.trans (congrArg _ ?_))
    rcases hcase with rfl | ⟨rfl, _⟩
    · simpa [concerns] using hd
    · simpa [concerns] using hd

/-! ## Calls missed -/

theorem Opening.missing (hm : WasMissed (openDone s p source q level l) c) (hi : s.calls[c].inst = some i) :
    Missing s q l c i := by
  have hlost : ∃ o pg, s.pages[o] = some pg ∧ lostTo s q l o ≠ [] ∧ pg.opener = .call c := by
    by_contra hno
    have hsame := h.call_other (c := c) (level := level) fun o pg hp hl hc => hno ⟨o, pg, hp, hl, hc⟩
    unfold WasMissed at hm
    rw [hsame, hi] at hm
    exact nomatch hm.1
  obtain ⟨o, pg, hp, hl, hc⟩ := hlost
  obtain ⟨k, hk, hph, _⟩ := h.stand o pg c hp hl hc
  obtain rfl := Option.some_inj.mp (hi.symm.trans hk)
  cases hg : goneBy s q l o pg with
  | false => exact absurd hm.1 (h.call_runs hp hl hc hi hg)
  | true =>
    have hout := congrArg (·.1.outcome) (h.call_gone (level := level) hp hl hc hi hg)
    change (openDone s p source q level l).calls[c].outcome = _ at hout
    rw [hm.2] at hout
    have hno : ¬ (i.phase = .playing ∨ Plays s q l o pg i) := fun hyes => by
      dsimp only at hout
      rw [if_pos hyes] at hout
      nomatch hout
    refine ⟨o, pg, hp, hg, hc, hi, ?_, fun hpl => hno (.inr hpl)⟩
    cases hph' : i.phase with
    | waitVoice => exact absurd hph' hph
    | waitZones => rfl
    | playing => exact absurd (.inl hph') hno

theorem Opening.wasMissed (hm : Missing s q l c i) : WasMissed (openDone s p source q level l) c := by
  obtain ⟨o, pg, hp, hg, hc, hi, hw, hno⟩ := hm
  have hpair := h.call_gone (level := level) hp (goneBy_iff.mp hg).1 hc hi hg
  have hcall : (openDone s p source q level l).calls[c] = _ := congrArg Prod.fst hpair
  unfold WasMissed
  rw [hcall]
  refine ⟨rfl, if_neg ?_⟩
  rintro (hpl | hpl)
  · exact nomatch hw.symm.trans hpl
  · exact hno hpl

theorem Opening.runs_before (hj : (pageAnswered s p source q level l).calls[c].inst = some j) : ∃ i,
    s.calls[c].inst = some i ∧ j.phase = i.phase ∧ j.started = i.started ∧ j.byCallNow = i.byCallNow := by
  rw [h.call c] at hj
  split at hj
  · unfold pageless at hj
    cases hi : s.calls[c].inst with
    | none => rw [hi] at hj; nomatch hj
    | some i =>
      rw [hi] at hj
      obtain rfl := Option.some_inj.mp hj
      exact ⟨i, rfl, rfl, rfl, rfl⟩
  · exact ⟨j, hj, rfl, rfl, rfl⟩

/-- Where no call is missed the CALL cell stays as it is. -/
theorem Opening.none_missed (hno : ∀ c i, ¬ Missing s q l c i) :
    (openDone s p source q level l).missedCalls = s.missedCalls
      ∧ (openDone s p source q level l).cells = (pageAnswered s p source q level l).cells := by
  obtain ⟨hm, hcells, _⟩ := tolds_kept (s := pageAnswered s p source q level l) (ns := (offersMade s p q l).notes)
    fun c j hj hmiss => by
      obtain ⟨i, hi, _⟩ := h.runs_before hj
      exact hno c i (h.missing hmiss hi)
  refine ⟨hm.trans ?_, hcells⟩
  rw [pageAnswered_eq]
  dsimp only
  rw [offersMade, sameBut_run s p q l]

/-- Where one call alone is missed it is handed to the CALL cell. -/
theorem Opening.one_missed (hc : Missing s q l c i) (hd : ∀ d k, Missing s q l d k → d = c) :
    (openDone s p source q level l).missedCalls = sat16 s.missedCalls
      ∧ (openDone s p source q level l).cells = (capturing callCell (callWords c false (some .pageClosed) i .none)
          (pageAnswered s p source q level l).cells s.tod (pageAnswered s p source q level l).wq).1
      ∧ (openDone s p source q level l).wq = (capturing callCell (callWords c false (some .pageClosed) i .none)
          (pageAnswered s p source q level l).cells s.tod (pageAnswered s p source q level l).wq).2 := by
  have hwas := h.wasMissed (level := level) hc
  obtain ⟨o, pg, hp, hg, hop, hi, hw, _⟩ := hc
  obtain ⟨j, hj⟩ : ∃ j, (pageAnswered s p source q level l).calls[c].inst = some j := by
    rw [h.call c]
    split
    · exact ⟨{ i with page := none }, by unfold pageless; rw [hi]; rfl⟩
    · exact ⟨i, hi⟩
  obtain ⟨i', hi', hph, hstarted, hby⟩ := h.runs_before hj
  obtain rfl := Option.some_inj.mp (hi.symm.trans hi')
  have hwords : callWords c false (some .pageClosed) j .none = callWords c false (some .pageClosed) i .none := by
    unfold callWords
    rw [hph, hstarted, hby]
  have hparts : (pageAnswered s p source q level l).missedCalls = s.missedCalls
      ∧ (pageAnswered s p source q level l).tod = s.tod := by
    rw [pageAnswered_eq]
    dsimp only
    rw [offersMade, sameBut_run s p q l]
    exact ⟨rfl, rfl⟩
  obtain ⟨h1, h2, h3⟩ := tolds_missed (ns := (offersMade s p q l).notes) hj hwas fun d k hne hk hm => by
    obtain ⟨i'', hi'', _⟩ := h.runs_before hk
    exact hne (hd d i'' (h.missing hm hi''))
  rw [hwords, hparts.2] at h2 h3
  exact ⟨h1.trans (congrArg sat16 hparts.1), h2, h3⟩

end

end Sys2Proof.Proofs.Ends
end

section
/-! PROOF. The parts of a PAGE_OPEN that has opened a page: zones, pages, the write queue and the cells (R152 to R156,
R168). -/

namespace Sys2Proof.Proofs.Ends

open Sys2Proof.Machine

variable {s u v w t : State} {as bs : List Area} {p o : PageId} {q : Fin 4} {l : List ZoneId} {z y : ZoneId} {pg : Page}
  {source : PageSource} {level : Level} {c d : CallId} {i j : CallInst} {x : VoiceId}

/-! ## A zone that takes a page -/

theorem poweredUp_fields {x y : Zone} (hcfg : y.cfg = x.cfg) (hrelay : y.relay = x.relay) (hpage : y.page = x.page)
    (hrun : y.falseRun = x.falseRun) : y.poweredUp.state = x.poweredUp.state ∧ y.poweredUp.ampen = x.poweredUp.ampen
      ∧ y.poweredUp.timer = x.poweredUp.timer ∧ y.poweredUp.falseRun = x.poweredUp.falseRun := by
  unfold Zone.poweredUp
  rw [hcfg, hrelay, hpage]
  split
  · exact ⟨rfl, rfl, rfl, hrun⟩
  · split
    · exact ⟨rfl, rfl, rfl, hrun⟩
    · exact ⟨rfl, rfl, rfl, rfl⟩

theorem pageHold_open (b : Bool) (q : Fin 4) : (!(b && some q != some 3)) = (!b || q == 3) := by
  revert b q
  decide

/-- A zone that has taken a page. -/
theorem carried_zone (he : s.engine ≠ .stopped) (x : Zone) :
    let y := carried s (some p) (some q) x
    y.page = some p ∧ y.relay = x.relay ∧ y.relayHold = x.relayHold
      ∧ y.duck = x.duck.command (-(x.cfg.duckDepth : Int)) (rampFrames s x.cfg.duckRamp)
      ∧ y.pageHold = Gate.setTo (!x.held || q == 3)
      ∧ (x.state = .off → (x.relay = false ∧ x.page = none) ∨ x.cfg.stability = 255 →
          let on := Zone.poweredUp { x with page := some p }
          y.state = on.state ∧ y.ampen = on.ampen ∧ y.timer = on.timer ∧ y.falseRun = on.falseRun)
      ∧ (x.state = .off → x.relay = true ∨ x.page ≠ none → x.cfg.stability ≠ 255 →
          y.state = x.state ∧ y.ampen = x.ampen ∧ y.timer = x.timer ∧ y.falseRun = x.falseRun)
      ∧ (x.state ≠ .off → y.state = x.state ∧ y.ampen = x.ampen ∧ y.falseRun = x.falseRun
          ∧ y.timer = if x.state = .live ∧ x.relay = false ∧ x.page = none then none else x.timer) := by
  intro y
  obtain ⟨hpage, hrelay, hhold, hrelayHold, hduck, _, _⟩ :=
    rejudged_same x.demand (s.engine == .stopped) (carrying s (some p) (some q) x)
  have hdemand : (carrying s (some p) (some q) x).demand = true := by
    unfold Zone.demand carrying
    simp
  have hno : x.demand = false ↔ x.relay = false ∧ x.page = none := by
    unfold Zone.demand
    cases x.relay <;> simp
  have hrunning : (s.engine == .stopped) = false := beq_eq_false_iff_ne.mpr he
  refine ⟨hpage, hrelay, hrelayHold, hduck, hhold.trans ?_, fun ho hw => ?_, fun ho hw hs => ?_, fun ho => ?_⟩
  · unfold carrying pageHoldClosed
    dsimp only
    rw [pageHold_open]
  · have hy : y = (carrying s (some p) (some q) x).poweredUp := by
      refine (rejudged_off (x := carrying s (some p) (some q) x) ho).trans (if_pos ⟨?_, hrunning⟩)
      rw [hdemand, Bool.true_and, Bool.or_eq_true, Bool.not_eq_true', hno]
      exact hw.imp_right fun h255 => beq_iff_eq.mpr h255
    rw [hy]
    exact poweredUp_fields rfl rfl rfl rfl
  · have hy : y = carrying s (some p) (some q) x := by
      refine (rejudged_off (x := carrying s (some p) (some q) x) ho).trans (if_neg fun hcond => ?_)
      have hcond := hcond.1
      rw [hdemand, Bool.true_and, Bool.or_eq_true, Bool.not_eq_true', hno] at hcond
      rcases hcond with ⟨hr, hp⟩ | h255
      · exact hw.elim (fun hr' => Bool.noConfusion (hr.symm.trans hr')) fun hp' => hp' hp
      · exact hs (beq_iff_eq.mp h255)
    rw [hy]
    exact ⟨rfl, rfl, rfl, rfl⟩
  · by_cases hl : x.state = .live
    · have hy : y = if !x.demand then { carrying s (some p) (some q) x with timer := none }
          else carrying s (some p) (some q) x := by
        refine (rejudged_live (x := carrying s (some p) (some q) x) hl).trans ?_
        rw [hdemand]
        rfl
      rw [hy]
      by_cases hd : x.demand = false
      · rw [if_pos (by rw [hd]; rfl), if_pos ⟨hl, hno.mp hd⟩]
        exact ⟨rfl, rfl, rfl, rfl⟩
      · rw [if_neg (by simpa using hd), if_neg fun hcond => hd (hno.mpr hcond.2)]
        exact ⟨rfl, rfl, rfl, rfl⟩
    · have hy : y = carrying s (some p) (some q) x := rejudged_else (x := carrying s (some p) (some q) x) ho hl
      rw [hy, if_neg fun hcond => hl hcond.1]
      exact ⟨rfl, rfl, rfl, rfl⟩

/-! ## The write queue -/

theorem Roomy.join_capture {Q Q' : WriteQueue} {n : Nat} (h : Roomy Q Q' n) (b : Burst) :
    Roomy Q (Q'.join .capture b) (n + 1) := by
  intro hl hc
  obtain ⟨hc', l, hln, hq⟩ := h (by omega) hc
  rw [join_room (q := Q') (w := .capture) b hc' (by rw [hq, List.length_append]; omega)]
  exact ⟨hc', l ++ [b], by simp; omega, by rw [hq, List.append_assoc]⟩

theorem roomy_capturing {cell : CellId} {ds : List Word} {cells : Vector Cell 12} {tod : TimeOfDay} (Q : WriteQueue) :
    Roomy Q (capturing cell ds cells tod Q).2 2 := by
  unfold capturing
  split
  · exact ((roomy_refl Q).join_capture _).join_capture _
  · have hone : ∀ {Q'}, Roomy Q Q' 1 → Roomy Q Q' 2 := fun hr hl hc => by
      obtain ⟨h1, l, h2, h3⟩ := hr (by omega) hc
      exact ⟨h1, l, by omega, h3⟩
    split
    · exact hone ((roomy_refl Q).join_capture _)
    · exact hone fun _ hc => ⟨hc, [], by simp, by simp⟩

theorem answeredQueue_extends (a : Answer) (cur : Option Current) (Q : WriteQueue) :
    ∃ l, (answeredQueue a cur Q).queue = Q.queue ++ l := by
  cases cur with
  | none => exact ⟨[], (List.append_nil _).symm⟩
  | some c =>
    obtain ⟨l, hl⟩ := join_extends Q .slate (.slotResult c.slot a.code a.words)
    obtain ⟨l', hl'⟩ := join_extends (Q.join .slate (.slotResult c.slot a.code a.words)) .slate
      (.slotState c.slot (answerState a.code))
    exact ⟨l ++ l', by rw [← List.append_assoc, ← hl]; exact hl'⟩

theorem Roomy.answeredQueue {Q Q' : WriteQueue} {n : Nat} (h : Roomy Q Q' n) (a : Answer) (cur : Option Current) :
    Roomy Q (Ends.answeredQueue a cur Q') (n + 2) := by
  cases cur with
  | none =>
    intro hl hc
    obtain ⟨h1, l, h2, h3⟩ := h (by omega) hc
    exact ⟨h1, l, by omega, h3⟩
  | some c => exact (h.join_slate _).join_slate _

/-- What is handed to a cell depends on that cell alone. -/
theorem capturing_congr {cell : CellId} {ds : List Word} {cells cells' : Vector Cell 12} {tod : TimeOfDay}
    {Q : WriteQueue} (h : cells'[cell] = cells[cell]) :
    (capturing cell ds cells' tod Q).1[cell] = (capturing cell ds cells tod Q).1[cell]
      ∧ (capturing cell ds cells' tod Q).2 = (capturing cell ds cells tod Q).2 := by
  unfold capturing
  rw [h]
  split
  · exact ⟨by simp, rfl⟩
  · split
    · exact ⟨by simp, rfl⟩
    · exact ⟨h, rfl⟩

/-- The bursts of an event handed to an EMPTY cell, with room for them. -/
theorem capturing_room {cell : CellId} {ds : List Word} {cells : Vector Cell 12} {tod : TimeOfDay} {Q : WriteQueue}
    (he : cells[cell].state = .empty) (hl : Q.queue.length ≤ 46) (hc : Q.heldCapture = []) :
    (capturing cell ds cells tod Q).2.queue = Q.queue ++ [.cellData cell tod ds, .cellFull cell] := by
  unfold capturing
  rw [if_pos he]
  dsimp only
  rw [join_room (q := Q) (w := .capture) (.cellData cell tod ds) hc (by omega)]
  rw [join_room (q := { Q with queue := Q.queue ++ [.cellData cell tod ds] }) (w := .capture) (.cellFull cell) hc (by
    simp only [List.length_append, List.length_singleton]
    omega)]
  exact List.append_assoc ..

/-! ## Sets of zones -/

theorem withZones_eq_zero : withZones 0#24 l = 0#24 ↔ l = [] := by
  refine ⟨fun h => List.eq_nil_iff_forall_not_mem.mpr fun z hz => ?_, fun h => by rw [h]; rfl⟩
  have := withZones_getLsbD l 0#24 z
  rw [h] at this
  simp [hz] at this

theorem mem_withZones : (withZones 0#24 l).getLsbD y = true ↔ y ∈ l := by
  rw [withZones_getLsbD]
  simp

theorem membersOf_sorted (s : State) (g : Fin 8) : (membersOf s g).Pairwise (· < ·) := by
  unfold membersOf zonesOf
  exact (List.pairwise_lt_finRange 24).filter _

theorem zonesOf_winners (g : Fin 8) : zonesOf (withZones 0#24 (winners s q (membersOf s g))) = winners s q (membersOf s g) := by
  have hmem : winners s q (membersOf s g)
      = (List.finRange 24).filter fun z : ZoneId => s.zoneGroups[g].getLsbD z && wonBy s q z := by
    unfold winners membersOf zonesOf
    rw [List.filter_filter]
    exact List.filter_congr fun z _ => Bool.and_comm ..
  rw [hmem]
  unfold zonesOf
  refine List.filter_congr fun z _ => ?_
  rw [Bool.eq_iff_iff, mem_withZones, List.mem_filter]
  simp

/-- Which members take the page. -/
theorem wonBy_iff (h : Declines s z ∨ Skips s q z ∨ Free s z ∨ ∃ o pg, Wins s q z o pg) :
    wonBy s q z = true ↔ Free s z ∨ ∃ o pg, Wins s q z o pg := by
  refine ⟨fun hw => ?_, fun hw => hw.elim wonBy_free fun ⟨_, _, hw⟩ => wonBy_wins hw⟩
  rcases h with hd | hk | hw
  · exact absurd hw (Bool.eq_false_iff.mp (not_wonBy (.inl hd)))
  · exact absurd hw (Bool.eq_false_iff.mp (not_wonBy (.inr hk)))
  · exact hw

theorem free_of_freePage (h : freePage s = some p) : s.pages[p] = none := by
  unfold freePage at h
  have := List.find?_some h
  exact Option.isNone_iff_eq_none.mp this

/-! ## The state at the end -/

section

variable (h : Opening s p q l source)

include h

/-- The pages of the others. -/
theorem Opening.page_done {n : PageId} (hn : n ≠ p) : (openDone s p source q level l).pages[n] = (offersMade s p q l).pages[n] := by
  have hbut : (openDone s p source q level l).pages = (pageAnswered s p source q level l).pages := by
    unfold openDone
    rw [tolds_but (offersMade s p q l).notes]
  rw [hbut, pageAnswered_parts.2.2.2.2]
  exact set_get_ne _ _ _ _ hn

omit h in
theorem done_parts : (openDone s p source q level l).zones = (offersMade s p q l).zones
    ∧ (openDone s p source q level l).pages[p] = some (pageOf s p source q level l)
    ∧ (openDone s p source q level l).lastClosed = (offersMade s p q l).lastClosed
    ∧ (openDone s p source q level l).slate = answeredSlate (openAnswer p (run s p q l)) s.slate
    ∧ (openDone s p source q level l).mirror = s.mirror := by
  unfold openDone
  rw [tolds_but (offersMade s p q l).notes, pageAnswered_eq]
  refine ⟨rfl, by simp, rfl, rfl, ?_⟩
  dsimp only
  rw [offersMade, sameBut_run s p q l]

omit h in
/-- The open is handed to the PAGE cell, and only calls missed to another. -/
theorem done_cells : (∀ k : CellId, k ≠ pageCell → k ≠ callCell → (openDone s p source q level l).cells[k] = s.cells[k])
    ∧ (openDone s p source q level l).cells[pageCell]
        = (capturing pageCell (pageDetails p (pageOf s p source q level l) (run s p q l).2) s.cells s.tod s.wq).1[pageCell]
    ∧ (pageAnswered s p source q level l).cells[callCell] = s.cells[callCell]
    ∧ (∀ k : CellId, k ≠ pageCell → (pageAnswered s p source q level l).cells[k] = s.cells[k])
    ∧ ∃ b, (openDone s p source q level l).wq.queue
        = (capturing pageCell (pageDetails p (pageOf s p source q level l) (run s p q l).2) s.cells s.tod s.wq).2.queue ++ b := by
  obtain ⟨hk, b, hb⟩ := tolds_cells (s := pageAnswered s p source q level l) (ns := (offersMade s p q l).notes)
  have hcells : (pageAnswered s p source q level l).cells
      = (capturing pageCell (pageDetails p (pageOf s p source q level l) (run s p q l).2) s.cells s.tod s.wq).1 := by
    rw [pageAnswered_eq]
  have hwq : (pageAnswered s p source q level l).wq = answeredQueue (openAnswer p (run s p q l)) s.slate.current
      (capturing pageCell (pageDetails p (pageOf s p source q level l) (run s p q l).2) s.cells s.tod s.wq).2 := by
    rw [pageAnswered_eq]
  obtain ⟨b', hb'⟩ := answeredQueue_extends (openAnswer p (run s p q l)) s.slate.current
    (capturing pageCell (pageDetails p (pageOf s p source q level l) (run s p q l).2) s.cells s.tod s.wq).2
  refine ⟨fun k hp hc => (hk k hc).trans ?_, (hk pageCell (by decide)).trans ?_, ?_, fun k hp => ?_, b' ++ b, ?_⟩
  · rw [hcells]
    exact capturing_other hp
  · rw [hcells]
  · rw [hcells]
    exact capturing_other (by decide)
  · rw [hcells]
    exact capturing_other hp
  · unfold openDone
    rw [hb, hwq, hb', List.append_assoc]

omit h in
theorem answered_roomy : Roomy s.wq (pageAnswered s p source q level l).wq 4 := by
  rw [pageAnswered_eq]
  exact (roomy_capturing s.wq).answeredQueue _ _

end

/-- A PAGE_OPEN that opens a page, to its end. -/
theorem pageOpen_done {g : Fin 8} {src : SourceRef} {lev : BitVec 16} (ht : s.Takes (.pageOpen g.val src q.val lev))
    (hs : SourceRef.source? src = some source) (hp : freePage s = some p)
    (hw : (run s p q (membersOf s g)).2.won ≠ 0#24) (h : Opening s p q (membersOf s g) source) : ∃ t b m,
      exec (.pageOpen g.val src q.val lev) s = .next t
      ∧ t = { openDone s p source q (levelOfField lev) (membersOf s g) with
          notes := [], marks := [], mirror := m
          wq := { (openDone s p source q (levelOfField lev) (membersOf s g)).wq with
            queue := (openDone s p source q (levelOfField lev) (membersOf s g)).wq.queue ++ b, began := false } }
      ∧ ∀ base, s.mirror.base = some base → s.HandedOver base .pages t ∧ s.HandedOver base .zones t := by
  obtain ⟨bs, v, hreq, hr, hpages, hzones⟩ := pageOpen_opens ht hs hp hw
  obtain ⟨cs, hd, hmono⟩ := h.drained hr
  obtain ⟨b, m, hfin⟩ := hd.finished rfl
  have hends := Reaches.endsAs_drained rfl hd rfl
  have hmirror := (done_parts (s := s) (p := p) (q := q) (l := membersOf s g) (source := source)
    (level := levelOfField lev)).2.2.2.2
  refine ⟨finish v, b, m, (exec_command (r := .pageOpen g.val src q.val lev) ht.1).trans (congrArg _ hreq), hfin,
    fun base hb => ?_⟩
  have hover (a : Area) (ha : a ∈ cs) : s.HandedOver base a (finish v) :=
    handedOver_of_areas (endsAs_handsOver hends ha (by
      show (openDone s p source q (levelOfField lev) (membersOf s g)).mirror.base = _
      rw [hmirror]
      exact hb)) (by
        show (openDone s p source q (levelOfField lev) (membersOf s g)).mirror.areas = _
        rw [hmirror])
  exact ⟨hover _ (hmono _ hpages), hover _ (hmono _ hzones)⟩

end Sys2Proof.Proofs.Ends
end

section
/-! PROOF. PAGE_OPEN: the statement of O37 (R152 to R156, R161 to R163). -/

namespace Sys2Proof.Proofs.Ends

open Sys2Proof.Machine

variable {s t : State} {p o : PageId} {q : Fin 4} {l : List ZoneId} {z y : ZoneId} {pg : Page} {g : Fin 8}
  {source : PageSource} {level : Level} {c d : CallId} {i j : CallInst} {x : VoiceId} {won : BitVec 24}
  {gone : Vector (BitVec 24) 4}

/-! ## What the statement calls won, gone and left -/

/-- The zones that a page still holds, as the statement says it. -/
abbrev keptBy (s : State) (gone : Vector (BitVec 24) 4) (o : PageId) : BitVec 24 :=
  ((s.pages[o].map (·.zones)).getD 0#24) &&& ~~~gone[o]

/-- The sets of the statement are those of the offers. -/
structure Sets (s : State) (q : Fin 4) (l : List ZoneId) (won : BitVec 24) (gone : Vector (BitVec 24) 4) : Prop where
  won : won = withZones 0#24 (winners s q l)
  gone : ∀ o : PageId, gone[o] = withZones 0#24 (lostTo s q l o)

theorem sets_of (heach : ∀ z ∈ l, Declines s z ∨ Skips s q z ∨ Free s z ∨ ∃ o pg, Wins s q z o pg)
    (hwon : ∀ z : ZoneId, won.getLsbD z = true ↔ z ∈ l ∧ (Free s z ∨ ∃ o pg, Wins s q z o pg))
    (hgone : ∀ (o : PageId) (z : ZoneId), gone[o].getLsbD z = true ↔ won.getLsbD z = true ∧ s.zones[z].page = some o) :
    Sets s q l won gone := by
  have hmem (z : ZoneId) : won.getLsbD z = true ↔ z ∈ l ∧ wonBy s q z = true := by
    rw [hwon]
    exact and_congr_right fun hz => (wonBy_iff (heach z hz)).symm
  refine ⟨zones_ext fun z => ?_, fun o => zones_ext fun z => ?_⟩
  · rw [Bool.eq_iff_iff, hmem, mem_withZones]
    simp [winners]
  · rw [Bool.eq_iff_iff, hgone, hmem, mem_withZones, mem_lostTo]
    tauto

section

variable (hS : Sets s q l won gone)

include hS

theorem Sets.mem_won : won.getLsbD z = true ↔ z ∈ l ∧ wonBy s q z = true := by
  rw [hS.won, mem_withZones]
  simp [winners]

theorem Sets.mem_gone : gone[o].getLsbD z = true ↔ z ∈ lostTo s q l o := by rw [hS.gone, mem_withZones]

theorem Sets.gone_eq_zero : gone[o] = 0#24 ↔ lostTo s q l o = [] := by rw [hS.gone, withZones_eq_zero]

theorem Sets.left (hp : s.pages[o] = some pg) :
    keptBy s gone o = leftOf s q l o pg := by
  unfold keptBy
  rw [hp, hS.gone]
  rfl

theorem Sets.goneBy (hp : s.pages[o] = some pg) : goneBy s q l o pg = true
    ↔ gone[o] ≠ 0#24 ∧ keptBy s gone o = 0#24 := by
  rw [goneBy_iff, hS.left hp, Ne, Ne, hS.gone_eq_zero]

/-- What a page keeps is taken by no other. -/
theorem Sets.apart (hp : s.pages[o] = some pg)
    (hd : keptBy s gone o &&& won = 0#24) (y : ZoneId)
    (hy : (leftOf s q l o pg).getLsbD y = true) (hw : wonBy s q y = true) : y ∉ l := fun hl => by
  have := congrArg (·.getLsbD y) hd
  rw [hS.left hp] at this
  simp only [BitVec.getLsbD_and, BitVec.getLsbD_zero] at this
  rw [hy, hS.mem_won.mpr ⟨hl, hw⟩] at this
  nomatch this

theorem Sets.liveLeft (hp : s.pages[o] = some pg) [Decidable (keptBy s gone o = 0#24)] :
    LiveLeft s q l o pg ↔ if keptBy s gone o = 0#24 then
        ∃ y z : ZoneId, y < z ∧ gone[o].getLsbD y = true ∧ gone[o].getLsbD z = true
          ∧ (∀ n : ZoneId, gone[o].getLsbD n = true → n ≤ z) ∧ s.zones[z].state = .live
      else ∀ z : ZoneId, (keptBy s gone o).getLsbD z = true →
        s.zones[z].state = .live := by
  unfold LiveLeft
  simp only [hS.left hp, hS.mem_gone]

/-- How many zones were won from pages, and how many pages have closed. -/
theorem Sets.counts (hl : l = membersOf s g) (ho : Offer s p q l) :
    ((zonesOf won).filter fun z => s.zones[z].page.isSome).length
        = ((winners s q l).filter fun z => s.zones[z].page.isSome).length
      ∧ ((List.finRange 4).filter fun o : PageId =>
          gone[o] ≠ 0#24 && keptBy s gone o == 0#24).length
        = ((List.finRange 4).filter (goneAt s q l)).length := by
  refine ⟨?_, congrArg List.length (List.filter_congr fun o _ => ?_)⟩
  · rw [hS.won, hl, zonesOf_winners]
  · unfold goneAt
    cases hp : s.pages[o] with
    | none =>
      have hnone : lostTo s q l o = [] := List.eq_nil_iff_forall_not_mem.mpr fun z hz => by
        obtain ⟨hzl, hw, hpage⟩ := mem_lostTo.mp hz
        rcases (wonBy_iff (ho.each z hzl)).mp hw with hf | ⟨o', pg, hw'⟩
        · exact nomatch hpage.symm.trans hf.2
        · obtain rfl := Option.some_inj.mp (hw'.2.1.symm.trans hpage)
          exact nomatch hp.symm.trans hw'.2.2.1
      rw [decide_eq_false (not_not_intro (hS.gone_eq_zero.mpr hnone))]
      rfl
    | some pg =>
      rw [Option.any_some, Bool.eq_iff_iff, hS.goneBy hp]
      simp

end

/-! ## The answer and the PAGE cell -/

/-- The first two bursts behind those that were queued. -/
theorem take_joined (Q b b' : List Burst) (x y : Burst) : ((Q ++ [x, y] ++ b' ++ b).drop Q.length).take 2 = [x, y] := by
  simp

theorem pageDetails_eq : pageDetails p (pageOf s p source q level l) (run s p q l).2
    = [place p.val 0 ||| place q.val 8,
        placeCode (Config.code (.owner .request)) 0 8 ||| place 0 8,
        (match source with
          | .channel c => placeCode (Config.code (.sourceKind .channel)) 0 8 ||| place c.val 8
          | .voice v => placeCode (Config.code (.sourceKind .voice)) 0 8 ||| place v.val 8),
        (run s p q l).2.won.setWidth 32,
        place (run s p q l).2.preempted 0 ||| place (run s p q l).2.closed 8
          ||| placeCode (Config.code (.pageState (pageOf s p source q level l).state)) 16 1] := by
  cases source <;> rfl

/-- The page is LIVE when all the zones it has won are. -/
theorem pageOf_live : (pageOf s p source q level l).state = .live
    ↔ ∀ z : ZoneId, (run s p q l).2.won.getLsbD z = true → (offersMade s p q l).zones[z].state = .live := by
  have hall := allLive_iff (s := offersMade s p q l) (b := (run s p q l).2.won)
  simp only [mem_zonesOf] at hall
  rw [← hall]
  show pageStateOf (offersMade s p q l) (run s p q l).2.won = .live ↔ _
  unfold pageStateOf
  split <;> simp_all

/-! ## The clauses -/

section

variable (h : Opening s p q l source) (hS : Sets s q l won gone)

include h hS

/-- A page that has closed, and one that keeps its zones. -/
theorem Opening.pages_done (hp : s.pages[o] = some pg) (hg : gone[o] ≠ 0#24) :
    (keptBy s gone o = 0#24 → (openDone s p source q level l).pages[o] = none)
    ∧ (keptBy s gone o ≠ 0#24 →
      keptBy s gone o &&& won = 0#24 → ∀ (live : Prop) [Decidable live],
      (live ↔ ∀ z : ZoneId, (keptBy s gone o).getLsbD z = true →
        s.zones[z].state = .live) →
      (openDone s p source q level l).pages[o] = some { pg with
        zones := keptBy s gone o, state := if live then .live else pg.state }) := by
  have hne : o ≠ p := fun he => by
    rw [he, h.offer.free] at hp
    nomatch hp
  obtain ⟨lived, hpa⟩ := h.page hp
  rw [h.page_done hne, hpa.page]
  refine ⟨fun h0 => if_pos ((hS.goneBy hp).mpr ⟨hg, h0⟩), fun h0 hd live _ hlive => ?_⟩
  rw [if_neg fun hgb => h0 ((hS.goneBy hp).mp hgb).2]
  have hex := hpa.exact (mt hS.gone_eq_zero.mpr hg) (hS.apart hp hd)
  have hll : LiveLeft s q l o pg ↔ live := by
    unfold LiveLeft
    rw [hlive, if_neg (by rw [← hS.left hp]; exact h0), hS.left hp]
  rw [hS.left hp]
  have hst : (if lived then PageState.live else pg.state) = if live then .live else pg.state := by
    rw [hll] at hex
    by_cases hl : live
    · rw [if_pos hl]
      split
      · rfl
      · next hno =>
        cases hs : pg.state with
        | live => rfl
        | opened => exact absurd (hex.mpr ⟨hs, hl⟩) hno
    · rw [if_neg hl, if_neg fun hlv => hl (hex.mp hlv).2]
  rw [hst]

/-- A page that loses nothing stays as it is. -/
theorem Opening.pages_kept (hne : o ≠ p) (hg : gone[o] = 0#24) : (openDone s p source q level l).pages[o] = s.pages[o] := by
  rw [h.page_done hne]
  cases hp : s.pages[o] with
  | none => exact (offered_run h.quiet h.offer).unused o hp
  | some pg =>
    have hlost := hS.gone_eq_zero.mp hg
    obtain ⟨lived, hpa⟩ := h.page hp
    rw [hpa.page, if_neg fun hgb => (goneBy_iff.mp hgb).1 hlost, leftOf_nil hlost, hpa.idle hlost]
    rfl

/-- The last-closed record. -/
theorem Opening.lastClosed_done :
    ((∀ (o : PageId) (pg : Page), s.pages[o] = some pg ∧ gone[o] ≠ 0#24 → keptBy s gone o ≠ 0#24) →
      (openDone s p source q level l).lastClosed = s.lastClosed)
    ∧ ∀ (o : PageId) (pg : Page) (z : ZoneId), s.pages[o] = some pg ∧ gone[o] ≠ 0#24 →
      keptBy s gone o = 0#24 → gone[o].getLsbD z = true →
      (∀ (n : PageId) (g : Page) (y : ZoneId), s.pages[n] = some g ∧ gone[n] ≠ 0#24 →
        keptBy s gone n = 0#24 → gone[n].getLsbD y = true → y ≤ z) →
      (openDone s p source q level l).lastClosed
        = some { id := o, opener := pg.opener, reason := .preempted, time := s.tod } := by
  obtain ⟨hsame, hlast⟩ := run_lastClosed h.quiet h.offer
  rw [done_parts.2.2.1]
  refine ⟨fun hno => hsame fun n g hp => Bool.eq_false_iff.mpr fun hg => ?_, fun o pg z ⟨hp, hg⟩ h0 hz hmax =>
    hlast o pg z hp ((hS.goneBy hp).mpr ⟨hg, h0⟩) (hS.mem_gone.mp hz) fun n g y hp' hg' hy => ?_⟩
  · obtain ⟨h1, h2⟩ := (hS.goneBy hp).mp hg
    exact hno n g ⟨hp, h1⟩ h2
  · obtain ⟨h1, h2⟩ := (hS.goneBy hp').mp hg'
    exact hmax n g y ⟨hp', h1⟩ h2 (hS.mem_gone.mpr hy)

end

open Classical in
/-- The calls and voices of the pages that lose zones. -/
theorem Opening.calls_done (h : Opening s p q l source) (hS : Sets s q l won gone) (hp : s.pages[o] = some pg)
    (hg : gone[o] ≠ 0#24) (hc : pg.opener = .call c) (hi : s.calls[c].inst = some i) {plays : Prop} [Decidable plays]
    (hplays : plays ↔ Plays s q l o pg i) :
    (keptBy s gone o = 0#24 →
      (openDone s p source q level l).voices[s.calls[c].cfg.voice]
          = Voice.idled (if plays then Voice.started s.voices[s.calls[c].cfg.voice] else s.voices[s.calls[c].cfg.voice])
        ∧ ∀ (ends : Prop) [Decidable ends], (ends ↔ i.phase = .playing ∨ plays) →
          (openDone s p source q level l).calls[c] = { s.calls[c] with
            inst := none, outcome := if ends then .done true else .missed .pageClosed })
    ∧ (keptBy s gone o ≠ 0#24 →
      keptBy s gone o &&& won = 0#24 →
      (openDone s p source q level l).voices[s.calls[c].cfg.voice]
          = (if plays then Voice.started s.voices[s.calls[c].cfg.voice] else s.voices[s.calls[c].cfg.voice])
        ∧ (openDone s p source q level l).calls[c]
          = if plays then { s.calls[c] with inst := some { i with phase := .playing } } else s.calls[c]) := by
  have hlost : lostTo s q l o ≠ [] := mt hS.gone_eq_zero.mpr hg
  have hparts {y : Call × Voice} (hpair : pairOf (openDone s p source q level l) c = y) (hcfg : y.1.cfg = s.calls[c].cfg) :
      (openDone s p source q level l).calls[c] = y.1
        ∧ (openDone s p source q level l).voices[s.calls[c].cfg.voice] = y.2 := by
    have hcall : (openDone s p source q level l).calls[c] = y.1 := congrArg Prod.fst hpair
    have hvoice : (openDone s p source q level l).voices[(openDone s p source q level l).calls[c].cfg.voice] = y.2 :=
      congrArg Prod.snd hpair
    have hv : (openDone s p source q level l).calls[c].cfg.voice = s.calls[c].cfg.voice := by rw [hcall, hcfg]
    exact ⟨hcall, (congrArg (fun v : VoiceId => (openDone s p source q level l).voices[v]) hv).symm.trans hvoice⟩
  refine ⟨fun h0 => ?_, fun h0 hd => ?_⟩
  · obtain ⟨hcall, hvoice⟩ := hparts (h.call_gone (level := level) hp hlost hc hi ((hS.goneBy hp).mpr ⟨hg, h0⟩)) rfl
    dsimp only at hvoice
    refine ⟨hvoice.trans (congrArg Voice.idled (if_congr hplays.symm rfl rfl)), fun ends _ hends => hcall.trans ?_⟩
    have hout : (if i.phase = .playing ∨ Plays s q l o pg i then CallOutcome.done true else .missed .pageClosed)
        = if ends then .done true else .missed .pageClosed := if_congr (by rw [hends, hplays]) rfl rfl
    dsimp only
    rw [hout]
  · have hpair := h.call_left (level := level) hp hlost hc hi
      (Bool.eq_false_iff.mpr fun hgb => h0 ((hS.goneBy hp).mp hgb).2) (hS.apart hp hd)
    obtain ⟨hcall, hvoice⟩ := hparts hpair (by
      dsimp only
      split <;> rfl)
    exact ⟨hvoice.trans (if_congr hplays.symm rfl rfl), hcall.trans (if_congr hplays.symm rfl rfl)⟩

theorem ownerOf_pageOpen_busy {src : SourceRef} {lev : BitVec 16} (hs : SourceRef.source? src = some source)
    (hp : freePage s = none) : ownerOf (.pageOpen g.val src q.val lev) s = (s, some (refuse .busy)) := by
  have hopen : openPage g .request source q (levelOfField lev) s = (s, .busy) := openPage_busy hp
  show later (pageOpenOwner g.val src q.val lev s) = _
  rw [pageOpenOwner_eq hs (by rw [hopen]), hopen]
  rfl

theorem ownerOf_pageOpen_none {src : SourceRef} {lev : BitVec 16} (hs : SourceRef.source? src = some source)
    (hp : freePage s = some p) (h : ∀ z ∈ membersOf s g, Declines s z ∨ Skips s q z) :
    ownerOf (.pageOpen g.val src q.val lev) s = (s, some (answer .noZone (wordsOf (wordOf (membersOf s g).length)
      (wordOf ((membersOf s g).filter fun z => s.zones[z].state != .fault).length)
      (wordOf ((membersOf s g).filter fun z => s.zones[z].state == .fault).length)
      (if (membersOf s g).length = 0 then 0#32 else rest s 3)))) := by
  have hopen := openPage_none (opener := .request) (source := source) (lev := levelOfField lev) hp h
  show later (pageOpenOwner g.val src q.val lev s) = _
  rw [pageOpenOwner_eq hs (by rw [hopen]), hopen]
  rfl

/-- Settles O37: the refusals, and an open from the offers to the notices that they bring. -/
theorem pageOpenOffersThePage : Obligations.PageOpenOffersThePage := by
  unfold Obligations.PageOpenOffersThePage
  intro s group src prio lev ht bad
  by_cases hgroup : 8 ≤ group
  · refine ⟨_, exec_command (r := .pageOpen group src prio lev) ht.1, fun _ =>
      answered_same ht (ownerOf_pageOpen_group (s := markHanded s) hgroup), fun h => absurd h (by omega),
      fun h => absurd h (by omega), fun g _ _ hg => absurd g.isLt (by omega)⟩
  obtain ⟨g, rfl⟩ : ∃ g : Fin 8, g.val = group := ⟨⟨group, by omega⟩, rfl⟩
  cases hs : SourceRef.source? src with
  | none =>
    refine ⟨_, exec_command (r := .pageOpen g.val src prio lev) ht.1, fun h => absurd h hgroup, fun _ _ =>
      answered_same ht (ownerOf_pageOpen_source (s := markHanded s) hs), fun _ h => absurd rfl h,
      fun _ _ _ _ _ h => nomatch h⟩
  | some source =>
    by_cases hprio : 4 ≤ prio
    · refine ⟨_, exec_command (r := .pageOpen g.val src prio lev) ht.1, fun h => absurd h hgroup, nofun,
        fun _ _ _ => answered_same ht (ownerOf_pageOpen_priority (s := markHanded s) hs hprio),
        fun _ q _ _ hq => absurd q.isLt (by omega)⟩
    obtain ⟨q, rfl⟩ : ∃ q : Fin 4, q.val = prio := ⟨⟨prio, by omega⟩, rfl⟩
    obtain ⟨t, hreq⟩ : ∃ t, request (.pageOpen g.val src q.val lev) s = t := ⟨_, rfl⟩
    have hnext : exec (.pageOpen g.val src q.val lev) s = .next t :=
      (exec_command (r := .pageOpen g.val src q.val lev) ht.1).trans (congrArg _ hreq)
    refine ⟨t, hnext, fun h => absurd h hgroup, nofun,
      fun _ _ h => absurd h hprio, fun g' q' source' hg hq hsource => ?_⟩
    obtain rfl : g' = g := Fin.ext hg
    obtain rfl : q' = q := Fin.ext hq
    obtain rfl := Option.some_inj.mp hsource
    clear hg hq hsource
    intro members entered captured declines skips takes wins carries opened
    refine ⟨fun hnone => hreq ▸ answered_same ht (ownerOf_pageOpen_busy (s := markHanded s) hs hnone), fun hsome hall => ?_,
      fun p won gone hp hne heach hwon hgone => ?_⟩
    · obtain ⟨p, hp⟩ := Option.ne_none_iff_exists'.mp hsome
      exact hreq ▸ answered_same ht (ownerOf_pageOpen_none (s := markHanded s) hs hp hall)
    intro loses hcalls left allLive plays missed
    have hS : Sets s q' members won gone := sets_of heach hwon hgone
    have ho : Offer s p q' members := ⟨membersOf_sorted s g', free_of_freePage hp, heach⟩
    have hopen : Opening s p q' members source := ⟨ht.2.1.1, ho, fun o pg c hpg hl hc =>
      hcalls o pg c ⟨hpg, mt hS.gone_eq_zero.mp hl⟩ hc⟩
    obtain ⟨hKwon, hKpre, hKclosed⟩ := run_claim ht.2.1.1 ho
    have hKwon : (run s p q' members).2.won = won := hKwon.trans hS.won.symm
    obtain ⟨t', b, m, hexec, hfin, hover⟩ := pageOpen_done ht hs hp (by rw [hKwon]; exact hne) hopen
    obtain rfl := Host.Outcome.next.inj (hexec.symm.trans hnext)
    clear hexec hnext hreq
    obtain ⟨hzones, hpage, hlc, hslate, _⟩ := done_parts (s := s) (p := p) (q := q') (l := members) (source := source)
      (level := levelOfField lev)
    obtain ⟨hcells, hpageCell, hcallCell, hbefore, b', hqueue⟩ := done_cells (s := s) (p := p) (q := q') (l := members)
      (source := source) (level := levelOfField lev)
    have hzone := (offered_run ht.2.1.1 ho).zones
    have hplays (o : PageId) (pg : Page) (i : CallInst) (hl : loses o pg) : plays o pg i ↔ Plays s q' members o pg i :=
      and_congr_right fun _ => and_congr_right fun _ => (hS.liveLeft hl.1).symm
    have hmissed (c : CallId) (i : CallInst) : missed c i ↔ Missing s q' members c i := by
      constructor
      · rintro ⟨o, pg, hl, h0, hc, hi, hw, hno⟩
        exact ⟨o, pg, hl.1, (hS.goneBy hl.1).mpr ⟨hl.2, h0⟩, hc, hi, hw, mt (hplays o pg i hl).mpr hno⟩
      · rintro ⟨o, pg, hp', hg, hc, hi, hw, hno⟩
        obtain ⟨h1, h0⟩ := (hS.goneBy hp').mp hg
        exact ⟨o, pg, ⟨hp', h1⟩, h0, hc, hi, hw, mt (hplays o pg i ⟨hp', h1⟩).mp hno⟩
    have hlost {o : PageId} (hg : lostTo s q' members o ≠ []) : gone[o] ≠ 0#24 := mt hS.gone_eq_zero.mp hg
    subst hfin
    dsimp only
    refine ⟨fun z hz => ?_, fun z hz => ?_, fun o hop hg => hopen.pages_kept hS hop hg,
      fun o pg hl h0 => (hopen.pages_done hS hl.1 hl.2).1 h0,
      fun o pg hl h0 hd => (hopen.pages_done hS hl.1 hl.2).2 h0 hd _ Iff.rfl, (hopen.lastClosed_done hS).1,
      (hopen.lastClosed_done hS).2, fun c hno => hopen.call_other fun o pg hp' hg hc => hno o pg ⟨hp', hlost hg⟩ hc,
      fun v hno => hopen.voice_other fun o pg c hp' hg hc => hno o pg c ⟨hp', hlost hg⟩ hc,
      fun o pg c i hl hc hi => ?_, fun k hk => ?_, fun hno => ?_, fun c i hm hd => ?_, ?_⟩
    · refine (congrArg (·[z]) hzones).trans ((hzone z).trans (if_neg fun hm => ?_))
      exact Bool.noConfusion (hz.symm.trans (hS.mem_won.mpr hm))
    · have hcarried : (openDone s p source q' (levelOfField lev) members).zones[z]
          = carried s (some p) (some q') s.zones[z] :=
        (congrArg (·[z]) hzones).trans ((hzone z).trans (if_pos (hS.mem_won.mp hz)))
      have hrunning : s.engine ≠ .stopped := ht.2.2.2.resolve_right nofun
      have hall := carried_zone (p := p) (q := q') hrunning s.zones[z]
      rw [← hcarried] at hall
      exact hall
    · obtain ⟨hgone', hleft'⟩ := hopen.calls_done (level := levelOfField lev) hS hl.1 hl.2 hc hi (hplays o pg i hl)
      exact ⟨fun h0 => ⟨(hgone' h0).1, (hgone' h0).2 _ Iff.rfl⟩, hleft'⟩
    · exact hcells k (fun he => hk (by simp [he])) fun he => hk (by simp [he])
    · obtain ⟨h1, h2⟩ := hopen.none_missed (level := levelOfField lev) fun c i => mt (hmissed c i).mpr (hno c i)
      refine ⟨h1, fun k hk => ?_⟩
      dsimp only
      rw [h2]
      exact hbefore k fun he => hk (by simp [he])
    · obtain ⟨h1, h2, h3⟩ := hopen.one_missed (level := levelOfField lev) ((hmissed c i).mp hm)
        fun d k hk => hd d k ((hmissed d k).mpr hk)
      obtain ⟨hc1, hc2⟩ := capturing_congr (ds := callWords c false (some .pageClosed) i .none) (tod := s.tod)
        (Q := (pageAnswered s p source q' (levelOfField lev) members).wq) hcallCell
      have hroom : Roomy s.wq (pageAnswered s p source q' (levelOfField lev) members).wq 4 := answered_roomy
      refine ⟨h1, captured_of (l := b) hroom ?_ ?_⟩
      · dsimp only
        rw [h2]
        exact hc1
      · dsimp only
        rw [h3, hc2]
    · obtain ⟨hA, hB⟩ := hS.counts rfl ho
      have hpre := hA.trans hKpre.symm
      have hclosed : ((List.finRange 4).filter fun o : PageId => gone[o] ≠ 0#24 && left o == 0#24).length
          = (run s p q' members).2.closed := hB.trans hKclosed.symm
      have hdetails := pageDetails_eq (s := s) (p := p) (source := source) (q := q') (level := levelOfField lev)
        (l := members)
      rw [hKwon] at hdetails
      rw [hpre, hclosed]
      refine ⟨(pageOf s p source q' (levelOfField lev) members).state, ?_, ?_, ⟨?_, fun he hl hc => ?_⟩, ?_,
        fun base hb => hover base hb⟩
      · rw [pageOf_live, hKwon, ← hzones]
      · refine hpage.trans ?_
        unfold pageOf Ends.opened
        rw [hKwon]
      · refine Eq.mp (congrArg (fun ds => State.Captured s pageCell ds 0 _) hdetails)
          (captured_of (l := b' ++ b) (roomy_refl s.wq) hpageCell ?_)
        exact (congrArg (· ++ b) hqueue).trans (List.append_assoc ..)
      · dsimp only
        rw [hqueue, capturing_room he hl hc, hdetails]
        exact take_joined ..
      · dsimp only
        rw [hslate, ← hKwon]
        rfl

end Sys2Proof.Proofs.Ends
end
